-- ==== Sys2Proof/Word.lean ====
section
/-! DEFINITION. The word types of the PD-7420 and their plainest names (R9, R10): register words, bytes, and the
64-bit words of cabinet memory. -/

namespace Sys2Proof

/-- A byte; bit 0 is the least significant (R10). -/
abbrev Byte := BitVec 8

/-- A 32-bit register word (R11). -/
abbrev Word32 := BitVec 32

/-- A 64-bit word: cabinet memory (R124), landing buffer, gather registers, counters. -/
abbrev Word64 := BitVec 64

/-- A global ring number, 0 to 511 (ring table of 10_host_port.md). -/
abbrev RingNo := Nat

/-- The TAG a host gives a command (descriptor bytes 0-7, bits [63:32]). -/
abbrev Tag := BitVec 32

/-- A SHA-384 digest as a number. -/
abbrev Digest := BitVec 384

end Sys2Proof
end

