-- ==== Sys2Proof/Types.lean ====
section
/-! DEFINITION. The small types that commands and state share: channels, modes, power states, status codes, and the
records a command carries (what the world shows the module). -/

namespace Sys2Proof

/-- One of the two channels, its hub included (R17, R23): A is channel A with HUB-A, B is channel B with HUB-B. -/
inductive Ch where
  | a | b
  deriving DecidableEq, Repr

/-- The operating modes (R6), coded as SET_MODE codes them (LAYOUT codes of R95 and 0x07). -/
inductive Mode where
  | split | joined | twinned | mirrored | debugSplit | debugJoined | service
  deriving DecidableEq, Repr

/-- Channel power states in the order of the table of R400. -/
inductive PState where
  | off | aux | standby | ready | run
  deriving DecidableEq, Repr

/-- Completion status codes (R237). -/
inductive Status where
  | ok | aborted | nothingToAbort | refusedState | authFail | integrityAlarm | memoryError | contractMismatch
  | regionViolation | powerClass | timeout | resource | fenced | hazard | tamper
  deriving DecidableEq, Repr

/-- Lifecycle states (R268), coded as SEC_STATUS.LIFECYCLE. -/
inductive Lifecycle where
  | blank | vendor | field | returned | scrapped
  deriving DecidableEq, Repr

/-- Who a secure session belongs to (R273). -/
inductive Sess where
  | operator | tenant (slot : Nat) | unbound
  deriving DecidableEq, Repr

/-- What an error-correcting read found (R126, R143): good, corrected, or beyond correction; and what its other reads found: a counter node of a
level 1 to 3 that failed twice, or for level 4 a root in the Hutch (R283), or a word of the scratchpad beyond correction (R141). -/
inductive Ecc where
  | ok | corrected | uncorrectable
  | node (level : Nat)
  | scratch
  deriving DecidableEq, Repr

/-- The counter node that a read found lost, where there is one (R283). -/
def lostNode : Option Nat → Ecc
  | some l => .node l
  | none => .ok

/-- What the reads of tiles from an image copy give (R57, R283): every tile good, one whose CRC-32C fails, or one that the HBM cannot correct, by its
logical Bench, cell and tile index; `level` 0 for the line itself, 1 to 3 for a counter node of it. -/
inductive ImageRead where
  | good
  | badTile
  | lost (bench cell tile level : Nat)
  deriving DecidableEq, Repr

/-- The end of the load that holds a partition (R122): the partition, and what its reads of the staged image met. -/
structure LoadEnd where
  part : Nat
  staged : Ecc
  deriving DecidableEq, Repr

/-- What the drain of a write-buffer entry met in the HBM (R149, R283): the line, and the failures of a MAC that its merge or an overflow of its node
verifies. -/
structure DrainRead where
  ecc : Ecc
  macFails : Nat
  deriving DecidableEq, Repr

/-- What the undo logs of an aborted frame gave (R126, R132): the Cabinet of each entry corrected, and the Cabinet, bank and word of one that
could not be read. -/
structure UndoRead where
  fixed : List Nat
  bad : Option (Nat × Nat × Nat)
  deriving DecidableEq, Repr

/-- A preloaded rotating spare (R335): its array die, and what the reads of the chosen Cabinet's tiles gave. -/
structure Preload where
  die : Nat
  image : ImageRead
  deriving DecidableEq, Repr

/-- What the read of a block of the capture ring met (R154, R284, R359): its lines, and the verdict on their MACs. -/
structure BlockRead where
  ecc : Ecc
  macOk : Bool
  deriving DecidableEq, Repr

/-- A flit at the end of a fabric link (R171): its bits, and whether a byte parity fails for it inside the router. -/
structure FlitIn where
  bits : BitVec 256
  parity : Bool
  deriving DecidableEq, Repr

/-- A lane, and the invalid headers on it that no other command has shown (R188). -/
structure LaneHeaders where
  lane : Nat
  invalid : Nat
  deriving DecidableEq, Repr

/-- A FILL column of a port, and whether an AM is due in its column (R192). -/
structure FillColumn where
  port : Nat
  amDue : Bool
  deriving DecidableEq, Repr

/-- The blocks of one flit slot of a port's column (R190): slots 0 and 1, and from 2 on the spare lanes 64 to 67. -/
structure SlotBlocks where
  slot : Nat
  blocks : List (BitVec 66)
  deriving DecidableEq, Repr

/-- The sender of a message: the channel on which it arrives, and the module (R213). -/
structure Sender where
  ch : Ch
  mod : Nat
  deriving DecidableEq, Repr

/-- Sources of an error detected within a frame (R90), in the order of FRAME_ABORTED. -/
inductive ErrSrc where
  | benchParity | cmemWord | hbmWord | mac | twin | region | fabric
  deriving DecidableEq, Repr

/-- A 64-byte descriptor as it stands in a ring in host memory (10_host_port.md, Descriptors). `hi` is bits [31:20] of
bytes 0-7; `params` is bytes 8-47, byte k of the descriptor at bits [8(k-8)+7 : 8(k-8)]. -/
structure Desc where
  opcode : Byte
  flags : Byte
  partition : BitVec 4
  hi : BitVec 12
  tag : Tag
  params : BitVec 320
  auth : BitVec 128
  deriving DecidableEq, Repr

/-- What a Cabinet meets while it executes one step (R51, R54-R56): a bench whose bus parity fails; the tiles whose
check on prefetch failed, each with whether the re-read passed; cells that compute a wrong result (R51: no check of its
own finds them). -/
structure TileObs where
  bench : Nat
  cell : Nat
  tile : Nat
  transient : Bool
  deriving DecidableEq, Repr

/-- The observations of one step of one Cabinet. -/
structure StepObs where
  parityBench : Option Nat
  tiles : List TileObs
  wrong : List (Nat × Nat)
  deriving DecidableEq, Repr

/-- A link record of a VALUE message (R214). -/
structure LinkRec where
  slot : Nat
  active : Bool
  values : BitVec 16
  deriving DecidableEq, Repr

/-- A MEM message (R214 table); `op` 0 READ, 1 WRITE, 8 READ_RESP, 9 WRITE_ACK. -/
structure MemMsg where
  src : Nat
  op : Nat
  slot : Nat
  region : Nat
  offset : Nat
  tag : Nat
  size : Nat
  status : Nat
  data : List Byte
  deriving DecidableEq, Repr

/-- A MSG message: message-port traffic of a proxied module (R214 table). -/
structure PortMsg where
  src : Nat
  port : Nat
  toHost : Bool
  fence : Bool
  data : List Byte
  deriving DecidableEq, Repr

/-- A TIME message (R214, R215). TIMESTAMP is seconds and ns; CORRECTION is signed ns times 2^16. -/
structure TimeMsg where
  src : Nat
  domain : Nat
  seq : BitVec 16
  correction : Int
  seconds : Nat
  ns : Nat
  deriving DecidableEq, Repr

/-- The dataset an Announce carries (R214 table, R388). -/
structure Dataset where
  priority1 : Nat
  clockClass : Nat
  clockAccuracy : Nat
  variance : Nat
  priority2 : Nat
  grandmaster : BitVec 64
  stepsRemoved : Nat
  deriving DecidableEq, Repr

/-- A link authentication message (R285): OFFER, ACCEPT and FINISH carry what their rows of the table say. `serial`,
`fieldState` and `latched` are what the certificate chain and measurement block 5 state; `chain` and `sig` are bytes
whose verification is Config's. -/
structure AuthMsg where
  chain : List Byte
  serial : BitVec 64
  fieldState : Bool
  latched : Bool
  eph : List Byte
  nonce : BitVec 256
  sig : List Byte
  deriving DecidableEq, Repr

/-- A debug token (R270): the serial it names, the trace features it opens, its not-after time, and its signature. -/
structure Token where
  serial : BitVec 64
  features : BitVec 8
  notAfter : BitVec 64
  sig : List Byte
  deriving DecidableEq, Repr

/-- The algorithm choices offered in NEGOTIATE_ALGORITHMS (R272): true where the offer holds the one choice the
module takes. -/
structure AlgOffer where
  ecdsaP384 : Bool
  sha384 : Bool
  ecdhe384 : Bool
  aes256gcm : Bool
  deriving DecidableEq, Repr

/-- Outcome of the test of a freed Cabinet (R337): cells and Benches found failed, whether a bank, port, buffer or lane
failed, and the measured drift (R346) in 0.01 % units. -/
structure CabTest where
  cells : List (Nat × Nat)
  benches : List Nat
  partFailed : Bool
  drift : BitVec 16
  deriving DecidableEq, Repr

/-- One tile that a patrol pass found bad (R341): physical Cabinet, Bench, cell, tile; whether the re-read, and then the
reload, passed; and what the image copy gave for the reload of a design's tile (R57). -/
structure PatrolObs where
  cab : Nat
  bench : Nat
  cell : Nat
  tile : Nat
  rereadOk : Bool
  reloadOk : Bool
  image : ImageRead := .good
  deriving DecidableEq, Repr

end Sys2Proof
end

