-- ==== Sys2Proof/Syntax.lean ====
section
/-! DEFINITION. The commands of the block: one constructor per row of spec/opcode_table.json, in the table's order.
A command of a ring names the accepted descriptor it carries out by ring and TAG; bytes that the module reads from host
memory for it are operands. A register command carries the value written. An event carries what the world shows the
module. -/

namespace Sys2Proof

/-- The commands (rows of spec/opcode_table.json). -/
inductive Instr where
  -- operator command ring (R236; R273, R280, R384, R386, R389)
  | nop (r : RingNo) (t : Tag)
  | setMode (r : RingNo) (t : Tag)
  | setPower (r : RingNo) (t : Tag)
  | assign (r : RingNo) (t : Tag)
  | reclaim (r : RingNo) (t : Tag)
  | operatorStop (r : RingNo) (t : Tag)
  | operatorUnload (r : RingNo) (t : Tag)
  | setTopology (r : RingNo) (t : Tag) (table : List Byte)
  | setFunction (r : RingNo) (t : Tag)
  | operatorAbort (r : RingNo) (t : Tag)
  | openSlot (r : RingNo) (t : Tag)
  | closeSlot (r : RingNo) (t : Tag)
  | assignRange (r : RingNo) (t : Tag)
  | releaseRange (r : RingNo) (t : Tag)
  | operatorLaunch (r : RingNo) (t : Tag)
  | permitStep (r : RingNo) (t : Tag)
  | viewWrite (r : RingNo) (t : Tag)
  -- tenant command rings
  | load (r : RingNo) (t : Tag) (image : List Byte)
  | loadComplete (load : LoadEnd)
  | run (r : RingNo) (t : Tag)
  | tenantStop (r : RingNo) (t : Tag)
  | step (r : RingNo) (t : Tag)
  | tenantUnload (r : RingNo) (t : Tag)
  | stats (r : RingNo) (t : Tag)
  | marchOk (r : RingNo) (t : Tag)
  | tenantAbort (r : RingNo) (t : Tag)
  | setRangeMode (r : RingNo) (t : Tag)
  | msgIn (r : RingNo) (t : Tag) (cipher : List Byte)
  | copyIn (r : RingNo) (t : Tag)
  | copyOut (r : RingNo) (t : Tag)
  | copy (r : RingNo) (t : Tag)
  | fill (r : RingNo) (t : Tag)
  | gather (r : RingNo) (t : Tag)
  | scatter (r : RingNo) (t : Tag)
  | checksum (r : RingNo) (t : Tag)
  | captureStart (r : RingNo) (t : Tag)
  | captureStop (r : RingNo) (t : Tag)
  | trigSet (r : RingNo) (t : Tag) (sealedBuf : List Byte)
  | trigClear (r : RingNo) (t : Tag)
  | probeSet (r : RingNo) (t : Tag) (sealedBuf : List Byte)
  | traceSet (r : RingNo) (t : Tag) (sealedBuf : List Byte)
  | traceStop (r : RingNo) (t : Tag)
  | tenantLaunch (r : RingNo) (t : Tag)
  -- SPDM and vendor-defined requests (R271-R274)
  | getVersion
  | getCapabilities
  | negotiateAlgorithms (offer : AlgOffer)
  | getDigests
  | getCertificate (slot offset length : Nat)
  | challenge (slot : Nat) (nonce : BitVec 256)
  | getMeasurements (sess : Option Sess) (index : Nat) (nonce : BitVec 256)
  | keyExchange (eph : List Byte) (nonce : BitVec 256)
  | finish (leafKey : List Byte) (sig : List Byte)
  | spdmHeartbeat (sess : Sess)
  | keyUpdate (sess : Sess)
  | claim (sess : Sess) (transfer : Option (List Byte))
  | keySet (sess : Sess) (kind index : Nat) (material : List Byte)
  | keyDrop (sess : Sess) (kind index : Nat)
  | keyList (sess : Sess)
  | debugToken (sess : Sess) (token : Token)
  | lifecycle (sess : Option Sess) (target : Lifecycle) (serial : BitVec 64) (auth : List Byte) (byOperator : Bool)
  | debugTokenExpiry
  -- register accesses (R13, R228-R230) and the registers whose writes act
  | registerWrite (offset : Nat) (value : Word64) (wide : Bool)
  | lowWordRead (offset : Nat)
  | badAccess (offset bytes : Nat) (write : Bool)
  | busTimeout (offset : Nat) (write : Bool)
  | modArrayBudgetWrite (value : Word32)
  | marchStart (c : Ch) (die cab : Nat) (value : Word32)
  | marchDone (c : Ch) (die cab : Nat) (fail : Option (Nat × Nat))
  | hbmSpareStart (c : Ch) (value : Word32)
  | pcSparingDone (c : Ch) (unreadable : List Nat)
  | guestRailsWrite (c : Ch) (value : Word32)
  | guestRailFault (c : Ch) (current : Bool)
  | portEnable (c : Ch) (p : Nat) (value : Word32)
  | portDisable (c : Ch) (p : Nat) (value : Word32)
  | portRateChange (c : Ch) (p : Nat) (value : Word32)
  | spareAssignWrite (c : Ch) (value : Word32)
  | eyeScanStart (c : Ch) (value : Word32)
  | eyeScanDone (c : Ch) (h : BitVec 7) (v : Byte)
  | ringEnable (r : RingNo) (value : Word32)
  | ringDisable (r : RingNo) (value : Word32)
  | doorbell (page offset : Nat) (value : Word64) (wide : Bool) (entries : List Desc)
  | interruptTimer (r : RingNo)
  | hdmRead (c : Ch) (addr : Nat) (ecc : Ecc) (macOk : Bool)
  | hdmWrite (c : Ch) (addr : Nat) (value : Word64)
  | baseDeadlineWrite (value : Word32)
  | baseGo (value : Word32)
  | chainStart (value : Word32)
  | baseVerifyDone (image : List Byte) (readOk : Bool)
  | deadlineExpired
  | configRequest
  | configWaitTimeout
  | modTwinRejoin (value : Word32)
  | modPairReplace (value : Word32)
  | recoveryContinue (c : Ch)
  | recoveryFence (c : Ch)
  | recoveryStop (c : Ch)
  | sliceNow (c : Ch) (value : Word32)
  | patrolRestart (c : Ch) (value : Word32)
  | timSnap (c : Ch) (value : Word32)
  | viewEnable (c : Ch) (v : Nat) (value : Word32)
  | deliveryChange (c : Ch) (value : Word32)
  | deliveryModeApplied (c : Ch)
  | acqConsumedWrite (c : Ch) (value : Word32)
  | trcConsumedWrite (c : Ch) (value : Word32)
  | modProbeGroupWrite (value : Word32)
  | modProbeTraceWrite (value : Word32)
  -- supply, resets, tamper, power (R226, R288-R290, R398-R410)
  | auxPresent (meshFault : Bool)
  | auxLost
  | powerEnable (fwA fwB : Bool)
  | inputLost (pwrEnLow : Bool)
  | perstAssert
  | perstRelease
  | hostReset (cxl : Bool)
  | linkDown
  | tamper (cause : BitVec 5)
  | emergencyOff (cause : BitVec 4) (site : Byte)
  | channelEmergencyOff (c : Ch) (cause : BitVec 4) (site : Byte)
  | emergencyOffRestart
  | phaseFailure (group phase : Nat) (limit : BitVec 3)
  | powerStateReached (c : Ch) (fwMatches mapValid : Bool)
  | tempWarn (die : Nat) (degC : BitVec 8)
  | sysclkLost (c : Ch)
  | sysclkReturn (c : Ch)
  | oscCheck (site : Nat) (differs : Option Bool)
  | trigEdge (c : Ch) (line : Nat) (highNs : Nat)
  | hbmHot (c : Ch) (degC : Int)
  | refresh (c : Ch)
  -- the array (R66-R93, R124-R134, R142-R157)
  | stepBegin (cab : Nat) (obs : StepObs)
  | clearanceGrant (p : Nat)
  | holdLong (p : Nat)
  | valuePacketArrival (p k : Nat)
  | memoryReturn (p k : Nat) (ecc : Ecc)
  | hbmReadReturn (c : Ch) (k : Nat) (ecc : Ecc) (lostNode : Option Nat)
  | macVerdict (c : Ch) (k : Nat) (pass : Bool)
  | wbufDrain (c : Ch) (met : DrainRead)
  | frameCommit (p : Nat)
  | frameAborted (p : Nat) (undo : UndoRead)
  | tileReloaded (cab bench cell : Nat) (image : ImageRead) (tileOk : Bool)
  | cellSwapped (cab bench cell : Nat) (image : ImageRead)
  | benchSwapped (cab bench : Nat) (image : ImageRead)
  | cabinetRepaired (cab : Nat) (image : ImageRead)
  -- Velvin Fabric and the guest port
  | flitReceive (c : Ch) (link : Nat) (flit : FlitIn) (side : BitVec 16)
  | laneCheckDone (c : Ch) (link : Nat) (failed side : List Nat)
  | guestPulses (c : Ch)
  | goutReceive (c : Ch) (payload : BitVec 224)
  | guestResetOutputs (c : Ch) (payload : BitVec 224)
  | guestLate (c : Ch)
  -- Velvin Link lanes
  | laneCdrLock (c : Ch) (lane : Nat)
  | laneBlockLock (c : Ch) (lane : LaneHeaders)
  | laneLockLost (c : Ch) (lane : LaneHeaders) (cdr : Bool)
  | laneNoSignal (c : Ch) (lane : Nat)
  | amReceive (c : Ch) (p : Nat) (ams : List (Nat × BitVec 56))
  | amSend (c : Ch) (p : Nat)
  | fillSend (c : Ch) (column : FillColumn)
  | spareSwitch (c : Ch) (p : Nat) (agree : Bool)
  | laneRotation (c : Ch) (p : Nat)
  | rotationTestDone (c : Ch) (p mismatches h mv : Nat)
  -- Velvin Link traffic
  | linkFlitReceive (c : Ch) (p : Nat) (arrived : SlotBlocks)
  | linkctlReceive (c : Ch) (p : Nat) (arrived : SlotBlocks)
  | ackTimer (c : Ch) (p : Nat)
  | nakRepeat (c : Ch) (p : Nat)
  | groupClose (c : Ch) (p : Nat)
  | valueMessageReceive (c : Ch) (p src : Nat) (frame : BitVec 48) (recs : List LinkRec)
  | memMessageReceive (c : Ch) (p : Nat) (m : MemMsg)
  | msgMessageReceive (c : Ch) (p : Nat) (m : PortMsg)
  | messageForward (c : Ch) (p dst src type ttl flits : Nat)
  | hello (c : Ch) (p remotePort : Nat) (remoteCh : Ch) (remoteModule : Nat) (hash : BitVec 192)
  | runStart (c : Ch) (src : Nat) (frame : BitVec 48) (launch : Nat)
  | stopAt (c : Ch) (src : Nat) (frame : BitVec 48)
  | slotHome (c : Ch) (src : Nat) (map : BitVec 512)
  | slotHomeTimer (c : Ch)
  | pairPrimary (src : Sender) (member : Nat)
  | memTimeout (c : Ch) (tag : Nat)
  | offer (c : Ch) (p : Nat) (m : AuthMsg)
  | accept (c : Ch) (p : Nat) (m : AuthMsg)
  | authFinish (c : Ch) (p : Nat) (m : AuthMsg)
  | update (c : Ch) (p epoch : Nat)
  | updateAck (c : Ch) (p epoch : Nat)
  | reject (c : Ch) (p reason : Nat)
  | linkAuthTimeout (c : Ch) (p : Nat)
  | linkAuthRetry (c : Ch) (p : Nat)
  | epochRollover (c : Ch) (p : Nat)
  | chainData (offset : Nat) (data : List Byte)
  | chainEnd (length : Nat)
  | chainStatus (index status : Nat)
  -- time
  | sync (c : Ch) (p : Nat) (m : TimeMsg)
  | pdelayReq (c : Ch) (p : Nat) (m : TimeMsg)
  | pdelayResp (c : Ch) (p : Nat) (m : TimeMsg) (turnaround : Int)
  | announce (c : Ch) (p : Nat) (m : TimeMsg) (ds : Dataset)
  | pdelayTimer (c : Ch) (v : Nat)
  | syncTimeout (c : Ch) (v : Nat)
  | masterTimeout (c : Ch) (v : Nat)
  | announceSend (c : Ch) (v : Nat)
  | syncSend (c : Ch) (v : Nat)
  | viewExchange (c : Ch) (v : Nat)
  | launchFire (c : Ch) (e : Nat)
  | trigMessage (c : Ch) (src unit : Nat) (frame : BitVec 48) (eventTime : BitVec 64)
  -- modes, twins and recovery
  | twinVerdict (p : Nat)
  | quickSliceTestDone (p : Nat) (fails : List (Nat × Bool × Bool))
  | twinStateCopyDone (p : Nat)
  | rejoinPrecopyPass (residue : Nat)
  | refereeLost
  | sequencerLost (c : Ch)
  | controllerHeartbeat (who : Nat)
  | twinHeartbeatSend (c : Ch) (p : Nat)
  | twinHeartbeat (c : Ch) (p : Nat)
  | twinSignature (c : Ch) (frame : BitVec 48) (first : Nat) (sigs : List Word64)
  | twinInput (c : Ch) (frame : BitVec 48) (port kind : Nat) (writes : List (Nat × Word64))
  | confirm (c : Ch) (frame : BitVec 48) (mask : BitVec 128)
  | twinFault (c : Ch)
  | twinState (c : Ch) (frame : BitVec 48) (offset : Nat) (data : List Byte)
  | partnerLost
  | joinPrecopyPass (residue : Nat)
  | configParityFail (c : Ch) (die cab : Nat)
  -- self-test and wear
  | sliceStart (c : Ch) (die : Nat)
  | slicePreloadDone (c : Ch) (spare : Preload)
  | sliceSwap (c : Ch) (die : Nat) (holdNs : Nat)
  | cabinetTestDone (c : Ch) (die : Nat) (obs : CabTest)
  | wireRotation (c : Ch) (link : Nat)
  | wireTestDone (c : Ch) (link : Nat) (passed : Bool)
  | patrolPass (c : Ch) (die : Nat) (bad : List PatrolObs) (disagreements : Nat)
  -- message engines, ports, ranges, stores
  | engineDispatch (c : Ch)
  | unitComplete (c : Ch) (e : Nat) (buf1 buf2 : List Byte) (ecc : Ecc) (macOk : Bool)
  | engineReplaced (c : Ch) (e : Nat) (failed : Bool)
  | spareEngineCheck (c : Ch) (e : Nat) (passed : Bool)
  | intakeDelivery (p : Nat)
  | outletWriteOut (c : Ch) (port : Nat)
  | rangeClearDone (c : Ch) (r : Nat)
  | storeBlockRetired (store block : Nat)
  -- capture and trace
  | captureBlockClose (c : Ch) (design : Nat)
  | captureDelivery (c : Ch) (read : BlockRead)
  | traceOverflow (c : Ch) (packets : Nat)
  | traceBlockDelivery (c : Ch)
  -- CXL link
  | linkUp (width speed : BitVec 2)
  | ideKm (stream : Nat) (start : Bool)
  deriving DecidableEq, Repr

end Sys2Proof
end

