-- ==== Sys2Proof/Config.lean ====
section
/-! DEFINITION. What the spec leaves to the part or takes from another standard, as constants without a body: free values
(log entry 4) and the cryptographic functions of the standards that the manual names (log entry 8). Nothing can be proved of a
value of any of them, so a statement about the model holds whatever they are. -/

namespace Sys2Proof.Config

/-- The free value of number `n`: what the spec leaves undefined or calls random (log entry 4). -/
opaque freeValue : Nat → BitVec 64

/-- AES-256-CMAC of NIST SP 800-38B under a key (R276). -/
opaque cmac (key data : List Byte) : BitVec 128

/-- Byte `i` of the AES-256-GCM key stream under a key and an IV (R277). -/
opaque gcmStream (key iv : List Byte) (i : Nat) : Byte

/-- The AES-256-GCM tag over additional data and ciphertext (R108, R277). -/
opaque gcmTag (key iv aad cipher : List Byte) : BitVec 128

/-- SHA-384 (R113, R273). -/
opaque sha384 (data : List Byte) : Digest

/-- HKDF-SHA-384 of RFC 5869: secret, salt and info (R275, R278, R285, R355). -/
opaque hkdf (secret salt info : List Byte) : List Byte

/-- ECDSA P-384 verification of a signature over a digest (R114, R293, R274). -/
opaque ecdsaVerify (pub : List Byte) (digest : Digest) (sig : List Byte) : Bool

/-- ECDSA P-384 signature under a private key named by a digest (R271). -/
opaque ecdsaSign (key digest : Digest) : List Byte

/-- ECDHE on secp384r1 of the module's ephemeral key with the requester's (R272, R285). -/
opaque ecdh (peer : List Byte) (own : BitVec 64) : List Byte

/-- The public key of an ephemeral secp384r1 key (R272, R285). -/
opaque ephemeral (own : BitVec 64) : List Byte

/-- Whether a certificate chain reaches the Lumwell root (R285). -/
opaque chainOk (chain : List Byte) : Bool

/-- Whether a signature verifies under a Lumwell key: authorisations, tokens, releases (R268, R270). -/
opaque lumwellVerify (data sig : List Byte) : Bool

/-- The public key of base-image signer `k`, held in ROM (R293). -/
opaque signer (k : Nat) : List Byte

/-- The certificate chain of the module for an alias digest: its identity certificate carries the serial number (R30, R271). -/
opaque certChain (own : Digest) (serial : BitVec 64) : List Byte

/-- The layout in which STATS gives the counters that it reads (R180): the manual states none. -/
opaque statsLayout (counters : List Nat) : List Byte

/-- The layout of the detail of a sealed event of a code (R239): the event tables name its fields and state no offsets. -/
opaque eventDetail (code : Nat) (args : List Nat) : List Byte

/-- Detail bytes and tag of a sealed event whose owner has no session key, by its number (R239): the manual does not say (log entry 39). -/
opaque noKeyDetail (seq : BitVec 64) : List Byte
opaque noKeyTag (seq : BitVec 64) : BitVec 128

/-- Latency and bandwidth of a capture window that CDAT reports (R225): the manual states no value. -/
opaque cdatFigures (window : Nat) : List Byte

/-- PCI vendor identifier and revision of the part: the manual states none (R224). -/
opaque vendorId : BitVec 16
opaque revisionId : Byte

/-- At a proxy, the port of another module's design that a message ring serves: the module and the port (R246). No message carries the ring (log
entry 19). -/
opaque proxyPort (ring : Nat) : Fin 64 × Fin 256

/-- At a proxy, the message ring that an outlet of another module's design goes to (R246; log entry 19). -/
opaque proxyRing (module port : Nat) : Nat

/-- The measurement that host-die ROM and firmware give at boot (R271, R290). -/
opaque measure (index : Nat) : Digest

end Sys2Proof.Config
end

