-- ==== Sys2Proof/Machine/KV.lean ====
section
/-! DEFINITION. Sparse tables: a table keyed by a number is a list of (key, value) pairs in one canonical form: keys strictly
rising, and no pair whose value is what an unlisted key reads as. Equal tables are then equal data. -/

namespace Sys2Proof

/-- A sparse table. -/
abbrev KV (α : Type) := List (Nat × α)

namespace KV

variable {α : Type}

/-- The value listed at key `k`, or `d`, what an unlisted key reads as. -/
def get (d : α) (k : Nat) : KV α → α
  | [] => d
  | e :: m => if e.1 = k then e.2 else get d k m

/-- Remove key `k`. -/
def del (k : Nat) (m : KV α) : KV α := m.filter (fun e => e.1 ≠ k)

/-- Insert a pair at its place in the rising order. -/
def ins (k : Nat) (v : α) : KV α → KV α
  | [] => [(k, v)]
  | e :: m => if k < e.1 then (k, v) :: e :: m else e :: ins k v m

/-- Write `v` at key `k`; a value equal to `d` removes the entry. -/
def put [DecidableEq α] (d : α) (k : Nat) (v : α) (m : KV α) : KV α :=
  if v = d then del k m else ins k v (del k m)

/-- Apply `f` to the value at key `k`. -/
def upd [DecidableEq α] (d : α) (k : Nat) (f : α → α) (m : KV α) : KV α :=
  put d k (f (get d k m)) m

/-- Remove every key from `lo` up to, not including, `hi`. -/
def clear (lo hi : Nat) (m : KV α) : KV α := m.filter (fun e => !(decide (lo ≤ e.1) && decide (e.1 < hi)))

/-- The canonical form: keys strictly rising, no entry equal to `d`. -/
abbrev wf [DecidableEq α] (d : α) (m : KV α) : Prop :=
  m.Pairwise (fun a b => a.1 < b.1) ∧ ∀ e ∈ m, e.2 ≠ d

end KV

/-- What a byte of HBM that nothing has written reads as: 0 (R280, R160: the module writes zero to a range before any owner
reads it). DEDUCED, log entry 7. -/
abbrev unlistedByte : Byte := 0

/-- Bytes of a memory: a sparse table of bytes. -/
abbrev Memory := KV Byte

/-- The canonical form of a memory. -/
abbrev Memory.wf (m : Memory) : Prop := KV.wf unlistedByte m

/-- Read one byte. -/
def Memory.read (m : Memory) (a : Nat) : Byte := KV.get unlistedByte a m

/-- Write one byte. -/
def Memory.write (m : Memory) (a : Nat) (b : Byte) : Memory := KV.put unlistedByte a b m

/-- Write bytes at rising addresses from `a`. -/
def Memory.writeBytes (m : Memory) (a : Nat) : List Byte → Memory
  | [] => m
  | b :: bs => Memory.writeBytes (Memory.write m a b) (a + 1) bs

/-- Read `n` bytes at rising addresses from `a`. -/
def Memory.readBytes (m : Memory) (a n : Nat) : List Byte := (List.range n).map (fun i => Memory.read m (a + i))

/-- Write zero to the bytes from `lo` up to, not including, `hi`. -/
def Memory.zero (m : Memory) (lo hi : Nat) : Memory := KV.clear lo hi m

end Sys2Proof
end

