-- ==== Sys2Proof/Machine/Bits.lean ====
section
/-! DEFINITION. Bit fields, byte order, CRC-32C (R53) and CRC-64 (R313). -/

namespace Sys2Proof.Machine

open Sys2Proof

/-- Bits [lo + n - 1 : lo] of a number. -/
def field (x lo n : Nat) : Nat := (x >>> lo) % 2 ^ n

/-- Whether bit `i` of a number is 1. -/
def bitAt (x i : Nat) : Bool := x.testBit i

/-- A flag as a number. -/
def bit01 (b : Bool) : Nat := if b then 1 else 0

/-- The little-endian number of a run of bytes (R10). -/
def leNat : List Byte → Nat
  | [] => 0
  | b :: bs => b.toNat + 256 * leNat bs

/-- The `n` bytes of a number, little-endian (R10). -/
def leBytes : Nat → Nat → List Byte
  | 0, _ => []
  | n + 1, x => BitVec.ofNat 8 x :: leBytes n (x / 256)

/-- The little-endian number at bytes `off` to `off + n - 1`. -/
def rd (l : List Byte) (off n : Nat) : Nat := leNat ((l.drop off).take n)

/-- The bytes of a label (ASCII). -/
def strBytes (l : String) : List Byte := l.toList.map (fun c => BitVec.ofNat 8 c.toNat)

/-- Set bit `i` of a bit vector to `b`. -/
def setBit {w : Nat} (v : BitVec w) (i : Nat) (b : Bool) : BitVec w :=
  if b then v ||| (1#w <<< i) else v &&& ~~~(1#w <<< i)

/-- One bit of a reflected CRC of polynomial `poly`. -/
def crcBit {w : Nat} (poly : BitVec w) (c : BitVec w) : BitVec w :=
  if c.getLsbD 0 then (c >>> 1) ^^^ poly else c >>> 1

/-- One byte of a reflected CRC. -/
def crcByte {w : Nat} (poly : BitVec w) (c : BitVec w) (b : Byte) : BitVec w :=
  (List.range 8).foldl (fun x _ => crcBit poly x) (c ^^^ b.setWidth w)

/-- CRC-32C of a run of bytes (R53): polynomial 0x1EDC_6F41 reflected, initial value and final XOR all ones. -/
def crc32c (l : List Byte) : Word32 :=
  ~~~ l.foldl (crcByte 0x82F63B78#32) 0xFFFFFFFF#32

/-- One step of the CRC-64 of R313 over 8 bytes of a value: polynomial 0x42F0_E1EB_A9EA_3693 reflected; the final XOR is
applied when the signature is taken. -/
def crc64Feed (c : Word64) (v : Word64) : Word64 :=
  (leBytes 8 v.toNat).foldl (crcByte 0xC96C5795D7870F42#64) c

/-- Signed value of the low `n` bits of a number. -/
def signedOf (x n : Nat) : Int := if x % 2 ^ n < 2 ^ (n - 1) then (x % 2 ^ n : Nat) else (x % 2 ^ n : Nat) - (2 ^ n : Nat)

/-- Saturate a signed number into `n` bits, as a number. -/
def satSigned (x : Int) (n : Nat) : Nat :=
  let lim : Int := 2 ^ (n - 1)
  let y := if x ≥ lim then lim - 1 else if x < -lim then -lim else x
  (if y < 0 then y + 2 ^ n else y).toNat

/-- Whether 48-bit frame number `a` is later than `b` (R88). -/
def laterFrame (a b : BitVec 48) : Bool :=
  let d := (a - b).toNat
  decide (1 ≤ d) && decide (d ≤ 2 ^ 47 - 1)

/-- Partition of a logical Cabinet (R23). -/
def partOfCab (c : Nat) : Nat := c / 16

/-- Channel of a logical Cabinet (R23). -/
def chOfCab (c : Nat) : Ch := if c < 64 then .a else .b

/-- Channel of a partition (R16). -/
def chOfPart (p : Nat) : Ch := if p < 4 then .a else .b

/-- Die within its channel of a logical Cabinet. -/
def dieOfCab (c : Nat) : Nat := (c / 32) % 2

/-- Number of a channel, 0 A and 1 B. -/
def chNum : Ch → Nat
  | .a => 0
  | .b => 1

/-- Channel of a number. -/
def chOf (n : Nat) : Ch := if n = 0 then .a else .b

/-- The other channel. -/
def otherCh : Ch → Ch
  | .a => .b
  | .b => .a

end Sys2Proof.Machine
end

