-- ==== Sys2Proof/Machine/RegMap.lean ====
section
/-! DEFINITION. The registers of the map (R13, R228, R63; the register tables of every chapter): their names, where they
lie, which of their bits a write stores, and the reset value of those bits. Fields that show live state are not stored:
they are computed when read (Machine/Registers.lean). -/

namespace Sys2Proof

/-- The registers, named as the register tables name them. -/
inductive Reg where
  | modIdent | modPopulation | modSerialLo | modSerialHi | benchStatus | benchSpare | benchFailedLo | benchFailedHi 
  | benchTileTransient | benchTileReload | benchBusParity | cabStatus | cabHoldCause | cabHolds | cabAborts 
  | cabLasting | cabStepTime | modArrayBudget | modArrayPred | modPowerStatus | pwrPclass | pwrOverrun | cmemStatus 
  | cmemCorrected | cmemUncorrected | cmemUndoPeak | cmemConflictLo | cmemConflictHi | marchCtrl | marchStatus 
  | marchFail | hubScratchCorrected | hubScratchUncorrected | hubHutchStatus | hubHutchWipes | hbmStatus 
  | hbmLayout | hbmLayoutActive | hbmPanicLevel | hbmCaptureFill | hbmWbufUsed | hbmCorrected | hbmUncorrected 
  | hbmRefreshHolds | hbmErrLastLo | hbmErrLastHi | hbmSpareCtrl | hbmSpareStatus | vfStatus | vfPortRepair 
  | vfCrcErrors | vfReplays | vfLaneChecks | vfIsolationDrops | vfStatSel | vfStatBin | vfStatBytesLo 
  | vfStatBytesHi | vfGuestCtrl | vfGuestStatus | vfGuestTimeout | vlPortCtrl | vlPortStatus | vlLaneCfg 
  | vlLaneStatus | vlLaneErr | vlSpareAssign | vlRotate | vlScanCtrl | vlScanResult | vlLinkStatus | vlReplays 
  | vlSealFails | vlDrops | vlTopoStatus | vlTopoHash | vlRouteSel | vlRoute | lwBaseDeadline | lwBaseStatus 
  | hpStatus | hpBusTimeouts | hpBadAccess | hpDoorbellRefused | hpEventLost | hpRingBaseLo | hpRingBaseHi 
  | hpRingCtrl | hpRingMod | hpRingProduced | hpRingConsumed | hpRingStatus | schCtrl | schGroup | schEngine 
  | schPort | schTraceCtrl | schOutletHolds | secStatus | secTamperCause | secAlarms | secSessions | secRingGenLo 
  | secRingGenHi | secRangeBase | secRangeLen | secRangeCtrl | modBaseAddrLo | modBaseAddrHi | modBaseLen 
  | modBaseCtrl | modBaseResult | modBaseSvn | ptnStatus | ptnOpen | ptnFrameLo | ptnFrameHi | ptnLoads 
  | ptnRefusals | modMode | modReferee | modTwinHealth | modTwinTransient | modTwinLasting | modTwinCtrl 
  | modPairStatus | modPairCtrl | modPairResidue | hubSeqStatus | hubRecoveryCtrl | bstCtrl | bstSliceInterval 
  | bstWireInterval | bstPatrolInterval | bstDieStatus | bstSlices | bstSliceFails | bstLastHold | bstPatrolStatus 
  | bstPatrolMismatch | bstPatrolDisagree | bstWireFails | bstAgeSel | bstAge | bstStoreStatus | bstStoreMaxwear 
  | bstStoreRetired | modStoreStatus | modStoreMaxwear | acqCtrl | acqStatus | acqHostBaseLo | trcHostBaseLo 
  | acqHostBaseHi | trcHostBaseHi | acqHostSize | trcHostSize | acqProduced | trcProduced | acqConsumed 
  | trcConsumed | acqTrigout | acqDropped | acqLost | trcCtrl | trcSbStart | trcSbStop | trcOverflows 
  | modProbeGroup | modProbeTrace | timRawLo | timRawHi | timSnap | timSnapLo | timSnapHi | timSnapFrac 
  | timViewCfg | timViewStatus | timRate | timJump | timTrigCfg | timTrigSpan | timClkStatus | timLaunchStatus 
  | modPwrState | modPwrInput | modPwrWatts | modPwrCause | modPwrPhases | modPwrTempWarn | pwrDieTemp | pwrTempSel 
  | pwrTemp | pwrRail | msixAddrLo | msixAddrHi | msixData | msixControl | msixPba | cfgDevice | cfgClass
  deriving DecidableEq, Repr

/-- Where a register lies: the host die's map, a hub window, the array window of a hub, a hub-window register whose read
crosses into the array domain, or the configuration space (LW_). -/
inductive RegDom where
  | host | hub | array | hubArray | config
  deriving DecidableEq, Repr

/-- Whether a register stands alone or is the low or high word of a 64-bit pair (R11, R13). -/
inductive RegPair where
  | one | lo | hi
  deriving DecidableEq, Repr

/-- One register table: `base` is its offset in its domain, `dims` the strides and counts of its indices (widest stride
first), `rw` the bits a write stores and `reset` their reset value. -/
structure RegRow where
  base : Nat
  dims : List (Nat × Nat)
  dom : RegDom
  rw : Nat
  reset : Nat
  pair : RegPair
  deriving DecidableEq, Repr

/-- The register tables. -/
def Reg.row : Reg → RegRow
  | .modIdent => ⟨0x0, [], .host, 0x0, 0x0, .one⟩
  | .modPopulation => ⟨0x4, [], .host, 0x0, 0x0, .one⟩
  | .modSerialLo => ⟨0x8, [], .host, 0x0, 0x0, .lo⟩
  | .modSerialHi => ⟨0xc, [], .host, 0x0, 0x0, .hi⟩
  | .benchStatus => ⟨0x300000, [(0x80000, 2), (0x2000, 34), (0x100, 17)], .array, 0x0, 0x0, .one⟩
  | .benchSpare => ⟨0x300004, [(0x80000, 2), (0x2000, 34), (0x100, 17)], .array, 0x0, 0x0, .one⟩
  | .benchFailedLo => ⟨0x300008, [(0x80000, 2), (0x2000, 34), (0x100, 17)], .array, 0x0, 0x0, .lo⟩
  | .benchFailedHi => ⟨0x30000c, [(0x80000, 2), (0x2000, 34), (0x100, 17)], .array, 0x0, 0x0, .hi⟩
  | .benchTileTransient => ⟨0x300010, [(0x80000, 2), (0x2000, 34), (0x100, 17)], .array, 0xffffffff, 0x0, .one⟩
  | .benchTileReload => ⟨0x300014, [(0x80000, 2), (0x2000, 34), (0x100, 17)], .array, 0xffffffff, 0x0, .one⟩
  | .benchBusParity => ⟨0x300018, [(0x80000, 2), (0x2000, 34), (0x100, 17)], .array, 0xffffffff, 0x0, .one⟩
  | .cabStatus => ⟨0x301800, [(0x80000, 2), (0x2000, 34)], .array, 0x0, 0x0, .one⟩
  | .cabHoldCause => ⟨0x301804, [(0x80000, 2), (0x2000, 34)], .array, 0x0, 0x0, .one⟩
  | .cabHolds => ⟨0x301808, [(0x80000, 2), (0x2000, 34)], .array, 0xffffffff, 0x0, .one⟩
  | .cabAborts => ⟨0x30180c, [(0x80000, 2), (0x2000, 34)], .array, 0xffffffff, 0x0, .one⟩
  | .cabLasting => ⟨0x301810, [(0x80000, 2), (0x2000, 34)], .array, 0xffffffff, 0x0, .one⟩
  | .cabStepTime => ⟨0x301814, [(0x80000, 2), (0x2000, 34)], .array, 0x0, 0x0, .one⟩
  | .modArrayBudget => ⟨0x40, [], .host, 0xffff, 0x3e8, .one⟩
  | .modArrayPred => ⟨0x44, [], .host, 0x0, 0x0, .one⟩
  | .modPowerStatus => ⟨0x48, [], .host, 0x0, 0x0, .one⟩
  | .pwrPclass => ⟨0x280100, [], .hub, 0x0, 0x0, .one⟩
  | .pwrOverrun => ⟨0x280110, [(0x4, 4)], .hub, 0xffffffff, 0x0, .one⟩
  | .cmemStatus => ⟨0x301900, [(0x80000, 2), (0x2000, 34)], .array, 0x0, 0x0, .one⟩
  | .cmemCorrected => ⟨0x301904, [(0x80000, 2), (0x2000, 34)], .array, 0xffffffff, 0x0, .one⟩
  | .cmemUncorrected => ⟨0x301908, [(0x80000, 2), (0x2000, 34)], .array, 0xffffffff, 0x0, .one⟩
  | .cmemUndoPeak => ⟨0x30190c, [(0x80000, 2), (0x2000, 34)], .array, 0x1fff, 0x0, .one⟩
  | .cmemConflictLo => ⟨0x301910, [(0x80000, 2), (0x2000, 34), (0x8, 6)], .array, 0xffffffff, 0x0, .lo⟩
  | .cmemConflictHi => ⟨0x301914, [(0x80000, 2), (0x2000, 34), (0x8, 6)], .array, 0xffffffff, 0x0, .hi⟩
  | .marchCtrl => ⟨0x301980, [(0x80000, 2), (0x2000, 34)], .array, 0x2, 0x0, .one⟩
  | .marchStatus => ⟨0x301984, [(0x80000, 2), (0x2000, 34)], .array, 0x0, 0x0, .one⟩
  | .marchFail => ⟨0x301988, [(0x80000, 2), (0x2000, 34)], .array, 0x0, 0x0, .one⟩
  | .hubScratchCorrected => ⟨0x200, [], .hub, 0xffffffff, 0x0, .one⟩
  | .hubScratchUncorrected => ⟨0x204, [], .hub, 0xffffffff, 0x0, .one⟩
  | .hubHutchStatus => ⟨0x210, [], .hub, 0x0, 0x0, .one⟩
  | .hubHutchWipes => ⟨0x214, [], .hub, 0x0, 0x0, .one⟩
  | .hbmStatus => ⟨0x80000, [], .hub, 0x0, 0x0, .one⟩
  | .hbmLayout => ⟨0x80004, [], .hub, 0xf1, 0x31, .one⟩
  | .hbmLayoutActive => ⟨0x80008, [], .hub, 0x0, 0x0, .one⟩
  | .hbmPanicLevel => ⟨0x8000c, [], .hub, 0xfff, 0x600, .one⟩
  | .hbmCaptureFill => ⟨0x80010, [], .hub, 0x0, 0x0, .one⟩
  | .hbmWbufUsed => ⟨0x80020, [(0x4, 4)], .hub, 0x0, 0x0, .one⟩
  | .hbmCorrected => ⟨0x80040, [], .hub, 0xffffffff, 0x0, .one⟩
  | .hbmUncorrected => ⟨0x80044, [], .hub, 0xffffffff, 0x0, .one⟩
  | .hbmRefreshHolds => ⟨0x80048, [], .hub, 0xffffffff, 0x0, .one⟩
  | .hbmErrLastLo => ⟨0x80050, [], .hub, 0xffffffff, 0x0, .lo⟩
  | .hbmErrLastHi => ⟨0x80054, [], .hub, 0x1ff, 0x0, .hi⟩
  | .hbmSpareCtrl => ⟨0x80060, [], .hub, 0xff003e, 0x40000, .one⟩
  | .hbmSpareStatus => ⟨0x80064, [], .hub, 0x0, 0x0, .one⟩
  | .vfStatus => ⟨0x40000, [], .hub, 0x0, 0x0, .one⟩
  | .vfPortRepair => ⟨0x40010, [(0x4, 12)], .hub, 0x0, 0x0, .one⟩
  | .vfCrcErrors => ⟨0x40040, [], .hub, 0xffffffff, 0x0, .one⟩
  | .vfReplays => ⟨0x40044, [], .hub, 0xffffffff, 0x0, .one⟩
  | .vfLaneChecks => ⟨0x40048, [], .hub, 0xffffffff, 0x0, .one⟩
  | .vfIsolationDrops => ⟨0x4004c, [], .hub, 0xffffffff, 0x0, .one⟩
  | .vfStatSel => ⟨0x40100, [], .hub, 0x3ff, 0x0, .one⟩
  | .vfStatBin => ⟨0x40140, [(0x4, 16)], .hub, 0x0, 0x0, .one⟩
  | .vfStatBytesLo => ⟨0x40180, [], .hub, 0x0, 0x0, .lo⟩
  | .vfStatBytesHi => ⟨0x40184, [], .hub, 0x0, 0x0, .hi⟩
  | .vfGuestCtrl => ⟨0x40200, [], .hub, 0x7fffffff, 0x1e080a0, .one⟩
  | .vfGuestStatus => ⟨0x40204, [], .hub, 0x0, 0x0, .one⟩
  | .vfGuestTimeout => ⟨0x40208, [], .hub, 0xfffff, 0x64, .one⟩
  | .vlPortCtrl => ⟨0xc0000, [(0x4, 8)], .hub, 0xf, 0xc, .one⟩
  | .vlPortStatus => ⟨0xc0040, [(0x4, 8)], .hub, 0x0, 0x0, .one⟩
  | .vlLaneCfg => ⟨0xc0100, [(0x4, 68)], .hub, 0xff, 0x18, .one⟩
  | .vlLaneStatus => ⟨0xc0300, [(0x4, 68)], .hub, 0x0, 0x0, .one⟩
  | .vlLaneErr => ⟨0xc0500, [(0x4, 68)], .hub, 0xffffffff, 0x0, .one⟩
  | .vlSpareAssign => ⟨0xc0800, [], .hub, 0xffff, 0x0, .one⟩
  | .vlRotate => ⟨0xc0804, [], .hub, 0xff0fff, 0x64000a, .one⟩
  | .vlScanCtrl => ⟨0xc0810, [], .hub, 0xffff7f, 0x6400, .one⟩
  | .vlScanResult => ⟨0xc0814, [], .hub, 0x0, 0x0, .one⟩
  | .vlLinkStatus => ⟨0xc1000, [(0x4, 8)], .hub, 0x0, 0x0, .one⟩
  | .vlReplays => ⟨0xc1040, [(0x4, 8)], .hub, 0xffffffff, 0x0, .one⟩
  | .vlSealFails => ⟨0xc1080, [(0x4, 8)], .hub, 0xffffffff, 0x0, .one⟩
  | .vlDrops => ⟨0xc10c0, [], .hub, 0xffffffff, 0x0, .one⟩
  | .vlTopoStatus => ⟨0xc1100, [], .hub, 0x0, 0x0, .one⟩
  | .vlTopoHash => ⟨0xc1110, [(0x4, 6)], .hub, 0x0, 0x0, .one⟩
  | .vlRouteSel => ⟨0xc1140, [], .hub, 0x7f, 0x0, .one⟩
  | .vlRoute => ⟨0xc1144, [], .hub, 0x0, 0x0, .one⟩
  | .lwBaseDeadline => ⟨0xc, [], .config, 0xfff, 0x1e, .one⟩
  | .lwBaseStatus => ⟨0x10, [], .config, 0x0, 0x0, .one⟩
  | .hpStatus => ⟨0x100000, [], .host, 0x0, 0x0, .one⟩
  | .hpBusTimeouts => ⟨0x100010, [], .host, 0xffffffff, 0x0, .one⟩
  | .hpBadAccess => ⟨0x100014, [], .host, 0xffffffff, 0x0, .one⟩
  | .hpDoorbellRefused => ⟨0x100018, [], .host, 0xffffffff, 0x0, .one⟩
  | .hpEventLost => ⟨0x10001c, [], .host, 0xffffffff, 0x0, .one⟩
  | .hpRingBaseLo => ⟨0x101000, [(0x20, 512)], .host, 0xfffff000, 0x0, .lo⟩
  | .hpRingBaseHi => ⟨0x101004, [(0x20, 512)], .host, 0xffffffff, 0x0, .hi⟩
  | .hpRingCtrl => ⟨0x101008, [(0x20, 512)], .host, 0x1ffffe3f, 0xc, .one⟩
  | .hpRingMod => ⟨0x10100c, [(0x20, 512)], .host, 0xffffff, 0x1, .one⟩
  | .hpRingProduced => ⟨0x101010, [(0x20, 512)], .host, 0x0, 0x0, .one⟩
  | .hpRingConsumed => ⟨0x101014, [(0x20, 512)], .host, 0x0, 0x0, .one⟩
  | .hpRingStatus => ⟨0x101018, [(0x20, 512)], .host, 0x0, 0x0, .one⟩
  | .schCtrl => ⟨0x100000, [], .hub, 0xffff, 0x1000, .one⟩
  | .schGroup => ⟨0x100010, [(0x4, 8)], .hub, 0xfff, 0x1, .one⟩
  | .schEngine => ⟨0x100040, [(0x4, 18)], .hub, 0x0, 0x0, .one⟩
  | .schPort => ⟨0x100100, [(0x4, 128)], .hub, 0x0, 0x0, .one⟩
  | .schTraceCtrl => ⟨0x100400, [], .hub, 0xff, 0x0, .one⟩
  | .schOutletHolds => ⟨0x100404, [], .hub, 0xffffffff, 0x0, .one⟩
  | .secStatus => ⟨0x200000, [], .host, 0x0, 0x0, .one⟩
  | .secTamperCause => ⟨0x200004, [], .host, 0x0, 0x0, .one⟩
  | .secAlarms => ⟨0x200008, [], .host, 0xffffffff, 0x0, .one⟩
  | .secSessions => ⟨0x20000c, [], .host, 0x0, 0x0, .one⟩
  | .secRingGenLo => ⟨0x200100, [(0x8, 17)], .host, 0x0, 0x0, .lo⟩
  | .secRingGenHi => ⟨0x200104, [(0x8, 17)], .host, 0x0, 0x0, .hi⟩
  | .secRangeBase => ⟨0x201000, [(0x400, 2), (0x10, 16)], .host, 0x0, 0x0, .one⟩
  | .secRangeLen => ⟨0x201004, [(0x400, 2), (0x10, 16)], .host, 0x0, 0x0, .one⟩
  | .secRangeCtrl => ⟨0x201008, [(0x400, 2), (0x10, 16)], .host, 0x0, 0x0, .one⟩
  | .modBaseAddrLo => ⟨0x200, [], .host, 0xffffffc0, 0x0, .lo⟩
  | .modBaseAddrHi => ⟨0x204, [], .host, 0xffffffff, 0x0, .hi⟩
  | .modBaseLen => ⟨0x208, [], .host, 0x7ffffff, 0x0, .one⟩
  | .modBaseCtrl => ⟨0x20c, [], .host, 0x6, 0x4, .one⟩
  | .modBaseResult => ⟨0x210, [], .host, 0x0, 0x0, .one⟩
  | .modBaseSvn => ⟨0x214, [], .host, 0x0, 0x0, .one⟩
  | .ptnStatus => ⟨0x240000, [(0x4, 4)], .hub, 0x0, 0x0, .one⟩
  | .ptnOpen => ⟨0x240010, [(0x4, 4)], .hub, 0x0, 0x0, .one⟩
  | .ptnFrameLo => ⟨0x240020, [(0x8, 4)], .hub, 0x0, 0x0, .lo⟩
  | .ptnFrameHi => ⟨0x240024, [(0x8, 4)], .hub, 0x0, 0x0, .hi⟩
  | .ptnLoads => ⟨0x240040, [], .hub, 0xffffffff, 0x0, .one⟩
  | .ptnRefusals => ⟨0x240044, [], .hub, 0xffffffff, 0x0, .one⟩
  | .modMode => ⟨0x300, [], .host, 0x0, 0x0, .one⟩
  | .modReferee => ⟨0x304, [], .host, 0x0, 0x0, .one⟩
  | .modTwinHealth => ⟨0x308, [], .host, 0x0, 0x0, .one⟩
  | .modTwinTransient => ⟨0x30c, [], .host, 0xffffffff, 0x0, .one⟩
  | .modTwinLasting => ⟨0x310, [], .host, 0xffffffff, 0x0, .one⟩
  | .modTwinCtrl => ⟨0x314, [], .host, 0x0, 0x0, .one⟩
  | .modPairStatus => ⟨0x320, [], .host, 0x0, 0x0, .one⟩
  | .modPairCtrl => ⟨0x324, [], .host, 0x0, 0x0, .one⟩
  | .modPairResidue => ⟨0x328, [], .host, 0x0, 0x0, .one⟩
  | .hubSeqStatus => ⟨0x400, [], .hub, 0x0, 0x0, .one⟩
  | .hubRecoveryCtrl => ⟨0x404, [], .hub, 0x0, 0x0, .one⟩
  | .bstCtrl => ⟨0x200000, [], .hub, 0x7, 0x7, .one⟩
  | .bstSliceInterval => ⟨0x200004, [], .hub, 0xfff0fff, 0xa000a, .one⟩
  | .bstWireInterval => ⟨0x200008, [], .hub, 0xfff, 0xa, .one⟩
  | .bstPatrolInterval => ⟨0x20000c, [], .hub, 0xfff, 0x3e8, .one⟩
  | .bstDieStatus => ⟨0x200010, [(0x4, 2)], .hub, 0x0, 0x0, .one⟩
  | .bstSlices => ⟨0x200018, [], .hub, 0xffffffff, 0x0, .one⟩
  | .bstSliceFails => ⟨0x20001c, [], .hub, 0xffffffff, 0x0, .one⟩
  | .bstLastHold => ⟨0x200020, [], .hub, 0x0, 0x0, .one⟩
  | .bstPatrolStatus => ⟨0x200030, [], .hub, 0x0, 0x0, .one⟩
  | .bstPatrolMismatch => ⟨0x200034, [], .hub, 0xffffffff, 0x0, .one⟩
  | .bstPatrolDisagree => ⟨0x200038, [], .hub, 0xffffffff, 0x0, .one⟩
  | .bstWireFails => ⟨0x20003c, [], .hub, 0xffffffff, 0x0, .one⟩
  | .bstAgeSel => ⟨0x200040, [], .hub, 0x7f, 0x0, .one⟩
  | .bstAge => ⟨0x200044, [], .hubArray, 0x0, 0x0, .one⟩
  | .bstStoreStatus => ⟨0x200050, [], .hub, 0x0, 0x0, .one⟩
  | .bstStoreMaxwear => ⟨0x200054, [], .hub, 0x0, 0x0, .one⟩
  | .bstStoreRetired => ⟨0x200058, [], .hub, 0x0, 0x0, .one⟩
  | .modStoreStatus => ⟨0x500, [], .host, 0x0, 0x0, .one⟩
  | .modStoreMaxwear => ⟨0x504, [], .host, 0x0, 0x0, .one⟩
  | .acqCtrl => ⟨0x140000, [], .hub, 0x1, 0x0, .one⟩
  | .acqStatus => ⟨0x140004, [], .hub, 0x0, 0x0, .one⟩
  | .acqHostBaseLo => ⟨0x140010, [], .hub, 0xfffff000, 0x0, .lo⟩
  | .trcHostBaseLo => ⟨0x180010, [], .hub, 0xfffff000, 0x0, .lo⟩
  | .acqHostBaseHi => ⟨0x140014, [], .hub, 0xffffffff, 0x0, .hi⟩
  | .trcHostBaseHi => ⟨0x180014, [], .hub, 0xffffffff, 0x0, .hi⟩
  | .acqHostSize => ⟨0x140018, [], .hub, 0x1f, 0x18, .one⟩
  | .trcHostSize => ⟨0x180018, [], .hub, 0x1f, 0x18, .one⟩
  | .acqProduced => ⟨0x14001c, [], .hub, 0x0, 0x0, .one⟩
  | .trcProduced => ⟨0x18001c, [], .hub, 0x0, 0x0, .one⟩
  | .acqConsumed => ⟨0x140020, [], .hub, 0xffffffff, 0x0, .one⟩
  | .trcConsumed => ⟨0x180020, [], .hub, 0xffffffff, 0x0, .one⟩
  | .acqTrigout => ⟨0x140030, [], .hub, 0xffff, 0x0, .one⟩
  | .acqDropped => ⟨0x140040, [], .hub, 0xffffffff, 0x0, .one⟩
  | .acqLost => ⟨0x140044, [], .hub, 0xffffffff, 0x0, .one⟩
  | .trcCtrl => ⟨0x180000, [], .hub, 0x3f, 0x0, .one⟩
  | .trcSbStart => ⟨0x180030, [], .hub, 0xffffffff, 0x0, .one⟩
  | .trcSbStop => ⟨0x180034, [], .hub, 0xffffffff, 0x0, .one⟩
  | .trcOverflows => ⟨0x180040, [], .hub, 0xffffffff, 0x0, .one⟩
  | .modProbeGroup => ⟨0x600, [], .host, 0xffffffff, 0x0, .one⟩
  | .modProbeTrace => ⟨0x604, [], .host, 0x3, 0x0, .one⟩
  | .timRawLo => ⟨0x1c0000, [], .hub, 0x0, 0x0, .lo⟩
  | .timRawHi => ⟨0x1c0004, [], .hub, 0x0, 0x0, .hi⟩
  | .timSnap => ⟨0x1c0010, [], .hub, 0x0, 0x0, .one⟩
  | .timSnapLo => ⟨0x1c0020, [(0x8, 8)], .hub, 0xffffffff, 0x0, .lo⟩
  | .timSnapHi => ⟨0x1c0024, [(0x8, 8)], .hub, 0xffffffff, 0x0, .hi⟩
  | .timSnapFrac => ⟨0x1c0060, [(0x4, 8)], .hub, 0x0, 0x0, .one⟩
  | .timViewCfg => ⟨0x1c0100, [(0x4, 6)], .hub, 0xffffff0f, 0x8080ff00, .one⟩
  | .timViewStatus => ⟨0x1c0120, [(0x4, 8)], .hub, 0x0, 0x0, .one⟩
  | .timRate => ⟨0x1c0140, [(0x4, 8)], .hub, 0x0, 0x0, .one⟩
  | .timJump => ⟨0x1c0180, [], .hub, 0x3fffffff, 0x3e8, .one⟩
  | .timTrigCfg => ⟨0x1c0200, [(0x4, 4)], .hub, 0x7fff, 0x0, .one⟩
  | .timTrigSpan => ⟨0x1c0210, [], .hub, 0x1fff, 0x0, .one⟩
  | .timClkStatus => ⟨0x1c0300, [], .hub, 0x0, 0x0, .one⟩
  | .timLaunchStatus => ⟨0x1c0400, [], .hub, 0x0, 0x0, .one⟩
  | .modPwrState => ⟨0x700, [], .host, 0x0, 0x0, .one⟩
  | .modPwrInput => ⟨0x704, [], .host, 0x0, 0x0, .one⟩
  | .modPwrWatts => ⟨0x708, [], .host, 0x0, 0x0, .one⟩
  | .modPwrCause => ⟨0x70c, [], .host, 0x0, 0x0, .one⟩
  | .modPwrPhases => ⟨0x710, [], .host, 0x0, 0x0, .one⟩
  | .modPwrTempWarn => ⟨0x714, [], .host, 0xff, 0x5f, .one⟩
  | .pwrDieTemp => ⟨0x280000, [], .hub, 0x0, 0x0, .one⟩
  | .pwrTempSel => ⟨0x280010, [], .hub, 0x7f, 0x0, .one⟩
  | .pwrTemp => ⟨0x280014, [], .hubArray, 0x0, 0x0, .one⟩
  | .pwrRail => ⟨0x280020, [], .hub, 0x0, 0x0, .one⟩
  | .msixAddrLo => ⟨0x1e0000, [(0x10, 256)], .host, 0xfffffffc, 0x0, .one⟩
  | .msixAddrHi => ⟨0x1e0004, [(0x10, 256)], .host, 0xffffffff, 0x0, .one⟩
  | .msixData => ⟨0x1e0008, [(0x10, 256)], .host, 0xffffffff, 0x0, .one⟩
  | .msixControl => ⟨0x1e000c, [(0x10, 256)], .host, 0x0, 0x0, .one⟩
  | .msixPba => ⟨0x1f0000, [(0x4, 8)], .host, 0x0, 0x0, .one⟩
  | .cfgDevice => ⟨0x1000, [], .config, 0x0, 0x0, .one⟩
  | .cfgClass => ⟨0x1008, [], .config, 0x0, 0x0, .one⟩
/-- Registers of the map, part 0. -/
def Reg.all0 : List Reg :=
  [.modIdent, .modPopulation, .modSerialLo, .modSerialHi, .benchStatus, .benchSpare, .benchFailedLo, .benchFailedHi,
   .benchTileTransient, .benchTileReload, .benchBusParity, .cabStatus, .cabHoldCause, .cabHolds, .cabAborts,
   .cabLasting, .cabStepTime, .modArrayBudget, .modArrayPred, .modPowerStatus, .pwrPclass, .pwrOverrun, .cmemStatus,
   .cmemCorrected]

/-- Registers of the map, part 1. -/
def Reg.all1 : List Reg :=
  [.cmemUncorrected, .cmemUndoPeak, .cmemConflictLo, .cmemConflictHi, .marchCtrl, .marchStatus, .marchFail,
   .hubScratchCorrected, .hubScratchUncorrected, .hubHutchStatus, .hubHutchWipes, .hbmStatus, .hbmLayout,
   .hbmLayoutActive, .hbmPanicLevel, .hbmCaptureFill, .hbmWbufUsed, .hbmCorrected, .hbmUncorrected, .hbmRefreshHolds,
   .hbmErrLastLo, .hbmErrLastHi, .hbmSpareCtrl, .hbmSpareStatus]

/-- Registers of the map, part 2. -/
def Reg.all2 : List Reg :=
  [.vfStatus, .vfPortRepair, .vfCrcErrors, .vfReplays, .vfLaneChecks, .vfIsolationDrops, .vfStatSel, .vfStatBin,
   .vfStatBytesLo, .vfStatBytesHi, .vfGuestCtrl, .vfGuestStatus, .vfGuestTimeout, .vlPortCtrl, .vlPortStatus,
   .vlLaneCfg, .vlLaneStatus, .vlLaneErr, .vlSpareAssign, .vlRotate, .vlScanCtrl, .vlScanResult, .vlLinkStatus,
   .vlReplays]

/-- Registers of the map, part 3. -/
def Reg.all3 : List Reg :=
  [.vlSealFails, .vlDrops, .vlTopoStatus, .vlTopoHash, .vlRouteSel, .vlRoute, .lwBaseDeadline, .lwBaseStatus,
   .hpStatus, .hpBusTimeouts, .hpBadAccess, .hpDoorbellRefused, .hpEventLost, .hpRingBaseLo, .hpRingBaseHi,
   .hpRingCtrl, .hpRingMod, .hpRingProduced, .hpRingConsumed, .hpRingStatus, .schCtrl, .schGroup, .schEngine, .schPort]

/-- Registers of the map, part 4. -/
def Reg.all4 : List Reg :=
  [.schTraceCtrl, .schOutletHolds, .secStatus, .secTamperCause, .secAlarms, .secSessions, .secRingGenLo,
   .secRingGenHi, .secRangeBase, .secRangeLen, .secRangeCtrl, .modBaseAddrLo, .modBaseAddrHi, .modBaseLen,
   .modBaseCtrl, .modBaseResult, .modBaseSvn, .ptnStatus, .ptnOpen, .ptnFrameLo, .ptnFrameHi, .ptnLoads, .ptnRefusals,
   .modMode]

/-- Registers of the map, part 5. -/
def Reg.all5 : List Reg :=
  [.modReferee, .modTwinHealth, .modTwinTransient, .modTwinLasting, .modTwinCtrl, .modPairStatus, .modPairCtrl,
   .modPairResidue, .hubSeqStatus, .hubRecoveryCtrl, .bstCtrl, .bstSliceInterval, .bstWireInterval, .bstPatrolInterval,
   .bstDieStatus, .bstSlices, .bstSliceFails, .bstLastHold, .bstPatrolStatus, .bstPatrolMismatch, .bstPatrolDisagree,
   .bstWireFails, .bstAgeSel, .bstAge]

/-- Registers of the map, part 6. -/
def Reg.all6 : List Reg :=
  [.bstStoreStatus, .bstStoreMaxwear, .bstStoreRetired, .modStoreStatus, .modStoreMaxwear, .acqCtrl, .acqStatus,
   .acqHostBaseLo, .trcHostBaseLo, .acqHostBaseHi, .trcHostBaseHi, .acqHostSize, .trcHostSize, .acqProduced,
   .trcProduced, .acqConsumed, .trcConsumed, .acqTrigout, .acqDropped, .acqLost, .trcCtrl, .trcSbStart, .trcSbStop,
   .trcOverflows]

/-- Registers of the map, part 7. -/
def Reg.all7 : List Reg :=
  [.modProbeGroup, .modProbeTrace, .timRawLo, .timRawHi, .timSnap, .timSnapLo, .timSnapHi, .timSnapFrac, .timViewCfg,
   .timViewStatus, .timRate, .timJump, .timTrigCfg, .timTrigSpan, .timClkStatus, .timLaunchStatus, .modPwrState,
   .modPwrInput, .modPwrWatts, .modPwrCause, .modPwrPhases, .modPwrTempWarn, .pwrDieTemp, .pwrTempSel]

/-- Registers of the map, part 8. -/
def Reg.all8 : List Reg :=
  [.pwrTemp, .pwrRail, .msixAddrLo, .msixAddrHi, .msixData, .msixControl, .msixPba, .cfgDevice, .cfgClass]

/-- Every register, in the order of the chapters. -/
def Reg.all : List Reg :=
  Reg.all0 ++ Reg.all1 ++ Reg.all2 ++ Reg.all3 ++ Reg.all4 ++ Reg.all5 ++ Reg.all6 ++ Reg.all7 ++ Reg.all8

/-- The indices that a relative offset names under strides and counts: none unless it falls on the register. -/
def splitDims : List (Nat × Nat) → Nat → Option (List Nat)
  | [], rel => if rel = 0 then some [] else none
  | (stride, n) :: ds, rel =>
    if rel / stride < n then (splitDims ds (rel % stride)).map (fun l => rel / stride :: l) else none

/-- The offset that indices name under strides. -/
def joinDims : List (Nat × Nat) → List Nat → Nat
  | (stride, _) :: ds, i :: is => stride * i + joinDims ds is
  | _, _ => 0

end Sys2Proof
end

