-- ==== Sys2Proof/Machine/Fields.lean ====
section
/-! DEFINITION. Codes and fields of the records that commands carry: power states, statuses, modes, descriptors. -/

namespace Sys2Proof

open Sys2Proof.Machine

/-- Whether the hub of a channel is powered (R400). -/
def PState.hubOn : PState → Bool
  | .off | .aux => false
  | _ => true

/-- Whether the array dies of a channel are powered (R400). -/
def PState.arrayOn : PState → Bool
  | .ready | .run => true
  | _ => false

/-- Code of a status (R237). -/
def Status.code : Status → Nat
  | .ok => 0 | .aborted => 1 | .nothingToAbort => 2 | .refusedState => 3 | .authFail => 4 | .integrityAlarm => 5
  | .memoryError => 6 | .contractMismatch => 7 | .regionViolation => 8 | .powerClass => 9 | .timeout => 10
  | .resource => 11 | .fenced => 12 | .hazard => 13 | .tamper => 14

/-- CRING of a command: bits [25:20] of bytes 0-7. -/
def Desc.cring (d : Desc) : Nat := 32 + field d.hi.toNat 0 6
/-- GROUP of a work item: bits [28:26]. -/
def Desc.group (d : Desc) : Nat := field d.hi.toNat 6 3
/-- FENCE (R235). -/
def Desc.fence (d : Desc) : Bool := d.flags.getLsbD 0
/-- RECEIPT (R238). -/
def Desc.receipt (d : Desc) : Bool := d.flags.getLsbD 1
/-- Parameter of `n` bytes at byte offset `off` of the descriptor. -/
def Desc.par (d : Desc) (off n : Nat) : Nat := field d.params.toNat (8 * (off - 8)) (8 * n)

/-- Bytes 0-47 of a descriptor. -/
def Desc.bytes (d : Desc) : List Byte :=
  [d.opcode, d.flags] ++ leBytes 2 (d.partition.toNat + 16 * d.hi.toNat) ++ leBytes 4 d.tag.toNat ++ leBytes 40 d.params.toNat

/-- Code of a mode (SET_MODE, MOD_MODE.MODE). -/
def Mode.code : Mode → Nat
  | .split => 1 | .joined => 2 | .twinned => 3 | .mirrored => 4 | .debugSplit => 5 | .debugJoined => 6 | .service => 7

/-- Mode of a code. -/
def Mode.ofCode (n : Nat) : Option Mode :=
  [Mode.split, .joined, .twinned, .mirrored, .debugSplit, .debugJoined, .service].find? (fun m => m.code == n)

/-- Whether a mode is a DEBUG mode. -/
def Mode.isDebug : Mode → Bool
  | .debugSplit | .debugJoined => true
  | _ => false

/-- Whether designs may span both channels (R19). -/
def Mode.joinedLayout : Mode → Bool
  | .joined | .mirrored | .debugJoined => true
  | _ => false

/-- Code of a power state (SET_POWER). -/
def PState.code : PState → Nat
  | .off => 0 | .aux => 1 | .standby => 2 | .ready => 3 | .run => 4

/-- Power state of a code. -/
def PState.ofCode (n : Nat) : Option PState :=
  [PState.off, .aux, .standby, .ready, .run].find? (fun m => m.code == n)

/-- Code of a lifecycle state (SEC_STATUS.LIFECYCLE). -/
def Lifecycle.code : Lifecycle → Nat
  | .blank => 0 | .vendor => 1 | .field => 2 | .returned => 3 | .scrapped => 4

/-- Source number of an error within a frame (FRAME_ABORTED). -/
def ErrSrc.code : ErrSrc → Nat
  | .benchParity => 1 | .cmemWord => 2 | .hbmWord => 3 | .mac => 4 | .twin => 5 | .region => 6 | .fabric => 7

/-- Stop status after a fourth failure (R91). -/
def ErrSrc.stop : ErrSrc → Status
  | .benchParity | .cmemWord | .hbmWord | .twin => .memoryError
  | .mac => .integrityAlarm
  | .region => .regionViolation
  | .fabric => .fenced

/-- The bits of a register that a row of the table of its own changes: a plain write leaves them (log entry 9). -/
def Reg.acting : Reg → Nat
  | .hpRingCtrl => 1
  | .vlPortCtrl => 3
  | .vlSpareAssign => 0xFFFF
  | .vfGuestCtrl => 0x40000000
  | .timViewCfg => 0xF
  | .modProbeGroup | .modProbeTrace | .acqConsumed | .trcConsumed | .modArrayBudget | .lwBaseDeadline | .acqCtrl => 0xFFFFFFFF
  | _ => 0

/-- The register that holds the high word of a pair: the next of the list. -/
def Reg.high (r : Reg) : Reg := ((Reg.all.dropWhile (fun x => x != r)).drop 1).headD r

/-- Slot number of SESSION events: 0 operator, 1-8 tenant, 0xFF unbound. -/
def Sess.num : Sess → Nat
  | .operator => 0
  | .tenant n => n
  | .unbound => 0xFF

/-- Holder number of a session: 0 the operator, 1-8 a tenant slot. -/
def Sess.holder : Sess → Nat
  | .tenant n => n
  | _ => 0

end Sys2Proof
end

