-- ==== Sys2Proof/Machine/Parts1.lean ====
section
/-! DEFINITION. The parts of the state that belong to the host die, the keys and the power: rings, registers, sessions,
ranges, base image, modes, supply. The field defaults are the reset values. -/

namespace Sys2Proof.Machine

open Sys2Proof

/-- A 32-byte completion (10_host_port.md, Completions). -/
structure Completion where
  tag : Tag
  status : Status
  retained : Bool
  ring : RingNo
  frame : BitVec 48
  detail : BitVec 128
  deriving DecidableEq, Repr

/-- A 64-byte event (10_host_port.md, Events). `args` are the detail fields as the event tables list them; of a sealed event there are none:
`body` holds the ciphertext of its 24 detail bytes and its tag (R239). -/
structure Event where
  seq : BitVec 64
  code : Nat
  source : Nat
  partition : Nat
  owner : Nat
  sealed : Bool
  time : BitVec 64
  args : List Nat
  body : Option (List Byte × BitVec 128) := none
  deriving DecidableEq, Repr

/-- An outbound message entry MSG_OUT (R252, R253): `addr` is where its ciphertext stands, in the data area behind the ring. -/
structure OutMsg where
  addr : Nat
  partition : Nat
  fence : Bool
  mseq : BitVec 64
  cipher : List Byte
  tag : BitVec 128
  deriving DecidableEq, Repr

/-- What the module writes into a ring, with its phase bit (R233). -/
inductive Entry where
  | cpl (c : Completion) (phase : Bool)
  | ev (e : Event) (phase : Bool)
  | msg (m : OutMsg) (phase : Bool)
  deriving DecidableEq, Repr

/-- What a ring holds beside its registers (R231-R233, R241): its counts, the refused count, the error flag, the entries
written and not yet freed, how many entries no signal has covered, and which refusal REFUSED shows: its count and the window words that its
messages need. -/
structure Ring where
  produced : Word32 := 0
  consumed : Word32 := 0
  refused : Option (Word32 × Nat) := none
  error : Bool := false
  entries : List Entry := []
  unsignalled : Nat := 0
  deriving DecidableEq, Repr

/-- An installed key (R275, R413): holder 0 the operator, 1-8 a tenant slot. -/
structure Key where
  holder : Nat
  kind : Nat
  index : Nat
  material : List Byte
  deriving DecidableEq, Repr

/-- A command that the module has accepted and not completed (R235, R244), with the keys of its ring's owner as they stood
at its acceptance (R274) and the ring's generation, from which its IVs are formed (R277). -/
structure Cmd where
  ring : RingNo
  count : Word32
  desc : Desc
  arb : Ch
  started : Bool
  keys : List Key := []
  gen : BitVec 48 := 0
  deriving DecidableEq, Repr

/-- A write of the module into host memory: ring entries, results, receipts, stream blocks. -/
structure HostWrite where
  addr : Nat
  data : List Byte
  deriving DecidableEq, Repr

/-- What the receipt of a completion needs (R238, R277): its address, the session key and the IV. -/
structure Receipt where
  addr : Nat
  key : List Byte
  iv : List Byte
  deriving DecidableEq, Repr

/-- A completion in a retention store (R227): its arbiter, its completion ring, whether it is that of an accepted command, which stays
outstanding until its completion reaches the ring (R231), or of a refused descriptor, and the receipt that goes before it (R238). -/
structure Retained where
  arb : Ch
  cring : Nat
  cpl : Completion
  accepted : Bool
  receipt : Option Receipt := none
  deriving DecidableEq, Repr

/-- The host port (10_host_port.md). -/
structure HostSt where
  rings : KV Ring := []
  gens : KV (BitVec 48) := []
  cmds : List Cmd := []
  retention : List Retained := []
  evSeq : BitVec 64 := 0
  evLost : Nat := 0
  busTimeoutMs : Option Nat := none
  linkUp : Bool := false
  width : BitVec 2 := 0
  speed : BitVec 2 := 0
  ideKeys : List Nat := []
  ideOn : List Nat := []
  perst : Bool := false
  msixPending : BitVec 256 := 0
  msixMask : BitVec 256 := BitVec.allOnes 256
  signals : List Nat := []
  out : List HostWrite := []
  deriving DecidableEq, Repr

/-- The registers (R13, R228, R229): bits that writes store, by BAR0 offset; the stage and the shadow of each pair by the
offset of its low word; the data of the last host read, and whether it was poison. -/
structure RegSt where
  rw : KV Word32 := []
  stage : KV Word32 := []
  shadow : KV Word32 := []
  reply : Word64 := 0
  poison : Bool := false
  deriving DecidableEq, Repr

/-- A Hutch (R139-R141, R413) with the keys it holds. `slotKeys` are the image-copy slot keys by design tag, with the
loading tenant; `clearEnd` is the time at which a tamper clear of the rest of the scratchpad ends (R141). -/
structure Hutch where
  powered : Bool := true
  wiped : Bool := true
  keys : List Key := []
  slotKeys : List (Nat × Nat × BitVec 64) := []
  hubKey : Option (BitVec 64) := none
  treeKey : Option (BitVec 64) := none
  wipes : Word32 := 0
  lostRail : Bool := false
  clearEnd : Nat := 0
  deriving DecidableEq, Repr

/-- What a cleared range returns to (R280): stays owned, or loses its placement; the command that waits for it. -/
structure ClearJob where
  remove : Bool
  ring : RingNo
  tag : Tag
  answer : Bool
  deriving DecidableEq, Repr

/-- A key range (R279, R280): base and length in 4 KiB units; mode 0 PLAIN, 1 ENC, 2 ENC+INT; state as SEC_RANGE_CTRL. -/
structure KRange where
  base : Nat := 0
  len : Nat := 0
  mode : Nat := 0
  owner : Nat := 0
  state : Nat := 0
  key : Option (BitVec 64) := none
  job : Option ClearJob := none
  deriving DecidableEq, Repr

/-- A bound session (R272, R273): the principal, the export master secret, and the digest of the requester's key. -/
structure SessRec where
  who : Sess
  ems : List Byte
  leaf : Digest
  deriving DecidableEq, Repr

/-- The last SPDM or vendor-defined response (R271-R274). -/
inductive Rsp where
  | version
  | capabilities
  | algorithms
  | digests (d : Digest)
  | certificate (portion : List Byte)
  | challengeAuth (sig : List Byte)
  | measurements (blocks : List (Nat × List Byte)) (sig : List Byte)
  | keyExchange (mutAuth : Bool) (heartbeat : Nat) (sig : List Byte)
  | finished (who : Sess)
  | heartbeatAck
  | keyUpdateAck
  | keys (l : List (Nat × Nat))
  | status (s : Status)
  | error
  deriving DecidableEq, Repr

/-- The security mailbox (12_trust_and_keys.md). -/
structure SecSt where
  lifecycle : Lifecycle := .field
  returnsLeft : Nat := 15
  bound : Option Digest := none
  latched : Bool := false
  cause : BitVec 5 := 0
  token : Option (BitVec 8 × BitVec 64) := none
  slots : KV (Option (BitVec 256)) := []
  sessions : List SessRec := []
  handshake : Option (List Byte) := none
  spdm : Nat := 0
  rsp : Option Rsp := none
  identityKey : Bool := true
  meas : KV Digest := []
  deriving DecidableEq, Repr

/-- How a base-image delivery under way arrives (R294, R300, R301). -/
inductive Delivery where
  | host (timely : Bool)
  | stream (timely : Bool)
  | chain (timely : Bool)
  deriving DecidableEq, Repr

/-- The base image (13_loading.md). `chainFrom` is the offset in the chain stream at which the segment of this module begins, `nextSeg` that at
which the next segment to go downstream begins, or the one on its way ends. `hfCopies` are the two stored copies of the host-die firmware (R291),
with whether each is valid and its SVN. -/
structure BaseSt where
  inForce : Option (BitVec 16) := none
  chained : Bool := false
  verifyFailed : Bool := false
  expired : Bool := false
  cfgErr : Bool := false
  attempts : Nat := 0
  delivery : Option Delivery := none
  reason : Nat := 0
  segments : Nat := 0
  svnMin : BitVec 16 := 0
  revoked : BitVec 4 := 0
  fwValid : Bool := true
  fwSvn : BitVec 16 := 0
  hfCopies : (Bool × BitVec 16) × Bool × BitVec 16 := ((true, 0), (true, 0))
  started : Bool := false
  forwarding : Option Nat := none
  chainPort : Option (Ch × Nat) := none
  stream : List Byte := []
  chainFrom : Nat := 0
  nextSeg : Nat := 0
  refused : Bool := false
  firmware : Digest := 0
  fabric : Digest := 0
  deriving DecidableEq, Repr

/-- States of the twin referee (R327). -/
inductive RefState where
  | idle | armed | retry | repair | verify | degraded
  deriving DecidableEq, Repr

/-- The other member of a MIRRORED pair (MOD_PAIR_STATUS.OTHER). -/
inductive Other where
  | paired | lost | left | joining
  deriving DecidableEq, Repr

/-- The mode and the recovery controllers of the host die (14_modes_and_recovery.md). `rejoin` is the residue of a rejoin that runs;
`twinLastAt` the time of the last TWIN message. -/
structure ModeSt where
  mode : Mode := .split
  referee : RefState := .idle
  unresolvedAt : Option Nat := none
  cabinet : Nat := 0x7F
  seqLostA : Bool := false
  seqLostB : Bool := false
  refLost : Bool := false
  rejoin : Option Nat := none
  rejoinTested : Bool := false
  primary : Bool := false
  partner : Bool := false
  solo : Bool := false
  left : Bool := false
  other : Other := .paired
  confirmed : BitVec 48 := 0
  sigs : List (BitVec 48 × Nat × List Word64) := []
  inputs : List (BitVec 48 × Nat × Nat × List (Nat × Word64)) := []
  residue : Nat := 0
  precopy : Bool := false
  final : Bool := false
  descriptor : List Byte := []
  twinLastAt : Nat := 0
  mismatchAt : Option (BitVec 48) := none
  pairPrimary : KV Nat := []
  deriving DecidableEq, Repr

/-- A SET_POWER under way for a channel (R402). -/
structure Walk where
  target : PState
  sp : Nat
  ring : RingNo
  tag : Tag
  deriving DecidableEq, Repr

/-- The power of one channel (R400-R407). -/
structure ChPower where
  state : PState := .standby
  sp : Nat := 0
  walk : Option Walk := none
  deriving DecidableEq, Repr

/-- The supply (18_power_and_package.md). `phases` are the spares left of the six groups, in register order; `dieTemp` the last reading of a
die's hottest sensor and `warned` the die whose rise TEMP_WARN reported. -/
structure PwrSt where
  aux : Bool := true
  input : Bool := true
  pwrEn : Bool := true
  a : ChPower := {}
  b : ChPower := {}
  hostOn : Bool := true
  latched : Bool := false
  cause : BitVec 4 := 0
  site : Byte := 0
  scope : Nat := 0
  count : Nat := 0
  inputLost : Option Nat := none
  phases : KV Nat := []
  limitA : BitVec 3 := 0
  limitB : BitVec 3 := 0
  warned : Option Nat := none
  dieTemp : KV (BitVec 8) := []
  deriving DecidableEq, Repr

/-- A module entry of the topology table (R218). -/
structure TopoMod where
  kind : Nat
  pair : Nat
  proxy : Nat
  serial : BitVec 64
  deriving DecidableEq, Repr

/-- A link entry of the topology table (R218). -/
structure TopoLink where
  modA : Nat
  endA : Nat
  modB : Nat
  endB : Nat
  use : Nat
  rate : Nat
  deriving DecidableEq, Repr

/-- The topology table in force (R218, R219). -/
structure Topo where
  systemId : BitVec 64
  mods : List TopoMod
  links : List TopoLink
  hash : Digest
  identity : Nat
  deriving DecidableEq, Repr

/-- A selection of a probe pin (R370): mode 0 off, 1 SIGNAL, 2 STROBE; the design and signal it shows; its level. -/
structure Pin where
  mode : Nat := 0
  design : Nat := 0
  signal : Nat := 0
  level : Bool := false
  deriving DecidableEq, Repr

/-- A persistent store (R347-R349). -/
structure Store where
  sparesLeft : Nat := 256
  noSpare : Bool := false
  retired : Nat := 0
  blocks : List Nat := []
  deriving DecidableEq, Repr

/-- What is fixed for the part (R1, R28-R30). The defaults are one part, a PD-7420 of variant G, bin N, stepping 1, serial number 1 with both
guests fitted: the manual gives these fields 'per part', and the part is the model's choice (DESIGN CHOICE, log entry 5). -/
structure Ident where
  twoCh : Bool := true
  variantG : Bool := true
  binF : Bool := false
  ll : Bool := false
  stepping : Byte := 1
  serial : BitVec 64 := 1
  guestA : Bool := true
  guestB : Bool := true
  reduced : Bool := false
  deriving DecidableEq, Repr

/-- Device ID in the configuration space (R224). -/
def Ident.deviceId (i : Ident) : BitVec 16 := if i.twoCh then 0x7420#16 else 0x7410#16

/-- Class code in the configuration space: processing accelerator (R224). -/
def classCode : Nat := 0x120000

end Sys2Proof.Machine
end

