-- ==== Sys2Proof/Machine/Parts2.lean ====
section
/-! DEFINITION. The parts of the state that belong to a channel and its hub: HBM, fabric, guest, Velvin Link, message
ports, scheduler, capture, trace, time, self-test. The field defaults are the reset values. -/

namespace Sys2Proof.Machine

open Sys2Proof

/-- An entry of the frame write buffer (R146): the design and partition, whether its frame is committed and since when (R150), and the
bytes. -/
structure WEntry where
  design : Nat
  partition : Nat
  committed : Bool
  step : Nat
  port : Nat
  addr : Nat
  data : List Byte
  since : Nat := 0
  deriving DecidableEq, Repr

/-- An array HBM read in flight (R145): who asked, for which attempt, where its words go, and the bytes it reads (R147); `pool` says that
its tag is one of the shared pool (R144), `refreshed` that a refresh has stalled it (R151). -/
structure HRead where
  design : Nat
  cab : Nat
  num : Nat := 0
  attempt : Nat
  frame : Nat
  step : Nat
  port : Nat
  addr : Nat
  size : Nat
  lbo : Nat
  data : List Byte
  issuedAt : Nat
  pool : Bool := false
  refreshed : Bool := false
  deriving DecidableEq, Repr

/-- A MAC check outstanding on data used before it (R83, R284). `link` is the port of a sealed group, and `frame` the frame that consumes its
record. Without `link` it is on the landing words from `lbo` on that a read of `frame` brought: `used` is the frame that took one of
them, and `failed` says that the check failed before any frame did. -/
structure MacCheck where
  design : Nat
  cab : Nat
  attempt : Nat
  frame : Nat
  addr : Nat
  link : Option Nat
  lbo : Nat := 0
  words : Nat := 0
  used : Option Nat := none
  failed : Bool := false
  deriving DecidableEq, Repr

/-- A split-counter node (R281): the major counter and the 64 minors. -/
structure Node where
  major : Nat := 0
  minors : KV Nat := []
  deriving DecidableEq, Repr

/-- A partition slot of the image copy (R122, R160): its slot key, the design that it belongs to (for a load in progress 256 plus the load's
lowest partition), the decrypted body as streamed, and the tiles and programs of its partition. -/
structure ImageSlot where
  key : BitVec 64 := 0
  design : Nat := 0
  body : List Byte := []
  tiles : KV (BitVec 1440) := []
  ports : KV (BitVec 128) := []
  memops : KV (BitVec 192) := []
  deriving DecidableEq, Repr

/-- The HBM controller and stack (06_hbm_design_memory.md). `sparePos` is the pointer of a sparing copy, as a block position (R156);
`images` the partition slots of the image copy (R160); `staging` the sections staged in the hub region, each with the design or load
it belongs to (as in `images`) and its TYPE (R161). -/
structure HbmSt where
  mem : Memory := []
  poison : List Nat := []
  integrity : Bool := true
  ring : Nat := 3
  hot : Bool := false
  panic : Bool := false
  sparing : Option Nat := none
  waitSparing : List Nat := []
  replaced : Option Nat := none
  noSpare : Bool := false
  uncorr : KV Nat := []
  wbuf : List WEntry := []
  reads : List HRead := []
  macs : List MacCheck := []
  tree : KV Node := []
  lost : List (Nat × Nat) := []
  fails : List Nat := []
  sparePos : Nat := 0
  images : KV ImageSlot := []
  staging : List (Nat × Nat × List Byte) := []
  deriving DecidableEq, Repr

/-- A flit on its way out (R168): its virtual channel, 4 for one of the link itself, which takes no credit (R166); the DESIGN tag of its
packet; its bits; and whether it ends its packet. -/
structure TxFlit where
  vc : Nat
  tag : Nat
  flit : BitVec 256
  last : Bool
  deriving DecidableEq, Repr

/-- A packet at an input of a router or crossbar (R166, R170): input, virtual channel, the output that it asks for, DESIGN tag, urgency base,
age, the flits that have arrived and not passed, and how many are still to arrive. `granted` holds the output; `begun`: its head has passed. -/
structure Flow where
  input : Nat
  vc : Nat
  out : Nat
  tag : Nat
  base : Nat
  age : Nat
  flits : List (BitVec 256)
  left : Nat
  granted : Bool := false
  begun : Bool := false
  deriving DecidableEq, Repr

/-- The end of a fabric link on one side (R166, R171, R172, R176-R178). It receives: the sequence number expected next, the failures of that
flit in a row, whether a check has followed the first four, whether a NAK stands, the body flits to discard of a packet not taken; the data
lanes and sideband lanes mapped to spares, and what the far side reports of its own. It sends: the next sequence number, the flits that wait,
the replay buffer oldest first, the flits of each virtual channel that hold credits, the credits to give back, whether a packet is half sent,
and every unit interval sent, sideband word and flit. `check`: 0 no lane check, 1 training and PRBS-7, 2 the maps are exchanged, with what has
been seen of the far map and of its acknowledgement (R177). Last the next wire to rotate, the freed wire under test, and for a group the
wire, plus 1, that serves as its spare since it was freed (R340). -/
structure FLink where
  next : Nat := 0
  fails : Nat := 0
  checked : Bool := false
  nak : Bool := false
  failed : Bool := false
  drop : Nat := 0
  lanes : List Nat := []
  sbLanes : List Nat := []
  outSpares : Nat := 0
  outSb : Bool := false
  check : Nat := 0
  mapSeen : Bool := false
  mapAcked : Bool := false
  seq : Nat := 0
  queue : List TxFlit := []
  replay : List TxFlit := []
  used : KV Nat := []
  owed : KV Nat := []
  mid : Bool := false
  sent : List (BitVec 16 × BitVec 256) := []
  nextWire : Nat := 0
  testing : Option Nat := none
  spareAt : KV Nat := []
  deriving DecidableEq, Repr

/-- Counters of a fabric initiator (R179). -/
structure InitStat where
  bytes : Nat := 0
  mem : KV Nat := []
  value : KV Nat := []
  deriving DecidableEq, Repr

/-- The fabric of a channel (07_velvin_fabric.md): its links, the packets at inputs in order of arrival, the input last granted at each output,
the counters of its initiators, the flits in the cross-channel bridge toward the other channel, and the packets that have reached a Cabinet
or a unit of the hub and are not yet taken. -/
structure FabSt where
  links : KV FLink := []
  flows : List Flow := []
  lastIn : KV Nat := []
  stats : KV InitStat := []
  across : List TxFlit := []
  landed : List (Nat × List (BitVec 256)) := []
  deriving DecidableEq, Repr

/-- The guest port of a hub (R181-R186): register groups, the exchange under way, whether one has followed the rise of GUEST_RST_N, and the
payloads received and not yet taken. `phase`: 0 idle, 1 GIN sent, 2 pulses driven and GOUT awaited. -/
structure GuestSt where
  rails : Bool := false
  fault : Bool := false
  rstLow : Bool := true
  late : Bool := false
  owner : Option Nat := none
  failed : Bool := false
  disabled : Bool := false
  gin : KV (BitVec 16) := []
  gout : KV (BitVec 16) := []
  haveOut : List Nat := []
  phase : Nat := 0
  cycle : Nat := 0
  pulses : Nat := 0
  exchanged : Bool := false
  rx : List (BitVec 224) := []
  deriving DecidableEq, Repr

/-- Port states (R194). -/
inductive PortState where
  | disabled | acquire | deskew | waitRemote | up | failed
  deriving DecidableEq, Repr

/-- Lane receive states (R193). -/
inductive LaneState where
  | acquire | hunt | locked
  deriving DecidableEq, Repr

/-- A physical lane (R188, R189, R193, R201-R203): the blocks it has sent; the histories of its scrambler and its descrambler, the last 58
scrambled bits sent and received; the last 31 bits of the PRBS-31 sequence sent, and received in a row of TEST blocks; the mismatched TEST
blocks of the test that runs. The histories at reset are the model's choice (log entry 34). -/
structure Lane where
  state : LaneState := .acquire
  noSignal : Bool := false
  testing : Bool := false
  failed : Bool := false
  mismatches : Nat := 0
  sent : List (BitVec 66) := []
  scrambler : BitVec 58 := 0
  descrambler : BitVec 58 := 0
  prbs : BitVec 31 := BitVec.allOnes 31
  rxPrbs : Option (BitVec 31) := none
  deriving DecidableEq, Repr

/-- What a port sends besides flits of messages. -/
inductive Sent where
  | ack (seq freed0 freed1 : Nat)
  | nak (seq freed0 freed1 : Nat)
  | resync (seq freed0 freed1 : Nat)
  | fault (reason : Nat)
  | am (ams : List (Nat × BitVec 56))
  | fill
  | resend (flits : List (BitVec 256))
  | value (dst : Nat) (frame : BitVec 48) (recs : List LinkRec)
  | mem (dst : Nat) (m : MemMsg)
  | msg (dst : Nat) (m : PortMsg)
  | forward (dst : Nat) (vc1 : Bool) (bodies : List (BitVec 208)) (arrived : Nat)
  | hello (port channel : Nat) (hash : BitVec 192)
  | runStart (dst : Nat) (frame : BitVec 48) (launch : Nat)
  | stopAt (dst : Nat) (frame : BitVec 48)
  | slotHome (dst : Nat) (map : BitVec 512)
  | pairPrimary (dst member : Nat)
  | auth (subcode : Nat) (content : List Byte)
  | chainData (offset : Nat) (data : List Byte)
  | chainEnd (length : Nat)
  | chainStatus (index status : Nat)
  | time (dst msgtype : Nat) (m : TimeMsg)
  | announce (dst : Nat) (m : TimeMsg) (ds : Dataset)
  | trig (dst unit : Nat) (frame : BitVec 48) (time : BitVec 64)
  | twinHeartbeat
  | twinSignature (frame : BitVec 48) (first : Nat) (sigs : List Word64)
  | twinInput (frame : BitVec 48) (port kind : Nat) (writes : List (Nat × Word64))
  | confirm (frame : BitVec 48) (mask : BitVec 128)
  | twinFault
  | twinState (frame : BitVec 48) (offset : Nat) (data : List Byte)
  | trace (stream rseq : Nat) (data : List Byte)
  deriving DecidableEq, Repr

/-- A link authentication under way (R285); `own` is this side's ephemeral key. -/
structure Auth where
  initiator : Bool
  accepted : Bool
  own : BitVec 64
  deriving DecidableEq, Repr

/-- A DATA or SEAL flit that the sender keeps until an ACKSEQ covers it (R208); the last flit of a message names the message. -/
structure KeptFlit where
  seq : Nat
  flit : BitVec 256
  msg : Option Sent
  deriving DecidableEq, Repr

/-- A DATA flit as the receiver holds it: the flit, whether it was resent (R215), the raw value at its arrival. -/
structure RxFlit where
  flit : BitVec 256
  resent : Bool
  arrived : Nat
  deriving DecidableEq, Repr

/-- A message that has arrived whole (R213): the bodies of its flits, its VC, whether its head flit was resent, the raw value at the arrival of
that flit (R215). -/
structure Heard where
  bodies : List (BitVec 208)
  vc1 : Bool
  resent : Bool
  arrived : Nat
  deriving DecidableEq, Repr

/-- A Velvin Link port: lanes layer (R190-R205) and traffic layer (R206-R223, R285, R286). `expPort` is the PORT that its AMs must show,
`remotePort` what the last valid one showed; `farFault` the REASON of the last FAULT column since an AM; `elastic` the columns by which the
elastic buffer stands above its midpoint (R192); `repairs` the logical lanes whose repair waits (R202); `health` the logical lanes of a lane
health check, the one under check first (R209), `healthSw` whether it has switched one.

The sender: `unacked` are the flits kept for replay, `queue` and `queue1` the messages that wait for room on VC 0 and VC 1, `sent0`, `sent1`
the DATA flits sent, `far0`, `far1` those that the far end has freed, `groupOpen` the flits of the open group. The receiver: `failSeq` is the
SEQ that failed last, `rxHigh` the highest SEQ seen, `nakHigh` that before the last NAK (R215), `rxEpoch` the epoch modulo 4 of the last group that verified,
`groupRx` the flits of the group not yet verified, `early` how many of its VALUE messages have been used, `part0`, `part1` the flits of a message
not yet whole, `inbox` the messages that no command has taken up, `freed0`, `freed1` the flits of buffer freed, `told0`, `told1` those that the
last LINKCTL flit told (R207, R208). `sent` lists all that the port has sent. -/
structure VPort where
  state : PortState := .disabled
  width4 : Option Nat := none
  amSeq : BitVec 16 := 0
  rxOk : Bool := false
  remoteRxOk : Bool := false
  badAm : KV Nat := []
  badRx : Nat := 0
  lastAm : BitVec 16 := 0
  remoteModule : Nat := 0
  remotePort : Nat := 0
  expPort : Nat := 0
  farFault : Nat := 0
  elastic : Int := 0
  repairs : List Nat := []
  rxReq : Option (Nat × Nat × Bool) := none
  rxSwitched : Bool := false
  txReq : Option (Nat × Nat × Bool) := none
  nextRotate : Nat := 0
  rotating : Option (Nat × Nat) := none
  rxNext : Nat := 0
  nak : Bool := false
  fails : Nat := 0
  checked : Bool := false
  failSeq : Nat := 0
  rxEpoch : Nat := 0
  health : List Nat := []
  healthSw : Bool := false
  sinceAck : Nat := 0
  freed0 : Nat := 0
  freed1 : Nat := 0
  told0 : Nat := 0
  told1 : Nat := 0
  txNext : Nat := 0
  txAcked : Nat := 4095
  sent0 : Nat := 0
  sent1 : Nat := 0
  far0 : Nat := 0
  far1 : Nat := 0
  unacked : List KeptFlit := []
  queue : List Sent := []
  queue1 : List Sent := []
  groupOpen : List (BitVec 256) := []
  groupTx : Nat := 0
  rxHigh : Option Nat := none
  nakHigh : Option Nat := none
  groupRx : List RxFlit := []
  groupRxNext : Nat := 0
  early : Nat := 0
  part0 : List RxFlit := []
  part1 : List RxFlit := []
  inbox : List Heard := []
  sealFails : Nat := 0
  keys : Option (BitVec 64 × Nat) := none
  nextKeys : Option (BitVec 64 × Nat) := none
  updating : Bool := false
  groupsInEpoch : Nat := 0
  auth : Option Auth := none
  helloOk : Bool := false
  traffic : Bool := false
  out : Bool := false
  chain : Bool := false
  needResync : Bool := false
  sent : List Sent := []
  deriving DecidableEq, Repr

/-- A MEM request of this module that awaits its response (R222). -/
structure MemReq where
  tag : Nat
  ring : RingNo
  cmd : Tag
  deriving DecidableEq, Repr

/-- The link unit of a hub (R216, R217, R222): which remote slots HUB-B serves, the VALUE messages that wait for SLOT_HOME and those of
the last two committed frames, each with its design tag and its remote module, MEM requests, MEM writes that wait for a stop (R149). -/
structure LinkSt where
  homes : KV (BitVec 512) := []
  haveHome : List Nat := []
  waiting : List (Nat × Nat × BitVec 48 × List LinkRec) := []
  mem : List MemReq := []
  resend : List (Nat × Nat × BitVec 48 × List LinkRec) := []
  memWait : List MemMsg := []
  deriving DecidableEq, Repr

/-- The eye-margin scanner (R200). -/
structure ScanSt where
  busy : Bool := false
  lane : Nat := 0
  h : BitVec 7 := 0
  v : Byte := 0
  deriving DecidableEq, Repr

/-- What a dispatched or waiting unit of the scheduler does (R259, R260): a delivery or a write-out of a port, `n` packets of a work item from
packet `first` on, or a load of the module's own. -/
inductive Work where
  | intake (port : Nat)
  | outlet (port : Nat)
  | item (ring : RingNo) (tag : Tag) (first n : Nat)
  | module (ring : RingNo) (tag : Tag)
  | compress
  deriving DecidableEq, Repr

/-- A unit that waits for an engine, or runs on one (R260, R261). -/
structure WorkUnit where
  group : Nat
  work : Work
  deriving DecidableEq, Repr

/-- A message engine (R257, R264, R343); `lost`: a packet of its unit was lost with a link (R173). -/
structure Engine where
  spare : Bool := false
  busy : Option WorkUnit := none
  disabled : Bool := false
  failed : Bool := false
  lost : Bool := false
  deriving DecidableEq, Repr

/-- The scheduler of a hub (R260-R262). `owners` are the owners of the groups in the present round; what is not listed is the operator. -/
structure SchedSt where
  engines : KV Engine := []
  waiting : List WorkUnit := []
  credits : KV Nat := []
  owners : KV Nat := []
  last : Nat := 7
  deriving DecidableEq, Repr

/-- An intake message accepted and not delivered (R250, R256). -/
structure InMsg where
  ring : RingNo
  tag : Tag
  cring : Nat
  fence : Bool
  data : List Byte
  order : Nat
  deriving DecidableEq, Repr

/-- An outlet record released and not written out (R252, R256). -/
structure OutRec where
  fence : Bool
  data : List Byte
  release : Nat
  deriving DecidableEq, Repr

/-- A window in cabinet memory (R247, R248): logical Cabinet, first word, data-area size, RESERVE. -/
structure Window where
  cab : Nat
  word : Nat
  size : Nat
  reserve : Nat
  deriving DecidableEq, Repr

/-- A message port (R246-R256). `gone` lists the sequence numbers above the next one that messages refused or aborted before their turn have
consumed (R254). -/
structure MPort where
  design : Option Nat := none
  image : Nat := 0
  group : Nat := 0
  inRing : Option RingNo := none
  outRing : Option RingNo := none
  inWin : Option Window := none
  outWin : Option Window := none
  mseqIn : BitVec 64 := 0
  gone : List (BitVec 64) := []
  mseqOut : BitVec 64 := 0
  accepted : List InMsg := []
  released : List OutRec := []
  written : Nat := 0
  readTo : Nat := 0
  disabled : Bool := false
  holding : Bool := false
  deriving DecidableEq, Repr

/-- A record or packet of a stream (R351, R354, R373): the stream's TYPE and ID, the tenant slot that owns it, its NONCE and IMAGE_ID, its tick,
the frame number of its design then, its bytes. `packed` is the compressed form of a record that an engine has yet to compress (R356). -/
structure StreamRec where
  type : Nat
  id : Nat
  slot : Nat
  nonce : BitVec 64
  image : BitVec 64
  tick : Nat
  frame : Nat := 0
  bytes : List Byte
  packed : Option (List Byte) := none
  deriving DecidableEq, Repr

/-- A finished block of a stream (R354): type, ID, payload, BSEQ; `pos` is its place in the capture ring in 64-byte units. -/
structure Block where
  type : Nat
  id : Nat
  bseq : Nat
  nonce : BitVec 64
  image : BitVec 64
  payload : List Byte
  lost : Bool
  pos : Nat := 0
  deriving DecidableEq, Repr

/-- Capture of a hub (R356-R360). `fifo` are the records staged; `ringBlocks` the blocks in the capture ring; `active` is the delivery mode
in force, true for PULL; `bseq` gives the next BSEQ of a stream. -/
structure AcqSt where
  fifo : List StreamRec := []
  ringBlocks : List Block := []
  produced : Word32 := 0
  ringPos : Nat := 0
  active : Bool := false
  disabled : Bool := false
  full : Bool := false
  holding : Bool := false
  bseq : KV Nat := []
  deriving DecidableEq, Repr

/-- Trace of a hub (R372-R377). `staged` holds the packets that wait for a block; `lost` and `lastTick` give for
a stream the packets lost since its last OVERFLOW and the tick of its last packet sent; `unreported` are those lost since the last
TRACE_OVERFLOW event. `portOut` are the words that the parallel port has carried, each with its TRACE_CTL (R371). -/
structure TrcSt where
  staged : List StreamRec := []
  lost : KV Nat := []
  lastTick : KV Nat := []
  produced : Word32 := 0
  disabled : Bool := false
  overflowMs : Option Nat := none
  unreported : Nat := 0
  bseq : KV Nat := []
  rseq : KV Nat := []
  portOut : List (Bool × Word32) := []
  schedNonce : KV (BitVec 64) := []
  deriving DecidableEq, Repr

/-- A state entry of a trigger program (R363). -/
structure TrigState where
  cond : Nat
  arg : Nat
  next : Nat
  fire : Bool
  count : Nat
  deriving DecidableEq, Repr

/-- A trigger unit (R362-R364). -/
structure TrigUnit where
  design : Option Nat := none
  cmp : Nat := 0
  out : Nat := 0
  threshold : Nat := 0
  value : BitVec 256 := 0
  mask : BitVec 256 := 0
  states : List TrigState := []
  signals : List Nat := []
  state : Nat := 0
  counter : Nat := 0
  fired : Bool := false
  prev : BitVec 256 := 0
  deriving DecidableEq, Repr

/-- A trace range (R374). -/
structure TraceRange where
  design : Option Nat := none
  mode : Nat := 0
  space : Nat := 0
  place : Nat := 0
  ops : Nat := 0
  low : Nat := 0
  high : Nat := 0
  deriving DecidableEq, Repr

/-- States of a time view (TIM_VIEW_STATUS). -/
inductive ViewState where
  | disabled | running | acquiring | locked | holdover | refused
  deriving DecidableEq, Repr

/-- A time view of 0-5 (R380-R388), or of 6 and 7 (R386: `v0`, `r0`, `inc`). Times are in 2^-32 ns. -/
structure View where
  rate : Int := 0
  offset : Int := 0
  state : ViewState := .disabled
  stepped : Bool := false
  master : Nat := 0
  port : Nat := 0
  hasMaster : Bool := false
  best : Option Dataset := none
  lastOffset : Int := 0
  delays : List Int := []
  syncs : List (Int × Int) := []
  reqAt : Option (Nat × Int) := none
  seq : BitVec 16 := 0
  v0 : Int := 0
  r0 : Int := 0
  inc : Nat := 0
  deriving DecidableEq, Repr

/-- A launch entry (R389). -/
structure Launch where
  tenant : Bool
  kind : Nat
  view : Nat
  lines : Nat
  message : Bool
  time : Nat
  partition : Nat
  ring : RingNo
  tag : Tag
  armed : Bool
  deriving DecidableEq, Repr

/-- A TRIG line at a hub (R394-R396): last accepted edge and its stamp in view 0, edges acted on and not yet counted, end of this hub's pulse. -/
structure Line where
  last : Option Nat := none
  stamp : Option Int := none
  edges : List Nat := []
  pulseEnd : Option Nat := none
  deriving DecidableEq, Repr

/-- Time of a hub (17_time.md). `marks` are the TRIG messages that wait for a commit: design tag, sender, unit, event time (R365). -/
structure TimeSt where
  raw : BitVec 96 := 0
  views : KV View := []
  frac : KV Word32 := []
  launches : KV (Option Launch) := []
  lines : KV Line := []
  sysclk : Bool := false
  osc : Nat := 0
  oscFailed : Bool := false
  marks : List (Nat × Nat × Nat × BitVec 64) := []
  deriving DecidableEq, Repr

/-- A physical Bench (R57-R62): physical cells failed, what the two spares carry (BENCH_SPARE coding),
retirement, the clock plus 1 at the last reload of each physical cell. -/
structure BenchSt where
  failed : List Nat := []
  spare0 : Nat := 0x7F
  spare1 : Nat := 0x7F
  retired : Bool := false
  reloads : KV Nat := []
  deriving DecidableEq, Repr

/-- A march under way (R135): 0 DESTRUCTIVE, 1 PRESERVING. -/
structure March where
  run : Nat
  design : Option Nat
  deriving DecidableEq, Repr

/-- A physical Cabinet. `spareBench` is the logical Bench that physical Bench 16 carries; `corrected` the words whose last read was
corrected (R134). -/
structure PhysCab where
  failed : Bool := false
  march : Option March := none
  marchFailed : Bool := false
  failBank : Nat := 0
  failWord : Nat := 0
  corrected : List Nat := []
  repairDue : Bool := false
  spareBench : Option Nat := none
  benches : KV BenchSt := []
  drift : BitVec 16 := 0
  measured : Bool := false
  lastPass : Nat := 0
  configBad : Bool := false
  deriving DecidableEq, Repr

/-- States of the rolling test of a die (BST_DIE_STATUS). -/
inductive SliceState where
  | idle | preload | waitBoundary | swap | test
  deriving DecidableEq, Repr

/-- An array die (R24-R26, R333-R345): the map from die index to physical Cabinet where it differs from the identity. -/
structure DieSt where
  cabs : KV PhysCab := []
  map : KV (Option Nat) := []
  standing : Option Nat := some 0x21
  rotating : Option Nat := some 0x20
  slice : SliceState := .idle
  next : Nat := 0
  chosen : Option Nat := none
  freed : Option Nat := none
  freedFrame : Nat := 0
  freedOwner : Nat := 0
  retired0 : Bool := false
  retired1 : Bool := false
  reported : Bool := false
  patrolStopped : Bool := false
  disagreeAt : List Nat := []
  deriving DecidableEq, Repr

/-- The health record of a channel (R318): times of lasting and transient faults, spare Cabinets used. -/
structure Health where
  lasting : List Nat := []
  transient : List Nat := []
  spares : Nat := 0
  deriving DecidableEq, Repr

/-- A channel with its hub. -/
structure Channel where
  fenced : Bool := false
  seq : Nat := 0
  seqCab : Nat := 0x7F
  holding : Bool := false
  refLost : Bool := false
  health : Health := {}
  hutch : Hutch := {}
  ranges : KV KRange := []
  hbm : HbmSt := {}
  fab : FabSt := {}
  guest : GuestSt := {}
  ports : KV VPort := []
  lanes : KV Lane := []
  rxMap : KV Nat := []
  txMap : KV Nat := []
  scan : ScanSt := {}
  link : LinkSt := {}
  sched : SchedSt := {}
  mports : KV MPort := []
  acq : AcqSt := {}
  units : KV TrigUnit := []
  tranges : KV TraceRange := []
  trc : TrcSt := {}
  time : TimeSt := {}
  dies : KV DieSt := []
  store : Store := {}
  firmware : Bool := false
  mapLost : Bool := false
  lastHold : Nat := 0
  deriving DecidableEq, Repr

end Sys2Proof.Machine
end

