-- ==== Sys2Proof/Machine/Parts3.lean ====
section
/-! DEFINITION. The parts of the state that belong to the array: cells, Cabinets, loaded designs, loads in progress. The
field defaults are the values at load. -/

namespace Sys2Proof.Machine

open Sys2Proof

/-- The data store of a logical cell (R33-R35, R43): result slots, landing slots, the two state banks and which is current,
the written mask with its copy at the frame's start, and, for the hazard detector (R105), the landing slots captured in this attempt. -/
structure Cell where
  res : BitVec 2048 := 0
  land : BitVec 1024 := 0
  bank0 : BitVec 512 := 0
  bank1 : BitVec 512 := 0
  cur : Bool := false
  mask : BitVec 512 := 0
  mask0 : BitVec 512 := 0
  landW : BitVec 1024 := 0
  deriving DecidableEq, Repr

/-- Values in the inbound staging of a Cabinet (R68): the step and lane group they are for. -/
structure InVal where
  step : Nat
  group : Nat
  values : BitVec 16
  deriving DecidableEq, Repr

/-- A word in the return staging (R66, R70). -/
structure RetVal where
  step : Nat
  slot : Nat
  word : Word64
  deriving DecidableEq, Repr

/-- A memory-op access that its bank has not granted yet, with its bank operation code, the word it returns and the bank cycles
that it has waited (R72, R126-R128). An unload has address 2^17 and up. -/
structure MemRet where
  cab : Nat
  addr : Nat
  port : Nat
  op : Nat
  ret : Option RetVal
  wait : Nat
  deriving DecidableEq, Repr

/-- A VALUE packet in flight (R68, R169). -/
structure VPacket where
  src : Nat
  dst : Nat
  tag : Nat
  step : Nat
  group : Nat
  values : BitVec 16
  attempt : Nat
  frame : Nat
  deriving DecidableEq, Repr

/-- A hazard, or a break (kind 0), found in a frame (R50, R105). -/
structure Hazard where
  step : Nat
  place : Nat
  kind : Nat
  what : Nat
  deriving DecidableEq, Repr

/-- A memory-op access kept for data trace (R373, R374): step, tick, Cabinet, port, OP, space, place, address, value words. -/
structure Access where
  step : Nat
  tick : Nat
  cab : Nat
  port : Nat
  op : Nat
  space : Nat
  place : Nat
  addr : Nat
  size : Nat
  words : List Word64
  deriving DecidableEq, Repr

/-- A logical Cabinet of a design. `next` is the next step to begin; an undo entry is (bank, word address, old word). `reload` lists the
tiles of the frame in progress, as (Bench, cell, tile), whose check has not passed, and `later` those of the frames that follow, each with
the number of frames ahead (R54-R56). -/
structure CabSt where
  next : Nat := 0
  lastStep : Nat := 0
  mem : KV Word64 := []
  undo : List (Nat × Nat × Word64) := []
  landing : KV Word64 := []
  invalid : List Nat := []
  vals : List InVal := []
  rets : List RetVal := []
  addrG : KV Word64 := []
  dataG : KV Word64 := []
  filledA : List Nat := []
  filledD : List Nat := []
  window : List Nat := []
  taps : List Bool := []
  tapCount : Nat := 0
  toggles : Nat := 0
  crc : Word64 := 0xFFFFFFFFFFFFFFFF#64
  sum : Nat := 0
  prevBody : List Byte := []
  sinceFull : Nat := 0
  truncated : Bool := false
  reload : List (Nat × Nat × Nat) := []
  later : List (Nat × Nat × Nat × Nat) := []
  outputs : List (Nat × Nat × BitVec 16) := []
  overrun : Bool := false
  deriving DecidableEq, Repr

/-- States of a partition (R307). -/
inductive PartState where
  | empty | loading | stopped | running | stopping | unloading | fenced
  deriving DecidableEq, Repr

/-- A RUN or STEP under way (R236): frames left (none for no end), whether it waits for a launch. -/
structure RunRec where
  ring : RingNo
  tag : Tag
  left : Option Nat
  waitLaunch : Bool
  deriving DecidableEq, Repr

/-- A stop that waits for the next commit (R236, R80). -/
structure StopReq where
  ring : RingNo
  tag : Tag
  unload : Bool
  answer : Bool
  deriving DecidableEq, Repr

/-- The parameters of the HEADER section and of the outer header that the module keeps after a load (R108, R109). -/
structure Header where
  frameLen : Nat
  phases : Nat
  pclass : List Nat
  regions : Nat
  slots : Nat
  msgPorts : Nat
  guestGroups : Nat
  imageId : BitVec 64
  keyId : Nat
  modules : Nat
  topoHash : BitVec 192
  mask : Nat
  deriving DecidableEq, Repr

/-- An HBM region resolved in one channel (R117): first byte, bytes, key range. -/
structure Region where
  index : Nat
  side : Nat
  base : Nat
  bytes : Nat
  range : Nat
  deriving DecidableEq, Repr

/-- A link slot bound by a patch (R117, R216). -/
structure SlotBind where
  slot : Nat
  remote : Nat
  remoteSlot : Nat
  deriving DecidableEq, Repr

/-- A record of PROBEMAP (after R112). -/
structure Probe where
  signal : Nat
  cab : Nat
  bench : Nat
  cell : Nat
  step : Nat
  deriving DecidableEq, Repr

/-- A record of RESETMAP. -/
structure Reset where
  cab : Nat
  bench : Nat
  cell : Nat
  value : Bool
  sti : Nat
  deriving DecidableEq, Repr

/-- Capture of a design in its channel (R360, R367, R378). -/
structure Capture where
  on : Bool := false
  drop : Bool := false
  compress : Bool := false
  activity : Bool := false
  interval : Nat := 1
  deriving DecidableEq, Repr

/-- A capture stream of a design in one channel (R360, R365-R368): frames dropped since the last MARK and in the present run of
drops, whether the present interval holds a re-run, the activity and the end of the last whole interval; data trace of the design there
(R374), with the RATE packets of the frame in progress, each with its step and tick (R376); the raw time of its last commit step 5 (R396). -/
structure CapCh where
  dead : Nat := 0
  dropRun : Nat := 0
  rerun : Bool := false
  prevA : Option Nat := none
  prevT : BitVec 64 := 0
  traceAll : Bool := false
  tracing : Bool := true
  rates : List (Nat × Nat × List Byte) := []
  step5 : Nat := 0
  deriving DecidableEq, Repr

/-- A pending capture command (R378): start with its options, or stop. -/
structure CapReq where
  start : Option Capture
  deriving DecidableEq, Repr

/-- A record received for a link slot (R217): its slot, the sender's frame, whether active, its values. -/
structure LinkIn where
  src : Nat
  slot : Nat
  frame : BitVec 48
  active : Bool
  values : BitVec 16
  deriving DecidableEq, Repr

/-- The outputs of a committed frame (R84 step 5): link and guest values (Cabinet, KIND, DEST, values), the PROD of each outlet, the
pins (none for a toggle), the records of each channel, each with the compressed form that an engine is to make of it, the trace packets, each
with its tick, and the firings (unit, line, whether a message goes). -/
structure OutSet where
  frame : Nat
  stage : Nat
  outs : List (Nat × Nat × Nat × BitVec 16)
  prods : List (Nat × Nat)
  pins : List (Nat × Option Bool)
  recs : List (Ch × List Byte × Option (List Byte))
  trace : List (Ch × Nat × List Byte)
  fires : List (Ch × Nat × Option Nat × Bool)
  deriving DecidableEq, Repr

/-- A Trestle of a span (R78-R80): the steps that have clearance, whether the span is held, and whether HOLD_LONG was written for the
hold. -/
structure Trestle where
  cleared : Nat := 0
  held : Bool := false
  told : Bool := false
  deriving DecidableEq, Repr

/-- A loaded design (R66, R87-R91, R306, R307). `cells` is keyed by cab·1024 + bench·64 + cell, `code` by that key·128 + tile,
`ports` and `memops` by cab·2048 + step. `trA` is the Trestle of the span, in TWINNED of channel A's copy, and `trB` that of channel B's copy,
which steps on its own (R77, R312). `frame` counts committed frames; `flipped` says that the
commit in progress has passed its step 4 and waits at step 5 (R153). An error within the frame names its source, its Cabinet, and the Bench, bank or address. `gap` is the commit gap whose deliveries have begun: its frame, the window
words written in it and the lowest acceptance number delivered in it; `msgSeq` numbers the intake messages as they are accepted (R251, R256). -/
structure Design where
  tag : Nat
  slot : Nat
  targets : List Nat
  x : Nat
  header : Header
  nonce : BitVec 64
  digest : Digest
  regions : List Region := []
  slots : List SlotBind := []
  probes : List Probe := []
  resets : List Reset := []
  code : KV (BitVec 1440) := []
  ports : KV (BitVec 128) := []
  memops : KV (BitVec 192) := []
  cells : KV Cell := []
  cabs : KV CabSt := []
  state : PartState := .stopped
  stage : Nat := 0
  frame : Nat := 0
  attempt : Nat := 1
  trA : Trestle := {}
  trB : Trestle := {}
  begun : Bool := false
  flipped : Bool := false
  errs : List (ErrSrc × Nat × Nat) := []
  lastErr : Option (ErrSrc × Nat × Nat) := none
  repairs : List (Nat × Nat × Nat) := []
  run : Option RunRec := none
  stops : List StopReq := []
  packets : List VPacket := []
  rets : List MemRet := []
  hazards : List Hazard := []
  accesses : List Access := []
  linkIn : List LinkIn := []
  disabled : Bool := false
  verdict : Option Bool := none
  verdictMask : List Nat := []
  fencedSide : Option Ch := none
  cap : Capture := {}
  capA : CapCh := {}
  capB : CapCh := {}
  capReq : Option CapReq := none
  guests : List Ch := []
  waitPartner : Bool := false
  outQ : List OutSet := []
  sigSent : Bool := false
  twinRepaired : Bool := false
  unresolvedAt : Option Nat := none
  failover : Bool := false
  stopAfter : Option (BitVec 48) := none
  marched : Bool := false
  badState : Bool := false
  gap : Option (Nat × Nat × Nat) := none
  msgSeq : Nat := 0
  twin : Bool := false
  deriving DecidableEq, Repr

/-- A partition (R302, R307). -/
structure Part where
  owner : Nat := 0
  state : PartState := .empty
  design : Nat := 0
  retired : Bool := false
  overrunAt : Option Nat := none
  deriving DecidableEq, Repr

/-- A port direction bound by a patch (R117, R246): hub port, image-local port, direction 0 intake and 1 outlet, group, ring,
and the window that the directory gives it (R247). -/
structure PBind where
  hub : Nat
  image : Nat
  dir : Nat
  group : Nat
  ring : RingNo
  win : Option Window
  deriving DecidableEq, Repr

/-- A load in progress (R119-R122): the command, the placement, and the image in plaintext. -/
structure Load where
  ring : RingNo
  tag : Tag
  slot : Nat
  targets : List Nat
  x : Nat
  header : Header
  digest : Digest
  body : List Byte
  regions : List Region
  slots : List SlotBind
  binds : List PBind
  deriving DecidableEq, Repr

end Sys2Proof.Machine
end

