-- ==== Sys2Proof/Machine/State.lean ====
section
/-! DEFINITION. The state of the module, its faults and refusals, and the state after reset: the module right after step 4
of R290, both channels in STANDBY, no base image in force, the CXL link not yet up (log entry 2). -/

namespace Sys2Proof.Machine

open Sys2Proof

/-- Why the block stops. -/
inductive Fault where
  /-- HDM_READ or HDM_WRITE of an address outside the window of its decoder, or through decoder 1 of a PD-7410, which
  reports no capacity (R225): no such address exists. Safe: the host cannot reach it. -/
  | hdmOutside (addr : Nat)
  deriving DecidableEq, Repr

/-- Why a command has no meaning. -/
inductive Refusal where
  /-- The command has no meaning in this model yet. Safe. -/
  | notModelled (mnemonic : String)
  deriving DecidableEq, Repr

/-- The state of the module. -/
structure State where
  id : Ident := {}
  host : HostSt := {}
  regs : RegSt := {}
  sec : SecSt := {}
  base : BaseSt := {}
  mode : ModeSt := {}
  pwr : PwrSt := {}
  topo : Option Topo := none
  pins : KV Pin := []
  store : Store := {}
  hostOsc : Nat × Bool := (0, false)
  chA : Channel := {}
  chB : Channel := {}
  parts : KV Part := []
  designs : List Design := []
  loads : List Load := []
  clock : Nat := 0
  freeCtr : Nat := 0
  pending : List Instr := []
  deriving DecidableEq, Repr

/-- The state after reset. Fields not named here hold the defaults of their structures. -/
def State.reset : State where
  chA := { time := { views := [(0, { state := .running })] } }
  chB := { time := { views := [(0, { state := .acquiring })] } }

end Sys2Proof.Machine
end

