-- ==== Sys2Proof/Machine/Ops.lean ====
section
/-! DEFINITION. The named operations over the state: parts and channels, stored register bits, free values, time, events,
completions, accepted commands. Every command reaches the rings, the registers and the time through these. -/

namespace Sys2Proof.Machine

open Sys2Proof

/-! ### Parts of the state -/

/-- Update the host port. -/
def State.modHost (s : State) (f : HostSt → HostSt) : State := { s with host := f s.host }
/-- Update the registers. -/
def State.modRegs (s : State) (f : RegSt → RegSt) : State := { s with regs := f s.regs }
/-- Update the security mailbox. -/
def State.modSec (s : State) (f : SecSt → SecSt) : State := { s with sec := f s.sec }
/-- Update the base image. -/
def State.modBase (s : State) (f : BaseSt → BaseSt) : State := { s with base := f s.base }
/-- Update the mode. -/
def State.modMode (s : State) (f : ModeSt → ModeSt) : State := { s with mode := f s.mode }
/-- Update the supply. -/
def State.modPwr (s : State) (f : PwrSt → PwrSt) : State := { s with pwr := f s.pwr }

/-- A channel. -/
def State.ch (s : State) : Ch → Channel
  | .a => s.chA
  | .b => s.chB

/-- Update a channel. -/
def State.modCh (s : State) (c : Ch) (f : Channel → Channel) : State :=
  match c with
  | .a => { s with chA := f s.chA }
  | .b => { s with chB := f s.chB }

/-- Update the HBM of a channel. -/
def State.modHbm (s : State) (c : Ch) (f : HbmSt → HbmSt) : State := s.modCh c fun h => { h with hbm := f h.hbm }
/-- Update the fabric of a channel. -/
def State.modFab (s : State) (c : Ch) (f : FabSt → FabSt) : State := s.modCh c fun h => { h with fab := f h.fab }
/-- Update the guest port of a channel. -/
def State.modGuest (s : State) (c : Ch) (f : GuestSt → GuestSt) : State := s.modCh c fun h => { h with guest := f h.guest }
/-- Update the Hutch of a channel. -/
def State.modHutch (s : State) (c : Ch) (f : Hutch → Hutch) : State := s.modCh c fun h => { h with hutch := f h.hutch }
/-- Update the link unit of a channel. -/
def State.modLink (s : State) (c : Ch) (f : LinkSt → LinkSt) : State := s.modCh c fun h => { h with link := f h.link }
/-- Update the scheduler of a channel. -/
def State.modSched (s : State) (c : Ch) (f : SchedSt → SchedSt) : State := s.modCh c fun h => { h with sched := f h.sched }
/-- Update the capture of a channel. -/
def State.modAcq (s : State) (c : Ch) (f : AcqSt → AcqSt) : State := s.modCh c fun h => { h with acq := f h.acq }
/-- Update the trace of a channel. -/
def State.modTrc (s : State) (c : Ch) (f : TrcSt → TrcSt) : State := s.modCh c fun h => { h with trc := f h.trc }
/-- Update the time of a channel. -/
def State.modTime (s : State) (c : Ch) (f : TimeSt → TimeSt) : State := s.modCh c fun h => { h with time := f h.time }

/-- A Velvin Link port. -/
def State.port (s : State) (c : Ch) (p : Nat) : VPort := KV.get {} p (s.ch c).ports
/-- Update a Velvin Link port. -/
def State.modPort (s : State) (c : Ch) (p : Nat) (f : VPort → VPort) : State :=
  s.modCh c fun h => { h with ports := KV.upd {} p f h.ports }
/-- A physical lane. -/
def State.lane (s : State) (c : Ch) (l : Nat) : Lane := KV.get {} l (s.ch c).lanes
/-- Update a physical lane. -/
def State.modLane (s : State) (c : Ch) (l : Nat) (f : Lane → Lane) : State :=
  s.modCh c fun h => { h with lanes := KV.upd {} l f h.lanes }
/-- A message port of a hub. -/
def State.mport (s : State) (c : Ch) (k : Nat) : MPort := KV.get {} k (s.ch c).mports
/-- Update a message port. -/
def State.modMport (s : State) (c : Ch) (k : Nat) (f : MPort → MPort) : State :=
  s.modCh c fun h => { h with mports := KV.upd {} k f h.mports }
/-- A key range. -/
def State.range (s : State) (c : Ch) (r : Nat) : KRange := KV.get {} r (s.ch c).ranges
/-- Update a key range. -/
def State.modRange (s : State) (c : Ch) (r : Nat) (f : KRange → KRange) : State :=
  s.modCh c fun h => { h with ranges := KV.upd {} r f h.ranges }
/-- A time view. -/
def State.view (s : State) (c : Ch) (v : Nat) : View := KV.get {} v (s.ch c).time.views
/-- Update a time view. -/
def State.modView (s : State) (c : Ch) (v : Nat) (f : View → View) : State :=
  s.modTime c fun t => { t with views := KV.upd {} v f t.views }
/-- An array die of a channel. -/
def State.die (s : State) (c : Ch) (d : Nat) : DieSt := KV.get {} d (s.ch c).dies
/-- Update an array die. -/
def State.modDie (s : State) (c : Ch) (d : Nat) (f : DieSt → DieSt) : State :=
  s.modCh c fun h => { h with dies := KV.upd {} d f h.dies }
/-- A physical Cabinet. -/
def State.cab (s : State) (c : Ch) (d i : Nat) : PhysCab := KV.get {} i (s.die c d).cabs
/-- Update a physical Cabinet. -/
def State.modCab (s : State) (c : Ch) (d i : Nat) (f : PhysCab → PhysCab) : State :=
  s.modDie c d fun x => { x with cabs := KV.upd {} i f x.cabs }
/-- A physical Bench. -/
def PhysCab.bench (p : PhysCab) (b : Nat) : BenchSt := KV.get {} b p.benches
/-- Update a physical Bench. -/
def State.modBench (s : State) (c : Ch) (d i b : Nat) (f : BenchSt → BenchSt) : State :=
  s.modCab c d i fun p => { p with benches := KV.upd {} b f p.benches }
/-- The physical Cabinet that carries logical die index `i` (R24). -/
def DieSt.phys (d : DieSt) (i : Nat) : Option Nat := KV.get (some i) i d.map
/-- A ring. -/
def State.ring (s : State) (r : RingNo) : Ring := KV.get {} r s.host.rings
/-- Update a ring. -/
def State.modRing (s : State) (r : RingNo) (f : Ring → Ring) : State :=
  s.modHost fun h => { h with rings := KV.upd {} r f h.rings }
/-- A partition. -/
def State.part (s : State) (p : Nat) : Part := KV.get {} p s.parts
/-- Update a partition. -/
def State.modPart (s : State) (p : Nat) (f : Part → Part) : State := { s with parts := KV.upd {} p f s.parts }
/-- Update several partitions. -/
def State.modParts (s : State) (ps : List Nat) (f : Part → Part) : State := ps.foldl (fun s p => s.modPart p f) s
/-- The loaded design with a tag. -/
def State.design (s : State) (tag : Nat) : Option Design := s.designs.find? (fun d => d.tag == tag)
/-- Update the loaded design with a tag. -/
def State.modDesign (s : State) (tag : Nat) (f : Design → Design) : State :=
  { s with designs := s.designs.map (fun d => if d.tag = tag then f d else d) }
/-- The design that holds a partition; in TWINNED also through channel B's copy (R319). -/
def State.designAt (s : State) (p : Nat) : Option Design :=
  if (s.part p).design = 0 then none else s.design (s.part p).design
/-- The Cabinet state of a design. -/
def Design.cab (d : Design) (c : Nat) : CabSt := KV.get {} c d.cabs
/-- Update the Cabinet state of a design. -/
def Design.modCab (d : Design) (c : Nat) (f : CabSt → CabSt) : Design := { d with cabs := KV.upd {} c f d.cabs }
/-- Key of a cell in a design's tables. -/
def cellKey (cab bench cell : Nat) : Nat := cab * 1024 + bench * 64 + cell
/-- The channels of the module: one on a PD-7410 (R28-R30). -/
def State.channels (s : State) : List Ch := if s.id.twoCh then [.a, .b] else [.a]

/-! ### Stored register bits (R13, R65) -/

/-- First offset of a domain's registers. -/
def domBase (d : RegDom) (c : Ch) : Nat :=
  match d with
  | .host => 0
  | .config => 0x1000000
  | _ => 0x400000 + 0x400000 * chNum c

/-- BAR0 offset of a register (R228), with the configuration space placed above BAR0. -/
def regOff (r : Reg) (c : Ch) (idx : List Nat) : Nat := domBase r.row.dom c + r.row.base + joinDims r.row.dims idx

/-- The reset value of the stored bits of register `r` (its register table); for TIM_VIEW_CFG the reset differs by view and
hub. -/
def resetBits (r : Reg) (c : Ch) (idx : List Nat) : Word32 :=
  match r with
  | .timViewCfg => if idx = [0] then (if c = .a then 0x8080FF08#32 else 0x8080FF0B#32) else 0x8080FF00#32
  | _ => BitVec.ofNat 32 r.row.reset

/-- The stored bits of a register. -/
def State.reg (s : State) (r : Reg) (c : Ch) (idx : List Nat) : Word32 :=
  KV.get (resetBits r c idx) (regOff r c idx) s.regs.rw

/-- Store the bits of a register. -/
def State.setReg (s : State) (r : Reg) (c : Ch) (idx : List Nat) (v : Word32) : State :=
  s.modRegs fun g => { g with rw := KV.put (resetBits r c idx) (regOff r c idx) v g.rw }

/-- A counter register plus `n`, saturating at 0xFFFF_FFFF (R65 and the counter tables). -/
def satAdd (v : Word32) (n : Nat) : Word32 :=
  if v.toNat + n < 0xFFFFFFFF then BitVec.ofNat 32 (v.toNat + n) else 0xFFFFFFFF#32

/-- Count `n` in a counter register. -/
def State.countBy (s : State) (r : Reg) (c : Ch) (idx : List Nat) (n : Nat) : State :=
  s.setReg r c idx (satAdd (s.reg r c idx) n)

/-- Count 1 in a counter register. -/
def State.count (s : State) (r : Reg) (c : Ch) (idx : List Nat) : State := s.countBy r c idx 1

/-- A field of a stored register. -/
def State.regField (s : State) (r : Reg) (c : Ch) (idx : List Nat) (lo n : Nat) : Nat := field (s.reg r c idx).toNat lo n

/-! ### Free values -/

/-- The next free value (log entry 4). -/
def State.free (s : State) : BitVec 64 := Config.freeValue s.freeCtr
/-- Advance the counter of free values. -/
def State.freeNext (s : State) : State := { s with freeCtr := s.freeCtr + 1 }
/-- Several free values at once, as bytes. -/
def State.freeBytes (s : State) (n : Nat) : List Byte :=
  (List.range n).map (fun i => (Config.freeValue (s.freeCtr + i)).setWidth 8)

/-! ### Time (R379-R381, R386) -/

/-- A view read at a raw value, in 2^-32 ns (R380, R386). -/
def viewAt (v : Nat) (x : View) (raw : Nat) : Int :=
  if v < 6 then (if x.state = .disabled then 0 else (raw : Int) + (raw : Int) * x.rate / 2 ^ 40 + x.offset)
  else x.v0 + ((raw : Int) - x.r0) * x.inc / 2 ^ 32

/-- A view read now. -/
def State.viewNow (s : State) (c : Ch) (v : Nat) : Int := viewAt v (s.view c v) (s.ch c).time.raw.toNat

/-- A view in whole ns. -/
def State.viewNs (s : State) (c : Ch) (v : Nat) : BitVec 64 := BitVec.ofInt 64 (s.viewNow c v / 2 ^ 32)

/-- The power record of a channel. -/
def State.pw (s : State) : Ch → ChPower
  | .a => s.pwr.a
  | .b => s.pwr.b

/-- Update the power record of a channel. -/
def State.modPw (s : State) (c : Ch) (f : ChPower → ChPower) : State :=
  match c with
  | .a => s.modPwr fun p => { p with a := f p.a }
  | .b => s.modPwr fun p => { p with b := f p.b }

/-- The hub that serves host-die items: HUB-A, or HUB-B while HUB-A does not answer (R381, R404). -/
def State.hostHub (s : State) : Ch := if s.pwr.a.state.hubOn then .a else .b

/-- Time view 0 of a source, in ns (R381): source 0 is the host die. -/
def State.now0 (s : State) (source : Nat) : BitVec 64 :=
  s.viewNs (if source = 1 then .a else if source = 2 then .b else s.hostHub) 0

/-! ### Rings and interrupts (R231-R233, R241) -/

/-- Whether a ring is enabled. -/
def State.ringOn (s : State) (r : RingNo) : Bool := bitAt (s.reg .hpRingCtrl .a [r]).toNat 0
/-- Owner of a ring: the operator for rings 0 and 96, otherwise RING_CTRL.OWNER (R231). -/
def State.ringOwner (s : State) (r : RingNo) : Nat := if r = 0 ∨ r = 96 then 0 else s.regField .hpRingCtrl .a [r] 9 4
/-- Entries of a ring: 2^LOG2SIZE, with 6 to 16 as limits (RING_CTRL.LOG2SIZE). -/
def State.ringSize (s : State) (r : RingNo) : Nat :=
  2 ^ (max 6 (min 16 (s.regField .hpRingCtrl .a [r] 1 5)))
/-- Whether a module-produced ring has no free entry (R233). -/
def State.ringFull (s : State) (r : RingNo) : Bool :=
  decide (s.ringSize r ≤ ((s.ring r).produced - (s.ring r).consumed).toNat)
/-- Phase bit of the entry at a count: 1 on the first pass, inverted on each later pass (R233). -/
def State.phaseOf (s : State) (r : RingNo) (count : Word32) : Bool := (count.toNat / s.ringSize r) % 2 == 0

/-- Whether a ring number is a command ring (ring table). -/
def isCmdRing (r : RingNo) : Bool := decide (r ≤ 16)
/-- Whether a ring number is a completion ring. -/
def isCplRing (r : RingNo) : Bool := decide (32 ≤ r) && decide (r ≤ 95)
/-- Whether a ring number is a message ring. -/
def isMsgRing (r : RingNo) : Bool := decide (128 ≤ r) && decide (r ≤ 383)
/-- Whether a ring number is reserved. -/
def isReservedRing (r : RingNo) : Bool := !(isCmdRing r || isCplRing r || r == 96 || isMsgRing r)
/-- Bytes of an entry of a ring (ring table). -/
def entrySize (r : RingNo) : Nat := if isCplRing r then 32 else 64

/-- Base address of a ring: 4 KiB aligned (R231). -/
def State.ringBase (s : State) (r : RingNo) : Nat :=
  (s.reg .hpRingBaseHi .a [r]).toNat * 2 ^ 32 + (s.reg .hpRingBaseLo .a [r]).toNat

/-- Where entry `n` of a ring lies (R231). -/
def State.entryAddr (s : State) (r : RingNo) (n : Word32) : Nat := s.ringBase r + entrySize r * (n.toNat % s.ringSize r)

/-- Write bytes to host memory. -/
def State.hostWrite (s : State) (addr : Nat) (data : List Byte) : State :=
  s.modHost fun h => { h with out := h.out ++ [{ addr := addr, data := data }] }

/-- Signal the MSI-X vector of a ring (R241); a masked vector becomes pending. -/
def State.signal (s : State) (r : RingNo) : State :=
  let v := s.regField .hpRingCtrl .a [r] 21 8
  let s := s.modRing r fun g => { g with unsignalled := 0 }
  s.modHost fun h => if h.msixMask.getLsbD v then { h with msixPending := setBit h.msixPending v true }
    else { h with signals := h.signals ++ [v] }

/-- Write the mask bit of an MSI-X vector (R224, R241): a pending vector that is unmasked is signalled. -/
def State.maskVector (s : State) (v : Nat) (mask : Bool) : State :=
  s.modHost fun h =>
    let h := { h with msixMask := setBit h.msixMask v mask }
    if !mask && h.msixPending.getLsbD v then { h with msixPending := setBit h.msixPending v false, signals := h.signals ++ [v] } else h

/-! ### Entries as the host reads them (R231, R233, R239) -/

/-- The 32 bytes of a completion in its ring. -/
def Completion.bytes (c : Completion) (phase : Bool) : List Byte :=
  leBytes 4 c.tag.toNat ++ leBytes 1 (c.status.code) ++ leBytes 1 (bit01 phase + 2 * bit01 c.retained) ++ leBytes 2 c.ring ++
  leBytes 6 c.frame.toNat ++ leBytes 2 0 ++ leBytes 16 c.detail.toNat

/-- Where the plaintext detail of an event places its fields: offset from byte 24 and length (the event tables); one byte each, in order,
where a table gives nothing else. -/
def eventFields : Nat → List (Nat × Nat)
  | 0x0001 => [(0, 8)]
  | 0x0002 | 0x800A => [(0, 4)]
  | 0x0003 => [(0, 2), (4, 4)]
  | 0x0004 | 0x7001 => [(0, 2), (2, 1)]
  | 0x0006 | 0x1204 => [(0, 2), (2, 2)]
  | 0x1201 | 0x9007 | 0xA001 | 0xA005 | 0xB002 | 0xB005 => [(0, 1), (4, 4)]
  | 0x2005 => [(0, 1), (1, 1), (2, 1), (4, 2)]
  | 0x4104 => [(0, 1), (1, 2)]
  | 0x6003 | 0xB001 => [(0, 1), (1, 1), (4, 4)]
  | 0x8008 => [(0, 6)]
  | 0x800B => [(0, 1), (1, 4)]
  | 0x9006 | 0x900A => [(0, 1), (1, 1), (2, 2)]
  | 0xA003 => [(0, 1), (1, 1), (2, 1), (4, 4)]
  | _ => [(0, 1), (1, 1), (2, 1), (3, 1), (4, 1), (5, 1), (6, 1), (7, 1)]

/-- The 24 detail bytes of a plaintext event. -/
def plainDetail (code : Nat) (args : List Nat) : List Byte :=
  let fs := (eventFields code).zip args
  (List.range 24).map fun i => match fs.find? (fun f => decide (f.1.1 ≤ i) && decide (i < f.1.1 + f.1.2)) with
    | some f => BitVec.ofNat 8 (f.2 / 256 ^ (i - f.1.1))
    | none => 0

/-- Bytes 0-23 of an event entry. -/
def Event.head (e : Event) (phase : Bool) : List Byte :=
  leBytes 8 e.seq.toNat ++ leBytes 2 e.code ++ leBytes 1 e.source ++ leBytes 1 e.partition ++ leBytes 1 e.owner ++
    leBytes 1 (bit01 phase + 2 * bit01 e.sealed) ++ leBytes 2 0 ++ leBytes 8 e.time.toNat

/-- The 64 bytes of an event entry. -/
def Event.bytes (e : Event) (phase : Bool) : List Byte :=
  e.head phase ++ (match e.body with
    | some (ct, tag) => ct ++ leBytes 16 tag.toNat
    | none => plainDetail e.code e.args ++ leBytes 16 0)

/-- Bytes 0-31 of a MSG_OUT entry, the additional data of its tag (R252, R254). -/
def OutMsg.head (o : OutMsg) : List Byte :=
  leBytes 1 0x61 ++ leBytes 1 (bit01 o.fence) ++ leBytes 2 o.partition ++ leBytes 4 o.mseq.toNat ++ leBytes 8 o.addr ++
    leBytes 2 o.cipher.length ++ leBytes 6 0 ++ leBytes 8 o.mseq.toNat

/-- The bytes of a ring entry. The table of message descriptors gives MSG_OUT no phase bit (log entry 39). -/
def Entry.bytes : Entry → List Byte
  | .cpl c ph => c.bytes ph
  | .ev e ph => e.bytes ph
  | .msg o _ => o.head ++ leBytes 16 o.tag.toNat ++ leBytes 16 0

/-- Write one entry into a module-produced ring, with a single write at its place, and signal when RING_MOD.COUNT entries have been written
(R231, R233, R241). -/
def State.writeEntry (s : State) (r : RingNo) (e : Bool → Entry) : State :=
  let n := (s.ring r).produced
  let x := e (s.phaseOf r n)
  let s := (s.hostWrite (s.entryAddr r n) x.bytes).modRing r fun g =>
    { g with entries := g.entries ++ [x], produced := g.produced + 1, unsignalled := g.unsignalled + 1 }
  if max 1 (s.regField .hpRingMod .a [r] 0 8) ≤ (s.ring r).unsignalled then s.signal r else s

/-! ### Sealing (R275, R277) -/

/-- Ciphertext of AES-256-GCM: the plaintext under the key stream (R277). -/
def gcmSeal (key iv : List Byte) (plain : List Byte) : List Byte :=
  (List.range plain.length).zipWith (fun i b => b ^^^ Config.gcmStream key iv i) plain

/-- An installed key (R275, R413): looked up in the Hutch of either hub, which hold the same keys. -/
def State.key (s : State) (holder kind index : Nat) : Option Key :=
  ((s.chA.hutch.keys ++ s.chB.hutch.keys).find? (fun k => k.holder == holder && k.kind == kind && k.index == index))

/-- A key of the ring owner of a command as it stood at its acceptance (R274: items accepted finish under the key with which
they were accepted). -/
def Cmd.key (m : Cmd) (kind index : Nat) : Option Key := m.keys.find? (fun k => k.kind == kind && k.index == index)

/-- The IV of an item tied to a descriptor (R277): a first byte, the ring, the ring's generation, the count. -/
def itemIv (first : Nat) (ring : RingNo) (gen : BitVec 48) (count : Word32) : List Byte :=
  leBytes 1 first ++ leBytes 1 ring ++ leBytes 6 gen.toNat ++ leBytes 4 count.toNat

/-- The IV of an item tied to a command. -/
def Cmd.iv (m : Cmd) (first : Nat) : List Byte := itemIv first m.ring m.gen m.count

/-- The sealed detail of an event under a session key, with its tag (R239, R277). -/
def Event.seal (e : Event) (key : List Byte) (args : List Nat) (phase : Bool) : List Byte × BitVec 128 :=
  let iv := leBytes 1 0x90 ++ leBytes 1 e.source ++ leBytes 2 0 ++ leBytes 8 e.seq.toNat
  let ct := gcmSeal key iv ((Config.eventDetail e.code args ++ List.replicate 24 0).take 24)
  (ct, Config.gcmTag key iv (e.head phase) ct)

/-! ### Events (R239-R242) -/

/-- An event ring entry, numbered. The detail of a sealed event is under its owner's session key; while that key is not installed nobody can
read it, and its bytes are free values (R239, log entry 39). -/
def State.mkEvent (s : State) (code source part owner : Nat) (sealed : Bool) (args : List Nat) (phase : Bool) : Event :=
  let e : Event := { seq := s.host.evSeq, code := code, source := source, partition := part, owner := owner, sealed := sealed,
                     time := s.now0 source, args := if sealed then [] else args }
  if sealed then
    match s.key owner 0x0A 0 with
    | some k => { e with body := some (e.seal k.material args phase) }
    | none => { e with body := some (Config.noKeyDetail e.seq, Config.noKeyTag e.seq) }
  else e

/-- Lose an event (R242). -/
def State.loseEvent (s : State) : State :=
  (s.modHost fun h => { h with evSeq := h.evSeq + 1, evLost := h.evLost + 1 }).count .hpEventLost .a []

/-- Whether the event ring can take an entry. -/
def State.eventRoom (s : State) : Bool := s.ringOn 96 && !s.ringFull 96 && !s.host.perst

/-- Write one event entry without looking at earlier losses. -/
def State.putEvent (s : State) (code source part owner : Nat) (sealed : Bool) (args : List Nat) : State :=
  (s.modHost fun h => { h with evSeq := h.evSeq + 1 }).writeEntry 96 (fun ph => .ev (s.mkEvent code source part owner sealed args ph) ph)

/-- Write an event (R239-R242), while the host die is powered: lost when the event ring is full or disabled; after losses, EVENTS_LOST comes first. -/
def State.event (s : State) (code source part owner : Nat) (sealed : Bool) (args : List Nat) : State :=
  if !s.pwr.hostOn then s
  else if !s.eventRoom then s.loseEvent
  else if s.host.evLost = 0 then s.putEvent code source part owner sealed args
  else
    let n := s.host.evLost
    let s := (s.modHost fun h => { h with evLost := 0 }).putEvent 0x0001 0 0xFF 0 false [n]
    if s.eventRoom then s.putEvent code source part owner sealed args else s.loseEvent

/-- An event of the host die with no partition. -/
def State.hostEvent (s : State) (code : Nat) (args : List Nat) : State := s.event code 0 0xFF 0 false args
/-- An event of a hub with no partition. -/
def State.hubEvent (s : State) (c : Ch) (code : Nat) (args : List Nat) : State := s.event code (1 + chNum c) 0xFF 0 false args
/-- Lowest partition of a design. -/
def Design.low (d : Design) : Nat := d.targets.head?.getD 0
/-- Channel that reports for a design: that of its lowest partition. -/
def Design.ch (d : Design) : Ch := chOfPart d.low
/-- A sealed event of a design (R239). -/
def State.designEvent (s : State) (d : Design) (code : Nat) (args : List Nat) : State :=
  s.event code (1 + chNum d.ch) d.low d.slot true args
/-- A plaintext event of a design. -/
def State.designPlain (s : State) (d : Design) (code : Nat) (args : List Nat) : State :=
  s.event code (1 + chNum d.ch) d.low d.slot false args

/-- A plaintext event that the host die raises about a design: the referee and the twin repairs (R315, R316). -/
def State.hostDesignEvent (s : State) (d : Design) (code : Nat) (args : List Nat) : State := s.event code 0 d.low d.slot false args

/-! ### Completions (R227, R237, R244) -/

/-- The receipt of a completion (R238, R277): its 32 bytes sealed under the session key, the tag, and 16 zero bytes. -/
def Receipt.bytes (x : Receipt) (c : Completion) (phase : Bool) : List Byte :=
  let ct := gcmSeal x.key x.iv (c.bytes phase)
  ct ++ leBytes 16 (Config.gcmTag x.key x.iv [] ct).toNat ++ leBytes 16 0

/-- Write a completion into its ring, after its receipt (R238). -/
def State.putCpl (s : State) (cring : Nat) (c : Completion) (rc : Option Receipt) : State :=
  (match rc with
    | some x => s.hostWrite x.addr (x.bytes c (s.phaseOf cring (s.ring cring).produced))
    | none => s).writeEntry cring (fun ph => .cpl c ph)

/-- Whether a completion can be written into a ring now: it is enabled, has room, and the host die is out of reset. -/
def State.cplRoom (s : State) (cring : Nat) : Bool := s.ringOn cring && !s.ringFull cring && !s.host.perst

/-- Append a completion to its ring, or keep it in the retention store of its arbiter when the ring is disabled or full, or earlier completions
of the ring still wait (R227). `accepted` says whether it is the completion of an accepted command. -/
def State.post (s : State) (arb : Ch) (cring : Nat) (c : Completion) (rc : Option Receipt) (accepted : Bool) : State :=
  if s.cplRoom cring && !s.host.retention.any (fun e => e.cring == cring) then s.putCpl cring c rc
  else s.modHost fun h => { h with
    retention := h.retention ++ [{ arb := arb, cring := cring, cpl := { c with retained := true }, accepted := accepted, receipt := rc }] }

/-- The frame number a completion carries: that of the design named by PARTITION, else 0 (R236). -/
def State.frameAt (s : State) (part : Nat) : BitVec 48 :=
  match s.designAt part with
  | some d => BitVec.ofNat 48 d.frame
  | none => 0

/-- The receipt that a tenant command asks for (R238), under the session key of its acceptance. -/
def State.receiptOf (s : State) (m : Cmd) : Option Receipt :=
  if m.desc.receipt && decide (s.ringOwner m.ring ≠ 0) then
    (m.key 0x0A 0).map fun k => { addr := m.desc.par 40 8, key := k.material, iv := m.iv 0x83 }
  else none

/-- Complete an accepted command: it is outstanding no longer, and its one completion goes through its arbiter to its ring
(R244). `frame` is the frame number carried. -/
def State.completeAt (s : State) (m : Cmd) (st : Status) (frame : BitVec 48) (detail : BitVec 128) : State :=
  let c : Completion := { tag := m.desc.tag, status := st, retained := false, ring := m.ring, frame := frame, detail := detail }
  let s := s.modHost fun h => { h with cmds := h.cmds.filter (fun x => !(x.ring == m.ring && x.desc.tag == m.desc.tag)) }
  s.post m.arb m.desc.cring c (s.receiptOf m) true

/-- Complete with the frame number of the design named by PARTITION at the time of completion (R236). -/
def State.complete (s : State) (m : Cmd) (st : Status) (detail : BitVec 128) : State :=
  s.completeAt m st (s.frameAt m.desc.partition.toNat) detail

/-- An accepted command of a ring by its TAG. -/
def State.cmd (s : State) (r : RingNo) (t : Tag) : Option Cmd :=
  s.host.cmds.find? (fun m => m.ring == r && m.desc.tag == t)

/-- Complete the command of a ring and TAG, if it is outstanding (R244: a later completion is discarded). -/
def State.completeTag (s : State) (r : RingNo) (t : Tag) (st : Status) (detail : BitVec 128) : State :=
  match s.cmd r t with
  | some m => s.complete m st detail
  | none => s

/-- Whether a FENCE lets a command start: every earlier command of its ring has completed (R235). -/
def State.fenceOpen (s : State) (m : Cmd) : Bool :=
  !m.desc.fence || (s.host.cmds.takeWhile (fun x => !(x.ring == m.ring && x.desc.tag == m.desc.tag))).all (fun x => x.ring != m.ring)

/-- Mark an accepted command as started. -/
def State.start (s : State) (m : Cmd) : State :=
  s.modHost fun h => { h with cmds := h.cmds.map (fun x =>
    if x.ring = m.ring ∧ x.desc.tag = m.desc.tag then { x with started := true } else x) }

/-- Whether the host die answers: it has power (R400) and is out of reset (R226). -/
def State.hostUp (s : State) : Bool := s.pwr.hostOn && !s.host.perst

/-- Whether the host port answers accesses and requests beyond those of a SCRAPPED part (R269). -/
def State.portAnswers (s : State) : Bool := s.hostUp && s.sec.lifecycle != .scrapped

/-- Commands that the host die alone carries out (R226): those that change no hub. They wait while PERST_N holds it in reset. -/
def hostDieOps : List Nat := [0x01, 0x02, 0x04, 0x05, 0x08, 0x09, 0x0A, 0x10, 0x11, 0x47]

/-- Carry out the accepted command of ring `r` and TAG `t` with one of the opcodes `op`: `f` on it, unless the tamper latch is
set, under which every command but NOP completes TAMPER (R289). With none accepted, already started, held by its FENCE
(R235), waiting for the host die (R226), or on a SCRAPPED part (R269), nothing happens. -/
def State.withCmd (s : State) (r : RingNo) (t : Tag) (op : Nat) (f : State → Cmd → State) : State :=
  match s.cmd r t with
  | some m =>
    if m.desc.opcode.toNat ≠ op ∨ m.started ∨ s.fenceOpen m = false ∨ (s.host.perst ∧ hostDieOps.contains op) ∨ s.sec.lifecycle = .scrapped then s
    else if s.sec.latched ∧ op ≠ 0x01 then s.complete m .tamper 0
    else f s m
  | none => s

/-- Whether the ring of a command belongs to the operator: opcodes 0x06 and 0x07 stand on both kinds of ring by other
numbers, so this tells the table's two rows apart only for queue rules (R231). -/
def State.byOperator (s : State) (m : Cmd) : Bool := s.ringOwner m.ring == 0

/-- Detail byte 16 of a completion, and the bytes after it. -/
def detail (l : List Byte) : BitVec 128 := BitVec.ofNat 128 (leNat l)

end Sys2Proof.Machine
end

