-- ==== Sys2Proof/Machine/Designs.lean ====
section
/-! DEFINITION. The operations on a loaded design that several chapters share: its Cabinets, predicted power (R102), the
rollback of an aborted frame (R89), stopping (R80, R236, R307), unloading (R138, R265, R303, R307) and fencing (R19). -/

namespace Sys2Proof.Machine

open Sys2Proof

/-- The 16 logical Cabinets of a partition (R23). -/
def cabsOfPart (p : Nat) : List Nat := (List.range 16).map (fun i => 16 * p + i)

/-- Logical Cabinets of a design as loaded, channel B's copy included in TWINNED (R312). -/
def Design.allCabs (d : Design) : List Nat :=
  let l := d.targets.flatMap cabsOfPart
  if d.twin then l ++ l.map (fun c => c ^^^ 64) else l

/-- The span: the Cabinets that run, without a fenced channel's copy (R66, R319). -/
def Design.span (d : Design) : List Nat :=
  match d.fencedSide with
  | some f => d.allCabs.filter (fun c => chOfCab c != f)
  | none => d.allCabs

/-- Partitions that a design occupies, channel B's copy included. -/
def Design.allParts (d : Design) : List Nat := if d.twin then d.targets ++ d.targets.map (fun p => p ^^^ 4) else d.targets

/-- Channels in which a design holds Cabinets. -/
def Design.chans (d : Design) : List Ch := [Ch.a, Ch.b].filter (fun c => d.allParts.any (fun p => chOfPart p == c))

/-- Whether a design spans both channels in a layout without twins (R19). -/
def Design.spansBoth (d : Design) : Bool := !d.twin && d.chans.length == 2

/-- The phase of the frame in progress (R88). -/
def Design.phase (d : Design) : Nat := d.frame % d.header.phases
/-- The design-cycle number of the frame in progress (R88). -/
def Design.cycle (d : Design) : Nat := d.frame / d.header.phases
/-- Whether the frame in progress is the last phase of its design cycle. -/
def Design.lastPhase (d : Design) : Bool := d.phase + 1 == d.header.phases

/-! ### Predicted power (R101, R102) -/

/-- Predicted array power per 1,000 cells at SP1, in tenths of a watt, of the classes PC0 to PC7 (R101). -/
def classDeciWatts : List Nat := [22, 26, 30, 33, 37, 40, 44, 47]

/-- Speed-point factor in hundredths (R102). -/
def speedFactor (sp : Nat) : Nat := ([158, 100, 57, 27] : List Nat).getD sp 27

/-- The speed point at which a channel counts: its own in RUN, SP3 in READY (R102). -/
def ChPower.predSp (p : ChPower) : Nat := if p.state = .run then p.sp else 3

/-- Predicted power of a partition of a class at a speed point, in µW: 16.384 thousand cells. -/
def classMicroW (cls sp : Nat) : Nat := classDeciWatts.getD cls 0 * 16384 * speedFactor sp

/-- Power class of the partition `p` that a design with header `h` at placement `x` occupies (R109 PCLASS). -/
def Header.classOf (h : Header) (x p : Nat) : Nat := h.pclass.getD (p ^^^ x) 0xFF

/-- Class of a partition of a design, channel B's copy taking the class of the partition it repeats. -/
def Design.classOf (d : Design) (p : Nat) : Nat :=
  d.header.classOf d.x (if d.targets.contains p then p else p ^^^ 4)

/-- Predicted power of the loaded partitions with the given speed points of the channels, in µW (R102). -/
def State.predAt (s : State) (spA spB : Nat) : Nat :=
  (s.designs.map (fun d => (d.allParts.map (fun p =>
    classMicroW (d.classOf p) (if chOfPart p = .a then spA else spB))).sum)).sum

/-- MOD_ARRAY_PRED in whole W (R102). -/
def State.predW (s : State) : Nat := s.predAt s.pwr.a.predSp s.pwr.b.predSp / 1000000

/-- MOD_ARRAY_BUDGET. -/
def State.budgetW (s : State) : Nat := s.regField .modArrayBudget .a [] 0 16

/-! ### Abort and rollback (R89) -/

/-- Restore cabinet memory from the undo log, newest entry first (R129). -/
def undoMem (m : KV Word64) : List (Nat × Nat × Word64) → KV Word64
  | [] => m
  | e :: es => undoMem (KV.put 0 e.2.1 e.2.2 m) es

/-- Roll a Cabinet back to the start of its frame (R89): undo log, taps, outputs and staging discarded; landing flags stay
(R73). -/
def CabSt.rollback (c : CabSt) : CabSt :=
  { c with mem := undoMem c.mem c.undo, undo := [], next := 0, vals := [], rets := [], taps := [], tapCount := 0,
           outputs := [], filledA := [], filledD := [], toggles := 0, crc := 0xFFFFFFFFFFFFFFFF#64 }

/-- Restore the written mask of a cell (R44) and forget what this attempt wrote (R105). -/
def Cell.rollback (c : Cell) : Cell := { c with mask := c.mask0, landW := 0 }

/-- Roll a design back: no trace of the frame in progress stays but its bound inputs (R89). -/
def Design.rollback (d : Design) : Design :=
  { d with cabs := (d.cabs.map (fun e => (e.1, e.2.rollback))).filter (fun e => e.2 ≠ {}),
           cells := (d.cells.map (fun e => (e.1, e.2.rollback))).filter (fun e => e.2 ≠ {}),
           packets := [], rets := [], hazards := [], accesses := [], errs := [], begun := false, trA := {}, trB := {},
           capA := { d.capA with rates := [] }, capB := { d.capB with rates := [] }, verdict := none, sigSent := false }

/-- Abort the frame in progress of a design: rollback, provisional write-buffer entries, reads and MAC checks of the
attempt discarded (R89, R145, R146); attempt 0 marks a read whose data the controller will discard. -/
def State.abortFrame (s : State) (tag : Nat) : State :=
  let fr := ((s.design tag).map (·.frame)).getD 0
  let drop := fun (h : HbmSt) => { h with wbuf := h.wbuf.filter (fun e => e.design != tag || e.committed),
                                          macs := (h.macs.filter (fun e => e.design != tag || e.link.isSome || e.frame != fr)).map
                                            (fun e => if e.design = tag ∧ e.link = none then { e with used := none } else e),
                                          reads := h.reads.map (fun e => if e.design = tag ∧ e.frame = fr then { e with attempt := 0 } else e) }
  ((s.modHbm .a drop).modHbm .b drop).modDesign tag Design.rollback

/-! ### Stopping (R236, R307) -/

/-- Set the state of every partition of a design; a fenced copy keeps reading FENCED (R319). -/
def State.setDesignState (s : State) (d : Design) (st : PartState) : State :=
  let s := s.modDesign d.tag fun d => { d with state := st }
  s.modParts (d.allParts.filter (fun p => some (chOfPart p) != d.fencedSide)) fun p => { p with state := st }

/-- A frame whose commit waits at step 5 stands when its design is stopped there: its state is committed, and its outputs are lost (R84,
R153; DESIGN CHOICE, log entry 23). -/
def Design.stand (d : Design) : Design :=
  if d.flipped then
    { d with flipped := false, frame := d.frame + 1, stage := if d.lastPhase ∧ d.stage < 3 then min 3 (d.cycle + 1) else d.stage }
  else d

/-- Stop a running design at its last commit: its RUN or STEP completes with a detail, DESIGN_STOPPED is written (03 events), a frame in
progress is rolled back. `kind` is the kind of stop of DESIGN_STOPPED. Repairs of failed parts go on unless an error stops the design. -/
def State.stopDetail (s : State) (tag : Nat) (st : Status) (kind : Nat) (dt : BitVec 128) : State :=
  match s.design tag with
  | none => s
  | some d =>
    let s := (if d.begun then s.abortFrame tag else s).modDesign tag Design.stand
    let s := s.setDesignState d .stopped
    let s := match d.run with
      | some r => s.completeTag r.ring r.tag st dt
      | none => s
    let s := s.modDesign tag fun d =>
      { d with run := none, attempt := 1, lastErr := none, trA := {}, trB := {}, waitPartner := false, stopAfter := none,
               repairs := if kind = 1 then [] else d.repairs.filter (fun r => r.1 != 3 && r.1 != 6), twinRepaired := false }
    if d.state = .running ∨ d.state = .stopping then s.designPlain d 0x1103 [st.code, kind] else s

/-- Stop a design with no detail in its completion. -/
def State.stopAt (s : State) (tag : Nat) (st : Status) (kind : Nat) : State := s.stopDetail tag st kind 0

/-! ### Trace packets (R373, R375-R377) -/

/-- The 1 GHz trace clock of a hub: whole ns of its raw counter (R373, R379). -/
def State.ticks (s : State) (c : Ch) : Nat := (s.ch c).time.raw.toNat / 2 ^ 32

/-- Key of a stream in the tables of its hub: its TYPE, ID and NONCE. -/
def StreamRec.key (r : StreamRec) : Nat := r.type + 16 * r.id + 4096 * r.nonce.toNat

/-- A record of a stream, named by its TYPE plus 16 times its ID (R354, R355), made at a tick in a frame of its design: a design's streams carry
its LOAD_NONCE and IMAGE_ID, a scheduling stream the nonce of its start. -/
def State.streamRec (s : State) (c : Ch) (stream frame tick : Nat) (b : List Byte) : StreamRec :=
  let id := stream / 16
  let owner := match s.design id with
    | some d => (d.slot, d.nonce, d.header.imageId)
    | none => (0, 0, 0)
  let (slot, nonce, image) := if stream % 16 ≤ 2 then owner
    else if stream % 16 = 3 then (id, KV.get 0 id (s.ch c).trc.schedNonce, 0) else (0, 0, 0)
  { type := stream % 16, id := id, slot := slot, nonce := nonce, image := image, tick := tick, frame := frame, bytes := b }

/-- Unsigned LEB128 in at most `fuel` bytes (R373). -/
def leb : Nat → Nat → List Byte
  | 0, _ => []
  | fuel + 1, n => if n < 128 then [BitVec.ofNat 8 n] else BitVec.ofNat 8 (128 + n % 128) :: leb fuel (n / 128)

/-- Count packets lost to their streams: TRC_OVERFLOWS, and once per millisecond TRACE_OVERFLOW with the packets lost since the last one
(R377). -/
def State.traceLost (s : State) (c : Ch) (keys : List Nat) : State :=
  if keys.isEmpty then s
  else
    let s := s.modTrc c fun t => { t with lost := keys.foldl (fun k x => KV.upd 0 x (· + 1) k) t.lost, unreported := t.unreported + keys.length }
    let s := s.countBy .trcOverflows c [] keys.length
    let ms := s.clock / 1000000
    if (s.ch c).trc.overflowMs = some ms then s
    else (s.modTrc c fun t => { t with overflowMs := some ms, unreported := 0 }).hubEvent c 0xA005 [chNum c, (s.ch c).trc.unreported]

/-- Bytes of the trace staging of a hub: 1.75 MiB (R139, R377). -/
def stagingBytes : Nat := 1835008

/-- Stage one packet of a stream, behind OVERFLOW where packets were lost before it; with the trace unit disabled or the staging full it is lost
(R243, R377). -/
def State.stage (s : State) (c : Ch) (r : StreamRec) : State :=
  let t := (s.ch c).trc
  let n := KV.get 0 r.key t.lost
  let new := (if n = 0 then [] else [{ r with bytes := 0x0A#8 :: leb 10 n }]) ++ [r]
  if t.disabled || decide (stagingBytes < ((t.staged ++ new).map (fun x => x.bytes.length)).sum) then s.traceLost c [r.key]
  else s.modTrc c fun t => { t with staged := t.staged ++ new, lost := KV.put 0 r.key 0 t.lost }

/-- Stage one trace packet of a stream made now. A stream is named by its TYPE plus 16 times its ID. -/
def State.tracePkt (s : State) (c : Ch) (stream : Nat) (b : List Byte) : State :=
  s.stage c (s.streamRec c stream (if stream % 16 = 2 then ((s.design (stream / 16)).map (·.frame)).getD 0 else 0) (s.ticks c) b)

/-- What a design keeps for its capture and trace in a channel. -/
def Design.cc (d : Design) : Ch → CapCh
  | .a => d.capA
  | .b => d.capB

/-- Update what a design keeps for its capture and trace in a channel. -/
def Design.modCc (d : Design) (c : Ch) (f : CapCh → CapCh) : Design :=
  match c with
  | .a => { d with capA := f d.capA }
  | .b => { d with capB := f d.capB }

/-- Whether a design has a data-trace stream in a channel (R374). -/
def State.traced (s : State) (c : Ch) (d : Design) : Bool :=
  (s.ch c).tranges.any (fun e => e.2.design == some d.tag) || (d.cc c).traceAll

/-- RATE packets of a speed change in every data-trace stream of a channel (R376). -/
def State.traceRate (s : State) (c : Ch) (sp : Nat) : State :=
  s.designs.foldl (fun s d => if s.traced c d then
    s.tracePkt c (2 + 16 * d.tag) [BitVec.ofNat 8 (7 + 16 * (sp + 8))] else s) s

/-- RATE packets of a hold before a step that begins or ends, in some channels of a design; they are released with the frame (R376). -/
def State.traceHold (s : State) (d : Design) (cs : List Ch) (step : Nat) (held : Bool) : State :=
  cs.foldl (fun s c => if s.traced c d then
    s.modDesign d.tag fun d => d.modCc c fun x => { x with
      rates := x.rates ++ [(step, s.ticks c, [BitVec.ofNat 8 (7 + 16 * ((s.pw c).sp + 4 * bit01 held))])] } else s) s

/-! ### Outlet write-out (R252, R254, R256, R265, R278) -/

/-- Per-load message key (R278): derived from the message key of the tenant and the load nonce. -/
def State.msgKey (s : State) (d : Design) : Option (List Byte) :=
  (s.key d.slot 4 0).map fun k => (Config.hkdf k.material [] (strBytes "lumwell msg" ++ leBytes 8 d.nonce.toNat)).take 32

/-- IV of a message (R278): first byte 0xA0 for an intake, 0xA1 for an outlet. -/
def msgIv (first port : Nat) (mseq : BitVec 64) : List Byte :=
  leBytes 1 first ++ leBytes 1 0 ++ leBytes 2 port ++ leBytes 8 mseq.toNat

/-- Words that a message needs in its window (R248, R255). -/
def msgWords (bytes : Nat) : Nat := 1 + (bytes + 7) / 8

/-- The channel whose hub serves a design's links, ports and capture: that of its lowest partition, or the surviving copy's
(R319). -/
def Design.home (d : Design) : Ch :=
  match d.fencedSide with
  | some f => if d.twin then otherCh f else d.ch
  | none => d.ch

/-- The Cabinet that carries on for a Cabinet of channel A of a TWINNED design while channel A is fenced (R319). -/
def Design.liveCab (d : Design) (l : Nat) : Nat := if d.twin && d.fencedSide == some .a then l ^^^ 64 else l

/-- The message ports of a design on its serving hub, lowest first. -/
def State.portsOf (s : State) (d : Design) : List (Nat × MPort) :=
  (s.ch d.home).mports.filter (fun e => e.2.design == some d.tag)

/-- Update a message port of a design, in TWINNED on both hubs, which count as one (R246, R312). -/
def State.modDesignPort (s : State) (d : Design) (k : Nat) (f : MPort → MPort) : State :=
  let s := s.modMport d.home k f
  if d.twin then s.modMport (otherCh d.home) k f else s

/-- Whether the first released record of a port can be written out now: ring enabled with room, port enabled, message key
present, and its FENCE satisfied (R252, R256, R260). -/
def State.outletReady (s : State) (d : Design) (e : Nat × MPort) : Bool :=
  match e.2.released with
  | [] => false
  | r :: _ =>
    (e.2.outRing.map (fun g => s.ringOn g && !s.ringFull g)).getD false && !e.2.disabled && (s.msgKey d).isSome &&
    (!r.fence || (s.portsOf d).all (fun o => o.1 == e.1 || o.2.released.all (fun x =>
      decide (r.release < x.release) || (r.release == x.release && decide (e.1 < o.1)))))

/-- Seal the first released record of port `k` and write it to its ring as MSG_OUT, its ciphertext behind the ring's entries
(R252, R254, R278). -/
def State.writeOutlet (s : State) (d : Design) (k : Nat) : State :=
  let m := s.mport d.home k
  match m.released, m.outRing, s.msgKey d with
  | r :: rs, some g, some key =>
    let n := (s.ring g).produced
    let addr := s.ringBase g + 64 * s.ringSize g + 4096 * (n.toNat % s.ringSize g)
    let iv := msgIv 0xA1 (128 * chNum d.home + k) m.mseqOut
    let ct := gcmSeal key iv r.data
    let o : OutMsg := { addr := addr, partition := d.low, fence := r.fence, mseq := m.mseqOut, cipher := ct, tag := 0 }
    let s := (s.hostWrite addr ct).writeEntry g (fun ph => .msg { o with tag := Config.gcmTag key iv o.head ct } ph)
    s.modDesignPort d k fun p => { p with released := rs, mseqOut := p.mseqOut + 1 }
  | _, _, _ => s

/-- Write out every released record that can go, lowest port first, at most `n` of them (R265). -/
def State.drainOutlets (s : State) (d : Design) : Nat → State
  | 0 => s
  | n + 1 =>
    match (s.portsOf d).find? (fun e => s.outletReady d e) with
    | some e => State.drainOutlets (s.writeOutlet d e.1) d n
    | none => s

/-! ### Unloading (R138, R160, R185, R265, R303, R307, R378, R390) -/

/-- Complete a list of intake messages ABORTED (R264, R265). -/
def State.abortMsgs (s : State) (ms : List InMsg) : State :=
  ms.foldl (fun s m => s.completeTag m.ring m.tag .aborted 0) s

/-- Complete ABORTED the messages of a port's ring that the module has read and not yet taken up (R264, R265). -/
def State.abortUnread (s : State) (p : MPort) : State :=
  match p.inRing with
  | some r => (s.host.cmds.filter (fun m => m.ring == r && m.desc.opcode == 0x60#8 && !m.started)).foldl (fun s m => s.complete m .aborted 0) s
  | none => s

/-- Release the message ports of a design in one channel: undelivered intake messages complete ABORTED, undrained outlet
records are discarded with one event, the binding goes (R265). -/
def State.releasePorts (s : State) (c : Ch) (d : Design) : State :=
  (s.ch c).mports.foldl (fun s e =>
    if e.2.design = some d.tag then
      let s := (s.abortMsgs e.2.accepted).abortUnread e.2
      let s := if e.2.released.isEmpty then s else s.designEvent d 0x5004 [128 * chNum c + e.1, e.2.released.length]
      s.modMport c e.1 fun _ => { disabled := e.2.disabled }
    else s) s

/-- Drop the bindings of a design's ports in one channel. -/
def State.unbindPorts (s : State) (c : Ch) (d : Design) : State :=
  (s.ch c).mports.foldl (fun s e =>
    if e.2.design = some d.tag then s.modMport c e.1 fun _ => { disabled := e.2.disabled } else s) s

/-- Clear what the image copy and the staging of a channel hold for a design, or for a load in progress, with its slot key once neither
channel holds a slot of it (R160, R161, R413). -/
def State.clearImages (s : State) (c : Ch) (id : Nat) : State :=
  let s := s.modHbm c fun h => { h with images := h.images.filter (fun e => e.2.design != id), staging := h.staging.filter (fun e => e.1 != id) }
  let drop := fun (h : Hutch) => { h with slotKeys := h.slotKeys.filter (fun k => k.1 != id) }
  if (s.ch (otherCh c)).hbm.images.any (fun e => e.2.design == id) then s else (s.modHutch .a drop).modHutch .b drop

/-- Whether a design runs. -/
def Design.runs (d : Design) : Bool := d.state == .running || d.state == .stopping

/-- A fabric link without power keeps its lane map (R178, R344). -/
def FLink.unpowered (x : FLink) : FLink := { lanes := x.lanes, sbLanes := x.sbLanes, nextWire := x.nextWire, spareAt := x.spareAt }

/-- Ends of fabric links come up afresh, with a lane check (R177). -/
def State.linkUpAgain (s : State) (c : Ch) (ends : List Nat) : State :=
  s.modFab c fun f => { f with links := ends.foldl (fun t e => KV.upd {} e (fun x => { x.unpowered with check := 1 }) t) f.links }

/-- A design leaves the guest of a hub (R185): GUEST_RST_N goes low, and the guest's rails go off and on again, so that its port comes up
afresh. -/
def State.leaveGuest (s : State) (c : Ch) : State :=
  let s := s.modGuest c fun g => { g with owner := none, rstLow := true, late := false, gin := [], gout := [], haveOut := [],
                                          phase := 0, exchanged := false, rx := [] }
  if (s.ch c).guest.rails then (s.modGuest c fun g => { g with failed := false }).linkUpAgain c [11] else s

/-- Free what a design holds in one channel: guest, trigger units, trace ranges, capture, write-buffer entries not yet
committed, reads and checks in flight, its image copy and staged sections (R160, R161, R185, R378). -/
def State.releaseChannel (s : State) (c : Ch) (d : Design) : State :=
  let s := s.modCh c fun h =>
    { h with
      units := h.units.filter (fun e => e.2.design != some d.tag),
      tranges := h.tranges.filter (fun e => e.2.design != some d.tag) }
  let s := s.modHbm c fun h =>
    { h with wbuf := h.wbuf.filter (fun e => e.design != d.tag || e.committed),
             reads := h.reads.filter (fun e => e.design != d.tag), macs := h.macs.filter (fun e => e.design != d.tag) }
  let s := s.clearImages c d.tag
  if (s.ch c).guest.owner = some d.tag then s.leaveGuest c else s

/-- Complete ABORTED every RUN_START launch entry of a design (R390). -/
def State.abortLaunches (s : State) (c : Ch) (sel : Launch → Bool) : State :=
  (s.ch c).time.launches.foldl (fun s e =>
    match e.2 with
    | some l => if sel l then
        (s.completeTag l.ring l.tag .aborted 0).modTime c fun t => { t with launches := KV.put none e.1 none t.launches }
      else s
    | none => s) s

/-- The channels in which a design's capture and trace are produced (R361). -/
def Design.capChans (d : Design) : List Ch := if d.twin then [d.home] else d.chans

/-- CAPTURE_DROP for a run of dropped frames that has ended (R360). -/
def State.dropEnds (s : State) (d : Design) (c : Ch) : State :=
  let n := (d.cc c).dropRun
  if n = 0 then s
  else (s.hubEvent c 0xA001 [chNum c, min 0xFFFFFFFF n]).modDesign d.tag fun d => d.modCc c fun x => { x with dropRun := 0 }

/-- Remove a design: everything it holds is released, its memory is cleared with it, and its partitions become EMPTY, still
held by their tenant (R138, R236, R307). -/
def State.removeDesign (s : State) (d : Design) : State :=
  let s := s.drainOutlets d (((s.portsOf d).map (fun e => e.2.released.length)).sum)
  let s := if d.twin then (s.unbindPorts (otherCh d.home) d).releasePorts d.home d
    else (s.releasePorts .a d).releasePorts .b d
  let s := (s.releaseChannel .a d).releaseChannel .b d
  let s := (s.abortLaunches .a (fun l => l.kind == 1 && d.allParts.contains l.partition)).abortLaunches .b
    (fun l => l.kind == 1 && d.allParts.contains l.partition)
  let s := (s.host.cmds.filter (fun m => m.started && decide (0x62 ≤ m.desc.opcode.toNat) && decide (m.desc.opcode.toNat ≤ 0x68) &&
    d.allParts.contains m.desc.partition.toNat)).foldl (fun s m => s.complete m .aborted 0) s
  let s := if d.cap.on then d.capChans.foldl (fun s c => s.dropEnds d c) s else s
  let s := { s with pins := s.pins.filter (fun e => e.2.design != d.tag),
                    designs := s.designs.filter (fun x => x.tag != d.tag) }
  s.modParts d.allParts fun p => { p with state := .empty, design := 0 }

/-- Carry out the stop requests that waited for a stop: STOP completes OK; UNLOAD removes the design and completes OK with
the frame number it had reached (R236). -/
def State.finishStops (s : State) (tag : Nat) : State :=
  match s.design tag with
  | none => s
  | some d =>
    let s := s.modDesign tag fun d => { d with stops := [] }
    let fr := BitVec.ofNat 48 d.frame
    let un := d.stops.any (fun q => q.unload)
    let s := if un then s.removeDesign d else s
    d.stops.foldl (fun s q => if q.answer then
      match s.cmd q.ring q.tag with
      | some m => s.completeAt m .ok fr 0
      | none => s else s) s

/-! ### Trestles (R77-R80, R312) -/

/-- Whether a channel's Cabinets step under the second Trestle: channel B's copy of a TWINNED design (R312). -/
def Design.sideOf (d : Design) (c : Ch) : Bool := d.twin && c == .b

/-- A Trestle of a design. -/
def Design.tr (d : Design) (b : Bool) : Trestle := if b then d.trB else d.trA

/-- Set a Trestle of a design. -/
def Design.setTr (d : Design) (b : Bool) (t : Trestle) : Design := if b then { d with trB := t } else { d with trA := t }

/-- The Cabinets that one Trestle joins: those of one copy in TWINNED, otherwise the span (R77, R312). -/
def Design.lock (d : Design) (b : Bool) : List Nat := if d.twin then d.span.filter (fun l => d.sideOf (chOfCab l) == b) else d.span

/-- The channels that one Trestle serves. -/
def Design.lockChans (d : Design) (b : Bool) : List Ch := if d.twin then [if b then .b else .a] else d.chans

/-- The steps that have clearance for a Cabinet. -/
def Design.clearedOf (d : Design) (l : Nat) : Nat := (d.tr (d.sideOf (chOfCab l))).cleared

/-- Whether every Cabinet of a Trestle has completed the cleared steps of a frame under way (R79). -/
def Design.waiting (d : Design) (b : Bool) : Bool :=
  (d.lock b).all (fun c => (d.cab c).next == (d.tr b).cleared) && decide ((d.tr b).cleared < d.header.frameLen)

/-- Whether the span is held, in TWINNED a copy of it: the frame cannot commit until the hold ends (R80). -/
def Design.held (d : Design) : Bool := d.trA.held || d.trB.held

/-- The load in progress that holds a partition. -/
def State.loadAt (s : State) (p : Nat) : Option Load :=
  s.loads.find? (fun l => (l.targets ++ (if s.mode.mode == Mode.twinned then l.targets.map (· ^^^ 4) else [])).contains p)

/-- End a load in progress: its partitions are EMPTY, their image-copy slots and its staged sections are cleared, and nothing else is touched
(R120, R160, R245); it counts in PTN_REFUSALS. -/
def State.cancelLoad (s : State) (l : Load) (st : Status) : State :=
  let ps := l.targets ++ (if s.mode.mode == Mode.twinned then l.targets.map (· ^^^ 4) else [])
  let s := s.modParts ps fun p => { p with state := .empty }
  let s := (s.clearImages .a (256 + l.targets.headD 0)).clearImages .b (256 + l.targets.headD 0)
  let s := { s with loads := s.loads.filter (fun x => !(x.ring == l.ring && x.tag == l.tag)) }
  let s := ([Ch.a, Ch.b].filter (fun c => ps.any (fun p => chOfPart p == c))).foldl (fun s c => s.count .ptnRefusals c []) s
  s.completeTag l.ring l.tag st 0

/-- The Cabinets of a design whose capture stream begins anew, their next records plain (R358, R361). -/
def Design.plainCabs (d : Design) : KV CabSt :=
  (d.cabs.map (fun (e : Nat × CabSt) => (e.1, { e.2 with sinceFull := 0 }))).filter (fun e => e.2 ≠ {})

/-! ### Fencing (R19, R244, R307, R319) -/

/-- Fence a channel: CH_FENCED, its sequencer in FENCED (R327), the event, loads into it end FENCED (R307), designs that
span both channels or lie in it stop with FENCED, a TWINNED design runs on in the other copy, and repairs under way in the fenced one are
abandoned (R319, R331). -/
def State.fence (s : State) (c : Ch) (cause : Nat) : State :=
  if (s.ch c).fenced then s else
  let s := s.modCh c fun h => { h with fenced := true, seq := 7, seqCab := 0x7F }
  let s := s.event 0x8005 0 0xFF 0 false [chNum c, cause]
  let s := (s.loads.filter (fun l => l.targets.any (fun p => chOfPart p == c))).foldl (fun s l => s.cancelLoad l .fenced) s
  let s := s.designs.foldl (fun s d =>
    if d.twin && d.fencedSide == some (otherCh c) then ((s.stopAt d.tag .fenced 1).modDesign d.tag fun d => { d with state := .fenced }).modParts d.allParts fun p => { p with state := .fenced }
    else if d.twin then
      let s := s.modDesign d.tag fun d => { d with
        fencedSide := some c, verdict := none, failover := d.failover || (c == .a && d.cap.on),
        cabs := d.plainCabs,
        repairs := d.repairs.filter (fun r => r.1 != 3 && r.1 != 6 && chOfCab r.2.1 != c) }
      s.modParts (d.allParts.filter (fun p => chOfPart p == c)) fun p => { p with state := .fenced }
    else if d.chans.contains c then
      let s := s.stopAt d.tag .fenced 1
      s.setDesignState d .fenced
    else s) s
  if s.mode.mode = .twinned then s.modMode fun m => { m with referee := .degraded } else s

/-! ### Spare Cabinets and the grade (R26, R345) -/

/-- Whether a physical Cabinet of a die is healthy. -/
def DieSt.healthy (x : DieSt) (i : Nat) : Bool := !(KV.get {} i x.cabs).failed && !(KV.get {} i x.cabs).configBad

/-- The healthy spare Cabinets of a die, the standing one first (R26). -/
def DieSt.spares (x : DieSt) : List Nat := (x.standing.toList ++ x.rotating.toList).filter x.healthy

/-- Settle the roles of the spares of a die after one of them failed (R26): a sole healthy spare is the standing one, and a slice that
loses its rotating spare is abandoned. -/
def DieSt.settle (x : DieSt) : DieSt :=
  let gone := (x.slice == .preload || x.slice == .waitBoundary) && x.spares[1]? != x.rotating
  { x with standing := x.spares.head?, rotating := x.spares[1]?, slice := if gone then .idle else x.slice,
           chosen := if gone then none else x.chosen }

/-- Healthy spare Cabinets of a die of a channel. -/
def State.spares (s : State) (c : Ch) (die : Nat) : List Nat := (s.die c die).spares

/-- A die falls to reduced grade (R345): the module's grade with it, and GRADE_REDUCED once per die. -/
def State.gradeDown (s : State) (c : Ch) (die cause : Nat) : State :=
  if (s.die c die).reported then s
  else (({ s with id := { s.id with reduced := true } }).modDie c die fun x => { x with reported := true }).hubEvent c 0x9003 [die, cause]

/-- Lower the grade of a die that holds no healthy spare (R345). A freed Cabinet under test counts as one until its test fails. -/
def State.spareCheck (s : State) (c : Ch) (die : Nat) : State :=
  if (s.spares c die).isEmpty && (s.die c die).freed.isNone then s.gradeDown c die 1 else s

/-- A spare Cabinet of a die has failed: the roles settle (R26) and the grade follows (R345). -/
def State.spareFailed (s : State) (c : Ch) (die : Nat) : State := (s.modDie c die DieSt.settle).spareCheck c die

/-- Stop every design selected with a status, as an error stop (R91 and the rules that name a stop status). -/
def State.stopWhere (s : State) (sel : Design → Bool) (st : Status) : State :=
  s.designs.foldl (fun s d => if sel d then s.stopAt d.tag st 1 else s) s

/-- Whether a partition range of tenant memory is used by a design's regions in a channel. -/
def Design.usesRange (d : Design) (c : Ch) (r : Nat) : Bool :=
  d.regions.any (fun g => g.range == r && g.side == chNum c)

/-- Whether a loaded design has a region in a range (R280, SEC_RANGE_CTRL.PATCHED). -/
def State.patched (s : State) (c : Ch) (r : Nat) : Bool := s.designs.any (fun d => d.usesRange c r)

/-- Wipe a Hutch (R141): every key is gone, and the range keys with it. -/
def State.wipeHutch (s : State) (c : Ch) : State :=
  let s := s.modHutch c fun h => { h with keys := [], slotKeys := [], hubKey := none, treeKey := none, wiped := true,
                                          wipes := satAdd h.wipes 1 }
  s.modCh c fun h => { h with
    ranges := (h.ranges.map (fun e => (e.1, { e.2 with key := none }))).filter (fun e => e.2 ≠ {}),
    ports := (h.ports.map (fun e => (e.1, { e.2 with keys := none, nextKeys := none, traffic := false, updating := false }))).filter
      (fun e => e.2 ≠ {}) }

/-- Wipe a Hutch for a cause (R141): HUTCH_WIPED, and a debug token lapses (R270). -/
def State.hutchWiped (s : State) (c : Ch) (cause : Nat) : State :=
  ((s.wipeHutch c).modSec fun x => { x with token := none }).hubEvent c 0x2007 [chNum c, cause]

/-- First byte of tenant design memory (R158, R159): where the capture ring ends. -/
def HbmSt.tenantLo (h : HbmSt) : Nat := (256 + 1448 + 256 * (h.ring + 1)) * 2 ^ 20

/-- End of tenant design memory: the counter tree, or the end of the channel space with integrity off. -/
def HbmSt.tenantHi (h : HbmSt) : Nat := if h.integrity then 0x4FE600000 else 0x5D0000000

end Sys2Proof.Machine
end

