-- ==== Sys2Proof/Machine/Keys.lean ====
section
/-! DEFINITION. Trust (12_trust_and_keys.md): SPDM requests and sessions (R271-R273), vendor-defined requests (R274, R275,
R413), the lifecycle (R268-R270), tenant slots and key ranges (R279, R280). -/

namespace Sys2Proof.Machine

open Sys2Proof

/-! ### Sessions (R272, R273) -/

/-- The session of a principal, if it is open. -/
def State.session (s : State) (w : Sess) : Option SessRec := s.sec.sessions.find? (fun x => x.who == w)

/-- End the session of a principal (SESSION event 2). -/
def State.endSession (s : State) (w : Sess) : State :=
  match s.session w with
  | some _ => (s.modSec fun x => { x with sessions := x.sessions.filter (fun y => y.who != w) }).hostEvent 0x6006 [w.num, 2]
  | none => s

/-- End every session (R268, R299). -/
def State.endSessions (s : State) : State := s.sec.sessions.foldl (fun s x => s.endSession x.who) s

/-- Open a session; it ends the principal's earlier one (R273). -/
def State.openSession (s : State) (x : SessRec) : State :=
  let s := s.endSession x.who
  (s.modSec fun y => { y with sessions := y.sessions ++ [x] }).hostEvent 0x6006 [x.who.num, 1]

/-- The principal that a requester's key digest names (R273). -/
def State.principal (s : State) (leaf : Digest) : Sess :=
  if s.sec.bound = some leaf then .operator
  else match s.sec.slots.find? (fun e => e.2 == some (leaf.setWidth 256)) with
    | some e => .tenant e.1
    | none => .unbound

/-- Give the response to a request. -/
def State.reply (s : State) (r : Rsp) : State := s.modSec fun x => { x with rsp := some r }

/-- Whether the responder runs at all (R272): the host die answers, with valid firmware (R291; DEDUCED, log entry 40). -/
def State.rspUp (s : State) : Bool := s.hostUp && s.base.fwValid

/-- Whether the responder answers more than a SCRAPPED part does (R269). -/
def State.spdmUp (s : State) : Bool := s.portAnswers && s.base.fwValid

/-- A measurement in force (R271, R290, R298): 1 and 2 are what the ROM and the host-die firmware booted give, 3 and 4 the digests of the
base image in force. -/
def State.measured (s : State) (i : Nat) : Digest :=
  if i = 1 then Config.measure 1 else if i = 2 then Config.measure (2 + 16 * s.base.fwSvn.toNat) else KV.get 0 i s.sec.meas

/-- The attestation key pair, by its inputs (R271): the identity, measurements 1-4 and the lifecycle state. It is another key whenever one of
them changes. -/
def State.attKey (s : State) : Digest :=
  Config.sha384 ([1, 2, 3, 4].flatMap (fun i => leBytes 48 (s.measured i).toNat) ++ leBytes 1 s.sec.lifecycle.code ++
    leBytes 1 (bit01 s.sec.identityKey))

/-- GET_VERSION (R272): version 1.2; the negotiation starts anew. A host die in reset or without power answers no request (R226). -/
def execGetVersion (s : State) : Host.Outcome State Fault Refusal :=
  .next (if s.rspUp = false then s else (s.modSec fun x => { x with spdm := 0 }).reply .version)

/-- GET_CAPABILITIES (R272). -/
def execGetCapabilities (s : State) : Host.Outcome State Fault Refusal :=
  .next (if s.rspUp = false then s else s.reply .capabilities)

/-- NEGOTIATE_ALGORITHMS (R272): the one choice of each kind is taken; any other offer is refused. -/
def execNegotiateAlgorithms (offer : AlgOffer) (s : State) : Host.Outcome State Fault Refusal :=
  .next (if s.spdmUp = false then s
    else if offer.ecdsaP384 && offer.sha384 && offer.ecdhe384 && offer.aes256gcm then
      (s.modSec fun x => { x with spdm := 1 }).reply .algorithms
    else (s.modSec fun x => { x with spdm := 0 }).reply .error)

/-- GET_DIGESTS (R272): the digest of the chain in slot 0. -/
def execGetDigests (s : State) : Host.Outcome State Fault Refusal :=
  .next (if s.rspUp = false then s else s.reply (.digests (Config.sha384 (Config.certChain s.attKey s.id.serial))))

/-- GET_CERTIFICATE (R271, R272): a portion of the chain in slot 0. -/
def execGetCertificate (slot offset length : Nat) (s : State) : Host.Outcome State Fault Refusal :=
  .next (if s.rspUp = false then s
    else if slot ≠ 0 then s.reply .error
    else s.reply (.certificate (((Config.certChain s.attKey s.id.serial).drop offset).take length)))

/-- CHALLENGE (R271, R272): CHALLENGE_AUTH under the alias key. It needs agreed algorithms, as SPDM 1.2 has it (PRESUMED,
log entry 10). -/
def execChallenge (slot : Nat) (nonce : BitVec 256) (s : State) : Host.Outcome State Fault Refusal :=
  .next (if s.spdmUp = false then s
    else if slot ≠ 0 ∨ s.sec.spdm = 0 then s.reply .error
    else s.reply (.challengeAuth (Config.ecdsaSign s.attKey
      (Config.sha384 (Config.certChain s.attKey s.id.serial ++ leBytes 32 nonce.toNat)))))

/-- Topology hash in force, 0 for none. -/
def State.topoHash (s : State) : Digest := (s.topo.map (·.hash)).getD 0

/-- MOD_IDENT.GRADE (R1, R345): 0 PD-7420, 1 PD-7410, each with bit 1 set at the reduced grade. -/
def State.grade (s : State) : Nat := (if s.id.twoCh then 0 else 1) + (if s.id.reduced then 2 else 0)

/-- The content of a measurement block as it stands (R271, R272); none where no such block exists. Blocks of images go to the
tenant that holds the partition, inside its session; others get 0 bytes. -/
def State.measBlock (s : State) (w : Option Sess) (i : Nat) : Option (List Byte) :=
  if 1 ≤ i ∧ i ≤ 4 then some (leBytes 48 (s.measured i).toNat)
  else if i = 5 then
    some (leBytes 1 s.sec.lifecycle.code ++ leBytes 1 (bit01 s.sec.latched) ++
      leBytes 1 (match s.sec.token with | some t => t.1.toNat | none => 0))
  else if i = 6 then some (leBytes 1 s.mode.mode.code ++ leBytes 1 s.grade ++ leBytes 48 s.topoHash.toNat)
  else if 0x10 ≤ i ∧ i ≤ 0x17 then
    let p := i - 0x10
    match s.designAt p with
    | some d => some (if w = some (.tenant (s.part p).owner) then leBytes 48 d.digest.toNat else [])
    | none => some []
  else none

/-- GET_MEASUREMENTS (R271, R272): one block, or all for index 0xFF, signed with the alias key. -/
def execGetMeasurements (sess : Option Sess) (index : Nat) (nonce : BitVec 256) (s : State) : Host.Outcome State Fault Refusal :=
  .next (if s.spdmUp = false then s
    else if s.sec.spdm = 0 ∨ (sess.map (fun w => (s.session w).isSome)).getD true = false then s.reply .error
    else
      let l := if index = 0xFF then [1, 2, 3, 4, 5, 6] ++ (List.range 8).map (0x10 + ·) else [index]
      let blocks := l.filterMap (fun i => (s.measBlock sess i).map (fun b => (i, b)))
      if blocks.isEmpty then s.reply .error
      else s.reply (.measurements blocks (Config.ecdsaSign s.attKey
        (Config.sha384 (blocks.flatMap (·.2) ++ leBytes 32 nonce.toNat)))))

/-- KEY_EXCHANGE (R272, R273): mutual authentication is always asked for. The module's ephemeral key is a free value. -/
def execKeyExchange (eph : List Byte) (nonce : BitVec 256) (s : State) : Host.Outcome State Fault Refusal :=
  .next (if s.spdmUp = false then s
    else if s.sec.spdm = 0 then s.reply .error
    else
      let ems := Config.hkdf (Config.ecdh eph s.free) (leBytes 32 nonce.toNat) (strBytes "exp master")
      let s := s.freeNext
      (s.modSec fun x => { x with handshake := some ems }).reply
        (.keyExchange true 60 (Config.ecdsaSign s.attKey (Config.sha384 ems))))

/-- FINISH (R272, R273): the requester proves its key, and the session is bound on the key's digest. -/
def execFinish (leafKey : List Byte) (sig : List Byte) (s : State) : Host.Outcome State Fault Refusal :=
  .next (if s.spdmUp = false then s
    else match s.sec.handshake with
      | none => s.reply .error
      | some ems =>
        let s := s.modSec fun x => { x with handshake := none }
        if Config.ecdsaVerify leafKey (Config.sha384 ems) sig then
          let leaf := Config.sha384 leafKey
          let w := s.principal leaf
          (s.openSession { who := w, ems := ems, leaf := leaf }).reply (.finished w)
        else (s.hostEvent 0x6006 [0xFF, 3]).reply .error)

/-- HEARTBEAT (R272). -/
def execSpdmHeartbeat (sess : Sess) (s : State) : Host.Outcome State Fault Refusal :=
  .next (if s.spdmUp = false then s else if (s.session sess).isSome then s.reply .heartbeatAck else s.reply .error)

/-- KEY_UPDATE (R272). -/
def execKeyUpdate (sess : Sess) (s : State) : Host.Outcome State Fault Refusal :=
  .next (if s.spdmUp = false then s else if (s.session sess).isSome then s.reply .keyUpdateAck else s.reply .error)

/-! ### Vendor-defined requests (R274) -/

/-- Serve a vendor-defined request of an open session. While the tamper latch is set, every one but CLAIM completes TAMPER
(R289); an unbound session may do no more than attest (R273). -/
def State.vendor (s : State) (sess : Sess) (f : State → SessRec → State) : State :=
  if s.spdmUp = false then s
  else match s.session sess with
    | none => s.reply .error
    | some x =>
      if s.sec.latched then s.reply (.status .tamper)
      else if sess = .unbound then s.reply (.status .refusedState)
      else f s x

/-- Turn a session into the operator session (R274). -/
def State.promoteSession (s : State) (x : SessRec) : State :=
  let s := if x.who = .operator then s else s.endSession .operator
  s.modSec fun y => { y with sessions := y.sessions.map (fun z => if z = x then { z with who := .operator } else z) }

/-- CLAIM (R274): on an unclaimed or latched module, in an unbound or operator session. -/
def execClaim (sess : Sess) (transfer : Option (List Byte)) (s : State) : Host.Outcome State Fault Refusal :=
  .next (if s.spdmUp = false then s
    else match s.session sess with
      | none => s.reply .error
      | some x =>
        let refuse := s.reply (.status .refusedState)
        if sess ≠ .operator ∧ sess ≠ .unbound then refuse
        else match s.sec.bound with
          | none =>
            (((s.modSec fun y => { y with bound := some x.leaf }).promoteSession x).hostEvent 0x6008 [1]).reply (.status .ok)
          | some b =>
            if s.sec.latched = false then refuse
            else if b = x.leaf then
              (((s.modSec fun y => { y with latched := false, cause := 0 }).promoteSession x).hostEvent 0x6008 [2]).reply (.status .ok)
            else match transfer with
              | none => refuse
              | some sig =>
                if Config.ecdsaVerify (leBytes 48 b.toNat)
                    (Config.sha384 (leBytes 8 s.id.serial.toNat ++ leBytes 48 x.leaf.toNat)) sig then
                  (((s.modSec fun y => { y with bound := some x.leaf }).promoteSession x).hostEvent 0x6008 [3]).reply (.status .ok)
                else refuse)

/-- Largest INDEX of a KIND; none where the table of R275 has no such KIND (R413). -/
def kindMax (kind : Nat) : Option Nat :=
  if kind = 3 then some 15 else if kind = 9 then some 3 else if 1 ≤ kind ∧ kind ≤ 0x0A then some 0 else none

/-- Whether a KIND and INDEX name a key (R413). -/
def kindOk (kind index : Nat) : Bool := (kindMax kind).any (fun n => decide (index ≤ n))

/-- Whether a principal may install a KIND (R275, Origin): the operator 0x01 and 0x09, a tenant every other and 0x09. -/
def kindAllowed (sess : Sess) (kind : Nat) : Bool :=
  match sess with
  | .operator => kind == 1 || kind == 9
  | .tenant _ => kind != 1
  | .unbound => false

/-- Remove a key from a Hutch. -/
def Hutch.drop (h : Hutch) (holder kind index : Nat) : Hutch :=
  { h with keys := h.keys.filter (fun k => !(k.holder == holder && k.kind == kind && k.index == index)) }

/-- Put a key into a Hutch; WIPED clears (R141). -/
def Hutch.install (h : Hutch) (k : Key) : Hutch :=
  let h := h.drop k.holder k.kind k.index
  { h with keys := h.keys ++ [k], wiped := false }

/-- Install a key in the Hutch of every populated hub whose rail is present (R413). -/
def State.installKey (s : State) (k : Key) : State :=
  s.channels.foldl (fun s c => if (s.ch c).hutch.powered then s.modHutch c fun h => h.install k else s) s

/-- KEY_SET (R274, R275, R413): replaces a key of the same KIND and INDEX. The session key is derived, not sent. -/
def execKeySet (sess : Sess) (kind index : Nat) (material : List Byte) (s : State) : Host.Outcome State Fault Refusal :=
  .next (s.vendor sess fun s x =>
    if kindOk kind index = false then s.reply (.status .resource)
    else if kindAllowed sess kind = false then s.reply (.status .refusedState)
    else
      let mat := if kind = 0x0A then (Config.hkdf x.ems [] (strBytes "lumwell tenant session")).take 32 else material
      (s.installKey { holder := sess.holder, kind := kind, index := index, material := mat }).reply (.status .ok))

/-- KEY_DROP (R274, R413). -/
def execKeyDrop (sess : Sess) (kind index : Nat) (s : State) : Host.Outcome State Fault Refusal :=
  .next (s.vendor sess fun s _ =>
    if kindOk kind index = false then s.reply (.status .resource)
    else if (s.key sess.holder kind index).isNone then s.reply (.status .nothingToAbort)
    else ((s.modHutch .a fun h => h.drop sess.holder kind index).modHutch .b fun h => h.drop sess.holder kind index).reply (.status .ok))

/-- KEY_LIST (R274): KIND and INDEX of every installed key of the principal, never material. -/
def execKeyList (sess : Sess) (s : State) : Host.Outcome State Fault Refusal :=
  .next (s.vendor sess fun s _ =>
    let l := if s.chA.hutch.keys.isEmpty then s.chB.hutch.keys else s.chA.hutch.keys
    s.reply (.keys ((l.filter (fun k => k.holder == sess.holder)).map (fun k => (k.kind, k.index)))))

/-- DEBUG_TOKEN (R270, R274): a Lumwell-signed token that names this serial, in the operator's session. -/
def execDebugToken (sess : Sess) (token : Token) (s : State) : Host.Outcome State Fault Refusal :=
  .next (s.vendor sess fun s _ =>
    if sess ≠ .operator then s.reply (.status .refusedState)
    else if token.serial ≠ s.id.serial ∨ Config.lumwellVerify
        (leBytes 8 token.serial.toNat ++ leBytes 1 token.features.toNat ++ leBytes 8 token.notAfter.toNat) token.sig = false then
      s.reply (.status .authFail)
    else if token.notAfter.toNat ≤ (s.now0 0).toNat then s.reply (.status .refusedState)
    else (s.modSec fun x => { x with token := some (token.features, token.notAfter) }).reply (.status .ok))

/-- DEBUG_TOKEN_EXPIRY (R270): the token lapses at its not-after time in time view 0. -/
def execDebugTokenExpiry (s : State) : Host.Outcome State Fault Refusal :=
  .next (match s.sec.token with
    | some t => if t.2.toNat ≤ (s.now0 0).toNat then s.modSec fun x => { x with token := none } else s
    | none => s)

/-! ### Lifecycle (R268-R271) -/

/-- Close a tenant slot: its keys, its session and its record go (CLOSE_SLOT, R268, R289). -/
def State.closeSlot (s : State) (slot : Nat) : State :=
  let s := s.endSession (.tenant slot)
  let drop := fun (h : Hutch) => { h with keys := h.keys.filter (fun k => k.holder != slot) }
  ((s.modHutch .a drop).modHutch .b drop).modSec fun x => { x with slots := KV.del slot x.slots }

/-- Close every tenant slot and set every range unowned (R268, R289). -/
def State.clearTenants (s : State) : State :=
  let s := s.sec.slots.foldl (fun s e => s.closeSlot e.1) s
  let s := s.modParts (List.range 8) fun p => { p with owner := 0 }
  (s.modCh .a fun h => { h with ranges := [] }).modCh .b fun h => { h with ranges := [] }

/-- Whether a lifecycle transition is in the table of R268. -/
def lifecycleStep (a b : Lifecycle) : Bool :=
  match a, b with
  | .blank, .vendor | .vendor, .field | .field, .returned | .returned, .field | .field, .scrapped | .returned, .scrapped => true
  | _, _ => false

/-- Whether the authorisation of a transition verifies (R268): a Lumwell-signed record naming the serial, or for SCRAPPED the
bound operator's signed order; BLANK is left by Lumwell test equipment through the mailbox. -/
def State.lifecycleAuth (s : State) (target : Lifecycle) (serial : BitVec 64) (auth : List Byte) (byOperator : Bool) : Bool :=
  let data := leBytes 8 serial.toNat ++ leBytes 1 s.sec.lifecycle.code ++ leBytes 1 target.code
  if s.sec.lifecycle = .blank then true
  else if serial ≠ s.id.serial then false
  else if byOperator && target == .scrapped then
    match s.sec.bound with
    | some b => Config.ecdsaVerify (leBytes 48 b.toNat) (Config.sha384 data) auth
    | none => false
  else Config.lumwellVerify data auth

/-- The further effect of a transition (R268). -/
def State.lifecycleEffect (s : State) (target : Lifecycle) : State :=
  match target with
  | .vendor => s.modSec fun x => { x with identityKey := true }
  | .field => if s.sec.lifecycle = .vendor then s.modSec fun x => { x with bound := none }
      else s.modSec fun x => { x with latched := true, cause := 0 }
  | .returned =>
    let s := s.clearTenants
    let zero := fun (h : HbmSt) => { h with mem := [], poison := [], wbuf := [], lost := [] }
    ((s.modHbm .a zero).modHbm .b zero).modSec fun x => { x with returnsLeft := x.returnsLeft - 1 }
  | .scrapped => s.modSec fun x => { x with identityKey := false }
  | .blank => s

/-- LIFECYCLE (R268-R271, R274): only in SERVICE with every partition EMPTY, in the operator's session, under its
authorisation; both Hutches are wiped, every session ends, a new alias is derived. -/
def execLifecycle (sess : Option Sess) (target : Lifecycle) (serial : BitVec 64) (auth : List Byte) (byOperator : Bool)
    (s : State) : Host.Outcome State Fault Refusal :=
  .next (
    let from' := s.sec.lifecycle
    if s.spdmUp = false then s
    else if s.sec.latched then s.reply (.status .tamper)
    else if from' ≠ .blank ∧ (sess ≠ some .operator ∨ (s.session .operator).isNone) then s.reply (.status .refusedState)
    else if s.mode.mode ≠ .service ∨ (List.range 8).any (fun p => (s.part p).state != .empty) ∨
        lifecycleStep from' target = false ∨ (target = .returned ∧ s.sec.returnsLeft = 0) then s.reply (.status .refusedState)
    else if s.lifecycleAuth target serial auth byOperator = false then s.reply (.status .authFail)
    else
      let s := s.lifecycleEffect target
      let s := (s.channels.filter (fun c => (s.ch c).hutch.powered)).foldl (fun s c => s.hutchWiped c 2) s
      let s := s.modSec fun x => { x with lifecycle := target }
      (s.endSessions.hostEvent 0x6005 [from'.code, target.code]).reply (.status .ok))

/-! ### Slots and ranges (12, opcodes; R279, R280) -/

/-- OPEN_SLOT (R273 and the opcode table). -/
def execOpenSlot (r : RingNo) (t : Tag) (s : State) : Host.Outcome State Fault Refusal :=
  .next (s.withCmd r t 0x10 fun s m =>
    let slot := m.desc.par 8 1
    if (KV.get none slot s.sec.slots).isSome then s.complete m .refusedState 0
    else (s.modSec fun x => { x with slots := KV.put none slot (some (BitVec.ofNat 256 (m.desc.par 16 32))) x.slots }).complete m .ok 0)

/-- Begin to clear a range under the key and mode that follow (R280). -/
def State.clearRange (s : State) (c : Ch) (r : Nat) (owner mode : Nat) (job : ClearJob) : State :=
  let k := if mode = 0 then none else some s.free
  (s.modRange c r fun g => { g with owner := owner, mode := mode, key := k, state := 1, job := some job }).freeNext

/-- CLOSE_SLOT: the slot holds no partition; its keys, session and ranges go. It waits while a range of the slot is being cleared. -/
def execCloseSlot (r : RingNo) (t : Tag) (s : State) : Host.Outcome State Fault Refusal :=
  .next (s.withCmd r t 0x11 fun s m =>
    let slot := m.desc.par 8 1
    if (KV.get none slot s.sec.slots).isNone || (List.range 8).any (fun p => (s.part p).owner == slot) then
      s.complete m .refusedState 0
    else if [Ch.a, Ch.b].any (fun c => (s.ch c).ranges.any (fun e => e.2.owner == slot && e.2.state == 1)) then s
    else
      let s := [Ch.a, Ch.b].foldl (fun s c => (s.ch c).ranges.foldl (fun s e =>
        if e.2.owner = slot then s.clearRange c e.1 0 0 { remove := true, ring := 0, tag := 0, answer := false } else s) s) s
      (s.closeSlot slot).complete m .ok 0)

/-- The channel that a range command names; none on a PD-7410 for channel B (opcode table). -/
def State.rangeCh (s : State) (m : Cmd) : Option Ch :=
  if m.desc.par 8 1 = 0 then some .a else if s.id.twoCh then some .b else none

/-- Whether a placement lies in tenant design memory and overlaps no other range (R279, R280); units of 4 KiB. -/
def State.placeOk (s : State) (c : Ch) (r base len : Nat) : Bool :=
  decide (len ≠ 0) && decide ((s.ch c).hbm.tenantLo ≤ 4096 * base) && decide (4096 * (base + len) ≤ (s.ch c).hbm.tenantHi) &&
  (s.ch c).ranges.all (fun e => e.1 == r || e.2.len == 0 || decide (base + len ≤ e.2.base) || decide (e.2.base + e.2.len ≤ base))

/-- ASSIGN_RANGE (R280): a fresh key and ENC; it completes after clearing. A change of a range that is being cleared waits. -/
def execAssignRange (r : RingNo) (t : Tag) (s : State) : Host.Outcome State Fault Refusal :=
  .next (s.withCmd r t 0x12 fun s m =>
    let n := m.desc.par 9 1
    let slot := m.desc.par 10 1
    match s.rangeCh m with
    | none => s.complete m .refusedState 0
    | some c =>
      if (KV.get none slot s.sec.slots).isNone || s.patched c n then s.complete m .refusedState 0
      else if (s.range c n).state = 1 then s
      else if s.placeOk c n (m.desc.par 12 4) (m.desc.par 16 4) = false then s.complete m .regionViolation 0
      else
        let s := (s.start m).modRange c n fun g => { g with base := m.desc.par 12 4, len := m.desc.par 16 4 }
        s.clearRange c n slot 1 { remove := false, ring := r, tag := t, answer := true })

/-- RELEASE_RANGE (R280): the key is destroyed, the range cleared in PLAIN and its placement removed. -/
def execReleaseRange (r : RingNo) (t : Tag) (s : State) : Host.Outcome State Fault Refusal :=
  .next (s.withCmd r t 0x13 fun s m =>
    let n := m.desc.par 9 1
    match s.rangeCh m with
    | none => s.complete m .refusedState 0
    | some c =>
      if (s.range c n).len = 0 then s.complete m .nothingToAbort 0
      else if s.patched c n then s.complete m .refusedState 0
      else if (s.range c n).state = 1 then s
      else (s.start m).clearRange c n 0 0 { remove := true, ring := r, tag := t, answer := true })

/-- SET_RANGE_MODE (R280, R284): a fresh key and the new mode for a range that the tenant owns; it also ends LOCKED. -/
def execSetRangeMode (r : RingNo) (t : Tag) (s : State) : Host.Outcome State Fault Refusal :=
  .next (s.withCmd r t 0x50 fun s m =>
    let n := m.desc.par 9 1
    let own := s.ringOwner m.ring
    match s.rangeCh m with
    | none => s.complete m .refusedState 0
    | some c =>
      if (s.range c n).len = 0 ∨ (s.range c n).owner ≠ own ∨ s.patched c n then s.complete m .refusedState 0
      else if m.desc.par 10 1 = 2 ∧ (s.ch c).hbm.integrity = false then s.complete m .resource 0
      else if (s.range c n).state = 1 then s
      else (s.start m).clearRange c n own (m.desc.par 10 1) { remove := false, ring := r, tag := t, answer := true })

/-- RANGE_CLEAR_DONE (R280): zero stands in every line of the range; it is owned again, or its placement is gone; the command
that asked completes OK. -/
def execRangeClearDone (c : Ch) (r : Nat) (s : State) : Host.Outcome State Fault Refusal :=
  .next (
    let g := s.range c r
    match g.job with
    | none => s
    | some j =>
      if g.state ≠ 1 ∨ (s.pw c).state.arrayOn = false then s
      else
        let lo := 4096 * g.base
        let hi := 4096 * (g.base + g.len)
        let s := s.modHbm c fun h => { h with
          mem := h.mem.zero lo hi, poison := h.poison.filter (fun a => !(decide (lo ≤ a) && decide (a < hi))),
          lost := h.lost.filter (fun x => !(decide (x.1 < hi) && decide (lo < x.2))) }
        let s := s.modRange c r fun g => if j.remove then {} else { g with state := 2, job := none }
        if j.answer then s.completeTag j.ring j.tag .ok 0 else s)

end Sys2Proof.Machine
end

