-- ==== Sys2Proof/Machine/ImageForm.lean ====
section
/-! DEFINITION. The form of a Fatos image (R108-R118) and the encodings that a load refuses (R52, R75): sections, chunks and
records read from the decrypted body, and the checks that need the image alone. A failed check answers its item number and the
index concerned. -/

namespace Sys2Proof.Machine

open Sys2Proof

/-- A failed check: item of R52 or R75 (0 for none) and the Cabinet, chunk or record index concerned. -/
abbrev Fail := Nat × Nat

/-- The first failure of a list of checks. -/
def firstFail (l : List (Option Fail)) : Option Fail := l.findSome? id

/-- A check: the failure given unless the condition holds. -/
def chk (b : Bool) (item index : Nat) : Option Fail := if b then none else some (item, index)

/-! ### Sections (R109, R113) -/

/-- OFFSET and LENGTH of section `n` (1 to 11). -/
def sect (b : List Byte) (n : Nat) : Nat × Nat := (rd b (8 + 32 * (n - 1) + 8) 8, rd b (8 + 32 * (n - 1) + 16) 8)

/-- The bytes of section `n`. -/
def sectData (b : List Byte) (n : Nat) : List Byte := (b.drop (sect b n).1).take (sect b n).2

/-- Whether the directory locates every section (R113). -/
def locates (b : List Byte) : Bool :=
  decide (360 ≤ b.length) && decide (rd b 0 2 = 11) &&
  (List.range 11).all (fun i => rd b (8 + 32 * i) 1 == i + 1 && (sect b (i + 1)).1 % 64 == 0 &&
    decide (360 ≤ (sect b (i + 1)).1) && decide ((sect b (i + 1)).1 + (sect b (i + 1)).2 ≤ b.length)) &&
  (List.range 11).all (fun i => (List.range i).all (fun j =>
    let x := sect b (i + 1)
    let y := sect b (j + 1)
    decide (x.1 + x.2 ≤ y.1) || decide (y.1 + y.2 ≤ x.1)))

/-- Insert a section by its OFFSET, behind those with the same. -/
def insSect (b : List Byte) (n : Nat) : List Nat → List Nat
  | [] => [n]
  | m :: ms => if (sect b n).1 < (sect b m).1 then n :: m :: ms else m :: insSect b n ms

/-- The sections 1 to 10 in body order, that of their OFFSETs (R113). -/
def bodyOrder (b : List Byte) : List Nat := (List.range 10).foldl (fun l i => insSect b (i + 1) l) []

/-- The digest of R113: the directory with the CRC of SIGNATURE as zeros, then the sections in body order. -/
def imageDigest (b : List Byte) : Digest :=
  Config.sha384 (b.take 352 ++ leBytes 4 0 ++ (b.drop 356).take 4 ++ (bodyOrder b).flatMap (sectData b))

/-- Check 6 (R113, R114): the digest, and the signature where the tenant's signing key asks for one. -/
def check6 (b : List Byte) (signing : Option (List Byte)) : Bool :=
  !locates b ||
  (let g := sectData b 11
   rd g 0 48 == (imageDigest b).toNat &&
   (match signing with
    | some k => rd g 48 1 == 1 && Config.ecdsaVerify k (imageDigest b) ((g.drop 64).take 96)
    | none => true))

/-- Whether every byte from `lo` up to `hi` is 0. -/
def zeroGap (b : List Byte) (lo hi : Nat) : Bool := ((b.drop lo).take (hi - lo)).all (· == 0)

/-- Whether the sections stand in order with zeros between and after them. -/
def gapsOk (b : List Byte) : Bool :=
  let ends := 360 :: (List.range 11).map (fun i => (sect b (i + 1)).1 + (sect b (i + 1)).2)
  let starts := (List.range 11).map (fun i => (sect b (i + 1)).1) ++ [b.length]
  (List.range 12).all (fun i => decide (ends.getD i 0 ≤ starts.getD i 0) && zeroGap b (ends.getD i 0) (starts.getD i 0))

/-! ### Chunks and records (R111, R112, R115, R117) -/

/-- A chunk of CELLCODE. -/
structure CellChunk where
  cab : Nat
  bench : Nat
  first : Nat
  cells : Nat
  tiles : Nat
  data : List Byte

/-- A chunk of PORTCODE or MEMCODE. -/
structure CodeChunk where
  cab : Nat
  data : List Byte

/-- A record of MEMINIT. -/
structure MemRec where
  cab : Nat
  word : Nat
  data : List Byte
  count : Nat

/-- Read CELLCODE; `n` tiles per cell. The number answered is the index of a malformed chunk. -/
def cellChunks (n i : Nat) : Nat → List Byte → Except Nat (List CellChunk)
  | 0, l => if l.isEmpty then .ok [] else .error i
  | k + 1, l =>
    if l.isEmpty then .ok []
    else
      let c : CellChunk := { cab := rd l 0 1, bench := rd l 1 1, first := rd l 2 1, cells := rd l 3 1, tiles := rd l 4 2,
                             data := (l.drop 8).take (rd l 3 1 * rd l 4 2 * 180) }
      if decide (8 + c.cells * c.tiles * 180 ≤ l.length) && decide (c.cab ≤ 127) && decide (c.bench ≤ 15) &&
          decide (1 ≤ c.cells) && decide (c.first + c.cells ≤ 64) && c.tiles == n && rd l 6 2 == 0 then
        (cellChunks n (i + 1) k (l.drop (8 + c.cells * c.tiles * 180))).map (c :: ·)
      else .error i

/-- Read PORTCODE (16-byte entries) or MEMCODE (24-byte entries); `n` entries per chunk. -/
def codeChunks (n size i : Nat) : Nat → List Byte → Except Nat (List CodeChunk)
  | 0, l => if l.isEmpty then .ok [] else .error i
  | k + 1, l =>
    if l.isEmpty then .ok []
    else if decide (8 + n * size ≤ l.length) && decide (rd l 0 1 ≤ 127) && rd l 1 3 == 0 && rd l 4 2 == n && rd l 6 2 == 0 then
      (codeChunks n size (i + 1) k (l.drop (8 + n * size))).map
        (({ cab := rd l 0 1, data := (l.drop 8).take (n * size) } : CodeChunk) :: ·)
    else .error i

/-- Read MEMINIT. -/
def memRecs (i : Nat) : Nat → List Byte → Except Nat (List MemRec)
  | 0, l => if l.isEmpty then .ok [] else .error i
  | k + 1, l =>
    if l.isEmpty then .ok []
    else
      let n := rd l 4 4
      if decide (8 + 8 * n ≤ l.length) && decide (rd l 0 1 ≤ 127) && decide (rd l 1 3 < 131072) && decide (rd l 1 3 + n ≤ 131072) then
        (memRecs (i + 1) k (l.drop (8 + 8 * n))).map
          (({ cab := rd l 0 1, word := rd l 1 3, data := (l.drop 8).take (8 * n), count := n } : MemRec) :: ·)
      else .error i

/-- Cut a section into records of `n` bytes. -/
def records (n : Nat) (l : List Byte) : List (List Byte) := (List.range (l.length / n)).map fun i => (l.drop (n * i)).take n

/-- The list of an answer, empty on failure. -/
def okList {α : Type} (x : Except Nat (List α)) : List α := match x with | .ok l => l | .error _ => []

/-- The index of a failure. -/
def failIndex {α : Type} (x : Except Nat (List α)) : Option Fail := match x with | .ok _ => none | .error i => some (0, i)

/-- FRAME_LEN of a body. -/
def frameLen (b : List Byte) : Nat := rd (sectData b 1) 0 2
/-- PHASES of a body. -/
def phases (b : List Byte) : Nat := rd (sectData b 1) 2 1
/-- Tiles per cell. -/
def tilesPerCell (b : List Byte) : Nat := (frameLen b + 15) / 16
/-- The chunks of CELLCODE. -/
def bodyCells (b : List Byte) : Except Nat (List CellChunk) := cellChunks (tilesPerCell b) 0 131072 (sectData b 3)
/-- The chunks of PORTCODE. -/
def bodyPorts (b : List Byte) : Except Nat (List CodeChunk) := codeChunks (frameLen b) 16 0 128 (sectData b 4)
/-- The chunks of MEMCODE. -/
def bodyMems (b : List Byte) : Except Nat (List CodeChunk) := codeChunks (frameLen b) 24 0 128 (sectData b 5)
/-- The records of RELOC. -/
def bodyReloc (b : List Byte) : List (List Byte) := records 8 (sectData b 6)
/-- The records of PATCH. -/
def bodyPatch (b : List Byte) : List (List Byte) := records 16 (sectData b 7)
/-- The records of MEMINIT. -/
def bodyMemInit (b : List Byte) : Except Nat (List MemRec) := memRecs 0 (sect b 8).2 (sectData b 8)
/-- The records of PROBEMAP. -/
def bodyProbes (b : List Byte) : List (List Byte) := records 12 (sectData b 9)
/-- The records of RESETMAP. -/
def bodyResets (b : List Byte) : List (List Byte) := records 8 (sectData b 10)

/-- The first record of a list that fails a test, as a failure with its index. -/
def badRecord (l : List (List Byte)) (ok : List Byte → Bool) : Option Fail :=
  ((List.range l.length).find? (fun i => !ok (l.getD i []))).map (fun i => (0, i))

/-- Whether a PATCH record is well formed (R117). -/
def patchOk (r : List Byte) : Bool :=
  match rd r 0 1 with
  | 1 => decide (rd r 1 1 ≤ 1) && decide (rd r 2 2 ≤ 15) && decide (rd r 4 1 ≤ 15) && (rd r 5 1 == 1 || rd r 5 1 == 2) && rd r 6 2 == 0
  | 2 => rd r 1 1 == 0 && decide (rd r 2 2 ≤ 511) && decide (rd r 4 1 ≤ 63) && rd r 5 1 == 0 && decide (rd r 6 2 ≤ 511) && rd r 8 8 == 0
  | 3 => rd r 1 1 == 0 && decide (rd r 2 2 ≤ 127) && decide (rd r 4 1 ≤ 1) && decide (rd r 5 1 ≤ 7) && rd r 8 8 == 0
  | _ => false

/-- Whether the HEADER section is well formed (R109) for a mask and an IMAGE_ID. -/
def headerOk (h : List Byte) (mask : Nat) (imageId : Nat) : Bool :=
  decide (1 ≤ rd h 0 2) && decide (rd h 0 2 ≤ 2048) && decide (1 ≤ rd h 2 1) && decide (rd h 2 1 ≤ 4) && rd h 3 1 == 0 &&
  (List.range 8).all (fun q => if bitAt mask q then decide (rd h (4 + q) 1 ≤ 7) else rd h (4 + q) 1 == 0xFF) &&
  decide (rd h 12 2 ≤ 16) && decide (rd h 14 2 ≤ 512) && decide (rd h 16 2 ≤ 128) && decide (rd h 18 2 ≤ 512) &&
  rd h 24 8 == imageId && rd h 32 32 == 0

/-- Whether the cells named by two chunks are apart. -/
def chunksApart (x y : CellChunk) : Bool :=
  x.cab != y.cab || x.bench != y.bench || decide (x.first + x.cells ≤ y.first) || decide (y.first + y.cells ≤ x.first)

/-- The first element of a list that is not apart from an earlier one. -/
def repeated {α : Type} (apart : α → α → Bool) (l : List α) : Option Nat :=
  (List.range l.length).find? fun i => match l[i]? with
    | some x => (l.take i).any (fun y => !apart x y)
    | none => false

/-- Check 7: the directory, lengths, CRCs, gaps, HEADER and the form of every section. -/
def check7 (b : List Byte) (mask imageId : Nat) : Option Fail :=
  let sg := sectData b 11
  firstFail [
    chk (locates b && rd b 2 6 == 0 && gapsOk b) 0 0xFFFF,
    chk ((List.range 11).all (fun i => rd b (8 + 32 * i + 1) 7 == 0 && rd b (8 + 32 * i + 28) 4 == 0)) 0 0xFFFF,
    chk ((sect b 1).2 == 64 && (sect b 2).2 == 32 && (sect b 11).2 == 160) 0 0xFFFF,
    chk ((List.range 11).all (fun i => rd b (8 + 32 * i + 24) 4 == (crc32c (sectData b (i + 1))).toNat)) 0 0xFFFF,
    chk (headerOk (sectData b 1) mask imageId) 0 0xFFFF,
    failIndex (bodyCells b),
    (repeated chunksApart (okList (bodyCells b))).map (fun i => (0, i)),
    failIndex (bodyPorts b),
    (repeated (fun x y => x.cab != y.cab) (okList (bodyPorts b))).map (fun i => (0, i)),
    failIndex (bodyMems b),
    (repeated (fun x y => x.cab != y.cab) (okList (bodyMems b))).map (fun i => (0, i)),
    chk ((sect b 6).2 % 8 == 0 && (sect b 7).2 % 16 == 0 && (sect b 9).2 % 12 == 0 && (sect b 10).2 % 8 == 0) 0 0xFFFF,
    badRecord (bodyReloc b) (fun r => rd r 0 1 == 1 && decide (rd r 1 1 ≤ 127) && decide (rd r 4 1 ≤ 3) && rd r 5 3 == 0),
    badRecord (bodyPatch b) patchOk,
    failIndex (bodyMemInit b),
    badRecord (bodyProbes b) (fun r => decide (rd r 4 1 ≤ 127) && decide (rd r 5 1 ≤ 15) && decide (rd r 6 1 ≤ 63) && rd r 7 1 == 0 && rd r 10 2 == 0),
    badRecord (bodyResets b) (fun r => decide (rd r 0 1 ≤ 127) && decide (rd r 1 1 ≤ 15) && decide (rd r 2 1 ≤ 63) && decide (rd r 3 1 ≤ 1) &&
      decide (rd r 4 2 ≤ 511) && rd r 6 2 == 0),
    chk (decide (rd sg 48 1 ≤ 1) && rd sg 49 15 == 0 && (rd sg 48 1 == 1 || rd sg 64 96 == 0)) 0 0xFFFF]

/-- Check 8 (R110): CONTRACT equals table 1. -/
def check8 (b : List Byte) : Bool :=
  let c := sectData b 2
  rd c 0 2 == 1 && rd c 2 2 == 1 && rd c 4 2 == 6 && rd c 6 2 == 12 && rd c 8 2 == 28 && rd c 10 2 == 64 && rd c 12 2 == 4 &&
  rd c 14 2 == 6 && rd c 16 2 == 384 && rd c 18 2 == 0xFFF1 && rd c 20 2 == 0xFFF2 && rd c 22 10 == 0

/-- Check 9: the first chunk or record that names a Cabinet outside the targets; `inside` tells for an image-local number. -/
def check9 (b : List Byte) (inside : Nat → Bool) : Option Fail :=
  let bad := fun (l : List Nat) => ((List.range l.length).find? (fun i => !inside (l.getD i 0))).map (fun i => (0, i))
  firstFail [bad ((okList (bodyCells b)).map (·.cab)), bad ((okList (bodyPorts b)).map (·.cab)), bad ((okList (bodyMems b)).map (·.cab)),
    bad ((bodyReloc b).map (fun r => rd r 1 1)), bad ((okList (bodyMemInit b)).map (·.cab)),
    bad ((bodyProbes b).map (fun r => rd r 4 1)), bad ((bodyResets b).map (fun r => rd r 0 1))]

/-! ### Cell code (R31, R32, R52, R53) -/

/-- Tiles of a chunk with their cell and index, as numbers of 1,440 bits. -/
def CellChunk.tileList (c : CellChunk) : List (Nat × Nat × Nat) :=
  (List.range c.cells).flatMap fun i => (List.range c.tiles).map fun t => (c.first + i, t, rd c.data ((i * c.tiles + t) * 180) 180)

/-- Item of R52 that an instruction at a step breaks, 1 to 5 and 7; 0 for none. -/
def insnItem (w s len : Nat) : Nat :=
  let op := fun lo => field w lo 12
  let resv := fun a => decide (0xE00 ≤ a) && decide (a ≤ 0xFFE)
  if len ≤ s then (if w = 0 then 0 else 7)
  else if field w 84 2 = 3 then 1
  else if resv (op 16) || resv (op 28) || resv (op 40) || resv (op 52) then 2
  else if bitAt w 72 = false ∧ field w 64 8 ≠ 0 then 3
  else if bitAt w 74 = false ∧ field w 75 9 ≠ 0 then 4
  else if bitAt w 72 ∧ field w 64 8 < 64 ∧ s = 0 then 5
  else 0

/-- Item that a tile breaks: its CRC (8), or the first of its instructions. -/
def tileItem (v t len : Nat) : Nat :=
  if (crc32c (leBytes 176 v ++ [BitVec.ofNat 8 t])).toNat ≠ field v 1408 32 then 8
  else ((List.range 16).map (fun k => insnItem (field v (88 * k) 88) (16 * t + k) len)).foldl (fun a x => if a = 0 then x else a) 0

/-- Whether five or more cells of a Bench send at one step (R41). -/
def tooManySends (l : List CellChunk) (cab bench s : Nat) : Bool :=
  let n := ((l.filter (fun c => c.cab == cab && c.bench == bench)).flatMap CellChunk.tileList).filter
    (fun x => x.2.1 == s / 16 && bitAt x.2.2 (88 * (s % 16) + 73))
  decide (5 ≤ n.length)

/-- Check 10 (R52). -/
def check10 (b : List Byte) (reloc : Nat → Nat) : Option Fail :=
  let l := okList (bodyCells b)
  let len := frameLen b
  firstFail [
    l.findSome? (fun c => c.tileList.findSome? (fun x =>
      let n := tileItem x.2.2 x.2.1 len
      if n = 0 then none else some (n, reloc c.cab))),
    l.findSome? (fun c => if (List.range len).any (fun s => tooManySends l c.cab c.bench s) then some (6, reloc c.cab) else none)]

/-! ### Port and memory-op code (R67, R70, R75) -/

/-- The fields of a code section: Cabinet, step, field index, field bits. -/
def codeFields (l : List CodeChunk) (n size width : Nat) : List (Nat × Nat × Nat × Nat) :=
  l.flatMap fun c => (List.range n).flatMap fun s => (List.range 4).map fun k =>
    (c.cab, s, k, field (rd c.data (s * size) size) (width * k) width)

/-- Destination fields of PORTCODE. -/
def portFields (b : List Byte) : List (Nat × Nat × Nat × Nat) := codeFields (okList (bodyPorts b)) (frameLen b) 16 32
/-- Operation fields of MEMCODE. -/
def memFields (b : List Byte) : List (Nat × Nat × Nat × Nat) := codeFields (okList (bodyMems b)) (frameLen b) 24 48

/-- Row of a Cabinet within its die. -/
def rowOf (c : Nat) : Nat := c % 32 / 8
/-- Column of a Cabinet within its die. -/
def colOf (c : Nat) : Nat := c % 8

/-- Whether two logical Cabinets are neighbours (R69). -/
def neighbours (a b : Nat) : Bool :=
  a / 32 == b / 32 && ((rowOf a == rowOf b && (colOf a + 1 == colOf b || colOf b + 1 == colOf a)) ||
    (colOf a == colOf b && (rowOf a + 1 == rowOf b || rowOf b + 1 == rowOf a)))

/-- Contract latency of a path between Cabinets (R98, R69). -/
def pathLatency (a b : Nat) : Nat :=
  if a = b ∨ neighbours a b then 6 else if a / 32 = b / 32 then 12 else if a / 64 = b / 64 then 28 else 64

/-- Item of R75 that a destination field breaks, 1 to 4; 0 for none. -/
def destItem (cab s f ph len : Nat) : Nat :=
  if bitAt f 0 = false then (if f = 0 then 0 else 3)
  else
    let kind := field f 1 2
    let dest := field f 3 9
    let delta := field f 14 11
    if kind = 3 ∨ (kind = 0 ∧ 127 < dest) then 1
    else if field f 25 4 = 0 ∨ 2 ^ ph ≤ field f 25 4 then 2
    else if field f 29 3 ≠ 0 ∨ (kind ≠ 0 ∧ (field f 12 2 ≠ 0 ∨ delta ≠ 0)) then 3
    else if kind = 0 ∧ (len ≤ s + delta ∨ delta < pathLatency cab dest) then 4
    else 0

/-- The delivery that a destination field makes to a lane group: Cabinet, group, step, phases (R68, R183, R216, R75 item 5). -/
def deliveryOf (x : Nat × Nat × Nat × Nat) (ph : Nat) : Option (Nat × Nat × Nat × Nat) :=
  let f := x.2.2.2
  if bitAt f 0 = false then none
  else match field f 1 2 with
    | 0 => some (field f 3 9, field f 12 2, x.2.1 + field f 14 11, field f 25 4)
    | 1 => some (x.1, x.2.2.1, x.2.1, 2 ^ ph - 1)
    | 2 => some (x.1, x.2.2.1, x.2.1, 2 ^ (ph - 1))
    | _ => none

/-- Bytes of a SIZE code (R70); 0 for a reserved one. -/
def sizeBytes (n : Nat) : Nat := if n < 6 then 8 * 2 ^ n else 0

/-- Whether an operation returns a word. -/
def returns (op : Nat) : Bool := op == 1 || op == 3 || op == 4 || op == 7

/-- Fields that an operation must leave 0: (first bit, width) pairs (R70). -/
def unusedFields (op size : Nat) : List (Nat × Nat) :=
  match op with
  | 1 => [(7, 4), (12, 4), (16, 3), (19, 11)]
  | 2 => [(11, 1), (12, 4), (16, 3), (19, 11), (30, 11)]
  | 3 | 4 => [(12, 4), (16, 3), (19, 11)]
  | 5 => [(7, 4), (11, 1), (30, 11)]
  | 6 => if size = 0 then [(11, 1), (19, 11), (30, 11)] else [(7, 4), (11, 1), (30, 11)]
  | 7 => [(3, 4), (7, 4), (12, 4), (16, 3)]
  | _ => []

/-- Item of R75 that an operation field breaks, of 2, 3, 8 and 9; 0 for none. -/
def memItem (s f ph len : Nat) : Nat :=
  let op := field f 0 3
  let size := field f 16 3
  if op = 0 then (if f = 0 then 0 else 3)
  else if field f 41 4 = 0 ∨ 2 ^ ph ≤ field f 41 4 then 2
  else if field f 45 3 ≠ 0 ∨ (unusedFields op size).any (fun e => field f e.1 e.2 != 0) then 3
  else if returns op ∧ (len ≤ s + field f 30 11 ∨ field f 30 11 < (if op = 3 ∨ op = 4 then 6 else 4)) then 8
  else if (op = 5 ∨ op = 6) ∧ 6 ≤ size then 9
  else if (op = 5 ∨ (op = 6 ∧ 0 < size)) ∧ 2048 < field f 19 11 + sizeBytes size / 8 then 9
  else 0

/-- Two claims on one place at one step in a phase that they share. -/
def collide (x y : Nat × Nat × Nat × Nat) : Bool :=
  x.1 == y.1 && x.2.1 == y.2.1 && x.2.2.1 == y.2.2.1 && x.2.2.2 &&& y.2.2.2 != 0

/-- Check 11 (R75). -/
def check11 (b : List Byte) (reloc : Nat → Nat) : Option Fail :=
  let len := frameLen b
  let ph := phases b
  let ps := portFields b
  let ms := memFields b
  let dl := ps.filterMap (fun x => deliveryOf x ph)
  let rt := ms.filterMap (fun x => if returns (field x.2.2.2 0 3) then
    some (x.1, field x.2.2.2 11 1, x.2.1 + field x.2.2.2 30 11, field x.2.2.2 41 4) else none)
  let acts := fun (f p : Nat) => bitAt (field f 41 4) p
  firstFail [
    ps.findSome? (fun x => let n := destItem x.1 x.2.1 x.2.2.2 ph len; if n = 0 then none else some (n, reloc x.1)),
    (repeated (fun x y => !collide x y) dl).map (fun i => (5, reloc (dl.getD i (0, 0, 0, 0)).1)),
    ms.findSome? (fun x => let n := memItem x.2.1 x.2.2.2 ph len; if n = 0 then none else some (n, reloc x.1)),
    (okList (bodyMems b)).findSome? (fun c => if (List.range len).any (fun s =>
      decide (2 < (ms.filter (fun x => x.1 == c.cab && x.2.1 == s && returns (field x.2.2.2 0 3))).length)) then some (6, reloc c.cab) else none),
    (repeated (fun x y => !collide x y) rt).map (fun i => (7, reloc (rt.getD i (0, 0, 0, 0)).1)),
    (okList (bodyMems b)).findSome? (fun c => if (List.range ph).any (fun p =>
      decide (4096 < (ms.filter (fun x => x.1 == c.cab && acts x.2.2.2 p && decide (2 ≤ field x.2.2.2 0 3) && decide (field x.2.2.2 0 3 ≤ 4))).length))
      then some (10, reloc c.cab) else none),
    (okList (bodyMems b)).findSome? (fun c => if (List.range ph).any (fun p =>
      decide (2097152 < ((ms.filter (fun x => x.1 / 16 == c.cab / 16 && acts x.2.2.2 p && field x.2.2.2 0 3 == 6)).map
        (fun x => sizeBytes (field x.2.2.2 16 3))).sum)) then some (11, reloc c.cab) else none)]

/-- Check 12 (R116): the RELOC records name exactly the destinations with EN = 1 and KIND 0b00, each once. -/
def check12 (b : List Byte) (reloc : Nat → Nat) : Option Fail :=
  let names := (bodyReloc b).map (fun r => (rd r 1 1, rd r 2 2, rd r 4 1))
  let wants := ((portFields b).filter (fun x => bitAt x.2.2.2 0 && field x.2.2.2 1 2 == 0)).map (fun x => (x.1, x.2.1, x.2.2.1))
  firstFail [
    ((List.range names.length).find? (fun i => !wants.contains (names.getD i (0, 0, 0)))).map (fun i => (0, i)),
    (repeated (fun x y => x != y) names).map (fun i => (0, i)),
    (wants.find? (fun x => !names.contains x)).map (fun x => (0, reloc x.1))]

end Sys2Proof.Machine
end

