-- ==== Sys2Proof/Machine/LinkIo.lean ====
section
/-! DEFINITION. What a Velvin Link port puts on its lanes and takes from them: blocks, scrambling and columns (R188-R191, R197, R201), flits and
credits (R206-R208), sealed groups (R211), messages as flits and back (R213-R215). -/

namespace Sys2Proof.Machine

open Sys2Proof

/-! ### Ends of links and lane maps -/

/-- The lane maps of a hub list 68 places: place 8p + i is logical lane i of port p, place 64 + k is spare k. A map gives for each place the
physical lane, the identity at manufacture. -/
def laneOf (m : KV Nat) (place : Nat) : Nat := KV.get place place m

/-- Write a place of a lane map. -/
def putLane (m : KV Nat) (place : Nat) (lane : Nat) : KV Nat := KV.put place place lane m

/-- Swap two places of a lane map. -/
def swapLanes (m : KV Nat) (a : Nat) (b : Nat) : KV Nat := putLane (putLane m a (laneOf m b)) b (laneOf m a)

/-- The physical lane that receives logical lane `i` of port `p`. -/
def State.rxLane (s : State) (c : Ch) (p : Nat) (i : Nat) : Nat := laneOf (s.ch c).rxMap (8 * p + i)

/-- The logical lanes that a port needs: all 8, or 4 at width 4 (R194, R205). -/
def VPort.lanes (x : VPort) : List Nat :=
  match x.width4 with
  | none => List.range 8
  | some h => List.map (fun i => 4 * h + i) (List.range 4)

/-- Whether spare `k` is assigned to any port (VL_SPARE_ASSIGN). -/
def State.inUse (s : State) (c : Ch) (k : Nat) : Bool := bitAt (s.reg .vlSpareAssign c []).toNat (4 * k + 3)

/-- Whether spare `k` is assigned to a port (VL_SPARE_ASSIGN). -/
def State.assigned (s : State) (c : Ch) (k : Nat) (p : Nat) : Bool :=
  s.inUse c k && field (s.reg .vlSpareAssign c []).toNat (4 * k) 3 == p

/-- The far end of a link, its module and its end, as the table gives them (R218, R219); none without a table entry. -/
def State.farEnd (s : State) (c : Ch) (p : Nat) : Option (Nat × Nat) :=
  match s.topo with
  | none => none
  | some t =>
    let e := p + 8 * chNum c
    match List.find? (fun l => l.modA == t.identity && l.endA == e || l.modB == t.identity && l.endB == e) t.links with
    | some l => if l.modA = t.identity ∧ l.endA = e then some (l.modB, l.endB) else some (l.modA, l.endA)
    | none => none

/-- Whether a port of this module stands on a link of a use (R218). -/
def State.portUse (s : State) (c : Ch) (p use : Nat) : Bool :=
  match s.topo with
  | none => false
  | some t => t.links.any fun l => l.use == use &&
      ((l.modA == t.identity && l.endA == p + 8 * chNum c) || (l.modB == t.identity && l.endB == p + 8 * chNum c))

/-- Kind of a module entry. -/
def Topo.kind (t : Topo) (m : Nat) : Nat := ((t.mods[m]?).map (·.kind)).getD 0

/-- Identity under which a module is addressed: its pair's lead where it is a partner (R218, R221). -/
def Topo.address (t : Topo) (m : Nat) : Nat :=
  if t.kind m = 3 then ((t.mods[m]?).map (·.pair)).getD m else m

/-- This module's identity; 0 before a topology table is loaded (R191). -/
def State.identity (s : State) : Nat := (s.topo.map (·.identity)).getD 0

/-- This module's address on the links (R221). -/
def State.ownAddress (s : State) : Nat := (s.topo.map (fun t => t.address t.identity)).getD 0

/-! ### Blocks (R188-R190, R197) -/

/-- A block before scrambling: data, a control block by its type and content, an AM, or the next TEST block of the lane. -/
inductive LinkBlock where
  | data (x : Nat)
  | control (type content : Nat)
  | am (content : Nat)
  | test
  deriving DecidableEq, Repr

/-- An IDLE block. -/
def idle : LinkBlock := .control 0x1E 0

/-- The 64 scrambled bits of `x` behind the scrambled bits `h`, oldest in bit 0 (R189): each bit is XORed with the scrambled bits 39 and 58
before it, so the first 39 depend on `h` alone. -/
def scramble (h x : Nat) : Nat :=
  let lo := (x ^^^ (h >>> 19) ^^^ h) % 2 ^ 39
  let t := h + 2 ^ 58 * lo
  lo + 2 ^ 39 * (((x >>> 39) ^^^ (t >>> 58) ^^^ (t >>> 39)) % 2 ^ 25)

/-- The 64 bits that were scrambled to `y` behind the scrambled bits `h` (R189). -/
def descramble (h y : Nat) : Nat :=
  let t := h + 2 ^ 58 * y
  (y ^^^ (t >>> 19) ^^^ t) % 2 ^ 64

/-- The last 58 scrambled bits after 64 more. -/
def scrambled (h y : Nat) : Nat := ((h + 2 ^ 58 * y) >>> 64) % 2 ^ 58

/-- The next 56 bits of the PRBS-31 sequence behind 31 of its bits, oldest in bit 0: each bit is the XOR of those 31 and 28 before it
(log entry 34). -/
def prbsNext (p : Nat) : Nat :=
  let lo := (p ^^^ (p >>> 3)) % 2 ^ 28
  let t := p + 2 ^ 31 * lo
  lo + 2 ^ 28 * (((t >>> 28) ^^^ (t >>> 31)) % 2 ^ 28)

/-- A block as its 66 bits are sent, the first in bit 0; TX_POL inverts them (R188, R197). -/
def wire (inv : Bool) (header payload : Nat) : BitVec 66 :=
  let b := BitVec.ofNat 66 (header + 4 * payload)
  if inv then ~~~b else b

/-- Send scrambled payload on a lane. -/
def Lane.put (l : Lane) (inv : Bool) (header payload : Nat) : Lane :=
  let y := scramble l.scrambler.toNat payload
  { l with sent := l.sent ++ [wire inv header y], scrambler := BitVec.ofNat 58 (scrambled l.scrambler.toNat y) }

/-- Send a block on a lane: header 2 marks data (H0 = 0, H1 = 1), header 1 control; an AM passes the scrambler by (R188, R189). -/
def Lane.send (l : Lane) (inv : Bool) : LinkBlock → Lane
  | .data x => l.put inv 2 x
  | .control t a => l.put inv 1 (t + 256 * a)
  | .am a => { l with sent := l.sent ++ [wire inv 1 (0x78 + 256 * a)] }
  | .test =>
    let a := prbsNext l.prbs.toNat
    { l.put inv 1 (0x33 + 256 * a) with prbs := BitVec.ofNat 31 (a >>> 25) }

/-- Read a block of a lane (R188, R189): none for an invalid header or a reserved type; RX_POL inverts what arrives (R197). -/
def Lane.read (l : Lane) (inv : Bool) (b : BitVec 66) : Lane × Option LinkBlock :=
  let w := (if inv then ~~~b else b).toNat
  let y := field w 2 64
  let x := descramble l.descrambler.toNat y
  let l := { l with descrambler := BitVec.ofNat 58 (scrambled l.descrambler.toNat y) }
  if field w 0 2 = 2 then (l, some (.data x))
  else if field w 0 2 = 1 ∧ [0x1E, 0x4B, 0xD2, 0x33].contains (x % 256) then (l, some (.control (x % 256) (x / 256)))
  else (l, none)

/-- Whether TX_POL is set on a lane. -/
def State.txInv (s : State) (c : Ch) (lane : Nat) : Bool := bitAt (s.reg .vlLaneCfg c [lane]).toNat 6

/-- Whether RX_POL is set on a lane. -/
def State.rxInv (s : State) (c : Ch) (lane : Nat) : Bool := bitAt (s.reg .vlLaneCfg c [lane]).toNat 7

/-- Send blocks on physical lanes. -/
def State.sendBlocks (s : State) (c : Ch) (l : List (Nat × LinkBlock)) : State :=
  let inv := s.txInv c
  s.modCh c fun h => { h with lanes := l.foldl (fun t e => KV.upd {} e.1 (fun x => x.send (inv e.1) e.2) t) h.lanes }

/-- A column of a port (R190, R191, R201, R202): `f` on each logical lane, copied onto the spare that the far receiver asked for; `g` on each
other spare assigned to the port, and a TEST block on each unassigned spare, which goes with every column of any port (log entry 34). -/
def State.column (s : State) (c : Ch) (p : Nat) (f g : Nat → LinkBlock) : List (Nat × LinkBlock) :=
  let x := s.port c p
  let tx := (s.ch c).txMap
  let copies := (x.txReq.toList).flatMap fun q => if x.lanes.contains q.1 then [(laneOf tx (64 + q.2.1), f q.1)] else []
  let spares := (List.range 4).filter (fun k => !(x.txReq.map (·.2.1) == some k))
  x.lanes.map (fun i => (laneOf tx (8 * p + i), f i)) ++ copies ++
    (spares.filter (fun k => s.assigned c k p)).map (fun k => (laneOf tx (64 + k), g k)) ++
    (spares.filter (fun k => !s.inUse c k)).map (fun k => (laneOf tx (64 + k), .test))

/-- Send a whole column of one control block (R190). -/
def State.wholeColumn (s : State) (c : Ch) (p type content : Nat) : State :=
  s.sendBlocks c (s.column c p (fun _ => .control type content) (fun _ => .test))

/-- Flits by columns: two flit slots, or one at width 4 (R190, R206). -/
def columnsOf (wide : Bool) : List (BitVec 256) → List (BitVec 256 × Option (BitVec 256))
  | [] => []
  | [a] => [(a, none)]
  | a :: b :: r => if wide then (a, some b) :: columnsOf wide r else (a, none) :: columnsOf wide (b :: r)

/-- Block `k` of a flit (R206). -/
def flitBlock (f : BitVec 256) (k : Nat) : LinkBlock := .data (field f.toNat (64 * k) 64)

/-- The block of a column that logical lane `i` carries: slot 0 on lanes 0-3, slot 1 on lanes 4-7, IDLE in a free slot (R190). -/
def slotBlock (wide : Bool) (e : BitVec 256 × Option (BitVec 256)) (i : Nat) : LinkBlock :=
  if wide && decide (4 ≤ i) then match e.2 with
    | some b => flitBlock b (i % 4)
    | none => idle
  else flitBlock e.1 (i % 4)

/-- Send flits in their flit slots (R190, R206). -/
def State.putFlits (s : State) (c : Ch) (p : Nat) (l : List (BitVec 256)) : State :=
  let wide := (s.port c p).width4.isNone
  s.sendBlocks c ((columnsOf wide l).flatMap fun e => s.column c p (slotBlock wide e) (fun _ => .test))

/-! ### Flits (R206-R208) -/

/-- A flit of the link layer (R206): SEQ, KIND, VC, body, CRC. -/
def linkFlit (seq kind vc body : Nat) : BitVec 256 :=
  let w := seq + 2 ^ 12 * kind + 2 ^ 14 * vc + 2 ^ 16 * body
  BitVec.ofNat 256 (w + 2 ^ 224 * (crc32c (leBytes 28 w)).toNat)

/-- A LINKCTL flit (R207). -/
def ctlFlit (code ack freed0 freed1 : Nat) : BitVec 256 := linkFlit 0 2 0 (code + 2 ^ 4 * ack + 2 ^ 16 * freed0 + 2 ^ 28 * freed1)

/-- Whether the CRC of a link flit is good (R206). -/
def linkCrcOk (flit : BitVec 256) : Bool :=
  flit.toNat / 2 ^ 224 == (crc32c (leBytes 28 (flit.toNat % 2 ^ 224))).toNat

/-- Flits sent and not yet acknowledged (R208). -/
def VPort.inFlight (x : VPort) : Nat := (x.txNext + 4096 - (x.txAcked + 1)) % 4096

/-- ACKSEQ of a port's receiver: the last flit accepted in order; with keys in force the last of the last verified group (R208). -/
def VPort.ackSeq (x : VPort) : Nat := (x.rxNext + 4095 - if x.keys.isSome then x.groupRx.length else 0) % 4096

/-- Send a LINKCTL flit with a CODE (R207): 1 ACK, 2 NAK, 3 RESYNC. -/
def State.sendCtl (s : State) (c : Ch) (p code : Nat) : State :=
  let x := s.port c p
  let a := x.ackSeq
  let m : Sent := if code = 1 then .ack a x.freed0 x.freed1 else if code = 2 then .nak a x.freed0 x.freed1 else .resync a x.freed0 x.freed1
  (s.modPort c p fun x => { x with sent := x.sent ++ [m], sinceAck := 0, told0 := x.freed0, told1 := x.freed1 }).putFlits c p
    [ctlFlit code a x.freed0 x.freed1]

/-- Send a FAULT column (R190). How many go in 1 µs is timing (R196). -/
def State.sendFault (s : State) (c : Ch) (p reason : Nat) : State :=
  (s.modPort c p fun x => { x with sent := x.sent ++ [.fault reason] }).wholeColumn c p 0xD2 reason

/-- Send the flits of the replay buffer again, from the first one (R208, R210). -/
def State.resend (s : State) (c : Ch) (p : Nat) : State :=
  let l := (s.port c p).unacked.map (·.flit)
  if l.isEmpty then s else (s.modPort c p fun x => { x with sent := x.sent ++ [.resend l] }).putFlits c p l

/-! ### Sealed groups (R211, R285) -/

/-- Whether this module's end of a link is the initiator: the lower (identity, channel, port) (R285). -/
def State.initiates (s : State) (c : Ch) (p : Nat) : Bool :=
  match s.topo, s.farEnd c p with
  | some t, some (m, e) =>
    decide (t.identity * 16 + p + 8 * chNum c < m * 16 + e % 16)
  | _, _ => false

/-- The 32-byte key and the 4-byte salt of a direction of a link: 0 from the initiator, 1 to it (R285). -/
def linkKey (secret : BitVec 64) (dir : Nat) : List Byte :=
  (Config.hkdf (leBytes 8 secret.toNat) [] (strBytes "lumwell link" ++ leBytes 1 dir)).take 36

/-- Key and salt of the receive direction of a port. -/
def State.rxKey (s : State) (c : Ch) (p : Nat) (secret : BitVec 64) : List Byte := linkKey secret (if s.initiates c p then 1 else 0)

/-- Key and salt of the transmit direction of a port; none before its keys are in force. -/
def State.txKey (s : State) (c : Ch) (p : Nat) : List Byte :=
  match (s.port c p).keys with
  | some k => linkKey k.1 (if s.initiates c p then 0 else 1)
  | none => []

/-- IV of a group: the salt, then GROUP (R211). -/
def groupIv (key : List Byte) (group : Nat) : List Byte := key.drop 32 ++ leBytes 8 group

/-- Open or seal body `j` of a group (R211). -/
def groupBody (key : List Byte) (group j : Nat) (b : BitVec 208) : BitVec 208 :=
  b ^^^ BitVec.ofNat 208 (leNat ((List.range 26).map fun i => Config.gcmStream (key.take 32) (groupIv key group) (26 * j + i)))

/-- Bits [199:128] of a SEAL body: GROUP, FLITS, EPOCH (R211). -/
def sealTop (group n epoch : Nat) : Nat := group + 2 ^ 64 * (n - 1) + 2 ^ 70 * (epoch % 4)

/-- TAG of a group of flits (R211). -/
def groupTag (key : List Byte) (flits : List (BitVec 256)) (group top : Nat) : BitVec 128 :=
  Config.gcmTag (key.take 32) (groupIv key group) (flits.flatMap (fun f => leBytes 2 (f.toNat % 65536)) ++ leBytes 9 top)
    (flits.flatMap (fun f => leBytes 26 (field f.toNat 16 208)))

/-- Close the open group of a sender with a SEAL flit (R211). -/
def VPort.closeGroup (x : VPort) (key : List Byte) : VPort :=
  if x.groupOpen.isEmpty then x
  else
    let top := sealTop x.groupTx x.groupOpen.length ((x.keys.map (fun (k : BitVec 64 × Nat) => k.2)).getD 0)
    let f := linkFlit x.txNext 1 0 ((groupTag key x.groupOpen x.groupTx top).toNat + 2 ^ 128 * top)
    { x with groupOpen := [], groupTx := x.groupTx + 1, groupsInEpoch := x.groupsInEpoch + 1, txNext := (x.txNext + 1) % 4096,
             unacked := x.unacked ++ [{ seq := x.txNext, flit := f, msg := none }] }

/-- Send one DATA flit of a body: sealed in a group of at most 64 while keys are in force (R208, R211). -/
def VPort.putFlit (x : VPort) (key : List Byte) (vc1 : Bool) (msg : Option Sent) (b : BitVec 208) : VPort :=
  let body := if x.keys.isSome then groupBody key x.groupTx x.groupOpen.length b else b
  let f := linkFlit x.txNext 0 (bit01 vc1) body.toNat
  let y := { x with
    txNext := (x.txNext + 1) % 4096, unacked := x.unacked ++ [{ seq := x.txNext, flit := f, msg := msg }],
    groupOpen := if x.keys.isSome then x.groupOpen ++ [f] else [],
    sent0 := if vc1 then x.sent0 else (x.sent0 + 1) % 4096, sent1 := if vc1 then (x.sent1 + 1) % 4096 else x.sent1 }
  if 64 ≤ y.groupOpen.length then y.closeGroup key else y

/-- Whether the port may send `n` more DATA flits now: it is UP, at most 1,024 unacknowledged flits with the SEAL flits of their groups (R208),
and room in the far buffer of the VC (R207). -/
def VPort.room (x : VPort) (vc1 : Bool) (n : Nat) : Bool :=
  x.state == .up &&
  decide (x.inFlight + n + (if x.keys.isSome then (x.groupOpen.length + n) / 64 + 1 else 0) ≤ 1024) &&
  decide ((if vc1 then (x.sent1 + 4096 - x.far1) % 4096 else (x.sent0 + 4096 - x.far0) % 4096) + n ≤ 512)

/-! ### Messages as flits (R213, R214) -/

/-- Fields of `w` bits side by side, the first lowest. -/
def packBy (w : Nat) : List Nat → Nat
  | [] => 0
  | x :: xs => x + 2 ^ w * packBy w xs

/-- A list in runs of `n`. -/
def runsOf {α : Type} (n : Nat) (l : List α) : List (List α) :=
  (List.range ((l.length + n - 1) / n)).map fun i => (l.drop (n * i)).take n

/-- The bodies of continuation flits that carry bytes, 26 each (R213). -/
def byteBodies (l : List Byte) : List Nat := (runsOf 26 l).map leNat

/-- A link record of a VALUE message (R214). -/
def recWord (r : LinkRec) : Nat := r.slot + 2 ^ 9 * bit01 r.active + 2 ^ 16 * r.values.toNat

/-- The type fields of a TIME message (R214). -/
def timeFields (msgtype : Nat) (m : TimeMsg) : Nat :=
  msgtype + 2 ^ 8 * m.domain + 2 ^ 16 * m.seq.toNat + 2 ^ 32 * (m.correction % 2 ^ 64).toNat + 2 ^ 96 * m.seconds + 2 ^ 144 * m.ns

/-- The dataset of an Announce (R214): bytes 0 to 15. -/
def announceBody (d : Dataset) : Nat :=
  d.priority1 + 2 ^ 8 * d.clockClass + 2 ^ 16 * d.clockAccuracy + 2 ^ 24 * d.variance + 2 ^ 40 * d.priority2 + 2 ^ 48 * d.grandmaster.toNat +
    2 ^ 112 * d.stepsRemoved

/-- TYPE, type fields (from flit bit 48 on) and continuation bodies of a message by its table (R214). -/
def Sent.parts : Sent → Nat × Nat × List Nat
  | .value _ fr recs => (1, fr.toNat + 2 ^ 48 * (recs.length - 1) + 2 ^ 64 * packBy 32 ((recs.take 3).map recWord),
      (runsOf 6 ((recs.drop 3).map recWord)).map (packBy 32))
  | .mem _ m => (2, m.op + 2 ^ 4 * m.slot + 2 ^ 13 * m.region + 2 ^ 17 * m.offset + 2 ^ 52 * m.tag + 2 ^ 64 * m.size + 2 ^ 67 * m.status,
      byteBodies m.data)
  | .msg _ m => (3, m.port + 2 ^ 8 * bit01 m.toHost + 2 ^ 9 * bit01 m.fence + 2 ^ 10 * m.data.length + 2 ^ 48 * leNat (m.data.take 16),
      byteBodies (m.data.drop 16))
  | .hello p ch h => (4, 1 + 2 ^ 8 * p + 2 ^ 11 * ch, [h.toNat])
  | .runStart _ fr l => (4, 2 + 2 ^ 8 * fr.toNat + 2 ^ 56 * l, [])
  | .stopAt _ fr => (4, 3 + 2 ^ 8 * fr.toNat, [])
  | .slotHome _ map => (4, 4, byteBodies (leBytes 64 map.toNat))
  | .pairPrimary _ m => (4, 5 + 2 ^ 8 * m, [])
  | .auth sub l => (4, 0x10, byteBodies (BitVec.ofNat 8 sub :: l))
  | .chainData off l => (4, 0x20 + 2 ^ 8 * off + 2 ^ 48 * l.length, byteBodies l)
  | .chainEnd n => (4, 0x21 + 2 ^ 8 * n, [])
  | .chainStatus i st => (4, 0x22 + 2 ^ 8 * i + 2 ^ 16 * st, [])
  | .time _ k m => (5, timeFields k m, [])
  | .announce _ m ds => (5, timeFields 0xB m, [announceBody ds])
  | .trig _ u fr t => (6, u + 2 ^ 8 * fr.toNat + 2 ^ 56 * t.toNat, [])
  | .twinHeartbeat => (7, 1, [])
  | .twinSignature fr first l => (7, 2 + 2 ^ 4 * fr.toNat + 2 ^ 52 * first, (runsOf 3 (l.map (·.toNat))).map (packBy 64))
  | .twinInput fr port kind l => (7, 3 + 2 ^ 4 * fr.toNat + 2 ^ 52 * port + 2 ^ 60 * kind,
      (runsOf 2 (l.map (fun e => e.1 + 2 ^ 32 * e.2.toNat))).map (packBy 96))
  | .confirm fr mask => (7, 4 + 2 ^ 4 * fr.toNat, [mask.toNat])
  | .twinFault => (7, 5, [])
  | .twinState fr off l => (7, 6 + 2 ^ 4 * fr.toNat + 2 ^ 52 * off, byteBodies l)
  | .trace st rs l => (8, st + 2 ^ 8 * rs + 2 ^ 32 * l.length + 2 ^ 48 * leNat (l.take 16), byteBodies (l.drop 16))
  | .forward _ _ _ _ | .ack _ _ _ | .nak _ _ _ | .resync _ _ _ | .fault _ | .am _ | .fill | .resend _ => (0, 0, [])

/-- The identity that a message names as DST; none for what goes no further than the far end of the link. -/
def Sent.dst : Sent → Option Nat
  | .value d _ _ | .mem d _ | .msg d _ | .forward d _ _ _ | .runStart d _ _ | .stopAt d _ | .slotHome d _ | .pairPrimary d _ | .time d _ _
  | .announce d _ _ | .trig d _ _ _ => some d
  | _ => none

/-- Whether a message is of the chain-load codes, which carry DST, SRC and TTL 0 (R223). -/
def Sent.isChain : Sent → Bool
  | .chainData _ _ | .chainEnd _ | .chainStatus _ _ => true
  | _ => false

/-- Whether a message carries the module's own identity as SRC, not the address of its pair: what stays on one link, and STOP_AT on a mirror
link (R218, R221). -/
def Sent.own (m : Sent) : Bool := m.dst.isNone || (match m with
  | .stopAt _ _ => true
  | _ => false)

/-- Whether what a port sends travels on VC 1: MEM responses only (R206). -/
def Sent.onVc1 : Sent → Bool
  | .mem _ m => decide (8 ≤ m.op)
  | .forward _ v _ _ => v
  | _ => false

/-- The bodies of the flits of a message: the common header with its type fields, then the continuation (R213). -/
def msgBodies (dst src ttl : Nat) (x : Nat × Nat × List Nat) : List (BitVec 208) :=
  BitVec.ofNat 208 (x.1 + 2 ^ 4 * dst + 2 ^ 10 * src + 2 ^ 16 * x.2.2.length + 2 ^ 24 * ttl + 2 ^ 32 * x.2.1) :: x.2.2.map (BitVec.ofNat 208)

/-- The raw counter of a hub, in 2^-32 ns. -/
def State.rawNow (s : State) (c : Ch) : Nat := (s.ch c).time.raw.toNat

/-- The sixteenths of a ns of a stamp of the time-to-digital converter: a free value (R379; log entry 4). -/
def State.sixteenths (s : State) : Nat := s.free.toNat % 16 * 2 ^ 28

/-- The raw counter as the time-to-digital converter stamps a block or an edge (R379). -/
def State.rawStamp (s : State) (c : Ch) : Nat := s.rawNow c + s.sixteenths

/-- Write TIMESTAMP at the departure of a TIME message (R215), from the view that its DOMAIN names. -/
def State.stampTime (s : State) (c : Ch) (m : TimeMsg) : TimeMsg :=
  let ns := (viewAt m.domain (s.view c m.domain) (s.rawStamp c) / 2 ^ 32).toNat
  { m with seconds := ns / 1000000000 % 2 ^ 48, ns := ns % 1000000000 }

/-- Add to CORRECTION of the head flit of a forwarded TIME message (R215), in 2^-16 ns. -/
def addCorrection (b : BitVec 208) (d : Nat) : BitVec 208 :=
  let k := (field b.toNat 64 64 + d) % 2 ^ 64
  BitVec.ofNat 208 (b.toNat % 2 ^ 64 + 2 ^ 64 * k + 2 ^ 128 * (b.toNat / 2 ^ 128))

/-- A message as it departs (R215). -/
def State.departing (s : State) (c : Ch) : Sent → Sent
  | .time d k m => .time d k (s.stampTime c m)
  | .announce d m ds => .announce d (s.stampTime c m) ds
  | .forward d v (b :: bs) t =>
    .forward d v (if field b.toNat 0 4 = 5 then addCorrection b ((s.rawStamp c - t) / 2 ^ 16 % 2 ^ 64) :: bs else b :: bs) t
  | m => m

/-- The flit bodies of a message on a port; the source sets TTL 63 (R213). -/
def State.bodiesOf (s : State) (c : Ch) (p : Nat) (m : Sent) : List (BitVec 208) :=
  match m with
  | .forward _ _ bs _ => bs
  | _ =>
    if m.isChain then msgBodies 0 0 0 m.parts
    else msgBodies (m.dst.getD (((s.farEnd c p).map (·.1)).getD 0)) (if m.own then s.identity else s.ownAddress) 63 m.parts

/-! ### Sending messages (R206-R208, R211) -/

/-- Give the flits of a message their places; the last one names it. -/
def VPort.putAll (x : VPort) (key : List Byte) (m : Sent) : List (BitVec 208) → VPort
  | [] => x
  | [b] => x.putFlit key m.onVc1 (some m) b
  | b :: bs => (x.putFlit key m.onVc1 none b).putAll key m bs

/-- Send what waits on a VC as far as it has room, oldest first. -/
def VPort.drain (x : VPort) (key : List Byte) (out : Sent → Sent × List (BitVec 208)) (vc1 : Bool) : List Sent → VPort × List Sent
  | [] => (x, [])
  | m :: ms =>
    let d := out m
    if x.room vc1 d.2.length then VPort.drain { x.putAll key d.1 d.2 with sent := x.sent ++ [d.1] } key out vc1 ms else (x, m :: ms)

/-- Send all that has room, MEM responses first; with nothing left waiting the open group is closed (R211). -/
def VPort.drainBoth (x : VPort) (key : List Byte) (out : Sent → Sent × List (BitVec 208)) : VPort :=
  let a := x.drain key out true x.queue1
  let b := a.1.drain key out false x.queue
  let y := { b.1 with queue1 := a.2, queue := b.2 }
  if y.queue.isEmpty && y.queue1.isEmpty then y.closeGroup key else y

/-- Take over what the sender of a port has changed. -/
def VPort.takeTx (x y : VPort) : VPort :=
  { x with txNext := y.txNext, sent0 := y.sent0, sent1 := y.sent1, unacked := y.unacked, queue := y.queue, queue1 := y.queue1,
           groupOpen := y.groupOpen, groupTx := y.groupTx, groupsInEpoch := y.groupsInEpoch, sent := y.sent }

/-- A Pdelay_Req departs: its time is that of its departure (R215, R387). -/
def State.departed (s : State) (c : Ch) (m : Sent) : State :=
  match m with
  | .time _ 2 t => s.modView c t.domain fun x =>
      { x with reqAt := x.reqAt.map (fun q => if q.1 = t.seq.toNat then (q.1, viewAt t.domain x (s.rawStamp c)) else q) }
  | _ => s

/-- Send what waits on a port and has room. -/
def State.flushPort (s : State) (c : Ch) (p : Nat) : State :=
  let x := s.port c p
  if x.queue.isEmpty && x.queue1.isEmpty then s
  else
    let y := x.drainBoth (s.txKey c p) (fun m => let d := s.departing c m; (d, s.bodiesOf c p d))
    let s := (y.sent.drop x.sent.length).foldl (fun s m => s.departed c m) s
    ((s.modPort c p fun x => x.takeTx y).putFlits c p ((y.unacked.drop x.unacked.length).map (·.flit))).freeNext

/-- Send a message on a port: at once where it has room, otherwise behind what waits. -/
def State.sendOn (s : State) (c : Ch) (p : Nat) (m : Sent) : State :=
  (s.modPort c p fun x => if m.onVc1 then { x with queue1 := x.queue1 ++ [m] } else { x with queue := x.queue ++ [m] }).flushPort c p

/-- Close the open group of a port and send its SEAL flit (R211). -/
def State.closeGroup (s : State) (c : Ch) (p : Nat) : State :=
  let x := s.port c p
  let y := x.closeGroup (s.txKey c p)
  (s.modPort c p fun x => x.takeTx y).putFlits c p ((y.unacked.drop x.unacked.length).map (·.flit))

/-- HELLO on a port that comes UP, or ahead of a table (R219). -/
def State.sendHello (s : State) (c : Ch) (p : Nat) : State :=
  match s.topo with
  | some t => s.sendOn c p (.hello p (chNum c) (t.hash.setWidth 192))
  | none => s

/-! ### Messages as they arrive (R213, R214) -/

/-- Head body of a message. -/
def Heard.head (h : Heard) : Nat := (h.bodies.headD 0).toNat
/-- A type field of a message, numbered from flit bit 48. -/
def Heard.fld (h : Heard) (lo n : Nat) : Nat := field h.head (32 + lo) n
/-- TYPE. -/
def Heard.type (h : Heard) : Nat := field h.head 0 4
/-- DST. -/
def Heard.dst (h : Heard) : Nat := field h.head 4 6
/-- SRC. -/
def Heard.src (h : Heard) : Nat := field h.head 10 6
/-- TTL. -/
def Heard.ttl (h : Heard) : Nat := field h.head 24 6
/-- Continuation flits. -/
def Heard.rest (h : Heard) : List Nat := (h.bodies.drop 1).map (·.toNat)
/-- Content bytes of the continuation. -/
def Heard.bytes (h : Heard) : List Byte := h.rest.flatMap (leBytes 26)

/-- TYPE with the CODE, MSGTYPE or SUBTYPE that tells messages of one type apart, and whether a MEM message is a response. -/
def kindOf (type fields : Nat) : Nat × Nat :=
  (type, if type = 4 then fields % 256 else if type = 5 ∨ type = 7 then fields % 16 else if type = 2 then fields % 16 / 8 else 0)

/-- Kind of a message that has arrived. -/
def Heard.kind (h : Heard) : Nat × Nat := kindOf h.type (h.head / 2 ^ 32)

/-- Whether the content of a message is `n` bytes: as many continuation flits as it needs, zero behind it. -/
def Heard.holds (h : Heard) (n : Nat) : Bool := h.rest.length == (n + 25) / 26 && (h.bytes.drop n).all (· == 0)

/-- Whether a VALUE message keeps its table: COUNT records, reserved bits 0 (R214). -/
def Heard.valueOk (h : Heard) : Bool :=
  let n := h.fld 48 9 + 1
  let words := (List.range 3).map (fun k => h.fld (64 + 32 * k) 32) ++ h.rest.flatMap (fun b => (List.range 6).map (fun k => field b (32 * k) 32))
  h.fld 57 7 == 0 && h.fld 160 16 == 0 && h.rest.all (fun b => field b 192 16 == 0) && h.rest.length == (n - 3 + 5) / 6 &&
    (words.take n).all (fun w => field w 10 6 == 0) && (words.drop n).all (· == 0)

/-- Whether a CTRL message keeps its table (R214). -/
def Heard.ctrlOk (h : Heard) : Bool :=
  match h.fld 0 8 with
  | 0x01 => h.fld 12 164 == 0 && h.holds 24
  | 0x02 => h.fld 72 104 == 0 && h.holds 0
  | 0x03 => h.fld 56 120 == 0 && h.holds 0
  | 0x04 => h.fld 8 168 == 0 && h.holds 64
  | 0x05 => h.fld 14 162 == 0 && h.holds 0
  | 0x10 => h.fld 8 168 == 0 && !h.rest.isEmpty
  | 0x20 => h.fld 61 115 == 0 && decide (1 ≤ h.fld 48 13) && decide (h.fld 48 13 ≤ 4096) && h.holds (h.fld 48 13)
  | 0x21 => h.fld 48 128 == 0 && h.holds 0
  | 0x22 => h.fld 24 152 == 0 && h.holds 0
  | _ => false

/-- Whether a TWIN message keeps its table (R214). -/
def Heard.twinOk (h : Heard) : Bool :=
  match h.fld 0 4 with
  | 1 | 5 => h.fld 4 172 == 0 && h.holds 0
  | 2 => h.fld 60 116 == 0 && !h.rest.isEmpty && h.rest.all (fun b => field b 192 16 == 0)
  | 3 => h.fld 62 114 == 0 && !h.rest.isEmpty && h.rest.all (fun b => field b 192 16 == 0)
  | 4 => h.fld 52 124 == 0 && h.holds 16
  | 6 => h.fld 92 84 == 0 && !h.rest.isEmpty
  | _ => false

/-- Whether a message keeps the tables of R213 and R214: its type and codes are defined, every reserved bit is 0, and it has the continuation that
it needs. One that does not is discarded (log entry 35). -/
def Heard.ok (h : Heard) : Bool :=
  field h.head 30 2 == 0 && h.vc1 == (h.type == 2 && decide (8 ≤ h.fld 0 4)) &&
  match h.type with
  | 1 => h.valueOk
  | 2 => [0, 1, 8, 9].contains (h.fld 0 4) && h.fld 69 107 == 0 &&
      h.holds (if h.fld 0 4 = 1 ∨ h.fld 0 4 = 8 ∧ h.fld 67 2 = 0 then sizeBytes (h.fld 64 3) else 0)
  | 3 => h.fld 23 25 == 0 && decide (1 ≤ h.fld 10 13) && decide (h.fld 10 13 ≤ 4096) && h.holds (h.fld 10 13 - 16) &&
      ((leBytes 16 (h.fld 48 128)).drop (h.fld 10 13)).all (· == 0)
  | 4 => h.ctrlOk
  | 5 => h.fld 4 4 == 0 && [0, 2, 3, 0xB].contains (h.fld 0 4) && h.holds (if h.fld 0 4 = 0xB then 16 else 0)
  | 6 => h.fld 4 4 == 0 && h.fld 120 56 == 0 && h.holds 0
  | 7 => h.twinOk
  | _ => false

/-- Whether a message may travel before keys are in force: HELLO, AUTH and the chain-load codes (R211). -/
def Heard.unsealed (h : Heard) : Bool := h.type == 4 && [0x01, 0x10, 0x20, 0x21, 0x22].contains (h.fld 0 8)

/-- Whether a message has the chain-load form: DST, SRC and TTL 0 (R223). -/
def Heard.isChain (h : Heard) : Bool :=
  h.type == 4 && [0x20, 0x21, 0x22].contains (h.fld 0 8) && h.dst == 0 && h.src == 0 && h.ttl == 0

/-- Whether a message is for this module: its identity or its pair identity as DST (R214); TWIN messages and the chain never go further. -/
def State.forMe (s : State) (h : Heard) : Bool :=
  h.isChain || h.type == 7 || match s.topo with
    | none => true
    | some t => h.dst == t.identity || h.dst == t.address t.identity

/-- Add a flit to what has arrived of its VC: a message is whole with its last continuation flit (R213). -/
def takeBody (x : (List RxFlit × List RxFlit) × List Heard) (f : RxFlit) : (List RxFlit × List RxFlit) × List Heard :=
  let vc1 := bitAt f.flit.toNat 14
  let l := (if vc1 then x.1.2 else x.1.1) ++ [f]
  let whole := match l with
    | g :: _ => if field g.flit.toNat 32 8 < l.length then
        [({ bodies := l.map (fun k => BitVec.ofNat 208 (field k.flit.toNat 16 208)), vc1 := vc1, resent := g.resent, arrived := g.arrived } : Heard)]
      else []
    | [] => []
  let left := if whole.isEmpty then l else []
  ((if vc1 then x.1.1 else left, if vc1 then left else x.1.2), x.2 ++ whole)

/-- Messages from flits in order, behind what has arrived of each VC. -/
def takeBodies (p0 p1 : List RxFlit) (l : List RxFlit) : (List RxFlit × List RxFlit) × List Heard := l.foldl takeBody ((p0, p1), [])

/-- Give back the receive buffer of messages (R207). -/
def VPort.freeMsgs (x : VPort) (l : List Heard) : VPort :=
  { x with freed0 := (x.freed0 + ((l.filter (fun h => !h.vc1)).map (fun h => h.bodies.length)).sum) % 4096,
           freed1 := (x.freed1 + ((l.filter (fun h => h.vc1)).map (fun h => h.bodies.length)).sum) % 4096 }

/-- Whether the receiver of a port keeps a message (R211, R213, R214): well formed, allowed while no keys are in force, TWIN on mirror links
only, and nothing that no module takes in. -/
def State.keeps (s : State) (c : Ch) (p : Nat) (h : Heard) : Bool :=
  h.ok && ((s.port c p).keys.isSome || h.unsealed) && (h.type != 7 || s.portUse c p 2)

/-- Put messages that have arrived whole and verified behind those that wait; drop the others. -/
def State.arrive (s : State) (c : Ch) (p : Nat) (l : List Heard) : State :=
  let good := l.filter (s.keeps c p)
  let bad := l.filter (fun h => !s.keeps c p h)
  s.modPort c p fun x => { x.freeMsgs bad with inbox := x.inbox ++ good }

/-- Whether a message is `m` from `src` (none: any sender), DST and TTL apart. -/
def Heard.is (h : Heard) (src : Option Nat) (m : Sent) : Bool := h.bodies == msgBodies h.dst (src.getD h.src) h.ttl m.parts

/-- Take a message out of the receive buffer of a port. -/
def VPort.consume (x : VPort) (h : Heard) : VPort := { x.freeMsgs [h] with inbox := x.inbox.erase h }

/-- Take a message out of the receive buffer of a port. -/
def State.takeOut (s : State) (c : Ch) (p : Nat) (h : Heard) : State := s.modPort c p fun x => x.consume h

/-- The first message of a kind for this module that waits on a port. -/
def State.heard (s : State) (c : Ch) (p : Nat) (k : Nat × Nat) : Option Heard :=
  (s.port c p).inbox.find? (fun h => s.forMe h && h.kind == k)

/-- Take up message `m` from `src` where it is the first of its kind that waits on a port (R212, R213): the command that names it acts on it, and
its buffer is freed. -/
def State.withMsg (s : State) (c : Ch) (p : Nat) (src : Option Nat) (m : Sent) (f : State → Heard → State) : State :=
  match s.heard c p (kindOf m.parts.1 m.parts.2.1) with
  | some h => if h.is src m then f (s.takeOut c p h) h else s
  | none => s

/-- Take up a message on whichever of some ports of a channel it waits first. -/
def State.withMsgOn (s : State) (c : Ch) (ps : List Nat) (src : Option Nat) (m : Sent) (f : State → Nat → Heard → State) : State :=
  match ps.find? (fun p => ((s.heard c p (kindOf m.parts.1 m.parts.2.1)).map (fun h => h.is src m)).getD false) with
  | some p => s.withMsg c p src m (fun s h => f s p h)
  | none => s

/-- Take up the first AUTH message that waits on a port where it has a SUBCODE and its first bytes (R285). -/
def State.withAuth (s : State) (c : Ch) (p : Nat) (lead : List Byte) (f : State → State) : State :=
  match s.heard c p (4, 0x10) with
  | some h => if h.bytes.take lead.length = lead then f (s.takeOut c p h) else s
  | none => s

end Sys2Proof.Machine
end

