-- ==== Sys2Proof/Machine/BaseImage.lean ====
section
/-! DEFINITION. The base image (R290-R301, R223): the Base Load Deadline, delivery by the host or down a chain, verification,
and what comes into force. -/

namespace Sys2Proof.Machine

open Sys2Proof

/-! ### Deadline (R290, R297) -/

/-- Expiry, or a failed delivery after it (R297): CFG_ERR_N, EXPIRED, and DEADLINE_EXPIRED once. -/
def State.expire (s : State) : State :=
  let was := s.base.expired
  let s := s.modBase fun b => { b with expired := true, cfgErr := true }
  if was then s else s.hostEvent 0x7003 []

/-- CONFIG_REQUEST (R290, R297): the first one that completes with success starts the deadline. -/
def execConfigRequest (s : State) : Host.Outcome State Fault Refusal :=
  .next (if s.portAnswers = false then s else s.modBase fun b => { b with started := true })

/-- CONFIG_WAIT_TIMEOUT (R297): with no request in 1 s the deadline starts, with the reset value. -/
def execConfigWaitTimeout (s : State) : Host.Outcome State Fault Refusal :=
  .next (if s.base.started then s
    else (s.setReg .lwBaseDeadline .a [] (resetBits .lwBaseDeadline .a [])).modBase fun b => { b with started := true })

/-- BASE_DEADLINE_WRITE (R297, LW_BASE_DEADLINE): without effect after expiry or with a base image in force. -/
def execBaseDeadlineWrite (value : Word32) (s : State) : Host.Outcome State Fault Refusal :=
  .next (if s.portAnswers = false then s else if s.base.expired ∨ s.base.inForce.isSome then s else s.setReg .lwBaseDeadline .a [] (value &&& 0xFFF#32))

/-- Record that the deadline has passed while a delivery is being verified (R297: expiry waits for the outcome). -/
def Delivery.late : Delivery → Delivery
  | .host _ => .host false
  | .stream _ => .stream false
  | .chain _ => .chain false

/-- Whether a delivery began, and still is, before expiry. -/
def Delivery.timely : Delivery → Bool
  | .host b => b
  | .stream b => b
  | .chain b => b

/-- DEADLINE_EXPIRED (R297). -/
def execDeadlineExpired (s : State) : Host.Outcome State Fault Refusal :=
  .next (if s.base.started = false ∨ s.base.inForce.isSome ∨ s.base.expired then s
    else match s.base.delivery with
      | some d => s.modBase fun b => { b with delivery := some d.late }
      | none => s.expire)

/-! ### Starting a delivery (R291, R294, R300) -/

/-- Count a delivery, saturating at 0xFF. -/
def State.countAttempt (s : State) : State := s.modBase fun b => { b with attempts := min 255 (b.attempts + 1) }

/-- Refuse a base image (R296, R291): REASON, VERIFY_FAILED, BASE_REFUSED, and expiry when the deadline has passed. -/
def State.baseRefused (s : State) (reason : Nat) (timely : Bool) : State :=
  let s := (s.modBase fun b => { b with reason := reason, verifyFailed := true, delivery := none }).hostEvent 0x7002 [reason]
  if timely then s else s.expire

/-- Begin a delivery; a module without valid host-die firmware refuses every base image (R291). -/
def State.beginDelivery (s : State) (d : Delivery) : State :=
  let s := s.countAttempt
  if s.base.fwValid = false then s.baseRefused 0xA d.timely
  else s.modBase fun b => { b with delivery := some d }

/-- Whether a delivery is read, verified or sent on (MOD_BASE_RESULT.BUSY). -/
def State.baseBusy (s : State) : Bool := s.base.delivery.isSome || s.base.forwarding.isSome

/-- Store CHAIN and CHAIN_RX of a write of MOD_BASE_CTRL. -/
def State.baseCtrl (s : State) (value : Word32) : State := s.setReg .modBaseCtrl .a [] (value &&& 6#32)

/-- BASE_GO (R294): MOD_BASE_CTRL written with GO; without effect while BUSY. -/
def execBaseGo (value : Word32) (s : State) : Host.Outcome State Fault Refusal :=
  .next (if s.portAnswers = false then s else
    let busy := s.baseBusy
    let s := s.baseCtrl value
    if bitAt value.toNat 0 && !bitAt value.toNat 1 && !busy then s.beginDelivery (.host (!s.base.expired)) else s)

/-- CHAIN_START (R300): GO with CHAIN set. -/
def execChainStart (value : Word32) (s : State) : Host.Outcome State Fault Refusal :=
  .next (if s.portAnswers = false then s else
    let busy := s.baseBusy
    let s := s.baseCtrl value
    if bitAt value.toNat 0 && bitAt value.toNat 1 && !busy then s.beginDelivery (.stream (!s.base.expired)) else s)

/-! ### Checks of an image (R293, R296) -/

/-- A section of a base image: offset and length. -/
abbrev Sect := Nat × Nat

/-- Whether a section lies where R293 allows: at a multiple of 64 at or after 256, within LENGTH - 128. -/
def sectOk (len lim : Nat) (x : Sect) : Bool :=
  decide (x.1 % 64 = 0) && decide (256 ≤ x.1) && decide (x.1 + x.2 ≤ len - 128) && decide (x.2 ≤ lim)

/-- Whether two sections do not overlap. -/
def sectApart (x y : Sect) : Bool := decide (x.1 + x.2 ≤ y.1) || decide (y.1 + y.2 ≤ x.1)

/-- Sideboard firmware of a base image. -/
def imgSb (l : List Byte) : Sect := (rd l 24 4, rd l 28 4)
/-- Fabric configuration of a base image. -/
def imgFc (l : List Byte) : Sect := (rd l 32 4, rd l 36 4)
/-- Host-die firmware of a base image. -/
def imgHf (l : List Byte) : Sect := (rd l 40 4, rd l 44 4)

/-- The bytes of a section. -/
def sectBytes (l : List Byte) (x : Sect) : List Byte := (l.drop x.1).take x.2

/-- Check 2 of R296: the layout of R293, and the length given equals LENGTH. -/
def imgLayout (l : List Byte) (given : Nat) : Bool :=
  let len := rd l 8 4
  let hf := imgHf l
  decide (rd l 0 4 = 0x3142574C) && decide (rd l 4 2 = 1) && decide (rd l 6 2 = 0x100) && decide (len = l.length)
  && decide (len = given) && decide (len % 64 = 0) && decide (len ≤ 0x400000) && decide (384 ≤ len)
  && decide (rd l 14 1 ≤ 3) && decide (rd l 15 1 < 32) && decide (rd l 18 1 < 16) && decide (field (rd l 19 1) 4 3 = 0)
  && decide (rd l 20 4 = 0) && decide (rd l 48 208 = 0) && decide (rd l (len - 32) 32 = 0)
  && sectOk len 0x200000 (imgSb l) && sectOk len 0x40000 (imgFc l)
  && (if hf.2 = 0 then decide (hf.1 = 0) else sectOk len 0x40000 hf && sectApart hf (imgSb l) && sectApart hf (imgFc l))
  && sectApart (imgSb l) (imgFc l)

/-- The first check of R296 that an image fails. -/
def State.imgFail (s : State) (l : List Byte) (given : Nat) (readOk : Bool) : Option Nat :=
  let len := rd l 8 4
  if (s.base.inForce.isSome && s.mode.mode != .service)
      || !(s.sec.lifecycle == .vendor || s.sec.lifecycle == .field || s.sec.lifecycle == .returned) then some 1
  else if imgLayout l given = false then some 2
  else if s.base.revoked.getLsbD (rd l 14 1) then some 3
  else if Config.ecdsaVerify (Config.signer (rd l 14 1)) (Config.sha384 (l.take (len - 128))) ((l.drop (len - 128)).take 96) = false then some 4
  else if rd l 12 2 < s.base.svnMin.toNat then some 5
  else if s.id.stepping.toNat < rd l 16 1 ∨ rd l 17 1 < s.id.stepping.toNat ∨ bitAt (rd l 18 1) s.grade = false then some 6
  else if readOk = false then some 7
  else none

/-! ### Ports and guests follow their registers (R292, R298) -/

/-- Whether a Velvin Link port may run: before a base image is in force only port 0 of HUB-A, for chain loading (R196, R292). -/
def State.portAllowed (s : State) (c : Ch) (p : Nat) : Bool := s.base.inForce.isSome || (p == 0 && c == .a)

/-- Whether a port runs as its register says (R194, R292). -/
def State.portEnabled (s : State) (c : Ch) (p : Nat) : Bool := bitAt (s.reg .vlPortCtrl c [p]).toNat 0 && s.portAllowed c p

/-- The ports and guests of a hub that their registers had enabled come up as a base image comes into force (R292, R298). -/
def State.wakeHub (s : State) (c : Ch) : State :=
  let s := (List.range 8).foldl (fun s p =>
    if bitAt (s.reg .vlPortCtrl c [p]).toNat 0 ∧ (s.port c p).state = .disabled then s.modPort c p fun x => { x with state := .acquire } else s) s
  if s.id.variantG ∧ bitAt (s.reg .vfGuestCtrl c []).toNat 30 ∧ (s.ch c).guest.rails = false then
    (s.modGuest c fun g => { g with rails := true, failed := false }).linkUpAgain c [11]
  else s

/-! ### What comes into force (R298, R299) -/

/-- Measurements 3 and 4, and both hubs on the new firmware and fabric configuration. -/
def State.takeImage (s : State) (l : List Byte) (chained : Bool) : State :=
  let fw := Config.sha384 (sectBytes l (imgSb l))
  let fc := Config.sha384 (sectBytes l (imgFc l))
  let svn := rd l 12 2
  let s := s.modBase fun b => { b with
    inForce := some (BitVec.ofNat 16 svn), chained := chained, expired := false,
    verifyFailed := false, cfgErr := false, reason := 0, delivery := none, firmware := fw, fabric := fc }
  let s := s.modSec fun x => { x with meas := KV.put 0 4 fc (KV.put 0 3 fw x.meas) }
  let s := (s.modCh .a fun h => { h with firmware := true }).modCh .b fun h => { h with firmware := s.id.twoCh }
  let s := (s.channels.filter (fun c => (s.pw c).state.hubOn)).foldl State.wakeHub s
  s.hostEvent 0x7001 [svn, if chained then 2 else 1]

/-- Further effects of an update in SERVICE (R299): host-die firmware over the copy with the lower SVN, the least SVN, the
revocation fuses, and the end of every session. -/
def State.serviceUpdate (s : State) (l : List Byte) : State :=
  let svn := BitVec.ofNat 16 (rd l 12 2)
  let fl := rd l 15 1
  let s := if (imgHf l).2 = 0 then s
    else s.modBase fun b => { b with hfCopies :=
      if b.hfCopies.1.2.toNat ≤ b.hfCopies.2.2.toNat then ((true, svn), b.hfCopies.2) else (b.hfCopies.1, (true, svn)) }
  let s := if bitAt fl 0 then s.modBase fun b => { b with svnMin := svn } else s
  let s := s.modBase fun b => { b with revoked := b.revoked ||| setBit (BitVec.ofNat 4 (field fl 1 4)) (rd l 14 1) false }
  s.endSessions

/-! ### Chains (R223, R300, R301) -/

/-- The port that CHAIN_DOWN of an image names, if it is valid. -/
def chainDown (l : List Byte) : Option (Ch × Nat) :=
  if bitAt (rd l 19 1) 7 then some (chOf (field (rd l 19 1) 3 1), field (rd l 19 1) 0 3) else none

/-- Enable the chain-down port at 10.3125 Gbit/s (R223, R300). -/
def State.openChain (s : State) (l : List Byte) : State :=
  match chainDown l with
  | some (c, p) =>
    let s := s.setReg .vlPortCtrl c [p] (s.reg .vlPortCtrl c [p] ||| 3#32)
    (s.modPort c p fun x => { x with state := .acquire, chain := true }).modBase fun b => { b with chainPort := some (c, p) }
  | none => s

/-- Lengths of the segments of a chain stream, with whether it is well formed: INDEX 0, 1, 2 and so on, at most 16 (R223). -/
def segments (i : Nat) : Nat → List Byte → Bool × List Nat
  | 0, l => (l.isEmpty, [])
  | n + 1, l =>
    if l.isEmpty then (true, [])
    else
      let len := rd l 0 8
      let r := segments (i + 1) n (l.drop (16 + len))
      (decide (rd l 8 1 = i) && decide (rd l 9 7 = 0) && decide (16 + len ≤ l.length) && r.1, len :: r.2)

/-- Send something on the chain-down port. -/
def State.sendDown (s : State) (m : Sent) : State :=
  match s.base.chainPort with
  | some (c, p) => s.sendOn c p m
  | none => s

/-- Send something upstream, on port 0 of HUB-A. -/
def State.sendUp (s : State) (m : Sent) : State := s.sendOn .a 0 m

/-- Forward chain data downstream unchanged (R223); SEGMENTS counts each segment as its last byte goes (R300). -/
def State.passOn (s : State) (off : Nat) (data : List Byte) : State :=
  let s := s.sendDown (.chainData off data)
  let e := if off = s.base.nextSeg ∧ 16 ≤ data.length then off + 16 + rd data 0 8 else s.base.nextSeg
  s.modBase fun b => { b with
    nextSeg := e, segments := if off + data.length = e && b.chainPort.isSome then min 15 (b.segments + 1) else b.segments }

/-- Status that a refused segment reports upstream (R301). -/
def chainCode (reason : Nat) : Status :=
  if reason = 2 ∨ reason = 6 ∨ reason = 7 then .contractMismatch
  else if reason = 3 ∨ reason = 4 ∨ reason = 5 then .authFail else .refusedState

/-- Outcome of a verification: `l` the image, `given` its length as delivered. -/
def State.baseOutcome (s : State) (d : Delivery) (l : List Byte) (given : Nat) (readOk chained : Bool) : State × Option Nat :=
  match s.imgFail l given readOk with
  | some n => (s.baseRefused n d.timely, some n)
  | none =>
    let upd := s.base.inForce.isSome
    let s := s.takeImage l chained
    (if upd then s.serviceUpdate l else s, none)

/-- BASE_VERIFY_DONE (R296-R301): `image` is what the host die read: the image, or the whole chain stream; a chain segment
stands in the state. -/
def execBaseVerifyDone (image : List Byte) (readOk : Bool) (s : State) : Host.Outcome State Fault Refusal :=
  .next (match s.base.delivery with
    | none => s
    | some d =>
      let given := s.regField .modBaseLen .a [] 0 27
      match d with
      | .host _ => (s.baseOutcome d image given readOk false).1
      | .stream _ =>
        let seg := segments 0 16 image
        let img := (image.drop 16).take (rd image 0 8)
        if seg.1 = false ∨ image.length ≠ given then s.baseRefused 2 d.timely
        else
          let x := s.baseOutcome d img (rd image 0 8) readOk false
          if x.2.isSome then x.1
          else if (chainDown img).isSome ∧ 1 < seg.2.length then
            let off := 16 + rd image 0 8
            (x.1.openChain img).modBase fun b => { b with stream := image, forwarding := some off, nextSeg := off, segments := 0 }
          else x.1
      | .chain _ =>
        let l := s.base.stream
        let img := (l.drop 16).take (rd l 0 8)
        let x := s.baseOutcome d img (rd l 0 8) readOk true
        match x.2 with
        | some n => (x.1.modBase fun b => { b with refused := true }).sendUp (.chainStatus (rd l 8 1) (chainCode n).code)
        | none =>
          let s := x.1.sendUp (.chainStatus (rd l 8 1) 0)
          let n := 16 + rd l 0 8
          let rest := l.drop n
          let s := (s.openChain img).modBase fun b => { b with segments := 0, nextSeg := b.chainFrom + n }
          if rest.isEmpty then s else s.passOn (s.base.chainFrom + n) rest)

/-- The port on which chain-load traffic arrives (R223): port 0 of HUB-A at 10.3125 Gbit/s. -/
def State.chainOpen (s : State) : Bool := bitAt (s.reg .vlPortCtrl .a [0]).toNat 1

/-- Whether the chain-down port has sent all that waited on it: it takes no more before its credits allow (R300, R301). -/
def State.downFree (s : State) : Bool :=
  match s.base.chainPort with
  | some (c, p) => (s.port c p).queue.isEmpty
  | none => true

/-- CHAIN_DATA (R223, R295, R301): the first segment is taken in; once it is in force, what follows goes on downstream as far as the credits there
allow; meanwhile it stays in the receive buffer; after a refusal it is discarded. -/
def execChainData (offset : Nat) (data : List Byte) (s : State) : Host.Outcome State Fault Refusal :=
  .next (
    let b := s.base
    let take := fun (g : State → State) => s.withMsg .a 0 (some 0) (.chainData offset data) fun s h => if h.isChain then g s else s
    if s.chainOpen = false then s
    else if b.refused then take id
    else if b.inForce.isSome ∧ b.chained then if s.downFree then take (fun s => s.passOn offset data) else s
    else if s.regField .modBaseCtrl .a [] 2 1 = 0 ∨ b.delivery.isSome ∨ (b.stream ≠ [] ∧ offset ≠ b.chainFrom + b.stream.length) then s
    else take fun s =>
      let s := s.modBase fun b => { b with chainFrom := if b.stream.isEmpty then offset else b.chainFrom, stream := b.stream ++ data }
      let l := s.base.stream
      if 16 ≤ l.length ∧ 16 + rd l 0 8 ≤ l.length then s.beginDelivery (.chain (!s.base.expired)) else s)

/-- CHAIN_END (R223): the end of the stream goes on downstream; a segment cut short does not fit and is refused. -/
def execChainEnd (length : Nat) (s : State) : Host.Outcome State Fault Refusal :=
  .next (
    let b := s.base
    let take := fun (g : State → State) => s.withMsg .a 0 (some 0) (.chainEnd length) fun s h => if h.isChain then g s else s
    if s.chainOpen = false then s
    else if b.refused then take id
    else if b.inForce.isSome ∧ b.chained then if s.downFree then take (fun s => s.sendDown (.chainEnd length)) else s
    else if b.delivery.isSome then s
    else if b.stream.isEmpty then take id
    else take fun s => ((s.countAttempt.baseRefused 2 (!s.base.expired)).modBase fun b => { b with refused := true }).sendUp
      (.chainStatus (rd s.base.stream 8 1) (chainCode 2).code))

/-- CHAIN_STATUS (R301), from the chain-down port: the origin logs it; every other module forwards it upstream. -/
def execChainStatus (index status : Nat) (s : State) : Host.Outcome State Fault Refusal :=
  .next (match s.base.chainPort with
    | none => s
    | some (c, p) => s.withMsg c p (some 0) (.chainStatus index status) fun s h =>
      if h.isChain = false then s
      else if s.base.chained then s.sendUp (.chainStatus index status) else s.hostEvent 0x7004 [index, status])

/-- Send the next piece of the segments that follow the origin's own (R300): at most 4,096 bytes, not past the end of a segment; behind the last
one the end of the stream. -/
def State.forwardPiece (s : State) (off : Nat) : State :=
  let b := s.base
  let e := if off = b.nextSeg then off + 16 + rd b.stream off 8 else b.nextSeg
  let n := min 4096 (min e b.stream.length - off)
  let s := s.sendDown (.chainData off ((b.stream.drop off).take n))
  let ends := decide (b.stream.length ≤ off + n)
  let s := s.modBase fun b => { b with
    nextSeg := e, segments := if off + n = e then min 15 (b.segments + 1) else b.segments, forwarding := if ends then none else some (off + n) }
  if ends then s.sendDown (.chainEnd b.stream.length) else s

/-- Send pieces of a chain while the link takes them (R300), at most `n`. -/
def State.forwardChain (s : State) : Nat → State
  | 0 => s
  | n + 1 => match s.base.forwarding with
    | some off => if s.downFree then State.forwardChain (s.forwardPiece off) n else s
    | none => s

/-- Send on as much of a chain as the credits of its port allow, where this is that port (R300). -/
def State.chainOn (s : State) (c : Ch) (p : Nat) : State :=
  if s.base.forwarding.isSome && s.base.chainPort == some (c, p) then s.forwardChain (s.base.stream.length / 4096 + 32) else s

end Sys2Proof.Machine
end

