-- ==== Sys2Proof/Machine/Rings.lean ====
section
/-! DEFINITION. Rings (R230-R235, R241, R276): register accesses of the host port, enabling and disabling rings, doorbells,
the checks of a descriptor, and the moderation timer. -/

namespace Sys2Proof.Machine

open Sys2Proof

/-! ### Retained completions (R227) -/

/-- Post what the retention store holds for a completion ring while it has room; how many went. -/
def State.flushList (s : State) (arb : Ch) (r : RingNo) : List Retained → State × Nat
  | [] => (s, 0)
  | e :: es =>
    if e.arb = arb ∧ e.cring = r ∧ s.cplRoom r then
      let x := State.flushList (s.putCpl r e.cpl e.receipt) arb r es
      (x.1, x.2 + 1)
    else
      let s := s.modHost fun h => { h with retention := h.retention ++ [e] }
      State.flushList s arb r es

/-- Post what one arbiter retains for a ring, and write COMPLETIONS_POSTED when there was any (R227). -/
def State.flushArb (s : State) (r : RingNo) (arb : Ch) : State :=
  let l := s.host.retention
  let x := State.flushList (s.modHost fun h => { h with retention := [] }) arb r l
  if x.2 = 0 then x.1 else x.1.hubEvent arb 0x0006 [r, x.2]

/-- Post the retained completions of a completion ring, as far as it has room: the store of HUB-A's arbiter, then that of HUB-B's (R227, R244).
Any other ring has none. -/
def State.flush (s : State) (r : RingNo) : State := if isCplRing r then [Ch.a, Ch.b].foldl (fun s arb => s.flushArb r arb) s else s

/-! ### Finding and writing registers (R13, R228-R230) -/

/-- Where an offset lies: the domain's channel and the offset within the domain's window. -/
def windowOf (off : Nat) : Ch × Nat :=
  if 0x1000000 ≤ off then (.a, off - 0x1000000)
  else if 0xC00000 ≤ off then (.a, off)
  else if 0x800000 ≤ off then (.b, off - 0x800000) else if 0x400000 ≤ off then (.a, off - 0x400000) else (.a, off)

/-- Whether a domain's registers answer at an offset. -/
def domAt (d : RegDom) (off : Nat) : Bool :=
  match d with
  | .host => decide (off < 0x300000)
  | .config => decide (0x1000000 ≤ off)
  | _ => decide (0x400000 ≤ off) && decide (off < 0xC00000)

/-- The register at an offset, with its channel and indices; none where none is defined (R228, R63). -/
def findReg (twoCh : Bool) (off : Nat) : Option (Reg × Ch × List Nat) :=
  let w := windowOf off
  if !twoCh && decide (w.1 = .b) then none else
  Reg.all.findSome? fun r =>
    if domAt r.row.dom off && decide (r.row.base ≤ w.2) then
      match splitDims r.row.dims (w.2 - r.row.base) with
      | some idx => if !twoCh && (r == .secRangeBase || r == .secRangeLen || r == .secRangeCtrl) && idx.head? == some 1 then none
                    else some (r, w.1, idx)
      | none => none
    else none

/-- The register at an offset of this module (R228). A host die without valid firmware shows its configuration space and the MOD_ block only
(R291). -/
def State.findReg (s : State) (off : Nat) : Option (Reg × Ch × List Nat) :=
  if s.base.fwValid || decide (off < 0x100000) || decide (0x1000000 ≤ off) then Machine.findReg s.id.twoCh off else none

/-- Whether the domain of a register is powered (R230, R400). -/
def State.domOn (s : State) (d : RegDom) (c : Ch) : Bool :=
  match d with
  | .host | .config => true
  | .hub => (s.pw c).state.hubOn
  | .array | .hubArray => (s.pw c).state.arrayOn

/-- Count a bad access (R228, R229, R232). -/
def State.badAccess (s : State) : State := s.count .hpBadAccess .a []

/-- A stalling access that cannot cross (R230): counted, with one BUS_TIMEOUT event in each millisecond. -/
def State.timedOut (s : State) (off : Nat) : State :=
  let s := s.count .hpBusTimeouts .a []
  let ms := s.clock / 1000000
  if s.host.busTimeoutMs = some ms then s
  else (s.modHost fun h => { h with busTimeoutMs := some ms }).hostEvent 0x0002 [off]

/-- Logical Cabinet that a physical Cabinet carries, none for a spare (R24). -/
def State.logicalOf (s : State) (c : Ch) (d i : Nat) : Option Nat :=
  ((List.range 32).find? (fun x => (s.die c d).phys x == some i)).map (fun x => 64 * chNum c + 32 * d + x)

/-- The loaded design that a physical Cabinet belongs to. -/
def State.designOfPhys (s : State) (c : Ch) (d i : Nat) : Option Design :=
  (s.logicalOf c d i).bind (fun l => s.designs.find? (fun x => x.allCabs.contains l))

/-- Whether writes of a register are ignored now: conflict counters and undo peak of a loaded Cabinet (R180), and the blocks of reserved
rings. -/
def State.locked (s : State) (r : Reg) (c : Ch) (idx : List Nat) : Bool :=
  match r, idx with
  | .cmemConflictLo, d :: i :: _ | .cmemConflictHi, d :: i :: _ | .cmemUndoPeak, d :: i :: _ => (s.designOfPhys c d i).isSome
  | .hpRingBaseLo, k :: _ | .hpRingBaseHi, k :: _ | .hpRingCtrl, k :: _ | .hpRingMod, k :: _ => isReservedRing k
  | _, _ => false

/-- Store the writable bits of a 32-bit value (R12, R13). -/
def State.storeBits (s : State) (r : Reg) (c : Ch) (idx : List Nat) (v : Word32) : State :=
  let keep := BitVec.ofNat 32 (0xFFFFFFFF - (r.row.rw &&& (0xFFFFFFFF - r.acting)))
  s.setReg r c idx ((s.reg r c idx &&& keep) ||| (v &&& ~~~keep))

/-- The owner of a scheduler group as its register has it: 9 to 15 act as the operator (SCH_GROUP). -/
def State.groupReg (s : State) (c : Ch) (g : Nat) : Nat := let o := s.regField .schGroup c [g] 8 4; if 8 < o then 0 else o

/-- A round of the scheduler begins: the owners of the groups are those of their registers (R262). -/
def State.roundOwners (s : State) (c : Ch) : State :=
  s.modSched c fun q => { q with owners := (List.range 8).foldl (fun t g => KV.put 0 g (s.groupReg c g) t) [] }

/-- The owner of a scheduler group: that of the present round; with nothing waiting a new round begins at once (R261, R262). -/
def State.groupOwner (s : State) (c : Ch) (g : Nat) : Nat :=
  if (s.ch c).sched.waiting.isEmpty then s.groupReg c g else KV.get 0 g (s.ch c).sched.owners

/-- A scheduling stream whose last group is closed in SCH_TRACE_CTRL ends: it draws a fresh NONCE when it starts again (R355). -/
def State.trimSched (s : State) (c : Ch) : State :=
  let on := (List.range 8).filter (fun g => bitAt (s.reg .schTraceCtrl c []).toNat g)
  let owners := on.map (s.groupOwner c)
  s.modTrc c fun t => { t with schedNonce := t.schedNonce.filter (fun e => owners.contains e.1) }

/-- The value that a write may give a register: the owner of the operator ring and of the event ring is fixed (R231). -/
def fixedBits (r : Reg) (idx : List Nat) (v : Word32) : Word32 :=
  if r = .hpRingCtrl ∧ (idx = [0] ∨ idx = [96]) then v &&& ~~~0x1E00#32 else v

/-- What follows a write at once: a scheduling stream ends (R355), a ring that has grown takes retained completions (R227), an MSI-X vector is
masked or unmasked (R241). -/
def State.afterWrite (s : State) (r : Reg) (c : Ch) (idx : List Nat) (v : Word32) : State :=
  match r, idx with
  | .schTraceCtrl, _ => s.trimSched c
  | .schGroup, _ => (if (s.ch c).sched.waiting.isEmpty then s.roundOwners c else s).trimSched c
  | .hpRingCtrl, k :: _ => s.flush k
  | .msixControl, k :: _ => s.maskVector k (bitAt v.toNat 0)
  | _, _ => s

/-- One 32-bit write of a register (R13): the low word of a pair commits with the staged high word, the high word stages. -/
def State.write32 (s : State) (off : Nat) (v : Word32) : State :=
  match s.findReg off with
  | none => s.badAccess
  | some (r, c, idx) =>
    if !s.domOn r.row.dom c then s.timedOut off
    else if s.locked r c idx then s
    else match r.row.pair with
      | .one => (s.storeBits r c idx (fixedBits r idx v)).afterWrite r c idx v
      | .hi => s.modRegs fun g => { g with stage := KV.ins (off - 4) v (KV.del (off - 4) g.stage) }
      | .lo =>
        let hi := match s.regs.stage.find? (fun e => e.1 == off) with
          | some e => e.2
          | none => s.reg r.high c idx
        ((s.storeBits r c idx v).storeBits r.high c idx hi).modRegs fun g => { g with stage := KV.del off g.stage }

/-- A whole aligned write: 64 bits at a low word write the high word, then the low word (R229); elsewhere they are two
32-bit writes, low address first. -/
def State.writeReg (s : State) (off : Nat) (v : Word64) (wide : Bool) : State :=
  let lo : Word32 := v.setWidth 32
  let hi : Word32 := (v >>> 32).setWidth 32
  if !wide then s.write32 off lo
  else match s.findReg off with
    | some (r, _, _) => if r.row.pair = .lo then (s.write32 (off + 4) hi).write32 off lo else (s.write32 off lo).write32 (off + 4) hi
    | none => (s.write32 off lo).write32 (off + 4) hi

/-- REGISTER_WRITE (R13, R229): an access that is not whole and aligned has no effect and is counted. -/
def execRegisterWrite (offset : Nat) (value : Word64) (wide : Bool) (s : State) : Host.Outcome State Fault Refusal :=
  .next (if s.portAnswers = false then s
    else if offset % (if wide then 8 else 4) ≠ 0 then s.badAccess else s.writeReg offset value wide)

/-- The bad accesses that an access of BAR0 counts as (R228, R229): one when it is not a whole aligned 32-bit or 64-bit access; otherwise one for
each of its 32-bit words at which no register is defined. -/
def State.badWords (s : State) (offset bytes : Nat) : Nat :=
  if (bytes ≠ 4 ∧ bytes ≠ 8) ∨ offset % bytes ≠ 0 then 1
  else ((List.range (bytes / 4)).filter (fun k => (s.findReg (offset + 4 * k)).isNone)).length

/-- BAD_ACCESS (R228, R229): the access reads as 0, has no effect and is counted. -/
def execBadAccess (offset bytes : Nat) (write : Bool) (s : State) : Host.Outcome State Fault Refusal :=
  .next (let n := s.badWords offset bytes
    if s.portAnswers = false ∨ n = 0 then s
    else
      let s := s.countBy .hpBadAccess .a [] n
      if write then s else s.modRegs fun g => { g with reply := 0, poison := false })

/-- Whether an access crosses into a hub or array domain (R230). -/
def State.crosses (s : State) (offset : Nat) : Bool :=
  match s.findReg offset with
  | some (r, _, _) => r.row.dom != .host && r.row.dom != .config
  | none => false

/-- BUS_TIMEOUT (R230): a read returns 0xFFFF_FFFF, a write has no effect; the access is counted. An access that crosses no domain cannot be
late. -/
def execBusTimeout (offset : Nat) (write : Bool) (s : State) : Host.Outcome State Fault Refusal :=
  .next (if s.portAnswers = false ∨ s.crosses offset = false then s
    else
      let s := s.timedOut offset
      if write then s else s.modRegs fun g => { g with reply := 0xFFFFFFFF#64, poison := false })

/-! ### The ports behind rings -/

/-- The message port whose intake a ring serves. -/
def State.intakeOf (s : State) (r : RingNo) : Option (Ch × Nat × MPort) :=
  [Ch.a, Ch.b].findSome? fun c => ((s.ch c).mports.find? (fun e => e.2.inRing == some r)).map (fun e => (c, e.1, e.2))

/-- The proxy of this module: another module's host serves its ports (R218, R246). -/
def State.proxy (s : State) : Option Nat :=
  match s.topo with
  | none => none
  | some t => match t.mods[t.identity]? with
    | some m => if m.proxy = t.identity then none else some m.proxy
    | none => none

/-- The module and the port that a message ring serves at a proxy (R246): one whose entry names this module as PROXY. Which ring serves which port
is free (log entry 19). -/
def State.proxyFor (s : State) (r : RingNo) : Option (Nat × Nat) :=
  match s.topo with
  | none => none
  | some t =>
    let ms := (List.range 64).filter (fun m => m != t.identity && [1, 2, 3].contains (t.kind m) && ((t.mods[m]?).map (·.proxy)) == some t.identity)
    if ms.isEmpty then none
    else
      let q := Config.proxyPort r
      if ms.contains q.1.val then some (q.1.val, q.2.val) else none

/-- Numbers that `gone` holds follow on the next one, at most `n` of them. -/
def MPort.skipGone (p : MPort) : Nat → MPort
  | 0 => p
  | n + 1 => if p.gone.contains p.mseqIn then MPort.skipGone { p with mseqIn := p.mseqIn + 1, gone := p.gone.erase p.mseqIn } n else p

/-- A message consumes its sequence number (R254): the next one, or one whose turn is still to come. -/
def MPort.useMseq (p : MPort) (q : BitVec 64) : MPort :=
  if q = p.mseqIn then MPort.skipGone { p with mseqIn := p.mseqIn + 1 } p.gone.length else { p with gone := p.gone ++ [q] }

/-- Messages of a ring that the module has read and not yet taken up. -/
def State.unread (s : State) (r : RingNo) : List Cmd := s.host.cmds.filter (fun m => m.ring == r && m.desc.opcode == 0x60#8 && !m.started)

/-- A message refused or aborted before its turn consumes its sequence number, when that is the next one or one of the messages that wait (R254). -/
def State.useMseq (s : State) (r : RingNo) (q : BitVec 64) : State :=
  match s.intakeOf r with
  | none => s
  | some (_, k, p) =>
    if (s.unread r).length < (q - p.mseqIn).toNat then s
    else match p.design.bind s.design with
      | some d => s.modDesignPort d k fun p => p.useMseq q
      | none => s

/-- Whether a ring is an outlet of a message port. -/
def State.isOutlet (s : State) (r : RingNo) : Bool :=
  [Ch.a, Ch.b].any fun c => (s.ch c).mports.any (fun e => e.2.outRing == some r)

/-- Whether a completion that waits in a retention store is that of an accepted command of a ring. -/
def Retained.ofRing (e : Retained) (r : RingNo) : Bool := e.accepted && e.cpl.ring == r

/-- Outstanding commands of a ring (R231): accepted, and their completion has not yet reached a ring. -/
def State.outstanding (s : State) (r : RingNo) : Nat :=
  (s.host.cmds.filter (fun m => m.ring == r)).length + (s.host.retention.filter (fun e => e.ofRing r)).length

/-! ### Enabling and disabling (R231, R276) -/

/-- RING_ENABLE: a write of RING_CTRL with EN = 1. On a disabled ring it zeroes both counts and raises the generation; on an enabled ring EN
changes nothing. The other fields are stored as written (R13), and retained completions take what room there is (R227). Writes to the block of a
reserved ring are ignored. -/
def execRingEnable (r : RingNo) (value : Word32) (s : State) : Host.Outcome State Fault Refusal :=
  .next (if isReservedRing r ∨ 511 < r ∨ s.portAnswers = false then s
    else if s.base.fwValid = false then s.badAccess
    else
      let was := s.ringOn r
      let s := s.setReg .hpRingCtrl .a [r] ((fixedBits .hpRingCtrl [r] value &&& 0x1FFFFE3E#32) ||| 1#32)
      let s := if was then s
        else (s.modRing r fun _ => {}).modHost fun h => { h with gens := KV.put 0 r (KV.get 0 r h.gens + 1) h.gens }
      s.flush r)

/-- RING_DISABLE: a write of RING_CTRL with EN = 0 (R231): the ring stops at once; completions for it are retained (R227). -/
def execRingDisable (r : RingNo) (value : Word32) (s : State) : Host.Outcome State Fault Refusal :=
  .next (if isReservedRing r ∨ 511 < r ∨ s.portAnswers = false then s
    else if s.base.fwValid = false then s.badAccess
    else
      s.setReg .hpRingCtrl .a [r] (fixedBits .hpRingCtrl [r] value &&& 0x1FFFFE3E#32))

/-! ### Descriptor checks (R235) -/

/-- Parameter bytes that an opcode uses, as (offset, length). -/
def opBytes : Nat → List (Nat × Nat)
  | 0x02 => [(8, 1)]
  | 0x03 => [(8, 3)]
  | 0x04 => [(8, 2)]
  | 0x05 => [(9, 1)]
  | 0x08 => [(8, 12)]
  | 0x09 => [(8, 5)]
  | 0x0A | 0x47 => [(8, 2), (12, 4)]
  | 0x10 => [(8, 1), (16, 32)]
  | 0x11 => [(8, 1)]
  | 0x12 => [(8, 3), (12, 8)]
  | 0x13 => [(8, 2)]
  | 0x28 => [(8, 3), (12, 1), (16, 8)]
  | 0x29 => [(8, 2)]
  | 0x2A => [(8, 3), (16, 16)]
  | 0x40 => [(8, 17)]
  | 0x41 => [(8, 6), (16, 1)]
  | 0x45 => [(8, 10)]
  | 0x50 => [(8, 3)]
  | 0x60 => [(8, 10), (24, 24)]
  | 0x62 | 0x63 => [(8, 18), (28, 4)]
  | 0x64 => [(16, 24)]
  | 0x65 => [(16, 10), (28, 12)]
  | 0x66 | 0x67 => [(8, 8), (24, 3), (28, 12)]
  | 0x68 => [(16, 11), (28, 12)]
  | 0x70 => [(8, 2), (12, 2)]
  | 0x72 => [(8, 10)]
  | 0x73 => [(16, 2)]
  | 0x74 => [(8, 9)]
  | 0x75 => [(8, 11)]
  | 0x76 => [(18, 1)]
  | 0x78 => [(8, 5), (16, 8)]
  | _ => []

/-- Opcodes of an operator command ring (R236 and the opcode tables). -/
def operatorOps : List Nat := [1, 2, 3, 4, 5, 6, 7, 8, 9, 0xA, 0x10, 0x11, 0x12, 0x13, 0x28, 0x29, 0x2A]
/-- Opcodes of a tenant command ring. -/
def tenantOps : List Nat :=
  [0x40, 0x41, 0x42, 0x43, 0x44, 0x45, 0x46, 0x47, 0x50, 0x62, 0x63, 0x64, 0x65, 0x66, 0x67, 0x68, 0x70, 0x71, 0x72, 0x73,
   0x74, 0x75, 0x76, 0x78]
/-- Tenant opcodes that name a partition. -/
def usesPart (op : Nat) : Bool := op ≠ 0x40 && op ≠ 0x47 && op ≠ 0x50
/-- Work items (R257). -/
def isWorkItem (op : Nat) : Bool := decide (0x62 ≤ op) && decide (op ≤ 0x68)

/-- Whether the parameter byte `i` of an opcode may be other than 0; a receipt address frees bytes 40-47 (R238). -/
def byteUsed (op : Nat) (receipt : Bool) (i : Nat) : Bool :=
  (opBytes op).any (fun e => decide (e.1 ≤ i) && decide (i < e.1 + e.2)) || (receipt && decide (40 ≤ i))

/-- Whether every parameter holds a value that the opcode defines (R235 check 2, the opcode tables). -/
def valuesOk (op : Nat) (d : Desc) : Bool :=
  match op with
  | 0x02 => decide (1 ≤ d.par 8 1) && decide (d.par 8 1 ≤ 7)
  | 0x03 => decide (d.par 8 1 ≤ 3) && decide (d.par 8 1 ≠ 0) && decide (d.par 9 1 ≤ 4) && decide (d.par 10 1 ≤ 3)
  | 0x04 => decide (1 ≤ d.par 8 1) && decide (d.par 8 1 ≤ 8) && decide (d.par 9 1 ≠ 0)
  | 0x06 | 0x07 => decide (d.partition.toNat < 8)
  | 0x09 => decide (d.par 8 1 ≤ 5) && decide (d.par 9 1 ≤ 1) && decide (d.par 12 1 ≤ 1)
  | 0x10 | 0x11 => decide (1 ≤ d.par 8 1) && decide (d.par 8 1 ≤ 8)
  | 0x12 => decide (d.par 8 1 ≤ 1) && decide (d.par 9 1 ≤ 15) && decide (1 ≤ d.par 10 1) && decide (d.par 10 1 ≤ 8)
  | 0x13 | 0x50 => decide (d.par 8 1 ≤ 1) && decide (d.par 9 1 ≤ 15) && (op == 0x13 || d.par 10 1 == 1 || d.par 10 1 == 2)
  | 0x28 => decide (d.par 8 1 = 2) && decide (d.par 9 1 ≤ 7) && decide (d.par 10 1 ≤ 15) && decide (d.par 12 1 ≤ 1)
  | 0x29 => decide (d.par 8 1 ≤ 1) && decide (d.par 9 1 ≤ 5)
  | 0x2A => decide (d.par 8 1 ≤ 3) && decide (d.par 9 1 ≤ 7) && decide (d.par 10 1 ≤ 1)
  | 0x41 => decide (d.par 16 1 ≤ 1)
  | 0x45 => decide (d.par 16 2 < 1024) && decide (field (d.par 16 2) 7 2 ≤ 1)
  | 0x60 => decide (1 ≤ d.par 16 2) && decide (d.par 16 2 ≤ 4096) && decide (d.par 8 8 % 64 = 0)
  | 0x62 | 0x63 | 0x65 => decide (d.par 24 1 ≤ 1) && decide (d.par 16 8 % 8 = 0) && decide (d.par 28 4 % 8 = 0) && decide (d.par 28 4 ≤ 16777216)
  | 0x64 => decide (d.par 24 1 ≤ 1) && decide (d.par 26 1 ≤ 1) && decide (d.par 16 8 % 8 = 0) && decide (d.par 32 8 % 8 = 0)
      && decide (d.par 28 4 % 8 = 0) && decide (d.par 28 4 ≤ 16777216)
  | 0x66 | 0x67 => decide (d.par 24 1 ≤ 1) && decide (d.par 26 1 ≤ 5) && decide (d.par 28 4 ≤ 65536)
  | 0x68 => decide (d.par 24 1 ≤ 1) && decide (d.par 26 1 ≤ 1) && decide (d.par 16 8 % 8 = 0) && decide (d.par 28 4 % 8 = 0)
      && decide (d.par 28 4 ≤ 16777216)
  | 0x70 => decide (d.par 8 1 ≤ 1) && decide (d.par 9 1 ≤ 3) && (d.par 9 1 < 2 || (decide (1 ≤ d.par 12 2) && decide (d.par 12 2 ≤ 2048)))
  | 0x72 | 0x73 => decide (d.par 17 1 ≤ 1) && (decide (d.par 16 1 ≤ 15) || (op == 0x72 && d.par 16 1 == 0xFF))
  | 0x74 => decide (1 ≤ d.par 16 1) && decide (d.par 16 1 ≤ 64)
  | 0x75 => decide (1 ≤ d.par 16 1) && decide (d.par 16 1 ≤ 8) && decide (d.par 17 1 ≤ 1) && decide (d.par 18 1 ≤ 1)
  | 0x76 => decide (d.par 18 1 ≤ 1)
  | 0x78 => decide (1 ≤ d.par 8 1) && decide (d.par 8 1 ≤ 2) && decide (d.par 9 1 ≤ 7) && decide (d.par 10 1 ≤ 15)
      && decide (d.par 11 1 ≤ 1) && decide (d.par 12 1 ≤ 1)
  | _ => true

/-- Check 2 of R235: the opcode is defined for the ring's kind and owner, reserved bits are 0, parameters are defined; the
operator names a partition only to stop, unload, assign, reclaim or abort. -/
def State.opDefined (s : State) (r : RingNo) (d : Desc) : Bool :=
  let op := d.opcode.toNat
  let own := s.ringOwner r
  let kind := if isMsgRing r then op == 0x60 else if own = 0 then operatorOps.contains op else tenantOps.contains op
  let rec8 := d.receipt && decide (own ≠ 0) && !isMsgRing r
  kind && decide (field d.flags.toNat 2 6 = 0) && decide (d.partition.toNat < 8 ∨ d.partition = 15#4)
    && (if isMsgRing r then decide (field d.hi.toNat 6 6 = 0) && !d.receipt
        else decide (field d.hi.toNat 9 3 = 0) && (isWorkItem op || d.group == 0))
    && (own ≠ 0 || isMsgRing r || [4, 5, 6, 7, 0xA].contains op || d.partition == 15#4)
    && (List.range 40).all (fun i => byteUsed op rec8 (8 + i) || d.par (8 + i) 1 == 0)
    && valuesOk op d

/-- The command key of a ring: the operator's, or the owning tenant's (R234). -/
def State.ringKey (s : State) (r : RingNo) : Option Key :=
  let own := s.ringOwner r
  if own = 0 then s.key 0 0x01 0 else s.key own 0x02 0

/-- The 62 bytes that AUTH covers (R276). -/
def State.authBytes (s : State) (r : RingNo) (count : Word32) (d : Desc) : List Byte :=
  d.bytes ++ leBytes 2 r ++ leBytes 4 count.toNat ++ leBytes 8 (KV.get 0 r s.host.gens).toNat

/-- Check 1 of R235: AUTH verifies under the ring's command key; with no key installed it does not. -/
def State.authOk (s : State) (r : RingNo) (count : Word32) (d : Desc) : Bool :=
  match s.ringKey r with
  | some k => d.auth == Config.cmac k.material (s.authBytes r count d)
  | none => false

/-- Whether a completion ring is enabled and has the owner of a command ring (R235 check 3). -/
def State.cringOk (s : State) (cring r : RingNo) : Bool := s.ringOn cring && decide (s.ringOwner cring = s.ringOwner r)

/-- Check 5 of R235: on a tenant ring the partition named is held by that tenant. -/
def State.partOk (s : State) (r : RingNo) (d : Desc) : Bool :=
  let own := s.ringOwner r
  own = 0 || !usesPart d.opcode.toNat && !isMsgRing r ||
    (decide (d.partition.toNat < 8) && decide ((s.part d.partition.toNat).owner = own))

/-- The first check of R235 that a descriptor fails, with its status. -/
def State.checkDesc (s : State) (r : RingNo) (count : Word32) (d : Desc) : Option Status :=
  if !s.authOk r count d then some .authFail
  else if !s.opDefined r d then some .refusedState
  else if !s.cringOk d.cring r then some .refusedState
  else if (s.cmd r d.tag).isSome || s.host.retention.any (fun e => e.ofRing r && e.cpl.tag == d.tag) then some .refusedState
  else if !s.partOk r d then some .refusedState
  else none

/-- The arbiter that a command is assigned to at acceptance (R244, R404). -/
def State.arbiterOf (s : State) (d : Desc) : Ch :=
  let spare := if (s.ch .a).fenced || !s.pwr.a.state.hubOn then Ch.b else Ch.a
  if d.partition.toNat < 8 then
    match s.designAt d.partition.toNat with
    | some g => if g.spansBoth then spare else chOfPart d.partition.toNat
    | none => chOfPart d.partition.toNat
  else spare

/-- The receipt that a refused tenant command asks for (R238). -/
def State.refusedReceipt (s : State) (r : RingNo) (count : Word32) (d : Desc) : Option Receipt :=
  if d.receipt && isCmdRing r && decide (s.ringOwner r ≠ 0) then
    (s.key (s.ringOwner r) 0x0A 0).map fun k => { addr := d.par 40 8, key := k.material, iv := itemIv 0x83 r (KV.get 0 r s.host.gens) count }
  else none

/-- Post a refusal on CRING, or on the fallback ring of RING_MOD.FALLBACK, or discard it with a RING_ERROR event (R235). -/
def State.refuse (s : State) (r : RingNo) (count : Word32) (d : Desc) (st : Status) : State :=
  let c : Completion := { tag := d.tag, status := st, retained := false, ring := r, frame := s.frameAt d.partition.toNat, detail := 0 }
  let fb := 32 + s.regField .hpRingMod .a [r] 0 6
  let rc := s.refusedReceipt r count d
  if s.cringOk d.cring r then s.post (s.arbiterOf d) d.cring c rc false
  else if s.cringOk fb r then s.post (s.arbiterOf d) fb c rc false
  else s.hostEvent 0x0004 [r, 2]

/-- The keys of a holder, each once. -/
def State.ownerKeys (s : State) (holder : Nat) : List Key :=
  let l := if s.chA.hutch.keys.isEmpty then s.chB.hutch.keys else s.chA.hutch.keys
  l.filter (fun k => k.holder == holder)

/-- Read one descriptor: accept it, or refuse it (R235). -/
def State.takeDesc (s : State) (r : RingNo) (count : Word32) (d : Desc) : State :=
  match s.checkDesc r count d with
  | some st =>
    let s := if st ≠ .authFail ∧ isMsgRing r ∧ d.opcode = 0x60#8 then s.useMseq r (BitVec.ofNat 64 (d.par 24 8)) else s
    s.refuse r count d st
  | none =>
    let m : Cmd := { ring := r, count := count, desc := d, arb := s.arbiterOf d, started := false,
                     keys := s.ownerKeys (s.ringOwner r), gen := KV.get 0 r s.host.gens }
    s.modHost fun h => { h with cmds := h.cmds ++ [m] }

/-- Read descriptors in order of their counts (R233). -/
def State.takeDescs (s : State) (r : RingNo) (count : Word32) : List Desc → State
  | [] => s
  | d :: ds => State.takeDescs (s.takeDesc r count d) r (count + 1) ds

/-! ### Doorbells (R232, R255) -/

/-- Free words of an intake window from its committed counts (R248, R255). -/
def State.intakeFree (s : State) (m : MPort) : Nat :=
  match m.inWin, m.design.bind s.design with
  | some w, some d =>
    let x := d.cab (d.liveCab w.cab)
    let cons := KV.get 0 (w.word + 1) (undoMem x.mem x.undo)
    w.size - (BitVec.ofNat 32 m.written - cons.setWidth 32).toNat
  | _, _ => 0

/-- The window words that the messages among the first `n` entries need (R255). -/
def entryWords (n : Nat) (entries : List Desc) : Nat := ((entries.take n).map (fun d => msgWords (d.par 16 2))).sum

/-- Whether a ring can take a produced count whose messages need `words` words: the size of the ring, and 256 outstanding commands or the
port's intake (R232, R255). A count that would pass 0xFFFF_FFFF it never takes (R276). -/
def State.canTake (s : State) (r : RingNo) (count : Word32) (words : Nat) : Bool :=
  let n := count.toNat - (s.ring r).produced.toNat
  decide ((s.ring r).produced.toNat ≤ count.toNat) && decide (count.toNat - (s.ring r).consumed.toNat ≤ s.ringSize r) &&
  (if isCmdRing r then decide (s.outstanding r + n ≤ 256)
   else match s.intakeOf r with
    | some (_, _, m) =>
      let queued := (m.accepted.map (fun x => msgWords x.data.length)).sum +
        ((s.unread r).map (fun x => msgWords (x.desc.par 16 2))).sum
      decide (queued + words ≤ s.intakeFree m)
    | none => (s.proxyFor r).isSome)

/-- A bad count: RING_STATUS.ERROR and a RING_ERROR event (R232). -/
def State.ringError (s : State) (r : RingNo) : State :=
  (s.modRing r fun g => { g with error := true }).hostEvent 0x0004 [r, 1]

/-- A produced count (R232): taken whole, refused whole, or an error. A count that would pass 0xFFFF_FFFF is refused (R276). -/
def State.produce (s : State) (r : RingNo) (count : Word32) (entries : List Desc) : State :=
  let old := (s.ring r).produced
  let words := entryWords (count.toNat - old.toNat) entries
  if count.toNat < old.toNat ∧ s.ringSize r < (count - old).toNat then s.ringError r
  else if s.canTake r count words = false then
    ((s.modRing r fun g => { g with refused := some (count, words), error := false }).count .hpDoorbellRefused .a []).hostEvent 0x0003
      [r, count.toNat]
  else
    let s := s.modRing r fun g => { g with produced := count, consumed := count, refused := none, error := false }
    s.takeDescs r old (entries.take (count.toNat - old.toNat))

/-- A consumed count (R232): it frees entries, and retained completions take the room (R227). -/
def State.consume (s : State) (r : RingNo) (count : Word32) : State :=
  let old := (s.ring r).consumed
  if ((s.ring r).produced - old).toNat < (count - old).toNat then s.ringError r
  else
    let s := s.modRing r fun g => { g with consumed := count, error := false, entries := g.entries.drop (count - old).toNat }
    s.flush r

/-- What a read of a doorbell word returns (R232). No row of the table carries such a read. -/
def doorbellRead (_page _offset : Nat) : Word64 := 0

/-- DOORBELL (R232). `entries` are the descriptors that the announced part of the ring holds in host memory. -/
def execDoorbell (page offset : Nat) (value : Word64) (_wide : Bool) (entries : List Desc) (s : State) :
    Host.Outcome State Fault Refusal :=
  let r := offset / 8
  let count : Word32 := value.setWidth 32
  .next (if s.portAnswers = false then s
    else if offset % 8 ≠ 0 ∨ 511 < r ∨ isReservedRing r ∨ s.base.fwValid = false ∨ s.regField .hpRingCtrl .a [r] 13 8 ≠ page ∨ s.ringOn r = false then s.badAccess
    else if isCmdRing r ∨ (isMsgRing r ∧ s.isOutlet r = false) then s.produce r count entries
    else s.consume r count)

/-- INTERRUPT_TIMER (R241): RING_MOD.TIMER has passed since the first entry written after the last signal. -/
def execInterruptTimer (r : RingNo) (s : State) : Host.Outcome State Fault Refusal :=
  .next (if s.regField .hpRingMod .a [r] 8 16 ≠ 0 ∧ (s.ring r).unsignalled ≠ 0 then s.signal r else s)

end Sys2Proof.Machine
end

