-- ==== Sys2Proof/Machine/Topology.lean ====
section
/-! DEFINITION. The system topology table (R218, R219), the routes computed from it (R220), sending along a route, and the
command that brings a table into force. -/

namespace Sys2Proof.Machine

open Sys2Proof

/-! ### Routes (R220) -/

/-- Node of a link end: (module, channel), or the one node of a bridge. -/
def Topo.node (t : Topo) (m e : Nat) : Nat := if t.kind m = 4 then 2 * m else 2 * m + field e 3 1

/-- Whether this module's port carries traffic (R219). -/
def State.carries (s : State) (c : Ch) (p : Nat) : Bool :=
  let x := s.port c p
  x.state == .up && x.traffic && x.helloOk && !x.out

/-- Whether an own end of a link carries traffic; ends of other modules count as carrying (R220). -/
def State.endCarries (s : State) (t : Topo) (m e : Nat) : Bool :=
  m != t.identity || s.carries (chOf (field e 3 1)) (field e 0 3)

/-- The edges in use: traffic links whose own ports carry traffic, both ways round, with the own port at the first node. -/
def State.edges (s : State) (t : Topo) : List (Nat × Nat × Nat) :=
  (t.links.filter (fun l => l.use == 1 && s.endCarries t l.modA l.endA && s.endCarries t l.modB l.endB)).flatMap fun l =>
    [(t.node l.modA l.endA, t.node l.modB l.endB, field l.endA 0 3), (t.node l.modB l.endB, t.node l.modA l.endA, field l.endB 0 3)]

/-- Nodes reached in one more hop towards a set. -/
def grow (es : List (Nat × Nat × Nat)) (ns : List Nat) : List Nat :=
  es.foldl (fun ms e => if ns.contains e.2.1 && !ms.contains e.1 then ms ++ [e.1] else ms) ns

/-- Hops from a node to a set, within a bound. -/
def hops (es : List (Nat × Nat × Nat)) (src : Nat) : Nat → List Nat → Option Nat
  | 0, ns => if ns.contains src then some 0 else none
  | n + 1, ns => if ns.contains src then some 0 else (hops es src n (grow es ns)).map (· + 1)

/-- The smaller of two candidates (hops, neighbour node, own port) in the order of R220: shortest, then lowest neighbour
identity and channel, then lowest own port. -/
def betterHop (a b : Nat × Nat × Nat) : Bool :=
  decide (a.1 < b.1) || (a.1 == b.1 && (decide (a.2.1 < b.2.1) || (a.2.1 == b.2.1 && decide (a.2.2 < b.2.2))))

/-- Next hop of a channel towards a destination node: the own port (R220). -/
def State.nextHop (s : State) (c : Ch) (dest : Nat) : Option Nat :=
  match s.topo with
  | none => none
  | some t =>
    let es := s.edges t
    let own := 2 * t.identity + chNum c
    let cand := es.filterMap fun e => if e.1 = own then (hops es e.2.1 128 [dest]).map (fun n => (n, e.2.1, e.2.2)) else none
    (cand.foldl (fun (b : Option (Nat × Nat × Nat)) e => match b with
      | some x => if betterHop e x then some e else some x
      | none => some e) none).map (·.2.2)

/-- Every destination node of a table. -/
def Topo.nodes (t : Topo) : List Nat :=
  (List.range 64).flatMap fun m => if t.kind m = 0 then [] else if t.kind m = 4 then [2 * m] else [2 * m, 2 * m + 1]

/-- The routes of a channel, by destination node. -/
def State.routes (s : State) (c : Ch) : List (Nat × Option Nat) :=
  match s.topo with
  | some t => t.nodes.map (fun n => (n, s.nextHop c n))
  | none => []

/-- Number of destinations whose route differs between two route lists. -/
def routeDiff (a b : List (Nat × Option Nat)) : Nat :=
  ((List.range 128).filter (fun n => ((a.find? (·.1 == n)).bind (·.2)) != ((b.find? (·.1 == n)).bind (·.2)))).length

/-- Whether this member of a pair sends nothing of its own along the routes: only the primary sends (R221). -/
def State.silent (s : State) : Bool := s.mode.mode == .mirrored && s.mode.partner

/-- Apply a change and report the routes that it changed (R220: ROUTES_CHANGED); the VALUE messages of the last two committed frames go
again to every destination whose route changed (R222). -/
def State.withRoutes (s : State) (f : State → State) : State :=
  let s' := f s
  s.channels.foldl (fun x c =>
    let n := routeDiff (s.routes c) (s'.routes c)
    let old := s.routes c
    let new := s'.routes c
    let x := (x.ch c).link.resend.foldl (fun x e =>
      let a := (old.find? (·.1 == e.2.1)).bind (·.2)
      let b := (new.find? (·.1 == e.2.1)).bind (·.2)
      match b with
      | some p => if a = b ∨ x.silent then x else x.sendOn c p (.value ((x.topo.map (fun t => t.address (e.2.1 / 2))).getD 0) e.2.2.1 e.2.2.2)
      | none => x) x
    if n = 0 then x else x.hubEvent c 0x4103 [chNum c, n]) s'

/-- The channel of a remote module to address, and the port towards it, from a channel: the like channel first. -/
def State.routeTo (s : State) (c : Ch) (m : Nat) : Option (Nat × Nat) :=
  match s.nextHop c (2 * m + chNum c) with
  | some p => some (2 * m + chNum c, p)
  | none => (s.nextHop c (2 * m + (1 - chNum c))).map (fun p => (2 * m + (1 - chNum c), p))

/-- Whether any route from a channel reaches a module. -/
def State.reaches (s : State) (c : Ch) (m : Nat) : Bool := (s.routeTo c m).isSome

/-- Whether the route from a channel to a module passes a bridge: its next hop's far end, or any later one, is a bridge. The
module sees only its own first link, so a table without an unbridged path is a route through a bridge (R287). -/
def State.viaBridge (s : State) (c : Ch) (m : Nat) : Bool :=
  match s.topo with
  | none => false
  | some t =>
    let es := (s.edges t).filter (fun e => t.kind (e.1 / 2) != 4 && t.kind (e.2.1 / 2) != 4)
    let own := 2 * t.identity + chNum c
    match hops (s.edges t) own 128 [2 * m, 2 * m + 1], hops es own 128 [2 * m, 2 * m + 1] with
    | some a, some b => decide (a < b)
    | some _, none => true
    | none, _ => false

/-- The modules that a message for identity `m` goes to: both members of a pair (R221). -/
def State.members (s : State) (m : Nat) : List Nat :=
  match s.topo with
  | some t => if t.kind m = 2 then [m, ((t.mods[m]?).map (·.pair)).getD m] else [m]
  | none => [m]

/-- The ports on which a message for identity `m` leaves, one copy on each: those of the routes to both members of a pair (R221; log entry 36). -/
def State.portsTo (s : State) (c : Ch) (m : Nat) : List Nat := ((s.members m).filterMap (fun t => (s.routeTo c t).map (·.2))).eraseDups

/-- Send something from a channel towards an identity, along the routes; with no route it waits nowhere and is dropped, counted in
VL_DROPS (R222). The partner of a pair sends nothing (R221). -/
def State.sendTo (s : State) (c : Ch) (m : Nat) (x : Sent) : State :=
  if s.silent then s
  else match s.portsTo c m with
    | [] => s.count .vlDrops c []
    | ps => ps.foldl (fun s p => s.sendOn c p x) s

/-! ### Traffic that is lost (R222) -/

/-- What is lost with the replay buffer of a port that stops carrying traffic for good (R222): TIME and TRIG messages, forwarded ones included, count in
VL_DROPS; a message port whose MSG traffic was lost holds as a disabled resource, with an event for which the manual names no code: a free
value (log entry 4); an authentication whose message is lost ends as at its timeout, and a chain ends. -/
def State.loseSent (s : State) (c : Ch) (p : Nat) (m : Sent) : State :=
  match m with
  | .time _ _ _ | .announce _ _ _ | .trig _ _ _ _ => s.count .vlDrops c []
  | .forward _ _ (b :: _) _ => if field b.toNat 0 4 = 5 ∨ field b.toNat 0 4 = 6 then s.count .vlDrops c [] else s
  | .msg _ x =>
    if x.toHost then
      ((s.modMport (chOf (x.port / 128)) (x.port % 128) fun q => { q with disabled := true }).hubEvent c (s.free.toNat % 0x10000) []).freeNext
    else s
  | .auth _ _ =>
    if (s.port c p).auth.isNone then s
    else (s.modPort c p fun x => { x with auth := none, nextKeys := if x.keys.isNone then none else x.nextKeys }).hubEvent c 0x6007 [chNum c, p, 0]
  | .chainData _ _ | .chainEnd _ => s.modBase fun b => { b with forwarding := none }
  | _ => s

/-- The messages of the replay buffer of a port, and those that wait behind them. -/
def VPort.unsent (x : VPort) : List Sent := x.unacked.filterMap (·.msg) ++ x.queue1 ++ x.queue

/-- A port stops carrying traffic: the messages of its replay buffer are lost (R222). Its flits keep their numbers until they are acknowledged or the
port is disabled, so that a link that still works stays in sequence. -/
def State.loseTraffic (s : State) (c : Ch) (p : Nat) : State :=
  let l := (s.port c p).unsent
  l.foldl (fun s m => s.loseSent c p m)
    (s.modPort c p fun x => { x with unacked := x.unacked.map (fun k => { k with msg := none }), queue := [], queue1 := [] })

/-! ### SLOT_HOME, mirror ports and a fence (R217, R319, R321, R322) -/

/-- The slots of a design that HUB-B serves; once it serves a TWINNED design, every slot (R217, R319). -/
def Design.slotMap (d : Design) : BitVec 512 :=
  if d.twin then (if d.home = .b then BitVec.allOnes 512 else 0)
  else (d.slots.map (·.slot)).foldl (fun m n =>
    if d.ports.any (fun e => chOfCab (e.1 / 2048) == .b && (List.range 4).any (fun k =>
      let f := field e.2.toNat (32 * k) 32
      bitAt f 0 && field f 1 2 == 1 && field f 3 9 == n)) then setBit m n true else m) 0

/-- SLOT_HOME towards a module: the slots bound to it, of every design that is loaded, that HUB-B serves (R217). -/
def State.slotHomes (s : State) (m : Nat) : BitVec 512 :=
  s.designs.foldl (fun v d => (d.slots.filter (fun b => b.remote == m && d.slotMap.getLsbD b.slot)).foldl (fun v b => setBit v b.slot true) v) 0

/-- SLOT_HOME from a channel of a design to every remote module that its slots name (R217). -/
def State.sendSlotHome (s : State) (d : Design) (c : Ch) : State :=
  ((d.slots.map (·.remote)).eraseDups).foldl (fun s m => s.sendTo c m (.slotHome m (s.slotHomes m))) s

/-- The working mirror ports of a channel, lowest first (R322). -/
def State.mirrorPorts (s : State) (c : Ch) : List Nat := (List.range 8).filter (fun p => s.portUse c p 2 && s.carries c p)

/-- Send a TWIN message of a channel on its lowest working mirror port (R322). -/
def State.sendTwin (s : State) (c : Ch) (m : Sent) : State :=
  match s.mirrorPorts c with
  | p :: _ => s.sendOn c p m
  | [] => s

/-- The 26-byte design descriptor of a MIRRORED design (R321). -/
def Design.descriptor (d : Design) : List Byte :=
  leBytes 8 d.header.imageId.toNat ++ leBytes 16 d.digest.toNat ++ leBytes 1 d.header.mask ++ leBytes 1 0

/-- TWIN STATE with the design descriptor (R321). -/
def State.sendDescriptor (s : State) (d : Design) : State :=
  s.sendTwin d.home (.twinState (BitVec.ofNat 48 d.frame) 0xFFFFFFFFFF d.descriptor)

/-- Whether this module is the member of a MIRRORED pair whose other member still runs with it. -/
def State.pairRuns (s : State) : Bool :=
  s.mode.mode == .mirrored && !s.mode.solo && !s.mode.left && (s.mode.primary || s.mode.partner)

/-- Tell the partner where the primary stopped (R321). -/
def State.tellStop (s : State) (d : Design) : State :=
  if s.pairRuns && s.mode.primary then
    match s.topo with
    | some t => s.sendTwin d.home (.stopAt (((t.mods[t.identity]?).map (·.pair)).getD 0) (BitVec.ofNat 48 d.frame - 1))
    | none => s
  else s

/-- INTEGRITY_ALARM and TAMPER stop a design on both members of a pair and promote neither (R324): the other member learns of the stop by STOP_AT
(DESIGN CHOICE, log entry 41). -/
def State.tellAlarm (s : State) (d : Design) : State :=
  if s.pairRuns then
    match s.topo with
    | some t => s.sendTwin d.home (.stopAt (((t.mods[t.identity]?).map (·.pair)).getD 0) (BitVec.ofNat 48 d.frame - 1))
    | none => s
  else s

/-- Stop every design selected with INTEGRITY_ALARM, on both members of a pair (R284, R324). -/
def State.alarmWhere (s : State) (sel : Design → Bool) : State :=
  s.designs.foldl (fun s d => if sel d then (s.tellAlarm d).stopAt d.tag .integrityAlarm 1 else s) s

/-- Ask a running design to stop at its next commit, or at its last commit when it is held (R80, R236). -/
def State.requestStop (s : State) (d : Design) (q : StopReq) : State :=
  let s := s.modDesign d.tag fun d => { d with stops := d.stops ++ [q] }
  if d.held || !d.begun && (d.disabled || d.waitPartner || (d.run.map (·.waitLaunch)).getD false) then
    ((s.tellStop d).stopAt d.tag .ok 3).finishStops d.tag
  else s.setDesignState d .stopping

/-- Fence a channel (R19, R319). When channel A of a TWINNED design is fenced, HUB-B takes over: it sends SLOT_HOME, and a design
whose remote modules it cannot reach stops with FENCED. -/
def State.fenceOff (s : State) (c : Ch) (cause : Nat) : State :=
  if (s.ch c).fenced then s else
  let s := s.fence c cause
  s.designs.foldl (fun s d =>
    if d.twin && c == .a && d.fencedSide == some .a then
      if (d.slots.map (·.remote)).all (fun m => s.reaches .b m) then s.sendSlotHome d .b else s.stopAt d.tag .fenced 1
    else s) s

/-! ### SET_TOPOLOGY (R218, R219) -/

/-- Module entry `i` of a table's bytes. -/
def topoMod (l : List Byte) (i : Nat) : TopoMod :=
  let o := 64 + 16 * i
  { kind := rd l o 1, pair := rd l (o + 1) 1, proxy := rd l (o + 2) 1, serial := BitVec.ofNat 64 (rd l (o + 4) 8) }

/-- Link entry `i` of a table's bytes. -/
def topoLink (l : List Byte) (i : Nat) : TopoLink :=
  let o := 64 + 1024 + 8 * i
  { modA := rd l o 1, endA := rd l (o + 1) 1, modB := rd l (o + 2) 1, endB := rd l (o + 3) 1, use := rd l (o + 4) 1, rate := rd l (o + 5) 1 }

/-- Whether a module entry is well formed (R218). -/
def topoModOk (l : List Byte) (i : Nat) : Bool :=
  let m := topoMod l i
  let o := 64 + 16 * i
  decide (m.kind ≤ 4) && decide (rd l (o + 3) 1 = 0) && decide (rd l (o + 12) 4 = 0) && decide (m.proxy < 64) &&
  decide (m.pair < 64) && (m.kind == 2 || m.kind == 3 || m.pair == 0) && (m.kind != 4 || m.serial == 0)

/-- Whether a link entry is well formed (R218). -/
def topoLinkOk (l : List Byte) (i : Nat) : Bool :=
  let k := topoLink l i
  decide (k.modA < 64) && decide (k.modB < 64) && decide (k.endA < 16) && decide (k.endB < 16) &&
  decide (1 ≤ k.use) && decide (k.use ≤ 4) && decide (k.rate ≤ 1) && decide (rd l (64 + 1024 + 8 * i + 6) 2 = 0)

/-- Whether a list holds no value twice. -/
def allDistinct : List Nat → Bool
  | [] => true
  | x :: xs => !xs.contains x && allDistinct xs

/-- Read a table: none where R219 refuses it with CONTRACT_MISMATCH. -/
def State.readTopo (s : State) (l : List Byte) (len : Nat) : Option Topo :=
  let n := rd l 6 2
  let mods := (List.range 64).map (topoMod l)
  let links := (List.range n).map (topoLink l)
  let kind := fun i => ((mods[i]?).map (·.kind)).getD 0
  let pairOf := fun i => ((mods[i]?).map (·.pair)).getD 0
  let ok := decide (rd l 0 4 = 0x31544C56) && decide (rd l 4 2 = 1) && decide (n ≤ 512) && decide (l.length = 1088 + 8 * n)
    && decide (len = l.length) && decide (rd l 16 48 = 0)
    && (List.range 64).all (topoModOk l) && (List.range n).all (topoLinkOk l)
    && (List.range 64).all (fun i => (kind i != 2 || (kind (pairOf i) == 3 && pairOf (pairOf i) == i)) &&
        (kind i != 3 || (kind (pairOf i) == 2 && pairOf (pairOf i) == i)))
    && allDistinct (links.flatMap (fun k => [16 * k.modA + k.endA, 16 * k.modB + k.endB]))
    && links.all (fun k => kind k.modA != 0 && kind k.modB != 0)
  match (List.range 64).find? (fun i => kind i != 0 && kind i != 4 && ((mods[i]?).map (·.serial)) == some s.id.serial) with
  | some i => if ok then some { systemId := BitVec.ofNat 64 (rd l 8 8), mods := mods, links := links, hash := Config.sha384 l, identity := i } else none
  | none => none

/-- SET_TOPOLOGY (R218, R219): `table` is what stands at the host address. A new table ends HELLO_OK on every port. -/
def execSetTopology (r : RingNo) (t : Tag) (table : List Byte) (s : State) : Host.Outcome State Fault Refusal :=
  .next (s.withCmd r t 0x08 fun s m =>
    match s.readTopo table (m.desc.par 16 4) with
    | none => s.complete m .contractMismatch 0
    | some tp =>
      if s.designs.any (fun d => d.header.topoHash != 0) then s.complete m .refusedState 0
      else
        let s := s.withRoutes fun s =>
          let s := { s with topo := some tp }
          s.channels.foldl (fun s c => (List.range 8).foldl (fun s p =>
            let was := s.carries c p
            let s := s.modPort c p fun x => { x with helloOk := false, traffic := false }
            if was then s.loseTraffic c p else s) s) s
        (s.hostEvent 0x4104 [tp.identity, tp.links.length]).complete m .ok 0)

end Sys2Proof.Machine
end

