-- ==== Sys2Proof/Machine/HostCmds.lean ====
section
/-! DEFINITION. The operator and tenant commands of the host-port chapter (R236): modes (R308), power states (R402),
partitions, running and stopping (R307), statistics and authorised marches. SET_TOPOLOGY, SET_FUNCTION and ABORT stand with
the parts they act on. -/

namespace Sys2Proof.Machine

open Sys2Proof

/-- NOP (R236): completes OK. -/
def execNop (r : RingNo) (t : Tag) (s : State) : Host.Outcome State Fault Refusal :=
  .next (s.withCmd r t 0x01 fun s m => s.complete m .ok 0)

/-! ### SET_MODE (R308) -/

/-- Whether the topology table gives this module as many mirror links to its pair as R308 asks: exactly two per populated
channel, each joining the like channels. -/
def State.mirrorLinksOk (s : State) (t : Topo) : Bool :=
  let pair := ((t.mods[t.identity]?).map (·.pair)).getD 0
  s.channels.all fun c =>
    let mine := t.links.filter (fun l => l.use == 2 &&
      (l.modA == t.identity && bitAt l.endA 3 == (c == .b) || l.modB == t.identity && bitAt l.endB 3 == (c == .b)))
    mine.length == 2 && mine.all (fun l => bitAt l.endA 3 == bitAt l.endB 3 &&
      ((l.modA == t.identity && l.modB == pair) || (l.modB == t.identity && l.modA == pair)))

/-- Kind of this module's entry in the topology table in force. -/
def State.topoKind (s : State) : Nat :=
  match s.topo with
  | some t => ((t.mods[t.identity]?).map (·.kind)).getD 0
  | none => 0

/-- The rows of the table of R308 that a target mode does not meet, as their REASONs, in the table's order. -/
def State.modeReasons (s : State) (m : Mode) : List Nat :=
  (if (List.range 8).any (fun p => (s.part p).state != .empty) || !s.loads.isEmpty then [1] else []) ++
  (if (m == .joined || m == .debugJoined) && !s.id.twoCh then [2] else []) ++
  (if (m == .joined || m == .debugJoined || m == .twinned) && (s.chA.fenced || s.chB.fenced) then [5] else []) ++
  (if m == .twinned && !s.id.twoCh then [2] else []) ++
  (if m == .twinned && (s.pwr.a.state != s.pwr.b.state || (s.pwr.a.state == .run && s.pwr.a.sp != s.pwr.b.sp)) then [3] else []) ++
  (if m == .twinned && (s.chA.hbm.integrity != s.chB.hbm.integrity || s.chA.hbm.ring != s.chB.hbm.ring) then [4] else []) ++
  (if m == .mirrored && !(s.topoKind == 2 || s.topoKind == 3) then [6] else []) ++
  (if m == .mirrored && !((s.topo.map s.mirrorLinksOk).getD false) then [7] else [])

/-- Put a mode in force: the referee leaves IDLE for TWINNED and returns to it otherwise (R327); the lead of a pair starts as
primary. -/
def State.enterMode (s : State) (m : Mode) : State :=
  s.modMode fun x => { x with
    mode := m, referee := if m = .twinned then .armed else .idle, rejoin := none,
    rejoinTested := false, primary := m == .mirrored && s.topoKind == 2, partner := m == .mirrored && s.topoKind == 3,
    solo := false, left := false, other := .paired, confirmed := 0, sigs := [], inputs := [], residue := 0, precopy := false,
    final := false, descriptor := [], twinLastAt := s.clock,
    mismatchAt := none, pairPrimary := [] }

/-- SET_MODE (R308). -/
def execSetMode (r : RingNo) (t : Tag) (s : State) : Host.Outcome State Fault Refusal :=
  .next (s.withCmd r t 0x02 fun s m =>
    let prev := s.mode.mode.code
    match Mode.ofCode (m.desc.par 8 1) with
    | none => s.complete m .refusedState 0
    | some md =>
      match s.modeReasons md with
      | q :: _ => s.complete m .refusedState (detail [BitVec.ofNat 8 prev, BitVec.ofNat 8 q])
      | [] => ((s.enterMode md).hostEvent 0x8001 [prev, md.code]).complete m .ok (detail [BitVec.ofNat 8 prev, 0]))

/-! ### SET_POWER (R402) -/

/-- The channels that a mask names. -/
def maskChs (n : Nat) : List Ch := [Ch.a, Ch.b].filter (fun c => bitAt n (chNum c))

/-- The partitions that a mask names. -/
def maskParts (n : Nat) : List Nat := (List.range 8).filter (fun p => bitAt n p)

/-- Whether R402 refuses a SET_POWER with REFUSED_STATE. A hub whose firmware did not match (R404) has no base image in force. -/
def State.powerRefused (s : State) (mask : Nat) (st : PState) : Bool :=
  (decide (3 ≤ st.code) && (s.base.inForce.isNone || (maskChs mask).any (fun c => !(s.ch c).firmware)))
  || (st == .run && s.mode.mode == .service)
  || (s.mode.mode == .twinned && mask != 3)
  || (decide (st.code < 3) && (List.range 8).any (fun p => bitAt mask (chNum (chOfPart p)) && (s.part p).state != .empty))
  || (bitAt mask 1 && !s.id.twoCh)

/-- Whether a RUN at a speed point would raise the prediction above the budget (R103). -/
def State.powerTooMuch (s : State) (mask sp : Nat) : Bool :=
  let after := s.predAt (if bitAt mask 0 then sp else s.pwr.a.predSp) (if bitAt mask 1 then sp else s.pwr.b.predSp) / 1000000
  decide (s.budgetW < after) && decide (s.predW < after)

/-- POWER_STATE cause 1 for a channel, and the command's completion once no channel still walks for it (R402). -/
def State.powerReached (s : State) (c : Ch) (ring : RingNo) (tag : Tag) : State :=
  let s := s.modPw c fun p => { p with walk := none }
  let s := s.hostEvent 0xC005 [chNum c, (s.pw c).state.code, 1]
  let more := [Ch.a, Ch.b].any fun x => match (s.pw x).walk with
    | some w => w.ring == ring && w.tag == tag
    | none => false
  if more then s else s.completeTag ring tag .ok (detail [BitVec.ofNat 8 (s.pw c).state.code])

/-- Begin the walk of one channel (R402): a lowering from RUN asks the channel's designs to stop at their next commit (R307,
R80); a channel that stands at the target has reached it. -/
def State.beginWalk (s : State) (c : Ch) (w : Walk) : State :=
  let p := s.pw c
  if p.state = w.target ∧ (w.target ≠ .run ∨ p.sp = w.sp) then s.powerReached c w.ring w.tag
  else
    let s := s.modPw c fun p => { p with walk := some w }
    if p.state = .run ∧ w.target ≠ .run then
      s.designs.foldl (fun s d => if d.chans.contains c && d.state == .running then
        s.requestStop d { ring := 0, tag := 0, unload := false, answer := false } else s) s
    else s

/-- SET_POWER (R402, R403): refusals, then a walk for each channel named. It waits while a channel named is still changing. -/
def execSetPower (r : RingNo) (t : Tag) (s : State) : Host.Outcome State Fault Refusal :=
  .next (s.withCmd r t 0x03 fun s m =>
    let mask := m.desc.par 8 1
    let sp := m.desc.par 10 1
    match PState.ofCode (m.desc.par 9 1) with
    | none => s.complete m .refusedState 0
    | some st =>
      if (maskChs mask).any (fun c => (s.pw c).walk.isSome) then s
      else if s.powerRefused mask st then s.complete m .refusedState 0
      else if st = .run ∧ s.powerTooMuch mask sp then s.complete m .powerClass 0
      else
        let s := s.start m
        let w : Walk := { target := st, sp := sp, ring := r, tag := t }
        let s := (maskChs mask).foldl (fun s c => s.modPw c fun p => { p with walk := some w }) s
        (maskChs mask).foldl (fun s c => s.beginWalk c w) s)

/-! ### Partitions (R236, R302) -/

/-- Whether every partition of a mask exists on the module. -/
def State.partsExist (s : State) (mask : Nat) : Bool := s.id.twoCh || decide (mask < 16)

/-- ASSIGN (R236). -/
def execAssign (r : RingNo) (t : Tag) (s : State) : Host.Outcome State Fault Refusal :=
  .next (s.withCmd r t 0x04 fun s m =>
    let slot := m.desc.par 8 1
    let mask := m.desc.par 9 1
    let ok := (KV.get none slot s.sec.slots).isSome && s.partsExist mask && (maskParts mask).all (fun p =>
      (s.part p).state == .empty && ((s.part p).owner == 0 || (s.part p).owner == slot))
    if ok then (s.modParts (maskParts mask) fun p => { p with owner := slot }).complete m .ok 0
    else s.complete m .refusedState 0)

/-- RECLAIM (R236). -/
def execReclaim (r : RingNo) (t : Tag) (s : State) : Host.Outcome State Fault Refusal :=
  .next (s.withCmd r t 0x05 fun s m =>
    let mask := m.desc.par 9 1
    if s.partsExist mask && (maskParts mask).all (fun p => (s.part p).state == .empty) then
      (s.modParts (maskParts mask) fun p => { p with owner := 0 }).complete m .ok 0
    else s.complete m .refusedState 0)

/-! ### STOP and UNLOAD (R236, R307, R80) -/

/-- Carry out a STOP: nothing runs, or it takes effect at the next commit. -/
def State.doStop (s : State) (m : Cmd) : State :=
  match s.designAt m.desc.partition.toNat with
  | some d =>
    if d.state = .running ∨ d.state = .stopping then
      (s.start m).requestStop d { ring := m.ring, tag := m.desc.tag, unload := false, answer := true }
    else s.complete m .nothingToAbort 0
  | none => s.complete m .nothingToAbort 0

/-- Carry out an UNLOAD: EMPTY, a load in progress, a stopped design, or a running one at its next commit. -/
def State.doUnload (s : State) (m : Cmd) : State :=
  match s.loadAt m.desc.partition.toNat with
  | some l => (s.cancelLoad l .aborted).completeAt m .ok 0 0
  | none =>
    match s.designAt m.desc.partition.toNat with
    | none => s.completeAt m .nothingToAbort 0 0
    | some d =>
      if d.state = .running ∨ d.state = .stopping then
        (s.start m).requestStop d { ring := m.ring, tag := m.desc.tag, unload := true, answer := true }
      else (s.removeDesign d).completeAt m .ok (BitVec.ofNat 48 d.frame) 0

/-- STOP of the operator (R236). -/
def execOperatorStop (r : RingNo) (t : Tag) (s : State) : Host.Outcome State Fault Refusal :=
  .next (s.withCmd r t 0x06 State.doStop)
/-- UNLOAD of the operator (R236). -/
def execOperatorUnload (r : RingNo) (t : Tag) (s : State) : Host.Outcome State Fault Refusal :=
  .next (s.withCmd r t 0x07 State.doUnload)
/-- STOP of a tenant (R236). -/
def execTenantStop (r : RingNo) (t : Tag) (s : State) : Host.Outcome State Fault Refusal :=
  .next (s.withCmd r t 0x42 State.doStop)
/-- UNLOAD of a tenant (R236). -/
def execTenantUnload (r : RingNo) (t : Tag) (s : State) : Host.Outcome State Fault Refusal :=
  .next (s.withCmd r t 0x44 State.doUnload)

/-! ### RUN and STEP (R236, R307, R321) -/

/-- Whether a design may start: STOPPED, its state known, and every channel it runs in in RUN (R307, R137). -/
def State.canRun (s : State) (d : Design) : Bool :=
  d.state == .stopped && !d.badState &&
  d.chans.all (fun c => some c == d.fencedSide || (s.pw c).state == .run)

/-- Whether a MIRRORED member may start a design: only the primary, when the pair is paired or it stands alone (R321). -/
def State.pairMayRun (s : State) (d : Design) : Bool :=
  s.mode.mode != .mirrored ||
    (s.mode.primary && (s.mode.other == .lost || s.mode.other == .left || (s.mode.other == .paired && s.mode.descriptor == d.descriptor && s.mode.confirmed == BitVec.ofNat 48 d.frame)))

/-- Start a design for `n` frames, none for no end. -/
def State.startDesign (s : State) (d : Design) (m : Cmd) (n : Option Nat) (wait : Bool) : State :=
  let s := (s.start m).setDesignState d .running
  s.modDesign d.tag fun d => { d with run := some { ring := m.ring, tag := m.desc.tag, left := n, waitLaunch := wait } }

/-- RUN (R236, R307). -/
def execRun (r : RingNo) (t : Tag) (s : State) : Host.Outcome State Fault Refusal :=
  .next (s.withCmd r t 0x41 fun s m =>
    match s.designAt m.desc.partition.toNat with
    | none => s.complete m .refusedState 0
    | some d =>
      if s.canRun d && s.pairMayRun d then
        s.startDesign d m (if m.desc.par 8 6 = 0 then none else some (m.desc.par 8 6)) (bitAt (m.desc.par 16 1) 0)
      else s.complete m .refusedState 0)

/-- STEP (R236, R307, R311): one frame, DEBUG only. -/
def execStep (r : RingNo) (t : Tag) (s : State) : Host.Outcome State Fault Refusal :=
  .next (s.withCmd r t 0x43 fun s m =>
    if (s.loadAt m.desc.partition.toNat).isSome then s.complete m .nothingToAbort 0
    else match s.designAt m.desc.partition.toNat with
      | none => s.complete m .refusedState 0
      | some d =>
        if s.mode.mode.isDebug && s.canRun d then s.startDesign d m (some 1) false
        else s.complete m .refusedState 0)

/-! ### STATS and MARCH_OK (R180, R135) -/

/-- Physical Cabinet of a logical Cabinet, with its channel and die (R24). -/
def State.physOf (s : State) (l : Nat) : Option (Ch × Nat × Nat) :=
  ((s.die (chOfCab l) (dieOfCab l)).phys (l % 32)).map (fun i => (chOfCab l, dieOfCab l, i))

/-- Router node of a physical Cabinet: 9 × row + column, spares in column 8 (R168, R24). -/
def nodeOfPhys (i : Nat) : Nat := if i < 32 then 9 * (i / 8) + i % 8 else 9 * (i - 31) + 8

/-- The counters that STATS gives of an initiator (R179, R180): the bytes injected and the histogram selected. -/
def InitStat.counters (x : InitStat) (hist : Bool) : List Nat := x.bytes :: (List.range 16).map (fun k => KV.get 0 k (if hist then x.value else x.mem))

/-- The conflict counters and the undo-log peak of a physical Cabinet (R128, R180). -/
def State.bankCounters (s : State) (c : Ch) (die i : Nat) : List Nat :=
  (List.range 6).flatMap (fun m => [(s.reg .cmemConflictLo c [die, i, m]).toNat, (s.reg .cmemConflictHi c [die, i, m]).toNat]) ++
    [(s.reg .cmemUndoPeak c [die, i]).toNat]

/-- Whether a node of a hub is an initiator with counters (R179): a message engine, the Sideboard or the Velvin Link unit. -/
def hubInitiator (node : Nat) : Bool := (decide (1 ≤ node) && decide (node ≤ 19)) || node == 22

/-- What STATS reads for a selection, coded as VF_STAT_SEL (R180, R236): the counters of a Cabinet of the design with its conflict counters and
undo-log peak, or those of an initiator of the hub; none where the selection names neither. -/
def State.statsOf (s : State) (d : Design) (c : Ch) (sel : Nat) : Option (List Nat) :=
  let node := field sel 0 6
  let die := field sel 6 1
  match field sel 7 2 with
  | 0 => (d.span.findSome? (fun l => match s.physOf l with
      | some (ch, x, i) => if ch = c ∧ x = die ∧ nodeOfPhys i = node then some i else none
      | none => none)).map (fun i => (KV.get {} (64 * die + node) (s.ch c).fab.stats).counters (bitAt sel 9) ++ s.bankCounters c die i)
  | 1 => if hubInitiator node then some ((KV.get {} (128 + node) (s.ch c).fab.stats).counters (bitAt sel 9)) else none
  | _ => none

/-- STATS (R236, R180, R277): the counters that a selection names, sealed under the session key. The manual gives the result no layout, so how
the counters stand in it is Config's (log entry 4). -/
def execStats (r : RingNo) (t : Tag) (s : State) : Host.Outcome State Fault Refusal :=
  .next (s.withCmd r t 0x45 fun s m =>
    let sel := m.desc.par 16 2
    match s.designAt m.desc.partition.toNat, m.key 0x0A 0 with
    | some d, some k => match s.statsOf d (chOfPart m.desc.partition.toNat) sel with
      | some l =>
        let iv := m.iv 0x84
        let ct := gcmSeal k.material iv ((Config.statsLayout l ++ List.replicate 4080 0).take 4080)
        (s.hostWrite (m.desc.par 8 8) (ct ++ leBytes 16 (Config.gcmTag k.material iv [] ct).toNat)).complete m .ok 0
      | none => s.complete m .refusedState 0
    | _, _ => s.complete m .refusedState 0)

/-- MARCH_OK (R135 item 4, R236, R270): a PRESERVING run on every Cabinet of the tenant's stopped design; it completes when the
last run ends (MARCH_DONE). -/
def execMarchOk (r : RingNo) (t : Tag) (s : State) : Host.Outcome State Fault Refusal :=
  .next (s.withCmd r t 0x46 fun s m =>
    match s.designAt m.desc.partition.toNat with
    | none => s.complete m .refusedState 0
    | some d =>
      let ok := d.state == .stopped && (s.sec.lifecycle == .field || s.sec.lifecycle == .returned) &&
        d.chans.all (fun c => (s.pw c).state.arrayOn) &&
        d.span.all (fun l => match s.physOf l with
          | some (c, die, i) => (s.cab c die i).march.isNone
          | none => false)
      if ok then
        d.span.foldl (fun s l => match s.physOf l with
          | some (c, die, i) => s.modCab c die i fun p => { p with march := some { run := 1, design := some d.tag } }
          | none => s) ((s.start m).modDesign d.tag fun d => { d with marched := false })
      else s.complete m .refusedState 0)

end Sys2Proof.Machine
end

