-- ==== Sys2Proof/Machine/Fabric.lean ====
section
/-! DEFINITION. The packets of Velvin Fabric (07_velvin_fabric.md): flits and heads (R168, R169), places and links (R162, R175), routing (R164),
isolation (R165), virtual channels and credits (R166), arbitration by urgency (R170), the sender of a link (R172, R176, R177), and what a packet
does where it lands (R126, R128, R130, R131). -/

namespace Sys2Proof.Machine

open Sys2Proof

/-! ### Flits and packets (R168, R169) -/

/-- A flit with its CRC: bits [223:0] of a number, CRC-32C over them in [255:224] (R168). -/
def mkFlit (w : Nat) : BitVec 256 :=
  BitVec.ofNat 256 (w % 2 ^ 224 + 2 ^ 224 * (crc32c (leBytes 28 (w % 2 ^ 224))).toNat)

/-- Whether the CRC of a flit is good (R168). -/
def flitCrcOk (flit : BitVec 256) : Bool :=
  flit.toNat / 2 ^ 224 == (crc32c (leBytes 28 (flit.toNat % 2 ^ 224))).toNat

/-- A head flit (R168). -/
def headFlit (cls body resp dest src tag word payload : Nat) : BitVec 256 :=
  mkFlit (cls + 2 ^ 3 * body + 2 ^ 15 * resp + 2 ^ 16 * dest + 2 ^ 32 * src + 2 ^ 48 * tag + 2 ^ 64 * word + 2 ^ 96 * payload)

/-- The head of a packet with its AGE, and a new CRC (R170, R171). -/
def setAge (flit : BitVec 256) (age : Nat) : BitVec 256 :=
  let w := flit.toNat % 2 ^ 224
  mkFlit (w - 2 ^ 8 * field w 8 7 + 2 ^ 8 * (age % 128))

/-- DEST or SRC of a node (R168): channel, die (2 the hub, 3 the host die), node. -/
def fabAddr (c : Ch) (die node : Nat) : Nat := chNum c + 2 * die + 8 * node

/-- DEST or SRC of a logical Cabinet, through the route table (R163). -/
def State.cabAddr (s : State) (l : Nat) : Nat :=
  match s.physOf l with
  | some (c, die, i) => fabAddr c die (nodeOfPhys i)
  | none => fabAddr (chOfCab l) (dieOfCab l) (nodeOfPhys (l % 32))

/-- A VALUE packet (R169): `index` is the link slot or guest group where a hub is its destination. ATTEMPT holds the attempt modulo 4. -/
def valuePacket (dest src tag step group attempt frame index values : Nat) : List (BitVec 256) :=
  [headFlit 0 0 0 dest src tag
    (step % 2 ^ 11 + 2 ^ 11 * (group % 4) + 2 ^ 13 * (attempt % 4) + 2 ^ 15 * (frame % 2 ^ 8) + 2 ^ 23 * (index % 2 ^ 9)) (values % 2 ^ 16)]

/-- Body flits of data words, three to each (R169). -/
def wordFlits : Nat → List Word64 → List (BitVec 256)
  | 0, _ => []
  | n + 1, l => if l.isEmpty then [] else mkFlit (leNat ((l.take 3).flatMap (fun v => leBytes 8 v.toNat))) :: wordFlits n (l.drop 3)

/-- A MEM packet (R169), of `count` words; a request to HBM or a response of it carries the payload of SPACE 1. -/
def memPacket (resp dest src tag op space status num count payload : Nat) (data : List Word64) : List (BitVec 256) :=
  let body := wordFlits 16 data
  headFlit 1 body.length resp dest src tag
    (op % 16 + 2 ^ 4 * space + 2 ^ 5 * (status % 4) + 2 ^ 7 * (num % 2 ^ 12) + 2 ^ 19 * ((count - 1) % 64)) payload :: body

/-- The payload of a MEM packet to or from HBM (R169). -/
def hbmPayload (addr size lbo attempt frame : Nat) : Nat :=
  addr % 2 ^ 35 + 2 ^ 35 * (size % 8) + 2 ^ 38 * (lbo % 2 ^ 11) + 2 ^ 49 * (attempt % 4) + 2 ^ 51 * (frame % 2 ^ 8)

/-- Body flits of bytes, 28 to each (R169). -/
def byteFlits : Nat → List Byte → List (BitVec 256)
  | 0, _ => []
  | n + 1, l => if l.isEmpty then [] else mkFlit (leNat (l.take 28)) :: byteFlits n (l.drop 28)

/-- The MSG packets of a message (R169): at most 464 bytes each, 16 in the head, SEG from 0. -/
def msgPackets (dest src tag port : Nat) (data : List Byte) : List (List (BitVec 256)) :=
  let n := max 1 ((data.length + 463) / 464)
  (List.range n).map fun k =>
    let part := (data.drop (464 * k)).take 464
    let body := byteFlits 16 (part.drop 16)
    headFlit 3 body.length 0 dest src tag (port % 2 ^ 8 + 2 ^ 8 * bit01 (k + 1 == n) + 2 ^ 9 * k + 2 ^ 18 * part.length) (leNat (part.take 16)) :: body

/-- Bits of the class word and the head payload that carry fields, by class (R169); CTRL, MSG, CAPTURE and TRACE use the whole head payload.
The layout of a lane map, a LINK flit with CODE 0x02, is not stated. -/
def headUsed (w : Nat) : Nat :=
  let all := (2 ^ 128 - 1) * 2 ^ 96
  match field w 0 3 with
  | 0 => (2 ^ 23 - 1) * 2 ^ 64 + (if field w 17 2 = 2 then (2 ^ 9 - 1) * 2 ^ 87 else 0) + (2 ^ 16 - 1) * 2 ^ 96
  | 1 => (2 ^ 25 - 1) * 2 ^ 64 + (if bitAt w 68 then (2 ^ 59 - 1) * 2 ^ 96 else (2 ^ 17 - 1) * 2 ^ 96)
  | 2 => (2 ^ 32 - 1) * 2 ^ 64 + all
  | 3 => (2 ^ 27 - 1) * 2 ^ 64 + all
  | 4 | 5 => (2 ^ 25 - 1) * 2 ^ 64 + all
  | 7 => (2 ^ 8 - 1) * 2 ^ 64 + (if field w 64 8 = 1 then (2 ^ 32 - 1) * 2 ^ 96 else all)
  | _ => 0

/-- Whether a DEST or SRC names a node that exists (R168): 36 on an array die, 25 on a hub, the bridge on the host die. -/
def nodeOk (a : Nat) : Bool :=
  let n := field a 3 6
  match field a 1 2 with
  | 0 | 1 => decide (n < 36)
  | 2 => decide (n < 25)
  | _ => n == 0

/-- Whether a head is malformed (R169): a reserved CLASS or CODE, BODY above 16 or not 0 where the class has none, RESP without MEM, a STATUS,
COUNT, BYTES or node that is reserved, or a reserved field that is not 0. -/
def headBad (w : Nat) : Bool :=
  let cls := field w 0 3
  cls == 6 || decide (16 < field w 3 5) || ((cls == 0 || cls == 7) && field w 3 5 != 0) || (cls != 1 && bitAt w 15) ||
  field w 25 7 != 0 || field w 41 7 != 0 || field w 56 8 != 0 ||
  (cls == 1 && (field w 69 2 == 3 || decide (47 < field w 83 6))) || (cls == 3 && (field w 82 9 == 0 || decide (464 < field w 82 9))) ||
  (cls == 7 && field w 64 8 != 1 && field w 64 8 != 2) || (cls != 7 && (!nodeOk (field w 16 9) || !nodeOk (field w 32 9))) ||
  (w / 2 ^ 64 % 2 ^ 160 * 2 ^ 64) &&& headUsed w != (w / 2 ^ 64 % 2 ^ 160 * 2 ^ 64)

/-- Whether a body flit has a reserved bit that is not 0 (R169): bits [223:192] of a MEM packet's. -/
def bodyBad (cls w : Nat) : Bool := cls == 1 && field w 192 32 != 0

/-- Base urgency of a class (R170). A LINK flit is not routed. -/
def classBase (cls : Nat) : Nat := ([80, 64, 112, 32, 32, 0] : List Nat).getD cls 0

/-! ### Places and links (R162, R175) -/

/-- A position of the fabric that receives flits: a hub crossbar, the router of a node on array die 0 or 1, or the host die's bridge. -/
inductive Place where
  | hub
  | router (die node : Nat)
  | bridge
  deriving DecidableEq, Repr

/-- Row of a node. -/
def nodeRow (n : Nat) : Nat := n / 9
/-- Column of a node. -/
def nodeCol (n : Nat) : Nat := n % 9

/-- The neighbour of a node in a direction: 0 east, 1 west, 2 south, 3 north. -/
def neighbour (node dir : Nat) : Nat :=
  match dir with
  | 0 => node + 1
  | 1 => node - 1
  | 2 => node + 9
  | _ => node - 9

/-- Whether a node has a neighbour in a direction (R162). -/
def hasNeighbour (node dir : Nat) : Bool :=
  match dir with
  | 0 => decide (nodeCol node < 8)
  | 1 => decide (0 < nodeCol node)
  | 2 => decide (nodeRow node < 3)
  | _ => decide (0 < nodeRow node)

/-- Node of a die at which a hub port stands (R162). -/
def hubPortNode (k : Nat) : Nat := ([2, 5, 29, 32] : List Nat).getD k 2

/-- Whether a number names the end of a link of a channel. Ends 0 to 7 are the hub's of the hub ports, 8 and 9 the second array die's of the
sibling links, 10 and 11 the hub's of the host-die link and the guest port (VF_PORT_REPAIR); 12 + 256 × die + 4 × node + direction is a node's
of the mesh link to its neighbour; 524 to 534 are the far ends of links 0 to 10, on an array die or the host die (log entry 14). -/
def endOk (e : Nat) : Bool :=
  decide (e < 12) || (decide (524 ≤ e) && decide (e ≤ 534)) ||
  (decide (e < 524) && decide ((e - 12) % 256 / 4 < 36) && hasNeighbour ((e - 12) % 256 / 4) ((e - 12) % 4))

/-- Whether an end is of a mesh link. -/
def isMesh (e : Nat) : Bool := decide (12 ≤ e) && decide (e < 524)

/-- The other end of a link; none for the guest port, whose far end lies outside the module. -/
def peerEnd (e : Nat) : Option Nat :=
  if e < 11 then some (524 + e)
  else if e = 11 then none
  else if e < 524 then
    let node := (e - 12) % 256 / 4
    let dir := (e - 12) % 4
    some (12 + 256 * ((e - 12) / 256) + 4 * neighbour node dir + (if dir % 2 = 0 then dir + 1 else dir - 1))
  else some (e - 524)

/-- Where an end of a link stands. -/
def endPlace (e : Nat) : Place :=
  if e = 8 then .router 1 9 else if e = 9 then .router 1 18
  else if e < 12 then .hub
  else if e < 524 then .router ((e - 12) / 256) ((e - 12) % 256 / 4)
  else if e < 532 then .router ((e - 524) / 4) (hubPortNode ((e - 524) % 4))
  else if e = 532 then .router 0 9 else if e = 533 then .router 0 18 else .bridge

/-- The port of an end, as VF_PORT_REPAIR numbers it; 0xFF for a mesh link. -/
def endPort (e : Nat) : Nat := if e < 12 then e else if e < 524 then 0xFF else e - 524

/-- Whether the logic behind an end is clockless or on the host die, so that an asynchronous bridge joins it to the port (R174). -/
def bridged (e : Nat) : Bool := e == 8 || e == 9 || decide (524 ≤ e)

/-- Whether an end lies on an array die. -/
def onArray (e : Nat) : Bool := e == 8 || e == 9 || isMesh e || (decide (524 ≤ e) && decide (e < 534))

/-- The group of a wire of a link: 16 lanes of a die-to-die port, 8 groups on the host-die link of half width, 32 wires of a mesh link
(R175, R178). Wires from 256 on (128 on the host-die link) are the spares, one for each group. -/
def wireGroup (link wire : Nat) : Nat :=
  let n := if endPort link = 10 then 128 else 256
  if n ≤ wire then wire - n else if isMesh link then wire / 32 else wire / 16

/-- Groups of a link. -/
def wireGroups (link : Nat) : Nat := if isMesh link || endPort link == 10 then 8 else 16

/-- The die of a mesh link. Mesh links are numbered 12 + 256 × die + 4 × node + direction (log entry 14). -/
def meshDie (link : Nat) : Nat := (link - 12) / 256

/-- The partitions of a die whose rows hold a mesh link (R345): both for a link between rows 1 and 2. Directions 0 and 1 run along a row,
2 to the next row, 3 to the row before. -/
def meshParts (link : Nat) : List Nat :=
  let row := (link - 12) % 256 / 4 / 9
  match link % 4, row with
  | 2, 1 | 3, 2 => [0, 1]
  | _, r => [r / 2]

/-- An end of a link of the fabric. -/
def State.flink (s : State) (c : Ch) (link : Nat) : FLink := KV.get {} link (s.ch c).fab.links

/-- Update an end of a link of the fabric. -/
def State.modFlink (s : State) (c : Ch) (link : Nat) (f : FLink → FLink) : State :=
  s.modFab c fun x => { x with links := KV.upd {} link f x.links }

/-! ### Routing (R162, R164) -/

/-- The partition of a die, 0 or 1, at whose row a node counts (R164): a spare counts at the row of the partition that it serves. -/
def State.nodePart (s : State) (c : Ch) (die node : Nat) : Nat :=
  if node = 17 ∨ node = 26 then
    match s.logicalOf c die (if node = 17 then 32 else 33) with
    | some l => partOfCab l % 2
    | none => nodeRow node / 2
  else nodeRow node / 2

/-- The hub port of a die, 0 to 3, that R162 assigns to an entry position; where it has failed, the partition's other one (R173). -/
def State.hubPort (s : State) (c : Ch) (die node : Nat) : Nat :=
  let p := s.nodePart c die node
  let k := 2 * p + (if nodeCol node ≤ 3 then 0 else 1)
  if (s.flink c (4 * die + k)).failed then (if k % 2 = 0 then k + 1 else k - 1) else k

/-- The next direction on a die towards a node: row first from columns 0 to 7, column first for a packet that entered in column 8
(R164); 4 at the node itself. -/
def meshStep (here to' : Nat) (colFirst : Bool) : Nat :=
  let dc := if nodeCol here < nodeCol to' then 0 else if nodeCol to' < nodeCol here then 1 else 4
  let dr := if nodeRow here < nodeRow to' then 2 else if nodeRow to' < nodeRow here then 3 else 4
  if colFirst then (if dr = 4 then dc else dr) else if dc = 4 then dr else dc

/-- Number of the output that leads to the Cabinet of a node. Outputs below 1,024 are the ends of the links that they feed. -/
def cabOut (die node : Nat) : Nat := 1024 + 64 * die + node
/-- Number of the output that leads to a unit of the hub, and of the input that comes from it. -/
def unitOut (node : Nat) : Nat := 2048 + node
/-- Number of the output of the bridge to the other channel. -/
def acrossOut : Nat := 4096

/-- Whether a packet entered the mesh of a die in column 8 (R164, R166): its source is a Cabinet there. -/
def colFirst (c : Ch) (die w : Nat) : Bool :=
  chOf (field w 32 1) == c && field w 33 2 == die && nodeCol (field w 35 6) == 8

/-- The output that the head of a packet asks for at a place (R164). -/
def State.outOf (s : State) (c : Ch) (pl : Place) (w : Nat) : Nat :=
  let dch := chOf (field w 16 1)
  let ddie := field w 17 2
  let dnode := field w 19 6
  match pl with
  | .hub =>
    if dch ≠ c ∨ ddie = 3 then 10
    else if ddie = 2 then (if dnode = 24 then 10 else unitOut dnode)
    else 4 * ddie + s.hubPort c ddie dnode
  | .bridge => if ddie = 3 then unitOut 63 else if dch = c then 534 else acrossOut
  | .router die here =>
    let own := chOf (field w 32 1) = c ∧ field w 33 2 = die
    let entry := if own then field w 35 6 else here
    let go := fun (to' out : Nat) =>
      let d := meshStep here to' (colFirst c die w)
      if d = 4 then out else 12 + 256 * die + 4 * here + d
    if dch = c ∧ ddie = die then go dnode (cabOut die here)
    else
      let dp := s.nodePart c ddie dnode
      if dch = c ∧ ddie < 2 ∧ decide own ∧ s.nodePart c die (field w 35 6) = dp ∧ !(s.flink c (8 + dp)).failed then
        go (if dp = 0 then 9 else 18) (if die = 1 then 8 + dp else 532 + dp)
      else
        let k := s.hubPort c die entry
        go (hubPortNode k) (524 + 4 * die + k)

/-- The virtual channel of a packet at a place (R166): responses apart from requests, and on an array die those that entered in column 8
apart from the rest. -/
def vcOf (c : Ch) (pl : Place) (w : Nat) : Nat :=
  bit01 (bitAt w 15) + (match pl with
    | .router die _ => if colFirst c die w then 2 else 0
    | _ => 0)

/-! ### Isolation (R165) -/

/-- Tag of the loaded design that a router belongs to: its partition's (R302); none for spine routers and unowned ones. -/
def State.routerTag (s : State) (c : Ch) (die node : Nat) : Option Nat :=
  if nodeCol node = 8 then none else (s.designAt (4 * chNum c + 2 * die + nodeRow node / 2)).map (·.tag)

/-- Physical Cabinet of a node. -/
def physOfNode (node : Nat) : Option Nat :=
  if nodeCol node < 8 then some (8 * nodeRow node + nodeCol node) else if node = 17 then some 32 else if node = 26 then some 33 else none

/-- The design that owns the Cabinet at a node, a spare Cabinet included, with the logical Cabinet. -/
def State.cabAtNode (s : State) (c : Ch) (die node : Nat) : Option (Design × Nat) :=
  match (physOfNode node).bind (s.logicalOf c die) with
  | some l => (s.designs.find? (fun x => x.allCabs.contains l)).map (fun d => (d, l))
  | none => none

/-- Whether a router may forward a packet, and deliver it to its own Cabinet (R165). -/
def State.fabTagOk (s : State) (c : Ch) (pl : Place) (w : Nat) : Bool :=
  match pl with
  | .router die node =>
    let tag := field w 48 8
    let forward := tag == 0 || (match s.routerTag c die node with
      | some t => t == tag
      | none => true)
    let here := chOf (field w 16 1) == c && field w 17 2 == die && field w 19 6 == node
    let deliver := if tag = 0 then field w 33 2 == 2 else (s.cabAtNode c die node).map (·.1.tag) == some tag
    if here then deliver else forward
  | _ => true

/-! ### The sender of a link (R166, R172, R176, R177) -/

/-- Flits that a virtual channel buffers at an input, those of a bridge's FIFO (R166, R174; DESIGN CHOICE, log entry 32). -/
def vcRoom : Nat := 32

/-- The most flits that an end has unacknowledged (R172). -/
def linkWindow (e : Nat) : Nat := if isMesh e then 16 else 63

/-- A sideband word (R176): VALID and SEQ of a flit sent, the last flit received in order, NAK, odd parity. -/
def sideWord (x : FLink) (valid : Bool) (seq : Nat) : BitVec 16 :=
  let w := bit01 valid + 2 * seq + 2 ^ 7 + 2 ^ 8 * ((x.next + 63) % 64) + 2 ^ 14 * bit01 x.nak
  let odd := ((List.range 15).map (fun i => bit01 (bitAt w i))).sum % 2
  BitVec.ofNat 16 (w + 2 ^ 15 * (1 - odd))

/-- Send a flit with the next sequence number; it stays in the replay buffer until it is acknowledged (R172). -/
def FLink.emit (x : FLink) (t : TxFlit) : FLink :=
  { x with
    seq := (x.seq + 1) % 64, replay := x.replay ++ [t], sent := x.sent ++ [(sideWord x true x.seq, t.flit)],
    used := if t.vc < 4 then KV.upd 0 t.vc (· + 1) x.used else x.used, mid := if t.vc < 4 then !t.last else x.mid }

/-- Send a unit interval without a flit: an acknowledgement, or a NAK (R172, R176). -/
def FLink.reply (x : FLink) : FLink := { x with sent := x.sent ++ [(sideWord x false 0, 0)] }

/-- The LINK flit that returns the credits owed (R169). -/
def creditFlit (owed : KV Nat) : BitVec 256 :=
  headFlit 7 0 0 0 0 0 1 (((List.range 4).map (fun v => 2 ^ (8 * v) * min 255 (KV.get 0 v owed))).sum)

/-- Send what an end may send (R166, R172): credits owed, between packets, then the flits that wait, while the window has room and the far
buffer of their virtual channel credits. During a check, and after a failure, nothing. `n` bounds the flits. -/
def FLink.push (win : Nat) (x : FLink) : Nat → FLink
  | 0 => x
  | n + 1 =>
    if x.failed ∨ x.check ≠ 0 ∨ win ≤ x.replay.length then x
    else if x.owed ≠ [] ∧ x.mid = false then
      ({ x with owed := [] }.emit { vc := 4, tag := 0, flit := creditFlit x.owed, last := true }).push win n
    else match x.queue with
      | [] => x
      | t :: q =>
        if 4 ≤ t.vc ∨ KV.get 0 t.vc x.used < vcRoom then ({ x with queue := q }.emit t).push win n else x

/-- Flits of the replay buffer that an acknowledgement ends (R172): all up to ACKSEQ, where ACKSEQ names one of them or the one before. -/
def FLink.acks (x : FLink) (ackSeq : Nat) : Nat :=
  let n := (ackSeq + 1 + 128 - (x.seq + 64 - x.replay.length % 64) % 64) % 64
  if n ≤ x.replay.length then n else 0

/-- Take an acknowledgement, and on NAK send again every flit after it (R172, R176). -/
def FLink.acked (x : FLink) (ackSeq : Nat) (nak : Bool) : FLink :=
  let x := { x with replay := x.replay.drop (x.acks ackSeq), mapAcked := x.mapAcked || x.check == 2 }
  if nak then
    let first := (x.seq + 64 - x.replay.length % 64) % 64
    { x with sent := x.sent ++ (x.replay.zip (List.range x.replay.length)).map (fun e => (sideWord x true ((first + e.2) % 64), e.1.flit)) }
  else x

/-! ### Arbitration and movement (R166, R170) -/

/-- Rank of a head for a grant: overdue before all, then urgency. -/
def Flow.rank (h : Flow) : Nat := if h.age = 127 then 1024 else h.base + h.age

/-- Distance of an input behind the input last granted, for the round robin. -/
def turn (last input : Nat) : Nat := if last < input then input - last else input + 8192 - last

/-- Whether a packet is the first of its input and virtual channel. -/
def firstFlow (l : List Flow) (k : Nat) (x : Flow) : Bool := !(l.take k).any (fun y => y.input == x.input && y.vc == x.vc)

/-- The packets that compete for an output, by their places in the list: the first of each input and virtual channel, none granted yet. -/
def competing (l : List Flow) (out : Nat) : List (Nat × Flow) :=
  ((List.range l.length).zip l).filter (fun e => e.2.out == out && !e.2.granted && firstFlow l e.1 e.2)

/-- The packet that wins an output (R170): an overdue one, then the highest urgency, then the next input in turn. -/
def winner (last : Nat) (l : List (Nat × Flow)) : Option (Nat × Flow) :=
  l.foldl (fun (b : Option (Nat × Flow)) h => match b with
    | none => some h
    | some x => if x.2.rank < h.2.rank ∨ (x.2.rank = h.2.rank ∧ turn last h.2.input < turn last x.2.input) then some h else some x) none

/-- Grant a free output (R170): the winner holds it, every head that competes and loses ages by 1, up to 127. -/
def FabSt.grant (f : FabSt) (out : Nat) : FabSt :=
  let cs := competing f.flows out
  match winner (KV.get 0 out f.lastIn) cs with
  | none => f
  | some w =>
    { f with
      lastIn := KV.put 0 out w.2.input f.lastIn
      flows := ((List.range f.flows.length).zip f.flows).map fun e =>
        if e.1 = w.1 then { e.2 with granted := true }
        else if cs.any (fun k => k.1 == e.1) then { e.2 with age := min 127 (e.2.age + 1) } else e.2 }

/-- Flits of a group of virtual channels in a list: requests, or responses (R174). -/
def groupCount (l : List TxFlit) (vc : Nat) : Nat := (l.filter (fun t => t.vc < 4 && t.vc % 2 == vc % 2)).length

/-- Whether an output can take a flit of a virtual channel: a bridge has a FIFO of 32 flits for each group (R174), any other sender takes one
at a time; a Cabinet or unit of the hub takes what comes. -/
def FabSt.room (f : FabSt) (out vc : Nat) : Bool :=
  if out = acrossOut then decide (groupCount f.across vc < 32)
  else if 1024 ≤ out then true
  else
    let x := KV.get {} out f.links
    !x.failed && (if bridged out then decide (groupCount x.queue vc < 32) else x.queue.isEmpty)

/-- Whether packet `k` of the inputs can pass a flit now. A packet for a Cabinet or a unit of the hub passes as a whole. -/
def FabSt.canPass (f : FabSt) (x : Flow) : Bool :=
  x.granted && !x.flits.isEmpty && f.room x.out x.vc && (decide (x.out < 1024) || x.out == acrossOut || x.left == 0)

/-- Give credits back for flits that have left the buffer of an input (R166). -/
def FabSt.owe (f : FabSt) (input vc n : Nat) : FabSt :=
  if input < 1024 ∧ input ≠ 11 then { f with links := KV.upd {} input (fun x => { x with owed := KV.upd 0 vc (· + n) x.owed }) f.links } else f

/-- Pass the flits of packet `k` that may pass: one on a link or the bridge, all where it lands. A head passes with its AGE (R170). -/
def FabSt.pass (f : FabSt) (k : Nat) (x : Flow) : FabSt :=
  let fl := match x.flits with
    | [] => []
    | w :: ws => if x.begun then w :: ws else setAge w x.age :: ws
  if 1024 ≤ x.out ∧ x.out ≠ acrossOut then
    ({ f with flows := f.flows.eraseIdx k, landed := f.landed ++ [(x.out, fl)] }).owe x.input x.vc fl.length
  else match fl with
    | [] => f
    | w :: ws =>
      let last := ws.isEmpty && x.left == 0
      let y := { x with flits := ws, begun := true }
      let f := ({ f with flows := if last then f.flows.eraseIdx k else f.flows.set k y }).owe x.input x.vc 1
      let t : TxFlit := { vc := x.vc % 4, tag := x.tag, flit := w, last := last }
      if x.out = acrossOut then { f with across := f.across ++ [t] }
      else { f with links := KV.upd {} x.out (fun z => ({ z with queue := z.queue ++ [t] }).push (linkWindow x.out) (z.queue.length + 2)) f.links }

/-- One move of the fabric: a flit passes, or a free output is granted, or credits go back; none when nothing can move. -/
def FabSt.move (f : FabSt) : Option FabSt :=
  match ((List.range f.flows.length).zip f.flows).find? (fun e => f.canPass e.2) with
  | some e => some (f.pass e.1 e.2)
  | none =>
    match ((List.range f.flows.length).zip f.flows).find? (fun e =>
      !e.2.granted && firstFlow f.flows e.1 e.2 && !f.flows.any (fun y => y.granted && y.out == e.2.out)) with
    | some e => some (f.grant e.2.out)
    | none => none

/-- Let an end send what it may. -/
def FabSt.pushEnd (f : FabSt) (e : Nat) : FabSt :=
  { f with links := KV.upd {} e (fun x => x.push (linkWindow e) (x.queue.length + 2)) f.links }

/-- Let every end that owes credits or holds waiting flits send what it may. -/
def FabSt.pushAll (f : FabSt) : FabSt :=
  (f.links.filter (fun e => e.2.owed != [] || !e.2.queue.isEmpty)).foldl (fun f e => f.pushEnd e.1) f

/-- Move until nothing can move, `n` moves at most; then return credits. -/
def FabSt.pump (f : FabSt) : Nat → FabSt
  | 0 => f.pushAll
  | n + 1 => match f.move with
    | some g => g.pump n
    | none => f.pushAll

/-- Moves that bring a fabric to rest: a grant for each packet and a pass for each flit. -/
def FabSt.work (f : FabSt) : Nat := f.flows.length + (f.flows.map (fun x => x.flits.length)).sum

/-! ### Counters (R179) -/

/-- Update the counters of a fabric initiator (R179): 64 × die + node for a Cabinet, 128 + node for a hub initiator. -/
def State.modStat (s : State) (c : Ch) (i : Nat) (f : InitStat → InitStat) : State :=
  s.modFab c fun x => { x with stats := KV.upd {} i f x.stats }

/-- Count bytes that an initiator injects into the fabric (R179). -/
def State.injected (s : State) (c : Ch) (i n : Nat) : State := s.modStat c i fun x => { x with bytes := (x.bytes + n) % 2 ^ 64 }

/-! ### Entering and landing -/

/-- A packet at an input of a place: where the tag rules forbid it, it is discarded, counted and logged (R165); otherwise it waits for its
output. `left` of its body flits are still to come. -/
def State.enter (s : State) (c : Ch) (pl : Place) (input : Nat) (flits : List (BitVec 256)) (left : Nat) : State :=
  match flits with
  | [] => s
  | h :: _ =>
    let w := h.toNat
    if s.fabTagOk c pl w = false then
      match pl with
      | .router die node =>
        let s := (s.count .vfIsolationDrops c []).hubEvent c 0x3001 [chNum c, die, node]
        (s.modFab c fun f => f.owe input (vcOf c pl w) 1).modFlink c input fun x => if input < 1024 then { x with drop := left } else x
      | _ => s
    else
      let x : Flow := { input := input, vc := vcOf c pl w, out := s.outOf c pl w, tag := field w 48 8, base := classBase (field w 0 3),
                        age := field w 8 7, flits := flits, left := left }
      s.modFab c fun f => { f with flows := f.flows ++ [x] }

/-- Words of the body flits of a MEM packet. -/
def bodyWords (flits : List (BitVec 256)) : List Word64 :=
  flits.flatMap (fun f => (List.range 3).map (fun k => BitVec.ofNat 64 (field f.toNat (64 * k) 64)))

/-- Requests of a master at the banks of a Cabinet (R128): at a single-port bank the first waits for the bank cycles of the memory-op
accesses outstanding there, 32 at most; port B of banks 14 and 15 makes none wait (R125). A request counts at most one stalled attempt for
each bank (DESIGN CHOICE, log entry 30). `master` is 4 for the fabric and 5 for the engines. -/
def State.bankRequests (s : State) (d : Design) (cab master : Nat) (words : List Nat) : State :=
  match s.physOf cab with
  | none => s
  | some (c, die, i) => ((words.map (· / 8192)).eraseDups.filter (fun b => decide (b < 14))).foldl (fun s b =>
      let wait := min 32 ((d.rets.filter (fun r => r.cab == cab && r.addr / 8192 == b)).map (fun r => if r.op = 3 ∨ r.op = 4 then 2 else 1)).sum
      if wait = 0 then s
      else (s.count .cmemConflictLo c [die, i, master]).countBy .cmemConflictHi c [die, i, master] wait) s

/-- Whether a march runs on a Cabinet (R135). -/
def State.marching (s : State) (cab : Nat) : Bool :=
  match s.physOf cab with
  | some (c, die, i) => (s.cab c die i).march.isSome
  | none => false

/-- What a MEM request of the fabric does at a bank (R126, R130, R131): READ gives the words, READ_COMMITTED those of the last commit, WRITE
stores while the span is held or stopped; any other code is refused. The result is STATUS and the words returned. -/
def State.fabBank (s : State) (d : Design) (l op addr count : Nat) (data : List Word64) : State × Nat × List Word64 :=
  let x := d.cab l
  let s := s.bankRequests d l 4 ((List.range count).map (fun i => (addr + i) % 2 ^ 17))
  let words := fun (m : KV Word64) => (List.range count).map (fun i => KV.get 0 ((addr + i) % 2 ^ 17) m)
  if op = 0 then (s, 0, words x.mem)
  else if op = 4 then (s, 0, words (undoMem x.mem x.undo))
  else if op = 1 ∧ !(d.runs && !(d.tr (d.sideOf (chOfCab l))).held) then
    (s.modDesign d.tag fun d => d.modCab l fun z =>
      { z with mem := ((List.range count).zip data).foldl (fun m e => KV.put 0 ((addr + e.1) % 2 ^ 17) e.2 m) z.mem }, 0, [])
  else (s, 2, [])

/-- A packet that has reached a Cabinet or a unit of the hub. A MEM request to cabinet memory acts at the bank and is answered (R169); one to a
Cabinet under a march waits (R135); one where no design's Cabinet stands is refused. Every other class is taken where its own command says
what it does. The result says whether the packet is taken. -/
def State.landPacket (s : State) (c : Ch) (out : Nat) (flits : List (BitVec 256)) : Bool × State :=
  match flits with
  | [] => (true, s)
  | h :: body =>
    let w := h.toNat
    if out < 1024 ∨ 2048 ≤ out ∨ field w 0 3 ≠ 1 ∨ bitAt w 15 ∨ bitAt w 68 then (true, s)
    else
      let die := (out - 1024) / 64
      let node := (out - 1024) % 64
      let answer := fun (s : State) (status : Nat) (ws : List Word64) =>
        let p := memPacket 1 (field w 32 9) (fabAddr c die node) (field w 48 8) (field w 64 4) 0 status (field w 71 12) (field w 83 6 + 1)
          (field w 96 17) ws
        (s.enter c (.router die node) (cabOut die node) p 0).injected c (64 * die + node) (32 * p.length)
      match s.cabAtNode c die node with
      | none => (true, answer s 2 [])
      | some (d, l) =>
        if s.marching l then (false, s)
        else
          let r := s.fabBank d l (field w 64 4) (field w 96 17) (field w 83 6 + 1) (bodyWords body)
          (true, answer r.1 r.2.1 r.2.2)

/-- Take the packets that have landed. -/
def State.takeLanded (s : State) (c : Ch) : State :=
  let l := (s.ch c).fab.landed
  let r := l.foldl (fun (a : State × List (Nat × List (BitVec 256))) e =>
    let t := a.1.landPacket c e.1 e.2
    (t.2, if t.1 then a.2 else a.2 ++ [e])) (s.modFab c fun f => { f with landed := [] }, [])
  r.1.modFab c fun f => { f with landed := r.2 ++ f.landed }

/-- Flits of the cross-channel bridge go out on the host-die link of the other channel, in order, while its FIFO has room (R174). -/
def State.crossBridge (s : State) (c : Ch) : State :=
  let o := otherCh c
  let l := (s.ch c).fab.across
  let q := (s.flink o 534).queue
  let n := ((List.range (l.length + 1)).reverse.find? (fun n =>
    decide (groupCount (q ++ l.take n) 0 ≤ 32) && decide (groupCount (q ++ l.take n) 1 ≤ 32))).getD 0
  if n = 0 ∨ s.channels.contains o = false then s
  else
    let s := s.modFab c fun f => { f with across := f.across.drop n }
    s.modFab o fun f => { f with links := KV.upd {} 534 (fun x =>
      ({ x with queue := x.queue ++ l.take n }).push 63 (x.queue.length + n + 1)) f.links }

/-- Bring the fabric of a channel to rest: packets move, land, are answered, and the answers move. -/
def State.fabSettle (s : State) (c : Ch) : State :=
  let s := s.modFab c fun f => f.pump (f.work + 1)
  let s := if (s.ch c).fab.landed.isEmpty then s else (s.takeLanded c).modFab c fun f => f.pump (f.work + 1)
  if (s.ch c).fab.across.isEmpty then s else s.crossBridge c

/-- An initiator injects a packet with AGE 0 (R165, R168, R170): `input` is its Cabinet or its unit of the hub. -/
def State.inject (s : State) (c : Ch) (pl : Place) (input stat : Nat) (flits : List (BitVec 256)) : State :=
  ((s.enter c pl input flits 0).injected c stat (32 * flits.length)).fabSettle c

/-- A logical Cabinet injects a packet. -/
def State.cabInject (s : State) (l : Nat) (flits : List (BitVec 256)) : State :=
  match s.physOf l with
  | some (c, die, i) => s.inject c (.router die (nodeOfPhys i)) (cabOut die (nodeOfPhys i)) (64 * die + nodeOfPhys i) flits
  | none => s

/-- A unit of a hub injects a packet. -/
def State.hubInject (s : State) (c : Ch) (node : Nat) (flits : List (BitVec 256)) : State :=
  s.inject c .hub (unitOut node) (128 + node) flits

end Sys2Proof.Machine
end

