-- ==== Sys2Proof/Machine/Steps.lean ====
section
/-! DEFINITION. One step of a Cabinet (R31-R50, R66-R74, R124-R131, R145-R147, R313) and what the Trestle waits for (R76-R80,
R104, R216, R183, R253): the commands STEP_BEGIN, CLEARANCE_GRANT, HOLD_LONG, VALUE_PACKET_ARRIVAL and MEMORY_RETURN. -/

namespace Sys2Proof.Machine

open Sys2Proof

/-! ### Cells (R31-R46) -/

/-- The instruction of a cell at a step (R31, R53). -/
def Design.insn (d : Design) (key step : Nat) : Nat :=
  field (KV.get 0 (key * 128 + step / 16) d.code).toNat (88 * (step % 16)) 88

/-- The reset value that a state slot is forced to, while resets are forced (R46, R306). -/
def Design.forced (d : Design) (key sti : Nat) : Option Bool :=
  if d.stage < 3 then (d.resets.find? (fun r => cellKey r.cab r.bench r.cell == key && r.sti == sti)).map (·.value) else none

/-- The current state bank of a cell. -/
def Cell.curBank (c : Cell) : BitVec 512 := if c.cur then c.bank1 else c.bank0
/-- The next state bank of a cell. -/
def Cell.nextBank (c : Cell) : BitVec 512 := if c.cur then c.bank0 else c.bank1
/-- Write the next state bank of a cell. -/
def Cell.setNext (c : Cell) (v : BitVec 512) : Cell := if c.cur then { c with bank0 := v } else { c with bank1 := v }

/-- The bit read at an operand address (R33, R34, R46). -/
def Design.operand (d : Design) (key : Nat) (c : Cell) (a : Nat) : Bool :=
  if a < 0x800 then c.res.getLsbD a
  else if a < 0xC00 then c.land.getLsbD (a - 0x800)
  else if a < 0xE00 then (d.forced key (a - 0xC00)).getD (c.curBank.getLsbD (a - 0xC00))
  else false

/-- The truth-table result of an instruction (R31). -/
def Design.evalTT (d : Design) (key : Nat) (c : Cell) (w : Nat) : Bool :=
  let b := fun lo => bit01 (d.operand key c (field w lo 12))
  bitAt w (b 16 + 2 * b 28 + 4 * b 40 + 8 * b 52)

/-- Whether a truth table depends on input `i` (R105). -/
def dependsOn (tt i : Nat) : Bool := (List.range 16).any (fun x => bitAt tt x != bitAt tt (x ^^^ 2 ^ i))

/-- A cell of a logical Cabinet. -/
def Design.cellAt (d : Design) (key : Nat) : Cell := KV.get {} key d.cells

/-- The bit that a capture samples (R39): a bench-bus result of the previous step, or an inbound lane of this step. -/
def Design.capBit (d : Design) (cab bench step : Nat) (lanes : BitVec 192) (src : Nat) : Bool :=
  if src < 64 then decide (0 < step) && (d.cellAt (cellKey cab bench src)).res.getLsbD (step - 1) else lanes.getLsbD (src - 64)

/-- Insert a key into a rising list without repeats. -/
def insKey (k : Nat) : List Nat → List Nat
  | [] => [k]
  | x :: xs => if k < x then k :: x :: xs else if k = x then x :: xs else x :: insKey k xs

/-- The keys of the cells of a Cabinet that hold code or data, or that compute a wrong result, rising. Every other cell runs
the all-zero instruction over zeros and changes nothing. -/
def Design.cellKeys (d : Design) (cab : Nat) (extra : List (Nat × Nat)) : List Nat :=
  ((d.code.map (fun (e : Nat × BitVec 1440) => e.1 / 128) ++ d.cells.map (fun e => e.1) ++ extra.map (fun e => cellKey cab e.1 e.2)).filter
    (fun k => k / 1024 == cab)).foldr insKey []

/-- What one cell does in a step. -/
structure CellOut where
  key : Nat
  insn : Nat
  res : Bool
  next : Cell

/-- The bench of a cell key. -/
def benchOf (key : Nat) : Nat := key % 1024 / 64

/-- Evaluate one cell at a step (R36, R37): capture, result, state. `wrong` inverts the result (R51). -/
def Design.cellStep (d : Design) (cab step : Nat) (lanes : BitVec 192) (wrong : List (Nat × Nat)) (key : Nat) : CellOut :=
  let c := d.cellAt key
  let w := d.insn key step
  let r := d.evalTT key c w ^^ wrong.contains (benchOf key, key % 64)
  let c1 := if bitAt w 72 then
      { c with land := setBit c.land (step % 1024) (d.capBit cab (benchOf key) step lanes (field w 64 8)),
               landW := setBit c.landW (step % 1024) true }
    else c
  let c2 := { c1 with res := setBit c1.res step r }
  let sti := field w 75 9
  let c3 := if bitAt w 74 then { c2.setNext (setBit c2.nextBank sti ((d.forced key sti).getD r)) with mask := setBit c2.mask sti true }
    else c2
  { key := key, insn := w, res := r, next := c3 }

/-- Hazards and breaks of one cell at a step in DEBUG (R50, R105). -/
def Design.cellHazards (d : Design) (step : Nat) (o : CellOut) : List Hazard :=
  let c := d.cellAt o.key
  let place := (o.key / 1024) * 65536 + benchOf o.key * 256 + o.key % 64
  let early := (List.range 4).filterMap fun i =>
    let a := field o.insn (16 + 12 * i) 12
    if dependsOn (o.insn % 65536) i then
      if a < 0x800 ∧ step ≤ a then some { step := step, place := place, kind := 1, what := a }
      else if 0x800 ≤ a ∧ a < 0xC00 ∧ c.landW.getLsbD (a - 0x800) = false then some { step := step, place := place, kind := 2, what := a }
      else none
    else none
  let twice := if bitAt o.insn 74 && c.mask.getLsbD (field o.insn 75 9) then
    [({ step := step, place := place, kind := 3, what := field o.insn 75 9 } : Hazard)] else []
  let brk := if bitAt o.insn 87 then [({ step := step, place := place, kind := 0, what := 0 } : Hazard)] else []
  early ++ twice ++ brk

/-! ### Buses, lanes, gathers (R41, R47, R66) -/

/-- The bench-bus word of a Bench: its 64 results in logical cell order. -/
def busWord (os : List CellOut) (bench : Nat) : Word64 :=
  os.foldl (fun v o => if benchOf o.key = bench ∧ o.res then setBit v (o.key % 64) true else v) 0

/-- Results of the cells of a Bench that satisfy a test, in logical cell order, as bits of a word. -/
def gatherWord (os : List CellOut) (bench : Nat) (sel : Nat → Bool) : Word64 :=
  BitVec.ofNat 64 (((os.filter (fun o => benchOf o.key == bench && sel o.insn)).map (fun o => bit01 o.res)).foldr (fun b v => b + 2 * v) 0)

/-- Whether a cell of a Bench satisfies a test. -/
def anyTap (os : List CellOut) (bench : Nat) (sel : Nat → Bool) : Bool := os.any (fun o => benchOf o.key == bench && sel o.insn)

/-- The 64 outbound lanes of a step (R41): the first four senders of Bench b take lanes 4b to 4b + 3. -/
def outLanes (os : List CellOut) : BitVec 64 :=
  BitVec.ofNat 64 ((List.range 16).map (fun b => ((gatherWord os b (fun w => bitAt w 73)).toNat % 16) * 16 ^ b)).sum

/-- Fill a gather register of each Bench that taps it (R47). -/
def fillGather (g : KV Word64) (os : List CellOut) (kind : Nat) : KV Word64 :=
  (List.range 16).foldl (fun g b => if anyTap os b (fun w => field w 84 2 == kind) then
    KV.put 0 b (gatherWord os b (fun w => field w 84 2 == kind)) g else g) g

/-- Benches whose gather register of a kind is filled at a step. -/
def filled (l : List Nat) (os : List CellOut) (kind : Nat) : List Nat :=
  l ++ (List.range 16).filter (fun b => anyTap os b (fun w => field w 84 2 == kind) && !l.contains b)

/-! ### Port and memory-op entries (R67, R70, R87) -/

/-- The port-program entry of a Cabinet at a step. -/
def Design.portEntry (d : Design) (cab step : Nat) : Nat := (KV.get 0 (cab * 2048 + step) d.ports).toNat
/-- The memory-op entry of a Cabinet at a step. -/
def Design.memEntry (d : Design) (cab step : Nat) : Nat := (KV.get 0 (cab * 2048 + step) d.memops).toNat
/-- Destination fields of an entry, with their numbers. -/
def destFields (e : Nat) : List (Nat × Nat) := ((List.range 4).map (fun k => (k, field e (32 * k) 32))).filter (fun x => bitAt x.2 0)
/-- Operation fields of an entry, with their numbers. -/
def opFields (e : Nat) : List (Nat × Nat) := ((List.range 4).map (fun k => (k, field e (48 * k) 48))).filter (fun x => field x.2 0 3 != 0)
/-- Whether a destination acts in the phase in progress. -/
def Design.destActs (d : Design) (f : Nat) : Bool := bitAt (field f 25 4) d.phase && (field f 1 2 != 2 || d.lastPhase)
/-- Whether an operation acts in the phase in progress. -/
def Design.opActs (d : Design) (f : Nat) : Bool := bitAt (field f 41 4) d.phase
/-- Whether an operation returns a word (R70). -/
def opReturns (f : Nat) : Bool := [1, 3, 4, 7].contains (field f 0 3)
/-- Bytes of an HBM request (R70). -/
def opBytes8 (f : Nat) : Nat := 8 * 2 ^ (field f 16 3)
/-- Whether an operation uses DBENCH (R70). -/
def usesData (f : Nat) : Bool := [2, 3, 4].contains (field f 0 3) || (field f 0 3 == 6 && field f 16 3 == 0)

/-- Heavy units of a Cabinet's step in the phase in progress (R100). -/
def Design.units (d : Design) (cab step : Nat) : Nat :=
  (((opFields (d.memEntry cab step)).filter (fun x => d.opActs x.2)).map (fun x =>
    if field x.2 0 3 = 5 ∨ field x.2 0 3 = 6 then 2 else 1)).sum +
  ((destFields (d.portEntry cab step)).filter (fun x => d.destActs x.2 &&
    (field x.2 1 2 != 0 || field x.2 3 9 / 32 != cab / 32))).length

/-- A unit of a hub, the Velvin Link unit for a link slot (`kind` 1) or the guest port for a guest group (`kind` 2), sends its values to every
Cabinet of its channel that consumes them, each as a VALUE packet for its step (R169, R184 item 6, R216). -/
def State.sendOuter (s : State) (d : Design) (c : Ch) (kind idx : Nat) (v : BitVec 16) : State :=
  let node := if kind = 1 then 22 else 23
  d.ports.foldl (fun s e =>
    let cab := e.1 / 2048
    if chOfCab cab ≠ c then s
    else ((destFields e.2.toNat).filter (fun x => field x.2 1 2 == kind && field x.2 3 9 == idx)).foldl (fun s x =>
      s.hubInject c node (valuePacket (s.cabAddr cab) (fabAddr c 2 node) d.tag (e.1 % 2048) x.1 d.attempt d.frame 0 v.toNat)) s) s

/-! ### Inbound lanes (R66, R183, R216) -/

/-- The record of a link slot that a frame consumes: that of the previous frame (R216). -/
def Design.linkRec (d : Design) (slot : Nat) : Option LinkIn :=
  d.linkIn.find? (fun r => r.slot == slot && r.frame == BitVec.ofNat 48 (d.frame - 1))

/-- The values that a link slot or guest group delivers on lane group `g` of a Cabinet at a step (R183, R216). -/
def State.outerIn (s : State) (d : Design) (cab step g : Nat) : BitVec 16 :=
  match (destFields (d.portEntry cab step)).find? (fun x => x.1 == g && field x.2 1 2 != 0) with
  | some (_, f) =>
    if field f 1 2 = 1 then (if d.frame = 0 then 0 else ((d.linkRec (field f 3 9)).map (fun r => if r.active then r.values else 0)).getD 0)
    else if d.lastPhase && decide (1 ≤ d.stage) then KV.get 0 (field f 3 9) (s.ch (chOfCab cab)).guest.gout
    else 0
  | none => 0

/-- The word in a return slot at a step. -/
def CabSt.retWord (c : CabSt) (step slot : Nat) : Option Word64 := (c.rets.find? (fun r => r.step == step && r.slot == slot)).map (·.word)

/-- The 192 inbound lanes of a Cabinet at a step (R66). -/
def State.lanesIn (s : State) (d : Design) (cab step : Nat) : BitVec 192 :=
  let c := d.cab cab
  let grp := fun g => match c.vals.find? (fun v => v.step == step && v.group == g) with
    | some v => v.values
    | none => s.outerIn d cab step g
  BitVec.ofNat 192 ((grp 0).toNat + (grp 1).toNat * 2 ^ 16 + (grp 2).toNat * 2 ^ 32 + (grp 3).toNat * 2 ^ 48 +
    ((c.retWord step 0).getD 0).toNat * 2 ^ 64 + ((c.retWord step 1).getD 0).toNat * 2 ^ 128)

/-! ### HBM reads and the write buffer (R71, R145-R147) -/

/-- The region of a design that an HBM operation of a Cabinet names (R71, R117). -/
def Design.regionOf (d : Design) (cab idx : Nat) : Option Region :=
  d.regions.find? (fun r => r.index == idx && r.side == chNum (chOfCab cab))

/-- The byte that a write-buffer entry gives for an address. -/
def WEntry.byteAt (e : WEntry) (a : Nat) : Option Byte := if e.addr ≤ a then e.data[a - e.addr]? else none

/-- The committed byte at an address (R147): the newest committed entry that covers it, then the stack. -/
def HbmSt.committedByte (h : HbmSt) (a : Nat) : Byte :=
  match h.wbuf.reverse.findSome? (fun e => if e.committed then e.byteAt a else none) with
  | some b => b
  | none => Memory.read h.mem a

/-- Committed bytes. -/
def HbmSt.committedBytes (h : HbmSt) (a n : Nat) : List Byte := (List.range n).map (fun i => h.committedByte (a + i))

/-- Whether a provisional entry is one that a read sees: of its design, made at an earlier step or an earlier port of its step
(R147 item 1). -/
def HRead.sees (r : HRead) (e : WEntry) : Bool :=
  e.design == r.design && !e.committed && (decide (e.step < r.step) || (e.step == r.step && decide (e.port < r.port)))

/-- The provisional byte that a read sees at an address: of the latest step and port, and of two such the later entry. -/
def HbmSt.provByte (h : HbmSt) (r : HRead) (a : Nat) : Option Byte :=
  (h.wbuf.foldl (fun (b : Option (Nat × Byte)) e =>
    if r.sees e then match e.byteAt a, b with
      | some v, some x => if x.1 ≤ 4 * e.step + e.port then some (4 * e.step + e.port, v) else b
      | some v, none => some (4 * e.step + e.port, v)
      | none, _ => b
    else b) none).map (·.2)

/-- The bytes of a read, the provisional bytes of its own frame laid over the committed ones that stood at its issue (R147). -/
def HbmSt.overlay (h : HbmSt) (r : HRead) : List Byte :=
  (List.range r.size).map (fun i => (h.provByte r (r.addr + i)).getD (r.data.getD i 0))

/-- Bytes of the quota of a partition held in the write buffer (R146). -/
def HbmSt.quota (h : HbmSt) (p : Nat) : Nat := ((h.wbuf.filter (fun e => e.partition == p)).map (fun e => e.data.length)).sum

/-- Record an error within the frame (R90). -/
def State.frameErr (s : State) (tag : Nat) (e : ErrSrc × Nat × Nat) : State := s.modDesign tag fun d => { d with errs := d.errs ++ [e] }

/-! ### Memory operations (R70-R74, R124-R130) -/

/-- The words of a landing buffer as bytes. -/
def landBytes (l : KV Word64) (lbo words : Nat) : List Byte := (List.range words).flatMap (fun i => leBytes 8 (KV.get 0 (lbo + i) l).toNat)

/-- An access to cabinet memory by port `k` (R72, R124-R129): the bank logs the old word and writes at once, unless writes are
withheld (R306); READ, ADD and SWAP return the old word. -/
def Design.bankOp (d : Design) (now cab step k f addr : Nat) (data : Word64) : Design :=
  let c := d.cab cab
  let old := KV.get 0 addr c.mem
  let op := field f 0 3
  let new := if op = 2 ∨ op = 4 then data else old + data
  let writes := (op == 2 || op == 3 || op == 4) && decide (2 ≤ d.stage)
  let bank := addr / 8192
  let wait := ((d.rets.filter (fun r => r.cab == cab && r.addr / 8192 == bank)).map (fun r => if r.op = 3 ∨ r.op = 4 then 2 else 1)).sum
  let ret : Option RetVal := if opReturns f then some { step := step + field f 30 11, slot := field f 11 1, word := old } else none
  let d := if writes then d.modCab cab fun c => { c with undo := (bank, addr, old) :: c.undo, mem := KV.put 0 addr new c.mem } else d
  let words := if op = 1 then [old] else if op = 2 then [data] else [data, old]
  let r : MemRet := { cab := cab, addr := addr, port := k, op := op, ret := ret, wait := wait }
  let a : Access := { step := step, tick := now, cab := cab, port := k, op := op, space := 0, place := cab, addr := addr, size := 0, words := words }
  { d with rets := d.rets ++ [r], accesses := d.accesses ++ [a] }

/-- An unload (R70, R73): moves a landing-buffer word, as it stood before the step, to a return slot. -/
def Design.unload (d : Design) (before : CabSt) (now cab step k f : Nat) : Design :=
  let lbo := field f 19 11
  let w := KV.get 0 lbo before.landing
  let v : RetVal := { step := step + field f 30 11, slot := field f 11 1, word := w }
  let r : MemRet := { cab := cab, addr := 2 ^ 17 + lbo, port := k, op := 7, ret := some v, wait := 0 }
  let a : Access := { step := step, tick := now, cab := cab, port := k, op := 7, space := 0, place := cab, addr := lbo, size := 0, words := [w] }
  { d with rets := d.rets ++ [r], accesses := d.accesses ++ [a] }

/-- A step of the frame in progress takes landing words (R83): the MAC checks on them must pass before this frame commits, and one that has
failed already is an error within the frame. -/
def State.takeLanding (s : State) (d : Design) (cab lbo n : Nat) : State :=
  let c := chOfCab cab
  let hit := fun (m : MacCheck) => m.design == d.tag && m.cab == cab && m.link.isNone && decide (m.lbo < lbo + n) && decide (lbo < m.lbo + m.words)
  let bad := (s.ch c).hbm.macs.find? (fun m => hit m && m.failed)
  let s := s.modHbm c fun h => { h with
    macs := (h.macs.filter (fun m => !(hit m && m.failed))).map (fun m => if hit m then { m with used := some d.frame } else m) }
  match bad with
  | some m => s.frameErr d.tag (.mac, cab, m.addr)
  | none => s

/-- The words of a run of bytes. -/
def wordsOf (l : List Byte) : List Word64 := (List.range (l.length / 8)).map (fun i => BitVec.ofNat 64 (rd l (8 * i) 8))

/-- A unit of a hub reads or writes an HBM stack (R169, R179): its request, with the data of a write, and the answer of the controller. The time
between them is a free value (log entry 4). -/
def State.hubMem (s : State) (c : Ch) (node : Nat) (stack : Ch) (tag addr n : Nat) (data : List Byte) : State :=
  let own := fabAddr c 2 node
  let hbm := fabAddr stack 2 0
  let op := bit01 (!data.isEmpty)
  let pay := hbmPayload addr (Nat.log2 (n / 8)) 0 0 0
  let s := s.hubInject c node (memPacket 0 hbm own tag op 1 0 0 (n / 8) pay (wordsOf data))
  let s := s.inject stack .hub (unitOut 0) 128 (memPacket 1 own hbm tag op 1 0 0 (n / 8) pay [])
  (s.modStat c (128 + node) fun x => { x with mem := KV.upd 0 (s.free.toNat % 16) (fun k => min 0xFFFFFFFF (k + 1)) x.mem }).freeNext

/-- The TAG of the next HBM read of a Cabinet (R144, R169): the lowest that none of its reads in flight has. -/
def State.readTag (s : State) (c : Ch) (cab : Nat) : Nat :=
  let l := ((s.ch c).hbm.reads.filter (fun r => r.cab == cab)).map (·.num)
  ((List.range (l.length + 1)).find? (fun n => !l.contains n)).getD 0

/-- An HBM read or write (R71, R73, R74, R145, R146): beyond the region it is an error within the frame; a read clears the flags of
its words; a write becomes a provisional entry, unless writes are withheld (R306). -/
def State.hbmOp (s : State) (tag : Nat) (before : CabSt) (cab step k f : Nat) (addr data : Word64) : State :=
  match s.design tag with
  | none => s
  | some d =>
    let n := opBytes8 f
    let off := addr.toNat % 2 ^ 35 / n * n
    let idx := field f 12 4
    let lbo := field f 19 11
    let c := chOfCab cab
    if field f 0 3 = 6 ∧ d.stage < 2 then s
    else match d.regionOf cab idx with
    | none => s.frameErr tag (.region, cab, idx)
    | some g =>
      if g.bytes < off + n then s.frameErr tag (.region, cab, idx)
      else if field f 0 3 = 5 then
        let bytes := (s.ch c).hbm.committedBytes (g.base + off) n
        let own := ((s.ch c).hbm.reads.filter (fun r => r.cab == cab && !r.pool)).length
        let num := s.readTag c cab
        let r : HRead :=
          { design := tag, num := num, pool := decide (32 ≤ own), cab := cab, attempt := d.attempt, frame := d.frame, step := step, port := k, addr := g.base + off, size := n,
            lbo := lbo, data := bytes, issuedAt := s.clock }
        let a : Access :=
          { step := step, tick := s.ticks c, cab := cab, port := k, op := 5, space := 1, place := idx, addr := off, size := field f 16 3, words := [] }
        let s := s.modHbm c fun h => { h with reads := h.reads ++ [r] }
        (s.modDesign tag fun d =>
          let d := d.modCab cab fun x => { x with invalid := x.invalid ++ ((List.range (n / 8)).map (lbo + ·)).filter (fun w => !x.invalid.contains w) }
          { d with accesses := d.accesses ++ [a] }).cabInject cab (memPacket 0 (fabAddr c 2 0) (s.cabAddr cab) tag 0 1 0 num (n / 8)
            (hbmPayload (g.base + off) (field f 16 3) lbo d.attempt d.frame) [])
      else
        let bytes := if n = 8 then leBytes 8 data.toNat else landBytes before.landing lbo (n / 8)
        let e : WEntry :=
          { design := tag, partition := partOfCab cab, committed := false, step := step, port := k, addr := g.base + off, data := bytes }
        let a : Access :=
          { step := step, tick := s.ticks c, cab := cab, port := k, op := 6, space := 1, place := idx, addr := off, size := field f 16 3,
            words := [BitVec.ofNat 64 (rd bytes 0 8)] }
        let s := s.modHbm c fun h => { h with wbuf := h.wbuf ++ [e] }
        let s := if n = 8 then s else s.takeLanding d cab lbo (n / 8)
        (s.modDesign tag fun d => { d with accesses := d.accesses ++ [a] }).cabInject cab (memPacket 0 (fabAddr c 2 0) (s.cabAddr cab) tag 1 1 0 0
          (n / 8) (hbmPayload (g.base + off) (field f 16 3) lbo d.attempt d.frame) (wordsOf bytes))

/-- One memory operation of an entry (R70, R72, R87). Gather registers and landing words are read as they stood before the step
(R48, R73). -/
def State.memOp (s : State) (tag : Nat) (before : CabSt) (cab step : Nat) (x : Nat × Nat) : State :=
  match s.design tag with
  | none => s
  | some d =>
    let f := x.2
    let addr := KV.get 0 (field f 3 4) before.addrG
    let data := KV.get 0 (field f 7 4) before.dataG
    if d.opActs f = false then s
    else match field f 0 3 with
      | 5 | 6 => s.hbmOp tag before cab step x.1 f addr data
      | 7 => (s.modDesign tag fun d => d.unload before (s.ticks (chOfCab cab)) cab step x.1 f).takeLanding d cab (field f 19 11) 1
      | _ => s.modDesign tag fun d => d.bankOp (s.ticks (chOfCab cab)) cab step x.1 f (addr.toNat % 2 ^ 17) data

/-- Gather hazards of an entry in DEBUG (R105 kind 4): each operation that reads a register not filled records its own (DESIGN CHOICE, log
entry 21). -/
def Design.gatherHazards (d : Design) (before : CabSt) (cab step : Nat) : List Hazard :=
  (opFields (d.memEntry cab step)).flatMap fun x =>
    let f := x.2
    if d.opActs f = false then []
    else
      let a := field f 3 4
      let b := field f 7 4
      (if field f 0 3 != 7 && !before.filledA.contains a then [({ step := step, place := cab * 65536 + a * 256 + 0xFF, kind := 4, what := 0 } : Hazard)] else []) ++
      (if usesData f && !before.filledD.contains b then [({ step := step, place := cab * 65536 + b * 256 + 0xFF, kind := 4, what := 1 } : Hazard)] else [])

/-! ### Signatures (R313) -/

/-- Rotate a word left. -/
def rotl64 (v : Word64) (n : Nat) : Word64 := (v <<< (n % 64)) ||| (v >>> ((64 - n % 64) % 64))

/-- The values that a Cabinet feeds into its signature at a step, in order (R313). -/
def Design.sigWords (d : Design) (before : CabSt) (cab step : Nat) (os : List CellOut) : List Word64 :=
  let w := (List.range 16).foldl (fun v b => v ^^^ rotl64 (busWord os b) (4 * b)) 0
  let ops := (opFields (d.memEntry cab step)).flatMap fun x =>
    KV.get 0 (field x.2 3 4) before.addrG :: (if usesData x.2 then [KV.get 0 (field x.2 7 4) before.dataG] else [])
  [w, outLanes os] ++ ops ++ (before.retWord step 0).toList ++ (before.retWord step 1).toList

/-! ### A step of a Cabinet (R36, R66-R76) -/

/-- The logical address of a cell in an event (R23): module, Cabinet, Bench, cell. -/
def State.cellAddr (s : State) (cab bench cell : Nat) : List Nat := [(s.topo.map (·.identity)).getD 0, cab, bench, cell]

/-- The physical Bench of a logical one (R61). -/
def PhysCab.physBench (p : PhysCab) (b : Nat) : Nat := if p.spareBench = some b then 16 else b

/-- Tiles that a frame of the design uses (R54). -/
def Design.tiles (d : Design) : Nat := (d.header.frameLen + 15) / 16

/-- The tile that every cell fetches while it executes a step, with the number of frames ahead for which it does so (R54): at the first
step of tile t, tile t + 2, the last tiles of a frame being followed by tiles 0 and 1 of the next. -/
def Design.fetch (d : Design) (step : Nat) : Option (Nat × Nat) :=
  if step % 16 = 0 then some ((step / 16 + 2) % d.tiles, (step / 16 + 2) / d.tiles) else none

/-- The three tiles in the prefetch buffer of a cell while it executes a step, by their places in the frame's sequence (R54). -/
def Design.buffer (d : Design) (step : Nat) : List (Nat × Nat) :=
  (List.range 3).map (fun k => ((step / 16 + k) % d.tiles, (step / 16 + k) / d.tiles))

/-- Whether a stored tile already waits for its reload. -/
def CabSt.tileBad (x : CabSt) (bench cell tile : Nat) : Bool :=
  x.reload.contains (bench, cell, tile) || x.later.any (fun u => u.1 == bench && u.2.1 == cell && u.2.2.1 == tile)

/-- A tile waits for its reload, for the frame in progress or for one `ahead` of it. -/
def CabSt.addBad (x : CabSt) (bench cell tile ahead : Nat) : CabSt :=
  if x.tileBad bench cell tile then x
  else if ahead = 0 then { x with reload := x.reload ++ [(bench, cell, tile)] }
  else { x with later := x.later ++ [(bench, cell, tile, ahead)] }

/-- Drop the tiles of the cells that a repair has loaded afresh from those that wait for a reload. -/
def CabSt.dropBad (x : CabSt) (sel : Nat → Nat → Bool) : CabSt :=
  { x with reload := x.reload.filter (fun u => !sel u.1 u.2.1), later := x.later.filter (fun u => !sel u.1 u.2.1) }

/-- What the tiles checked on prefetch in this step do (R54-R56): only the tile that the step fetches is checked. A re-read that passes is
counted; otherwise the tile waits for its reload. -/
def State.tileCheck (s : State) (d : Design) (cab step : Nat) (t : TileObs) : State :=
  match s.physOf cab, d.fetch step with
  | none, _ | _, none => s
  | some (c, die, i), some (tile, ahead) =>
    if t.tile ≠ tile then s
    else if t.transient then
      (s.count .benchTileTransient c [die, i, (s.cab c die i).physBench t.bench]).designEvent d 0x1001 (s.cellAddr cab t.bench t.cell ++ [t.tile])
    else s.modDesign d.tag fun d => d.modCab cab fun x => x.addBad t.bench t.cell t.tile ahead

/-- A bench-bus parity failure (R51). -/
def State.parityFail (s : State) (d : Design) (cab bench : Nat) : State :=
  match s.physOf cab with
  | none => s
  | some (c, die, i) =>
    ((s.count .benchBusParity c [die, i, (s.cab c die i).physBench bench]).designEvent d 0x1005 [cab, bench, d.frame % 2 ^ 32]).frameErr d.tag
      (.benchParity, cab, bench)

/-- The packets and the outputs that a Cabinet sends at a step (R67, R68, R87, R183, R216). -/
def Design.sends (d : Design) (cab step : Nat) (lanes : BitVec 64) : List VPacket × List (Nat × Nat × BitVec 16) :=
  let fs := (destFields (d.portEntry cab step)).filter (fun x => d.destActs x.2)
  let v := fun k => BitVec.ofNat 16 (field lanes.toNat (16 * k) 16)
  let pk := fun (x : Nat × Nat) => ({ src := cab, dst := field x.2 3 9, tag := d.tag, step := step + field x.2 14 11, group := field x.2 12 2, values := v x.1,
                                      attempt := d.attempt, frame := d.frame } : VPacket)
  ((fs.filter (fun x => field x.2 1 2 == 0)).map pk,
   (fs.filter (fun x => field x.2 1 2 != 0)).map (fun x => (field x.2 1 2, field x.2 3 9, v x.1)))

/-- The largest undo-log length of any bank of a Cabinet (R129). -/
def CabSt.undoPeak (c : CabSt) : Nat :=
  (List.range 16).foldl (fun m b => max m (c.undo.filter (fun e => e.1 == b)).length) 0

/-- The VALUE packets of a step as a Cabinet injects them, stamped with its design's tag (R165, R169): those to Cabinets, then those whose
destination is a unit of its hub, the Velvin Link unit for a link slot and the guest port for a guest group. -/
def State.valueFlits (s : State) (d : Design) (cab step : Nat) (pk : List VPacket) (outs : List (Nat × Nat × BitVec 16)) : List (List (BitVec 256)) :=
  pk.map (fun x => valuePacket (s.cabAddr x.dst) (s.cabAddr cab) x.tag x.step x.group x.attempt x.frame 0 x.values.toNat) ++
  outs.map (fun x => valuePacket (fabAddr (chOfCab cab) 2 (if x.1 = 1 then 22 else 23)) (s.cabAddr cab) d.tag step 0 d.attempt d.frame x.2.1 x.2.2.toNat)

/-- Execute one step of a Cabinet of a design (R36). -/
def State.doStep (s : State) (d : Design) (cab : Nat) (obs : StepObs) : State :=
  let before := d.cab cab
  let n := before.next
  let lanes := s.lanesIn d cab n
  let os := (d.cellKeys cab obs.wrong).map (d.cellStep cab n lanes obs.wrong)
  let dbg := s.mode.mode.isDebug
  let hz := if dbg then os.flatMap (d.cellHazards n) ++ d.gatherHazards before cab n else []
  let taps := (os.filter (fun o => bitAt o.insn 86)).map (·.res)
  let tog := (os.filter (fun o => (d.cellAt o.key).res.getLsbD n != o.res)).length
  let (pk, outs) := d.sends cab n (outLanes os)
  let crc := if d.twin || s.mode.mode == .mirrored then (d.sigWords before cab n os).foldl crc64Feed before.crc else before.crc
  let s := (opFields (d.memEntry cab n)).foldl (fun s x => s.memOp d.tag before cab n x) s
  let s := s.modDesign d.tag fun d' =>
    let cells := os.foldl (fun (t : KV Cell) (o : CellOut) => KV.put {} o.key o.next t) d'.cells
    let d' := { d' with cells := cells, packets := d'.packets ++ pk, hazards := d'.hazards ++ hz }
    d'.modCab cab fun c =>
      { c with next := n + 1, lastStep := n, vals := c.vals.filter (fun v => v.step != n), rets := c.rets.filter (fun r => r.step != n),
               addrG := fillGather c.addrG os 1, dataG := fillGather c.dataG os 2, filledA := filled c.filledA os 1,
               filledD := filled c.filledD os 2, window := (d.units cab n :: c.window).take 256,
               taps := (c.taps ++ taps).take 262016, tapCount := c.tapCount + taps.length, toggles := c.toggles + tog, crc := crc,
               outputs := c.outputs ++ outs }
  let s := (s.valueFlits d cab n pk outs).foldl (fun s p => s.cabInject cab p) s
  let s := match s.physOf cab, s.design d.tag with
    | some (c, die, i), some d' =>
      let pk := (d'.cab cab).undoPeak
      if (s.reg .cmemUndoPeak c [die, i]).toNat < pk then s.setReg .cmemUndoPeak c [die, i] (BitVec.ofNat 32 pk) else s
    | _, _ => s
  let s := obs.tiles.foldl (fun s t => s.tileCheck d cab n t) s
  match obs.parityBench with
  | some b => s.parityFail d cab b
  | none => s

/-- Whether the tags that a step's HBM reads need are free (R144): 32 of the Cabinet's own, then the 1,024 of the shared pool. Without them the
memory-op ports do not acknowledge, and the step completes later. -/
def State.tagsFree (s : State) (d : Design) (cab : Nat) : Bool :=
  let l := (s.ch (chOfCab cab)).hbm.reads
  let n := ((opFields (d.memEntry cab (d.cab cab).next)).filter (fun x => d.opActs x.2 && field x.2 0 3 == 5)).length
  let own := (l.filter (fun r => r.cab == cab && !r.pool)).length
  let pool := (l.filter (fun r => r.pool)).length
  decide (n ≤ (32 - own) + (1024 - pool))

/-- Whether a Cabinet may begin its next step (R76, R77, R81): within one step of every Cabinet of its lock. -/
def Design.mayBegin (d : Design) (cab : Nat) : Bool :=
  (d.state == .running || d.state == .stopping) && d.errs.isEmpty && decide ((d.cab cab).next < d.clearedOf cab) &&
  (d.lock (d.sideOf (chOfCab cab))).all (fun c => decide ((d.cab cab).next ≤ (d.cab c).next + 1))

/-- STEP_BEGIN (R76, R36): the Cabinet begins its next step with clearance, and carries it out. A Cabinet of no span, or one that
may not begin, or whose step finds no tag for an HBM read (R144), does nothing. -/
def execStepBegin (cab : Nat) (obs : StepObs) (s : State) : Host.Outcome State Fault Refusal :=
  .next (match s.designs.find? (fun d => d.span.contains cab && d.mayBegin cab && s.tagsFree d cab) with
    | some d => s.doStep d cab obs
    | none => s)

/-! ### What a step waits for (R78) -/

/-- Lane groups of a Cabinet to which a destination of the span delivers at a step (R68, R75). -/
def Design.dueGroups (d : Design) (cab step : Nat) : List Nat :=
  d.ports.flatMap fun e =>
    if d.span.contains (e.1 / 2048) then
      ((destFields e.2.toNat).filter (fun x => d.destActs x.2 && field x.2 1 2 == 0 && field x.2 3 9 == cab &&
        e.1 % 2048 + field x.2 14 11 == step)).map (fun x => field x.2 12 2)
    else []

/-- Return slots that a word of the Cabinet's own operations reaches at a step. -/
def Design.dueReturns (d : Design) (cab step : Nat) : List Nat :=
  d.memops.flatMap fun e =>
    if e.1 / 2048 = cab then
      ((opFields e.2.toNat).filter (fun x => d.opActs x.2 && opReturns x.2 && e.1 % 2048 + field x.2 30 11 == step)).map (fun x => field x.2 11 1)
    else []

/-- Whether the source word of an unload is valid at a step (R73): its flag is set, and no HBM read of the steps between clears
it. -/
def Design.unloadReady (d : Design) (cab step lbo : Nat) : Bool :=
  let c := d.cab cab
  !c.invalid.contains lbo && !(d.memops.any fun e => e.1 / 2048 == cab && decide (c.next ≤ e.1 % 2048) && decide (e.1 % 2048 < step) &&
    (opFields e.2.toNat).any (fun x => d.opActs x.2 && field x.2 0 3 == 5 && decide (field x.2 19 11 ≤ lbo) &&
      decide (lbo < field x.2 19 11 + opBytes8 x.2 / 8)))

/-- Bytes of the HBM writes of a partition's Cabinets from their next steps up to a step (R148). -/
def Design.pendingWrites (d : Design) (p step : Nat) : Nat :=
  ((d.memops.filter (fun e => partOfCab (e.1 / 2048) == p && decide ((d.cab (e.1 / 2048)).next ≤ e.1 % 2048) && decide (e.1 % 2048 ≤ step))).map
    (fun e => (((opFields e.2.toNat).filter (fun x => d.opActs x.2 && field x.2 0 3 == 6)).map (fun x => opBytes8 x.2)).sum)).sum

/-- Allowance of a power class in heavy units per 256 step slots (R101). -/
def classAllowance (c : Nat) : Nat := ([64, 128, 256, 512, 768, 1152, 1792, 3072] : List Nat).getD c 3072

/-- Whether the activity monitor of a Cabinet lets a step execute (R104). -/
def Design.powerOk (d : Design) (cab step : Nat) : Bool :=
  let c := d.cab cab
  let ahead := (List.range (step - c.next)).map (fun i => d.units cab (c.next + i))
  decide (((ahead.reverse ++ c.window).take 255).sum + d.units cab step ≤ classAllowance (d.classOf (partOfCab cab)))

/-- Free space of an outlet window, counting only records already written out (R253, R248). -/
def Design.outletFree (d : Design) (m : MPort) (w : Window) : Nat :=
  let c := d.cab (d.liveCab w.cab)
  let prod := (KV.get 0 w.word c.mem).toNat % 2 ^ 32
  let held := (m.released.map (fun r => msgWords r.data.length)).sum
  w.size - ((prod + 2 ^ 32 - (m.readTo + 2 ^ 32 - held) % 2 ^ 32) % 2 ^ 32)

/-- Whether an outlet with its window in a Cabinet lacks its RESERVE (R253). -/
def State.outletShort (s : State) (d : Design) (cab : Nat) : Bool :=
  (s.portsOf d).any fun e => match e.2.outWin with
    | some w => w.cab % 64 == cab % 64 && w.cab / 128 == cab / 128 && decide (d.outletFree e.2 w < w.reserve)
    | none => false

/-- Whether a ring of a message port is gone: one that it is bound to is not enabled, on a module whose host port serves its own ports (R226,
R246). -/
def State.ringGone (s : State) (p : MPort) : Bool := s.proxy.isNone && (p.inRing.toList ++ p.outRing.toList).any (fun r => !s.ringOn r)

/-- Whether a message port of the design with a window in a Cabinet is disabled, or its ring is gone (R226, R263). -/
def State.portDisabled (s : State) (d : Design) (cab : Nat) : Bool :=
  (s.portsOf d).any fun e => (e.2.disabled || s.ringGone e.2) && (e.2.inWin.toList ++ e.2.outWin.toList).any (fun w => w.cab % 64 == cab % 64)

/-- Whether an input of the world is missing at a step: a link record (R216) or a guest output (R183, R185). -/
def State.inputMissing (s : State) (d : Design) (cab step : Nat) : Bool :=
  (destFields (d.portEntry cab step)).any fun x =>
    (field x.2 1 2 == 1 && decide (0 < d.frame) && (d.linkRec (field x.2 3 9)).isNone) ||
    (field x.2 1 2 == 2 && d.lastPhase && decide (1 ≤ d.stage) && !(s.ch (chOfCab cab)).guest.haveOut.contains (field x.2 3 9))

/-- Whether a guest that the step needs is disabled or has failed (R186). -/
def State.guestDown (s : State) (d : Design) (cab step : Nat) : Bool :=
  let g := (s.ch (chOfCab cab)).guest
  (g.disabled || g.failed || g.fault) && (destFields (d.portEntry cab step)).any (fun x => field x.2 1 2 == 2 && d.lastPhase)

/-- The items that a Cabinet misses for a step, as the cause bits of CAB_HOLD_CAUSE (R78). -/
def State.missing (s : State) (d : Design) (cab step : Nat) : Nat :=
  let c := d.cab cab
  let ops := (opFields (d.memEntry cab step)).filter (fun x => d.opActs x.2)
  let fab := (d.dueGroups cab step).any (fun g => !c.vals.any (fun v => v.step == step && v.group == g))
  let ret := (d.dueReturns cab step).any (fun r => (c.retWord step r).isNone)
  let land := ops.any (fun x => field x.2 0 3 == 7 && !d.unloadReady cab step (field x.2 19 11))
  let tile := c.reload.any (fun t => t.2.2 == step / 16)
  let wb := decide (2 ≤ d.stage) && ops.any (fun x => field x.2 0 3 == 6) &&
    decide (2097152 < (s.ch (chOfCab cab)).hbm.quota (partOfCab cab) + d.pendingWrites (partOfCab cab) step)
  let input := s.inputMissing d cab step || (step == 0 && s.outletShort d cab)
  let dis := s.guestDown d cab step || s.marching cab || (step == 0 && s.portDisabled d cab) || d.disabled
  bit01 fab + 2 * bit01 ret + 4 * bit01 land + 8 * bit01 tile + 16 * bit01 wb + 32 * bit01 input + 64 * bit01 (!d.powerOk cab step) +
    128 * bit01 dis

/-- The union of the causes of the Cabinets of a Trestle. -/
def State.causes (s : State) (d : Design) (b : Bool) : Nat := (d.lock b).foldl (fun m c => m ||| s.missing d c (d.tr b).cleared) 0

/-- Whether a pending cell or Bench swap comes from a tile that the frames fetch: it holds only the step of the tile (R55, R60). -/
def Design.tileRepair (d : Design) (r : Nat × Nat × Nat) : Bool :=
  let x := d.cab r.2.1
  let waits := fun (sel : Nat → Nat → Bool) => x.reload.any (fun u => sel u.1 u.2.1) || x.later.any (fun u => sel u.1 u.2.1)
  (r.1 == 5 && waits (fun b k => 64 * b + k == r.2.2)) || (r.1 == 4 && waits (fun b _ => b == r.2.2))

/-- Whether a frame of the design may begin at all: its run is under way and not waiting for a launch, no repair is pending but those of
tiles (R60), the commit before it is over, its channels are in RUN and none holds at commits, and a MIRRORED partner holds the signatures
of the frame (R322). -/
def State.frameOpen (s : State) (d : Design) : Bool :=
  (match d.run with | some r => !r.waitLaunch | none => d.waitPartner) && d.repairs.all d.tileRepair && !d.flipped && !s.host.perst &&
  d.span.all (fun l => (s.pw (chOfCab l)).state == .run && !(s.ch (chOfCab l)).holding) &&
  (!(s.mode.mode == .mirrored && s.mode.partner) || s.mode.sigs.any (fun x => x.1 == BitVec.ofNat 48 d.frame))

/-- Lookahead of the Trestle (R78). -/
def Design.lookahead (d : Design) : Nat := if d.spansBoth then 16 else 8

/-- Grant the clearance of the next step of a Trestle. -/
def State.grant (s : State) (d : Design) (b : Bool) : State :=
  let s := if (d.tr b).held then s.traceHold d (d.lockChans b) (d.tr b).cleared false else s
  s.modDesign d.tag fun d => ({ d with begun := true }).setTr b { cleared := (d.tr b).cleared + 1 }

/-- Whether a read that a refresh has stalled brings one of the words that a step unloads (R151). -/
def State.refreshLate (s : State) (d : Design) (cab step : Nat) : Bool :=
  (opFields (d.memEntry cab step)).any fun x => d.opActs x.2 && field x.2 0 3 == 7 &&
    (s.ch (chOfCab cab)).hbm.reads.any (fun r => r.design == d.tag && r.cab == cab && r.refreshed && r.attempt != 0 &&
      decide (r.lbo ≤ field x.2 19 11) && decide (field x.2 19 11 < r.lbo + r.size / 8))

/-- Count a clearance withheld in each Cabinet that withholds it (CAB_HOLDS), and in the counters of its cause. -/
def State.countHold (s : State) (d : Design) (b : Bool) : State :=
  (d.lock b).foldl (fun x l =>
    let n := (d.tr b).cleared
    let m := s.missing d l n
    if m = 0 then x
    else match x.physOf l with
      | some (c, die, i) =>
        let x := x.count .cabHolds c [die, i]
        let x := if bitAt m 2 && s.refreshLate d l n then x.count .hbmRefreshHolds c [] else x
        if n = 0 ∧ s.outletShort d l then x.count .schOutletHolds c [] else x
      | none => x) s

/-- Insert one hold step for the Cabinets whose monitor withholds (R104): windows move on by a slot without units. The first
overrun of each frame of each partition writes POWER_OVERRUN; in DEBUG a first attempt records one hazard for the step. A partition counts
one hold step however many of its monitors withhold (DESIGN CHOICE, log entry 20). -/
def State.holdStep (s : State) (d : Design) (b : Bool) : State :=
  let n := (d.tr b).cleared
  let lim := (d.lock b).filter (fun l => !d.powerOk l n)
  let parts := (List.range 8).filter (fun p => lim.any (fun l => partOfCab l == p))
  let s := parts.foldl (fun s p =>
    let s := (s.count .pwrOverrun (chOfPart p) [p % 4]).modPart p fun x => { x with overrunAt := some s.clock }
    if d.span.any (fun l => partOfCab l == p && (d.cab l).overrun) then s
    else s.event 0x1201 (1 + chNum (chOfPart p)) p d.slot false [p, d.frame % 2 ^ 32]) s
  s.modDesign d.tag fun d => lim.foldl (fun d l =>
    let d := d.modCab l fun c => { c with window := (0 :: c.window).take 256, overrun := true }
    let h : Hazard := { step := n, place := l * 65536 + 0xFFFF, kind := 5, what := d.units l n }
    if s.mode.mode.isDebug ∧ d.attempt = 1 ∧ d.hazards.contains h = false then { d with hazards := d.hazards ++ [h] } else d) d

/-- A hold begins: it is counted, its RATE packet is made, and a stop that waits for the commit takes effect (R79, R80). -/
def State.beginHold (s : State) (d : Design) (b : Bool) : State :=
  let s := (s.countHold d b).traceHold d (d.lockChans b) (d.tr b).cleared true
  let s := s.modDesign d.tag fun d => d.setTr b { cleared := (d.tr b).cleared, held := true }
  if d.stops.isEmpty then s else (s.stopAt d.tag .ok 3).finishStops d.tag

/-- Ask for the clearance of the next step of a Trestle of a design (R76-R81, R104). -/
def State.clearance (s : State) (d : Design) (b : Bool) : State :=
  let n := (d.tr b).cleared
  let near := (d.lock b).all (fun l => decide (n < d.lookahead) || decide (n < (d.cab l).next + d.lookahead))
  if (d.state ≠ .running ∧ d.state ≠ .stopping) ∨ d.errs ≠ [] ∨ d.header.frameLen ≤ n ∨ near = false ∨ (n = 0 ∧ s.frameOpen d = false) ∨
      (d.lock b).isEmpty then s
  else if s.causes d b = 0 then s.grant d b
  else if d.waiting b then
    let s := if (d.tr b).held then s else s.beginHold d b
    if s.causes d b = 64 then s.holdStep d b else s
  else s

/-- CLEARANCE_GRANT (R79): the Trestle of the design that holds partition `p` grants the next clearance once every Cabinet of the
span is ready, and otherwise the span is held. In TWINNED it is the Trestle of the copy in the partition's channel (R312). -/
def execClearanceGrant (p : Nat) (s : State) : Host.Outcome State Fault Refusal :=
  .next (match s.designAt p with
    | some d => s.clearance d (d.sideOf (chOfPart p))
    | none => s)

/-- HOLD_LONG (R80): a hold of the design has lasted 1 ms; once per hold. -/
def execHoldLong (p : Nat) (s : State) : Host.Outcome State Fault Refusal :=
  .next (match s.designAt p with
    | some d =>
      let b := d.sideOf (chOfPart p)
      if (d.tr b).held && !(d.tr b).told then
        (s.modDesign d.tag fun d => d.setTr b { d.tr b with told := true }).designPlain d 0x1104 [s.causes d b]
      else s
    | none => s)

/-! ### Arrivals (R68, R126-R128, R169, R179) -/

/-- Bin of a VALUE slack (R179). -/
def slackBin (n : Nat) : Nat := if n = 0 then 0 else min 11 (n.log2 + 1)

/-- Whether packet `k` in flight may arrive: none that its source sent earlier to the same destination, on the same virtual channel, is still in
flight (R167). -/
def Design.inOrder (d : Design) (k : Nat) (x : VPacket) : Bool := !(d.packets.take k).any (fun y => y.src == x.src && y.dst == x.dst)

/-- VALUE_PACKET_ARRIVAL (R68, R165, R167, R169): packet `k` in flight of the design reaches its destination's inbound staging; one of a
stale attempt, or for a Cabinet outside the span, is discarded. -/
def execValuePacketArrival (p k : Nat) (s : State) : Host.Outcome State Fault Refusal :=
  .next (match s.designAt p with
    | none => s
    | some d => match d.packets[k]? with
      | none => s
      | some x =>
        if d.inOrder k x = false then s
        else
        let s := s.modDesign d.tag fun d => { d with packets := d.packets.eraseIdx k }
        if x.attempt ≠ d.attempt ∨ x.frame ≠ d.frame then s
        else if d.span.contains x.dst = false ∨ x.tag ≠ d.tag then
          let c := chOfCab x.src
          (s.count .vfIsolationDrops c []).hubEvent c 0x3001 [chNum c, dieOfCab x.dst, ((s.physOf x.dst).map (fun q => nodeOfPhys q.2.2)).getD 0]
        else
          let bin := slackBin (if (d.tr (d.sideOf (chOfCab x.dst))).held ∧ x.step = d.clearedOf x.dst then 0 else x.step + 1 - (d.cab x.dst).next)
          let s := s.modDesign d.tag fun d => d.modCab x.dst fun c =>
            { c with vals := c.vals ++ [{ step := x.step, group := x.group, values := x.values }] }
          match s.physOf x.dst with
          | some (c, die, i) => s.modStat c (64 * die + nodeOfPhys i) fun y =>
              { y with value := KV.upd 0 bin (fun n => min 0xFFFFFFFF (n + 1)) y.value }
          | none => s)

/-- Whether access `k` of a design is the first of its bank that is not granted (R127, R128). -/
def Design.firstOfBank (d : Design) (k : Nat) (x : MemRet) : Bool :=
  decide (2 ^ 17 ≤ x.addr) || !(d.rets.take k).any (fun y => y.cab == x.cab && y.addr / 8192 == x.addr / 8192)

/-- Count a stalled attempt and the bank cycles it waited (R128). -/
def State.countConflict (s : State) (c : Ch) (die i : Nat) (x : MemRet) : State :=
  if x.wait = 0 then s
  else (s.count .cmemConflictLo c [die, i, x.port]).countBy .cmemConflictHi c [die, i, x.port] x.wait

/-- A word of a Cabinet is corrected (R134): corrected again by the read after its write-back, its bit is stuck and a repair swap is
scheduled. The event names the partition and the owner of the design `d` whose Cabinet it is. -/
def State.corrected (s : State) (d : Design) (part : Nat) (c : Ch) (die i addr : Nat) : State :=
  let q := s.cab c die i
  if q.corrected.contains addr then
    if q.repairDue then s
    else (s.modCab c die i fun q => { q with repairDue := true }).event 0x2003 (1 + chNum c) part d.slot false [die, i, addr / 8192]
  else s.modCab c die i fun q => { q with corrected := insKey addr q.corrected }

/-- MEMORY_RETURN (R126-R128, R134): the bank grants access `k` of the design that is outstanding and returns its word into the
return staging, corrected or not; an uncorrectable word is an error within the frame. -/
def execMemoryReturn (p k : Nat) (ecc : Ecc) (s : State) : Host.Outcome State Fault Refusal :=
  .next (match s.designAt p with
    | none => s
    | some d => match d.rets[k]? with
      | none => s
      | some x => match s.physOf x.cab with
        | none => s
        | some (c, die, i) =>
          if d.firstOfBank k x = false then s
          else
            let s := (s.modDesign d.tag fun d => { d with rets := d.rets.eraseIdx k }).countConflict c die i x
            if x.op = 2 then s
            else if ecc = .uncorrectable then
              (s.count .cmemUncorrected c [die, i]).frameErr d.tag (.cmemWord, x.cab, x.addr / 8192)
            else
              let s :=
                if 2 ^ 17 ≤ x.addr then s
                else if ecc = .corrected then (s.count .cmemCorrected c [die, i]).corrected d (partOfCab x.cab) c die i x.addr
                else s.modCab c die i fun q => { q with corrected := q.corrected.filter (fun a => a != x.addr) }
              s.modDesign d.tag fun d => d.modCab x.cab fun q => { q with rets := q.rets ++ x.ret.toList })

end Sys2Proof.Machine
end

