-- ==== Sys2Proof/Machine/HbmMem.lean ====
section
/-! DEFINITION. The HBM controller and the march engine: reads that return (R145, R147, R154), the drain of the frame write buffer
(R146, R155), the counter tree (R281-R283), MAC verdicts (R284), sparing (R156, R157), refresh (R151), the HDM windows (R225)
and the marches of a Cabinet (R135-R137). -/

namespace Sys2Proof.Machine

open Sys2Proof

/-! ### Lines, ranges and the counter tree -/

/-- Lines of 64 bytes that a run of bytes touches. -/
def linesOf (addr n : Nat) : List Nat := (List.range ((addr + n + 63) / 64 - addr / 64)).map (fun i => (addr / 64 + i) * 64)

/-- The key range that holds an address (R279). -/
def State.rangeAt (s : State) (c : Ch) (addr : Nat) : Option (Nat × KRange) :=
  (s.ch c).ranges.find? (fun e => decide (4096 * e.2.base ≤ addr) && decide (addr < 4096 * (e.2.base + e.2.len)))

/-- Key of a node of the counter tree: its level and its index. -/
def nodeKey (level n : Nat) : Nat := level * 2 ^ 32 + n

/-- Raise minor counter `k` of the node of a level that covers unit `u` (R281, R282): at 127 the node overflows first, which raises the
node's own minor in its parent. `fuel` counts the levels left up to the roots. -/
def raiseMinor (t : KV Node) (fuel level u : Nat) : KV Node :=
  match fuel with
  | 0 => t
  | fuel + 1 =>
    let key := nodeKey level (u / 64)
    let nd := KV.get {} key t
    let k := u % 64
    if KV.get 0 k nd.minors = 127 then
      let t := KV.put {} key { major := nd.major + 1, minors := KV.put 0 k 1 [] } t
      raiseMinor t fuel (level + 1) (u / 64)
    else KV.put {} key { nd with minors := KV.upd 0 k (· + 1) nd.minors } t

/-- Count a write of lines in the counter tree (R282), for a range in ENC+INT. An overflow writes a poisoned line back poisoned, as R282 step 4
has it, where R155 says that a re-encryption clears the poison (DESIGN CHOICE, log entry 24); it takes no time of its own (log entry 25). -/
def HbmSt.raiseLines (h : HbmSt) (lines : List Nat) : HbmSt :=
  { h with tree := lines.foldl (fun t a => raiseMinor t 4 1 (a / 64)) h.tree }

/-! ### Uncorrectable reads and sparing (R154, R156, R157) -/

/-- Logical pseudo-channel of an address (R142). -/
def pcOf (addr : Nat) : Nat := addr / 256 % 31

/-- Position of the block of an address within its pseudo-channel (R142). -/
def blockPos (addr : Nat) : Nat := addr / 256 / 31

/-- Physical pseudo-channel that serves an address (R142, R156): while a pseudo-channel is being copied, the spare below the copy pointer. -/
def HbmSt.physPc (h : HbmSt) (addr : Nat) : Nat :=
  let pc := pcOf addr
  if h.replaced = some pc ∨ (h.sparing = some pc ∧ blockPos addr < h.sparePos) then 31 else pc

/-- Blocks of a pseudo-channel: 768 MiB (R142, R156). -/
def pcBlocks : Nat := 3145728

/-- The copy pointer of a sparing copy moves on (R156): how far in a nanosecond is a free value, one block at most (log entry 4). -/
def State.spareTick (s : State) (c : Ch) : State :=
  if (s.ch c).hbm.sparing.isSome then
    (s.modHbm c fun h => { h with sparePos := min (pcBlocks - 1) (h.sparePos + s.free.toNat % 2) }).freeNext
  else s

/-! ### Arbitration (R150) -/

/-- Rank of a request that has waited since a time: 2 once it has waited 2 µs (R150). -/
def agedRank (rank since now : Nat) : Nat := if since + 2000 ≤ now then 2 else rank

/-- The address of the next block of the capture writer. -/
def State.captureNext (s : State) (c : Ch) : Nat := 0x6A800000 + 64 * (s.ch c).acq.ringPos

/-- The requests that wait for a pseudo-channel, each with its rank and the time since which it waits (R150): array reads, the drain, and the
capture writer, which takes rank 1 in PANIC. -/
def State.hbmQueue (s : State) (c : Ch) (pc : Nat) : List (Nat × Nat) :=
  let h := (s.ch c).hbm
  (h.reads.filter (fun r => pcOf r.addr == pc)).map (fun r => (agedRank 3 r.issuedAt s.clock, r.issuedAt)) ++
  ((h.wbuf.find? (fun e => e.committed)).toList.filter (fun e => pcOf e.addr == pc)).map (fun e => (agedRank 4 e.since s.clock, e.since)) ++
  (match (s.ch c).acq.fifo with
    | [] => []
    | r :: _ =>
      let since := s.clock - (s.ticks c - r.tick)
      if pcOf (s.captureNext c) = pc then [(if h.panic then 1 else agedRank 5 since s.clock, since)] else [])

/-- Whether the controller serves a request to an address now (R150, R156): none of a higher rank, and none of its own that is older, waits
for the pseudo-channel, and its block is not the one being copied. -/
def State.hbmServes (s : State) (c : Ch) (addr rank since : Nat) : Bool :=
  let h := (s.ch c).hbm
  (s.hbmQueue c (pcOf addr)).all (fun q => decide (rank < q.1) || (q.1 == rank && decide (since ≤ q.2))) &&
  !(h.sparing == some (pcOf addr) && h.sparePos == blockPos addr)

/-- Start to spare a logical pseudo-channel, or wait for the copy that runs, or find the spare used (R156, R157). -/
def State.sparePc (s : State) (c : Ch) (pc : Nat) : State :=
  let h := (s.ch c).hbm
  if h.replaced.isSome then (s.modHbm c fun h => { h with noSpare := true }).hubEvent c 0x2104 [chNum c, pc]
  else if h.sparing.isSome then s.modHbm c fun h => { h with waitSparing := h.waitSparing ++ [pc] }
  else (s.modHbm c fun h => { h with sparing := some pc, sparePos := 0 }).hubEvent c 0x2103 [chNum c, pc, 1]

/-- Whether a pseudo-channel is already spared, being spared or waiting: further failures of it ask for no other copy, those of the one that
the spare carries included (DESIGN CHOICE, log entry 26). -/
def HbmSt.spareKnown (h : HbmSt) (pc : Nat) : Bool := h.sparing == some pc || h.replaced == some pc || h.waitSparing.contains pc

/-- An uncorrectable read (R154): counted, recorded in HBM_ERR_LAST, reported, and counted against its pseudo-channel. The places of bank
and row in an address, and the range of an address in none, are not stated: free values (log entry 4). The
event names the partition and owner of the design whose read met it. -/
def State.hbmUncorrected (s : State) (c : Ch) (addr requester kind : Nat) : State :=
  let who := if requester = 0 then (s.designs.find? (fun d => d.regions.any (fun g =>
    g.side == chNum c && decide (g.base ≤ addr) && decide (addr < g.base + g.bytes)))).map (fun d => (d.low, d.slot)) else none
  let pc := pcOf addr
  let phys := (s.ch c).hbm.physPc addr
  let fr := s.free.toNat
  let rg := match s.rangeAt c addr with
    | some e => e.1
    | none => fr % 16
  let s := (s.count .hbmUncorrected c []).freeNext
  let s := s.setReg .hbmErrLastLo c [] (BitVec.ofNat 32 (phys + 32 * field fr 4 27))
  let s := s.setReg .hbmErrLastHi c [] (BitVec.ofNat 32 (requester + 8 * kind + 32 * rg))
  let s := s.event 0x2102 (1 + chNum c) (who.map (·.1) |>.getD 0xFF) (who.map (·.2) |>.getD 0) false [chNum c, requester, kind]
  let s := s.modHbm c fun h => { h with uncorr := KV.upd 0 pc (· + 1) h.uncorr }
  let lim := s.regField .hbmSpareCtrl c [] 16 8
  let n := KV.get 0 pc (s.ch c).hbm.uncorr
  if lim = 0 ∨ n < lim ∨ (s.ch c).hbm.spareKnown pc ∨ ((s.ch c).hbm.noSpare ∧ n ≠ lim) then s else s.sparePc c pc

/-- Whether a run of bytes meets a poisoned line or a lost subtree (R155, R283). -/
def HbmSt.unreadable (h : HbmSt) (addr n : Nat) : Bool :=
  (linesOf addr n).any (fun a => h.poison.contains a) || h.lost.any (fun x => decide (addr < x.2) && decide (x.1 < addr + n))

/-- KIND of an uncorrectable read: 1 for a poisoned line, otherwise 0. -/
def HbmSt.kindAt (h : HbmSt) (addr n : Nat) : Nat := bit01 ((linesOf addr n).any (fun a => h.poison.contains a))

/-- A SECURITY_ALARM, counted in SEC_ALARMS (R283, R284): `kind` 0 HBM, 1 link, 2 host read; sealed for a tenant range. -/
def State.alarm (s : State) (c : Ch) (kind port part owner : Nat) : State :=
  (s.count .secAlarms .a []).event 0x6001 (1 + chNum c) part owner (decide (owner ≠ 0)) [chNum c, kind, port]

/-! ### A lost subtree (R283) -/

/-- Address of a node of the counter tree (R158, R281): the leaves from the start of the region on, then levels 2 and 3, 64 bytes each
(DEDUCED, log entry 27). -/
def nodeAddr (level n : Nat) : Nat :=
  0x4FE600000 + 64 * (n + (if level = 1 then 0 else if level = 2 then 6094848 else 6094848 + 95232))

/-- Bytes that a node of a level covers. -/
def subtreeBytes (level : Nat) : Nat := 4096 * 64 ^ (level - 1)

/-- The memory of a channel with its committed writes that have not drained (R147). -/
def HbmSt.flat (h : HbmSt) (sel : WEntry → Bool) : Memory :=
  (h.wbuf.filter (fun e => e.committed && sel e)).foldl (fun (m : Memory) e => m.writeBytes e.addr e.data) h.mem

/-- Rebuild the lines of a subtree of a TWINNED design from the other channel's copy (R283): written whole, they lose their poison (R155). -/
def State.rebuildSubtree (s : State) (c : Ch) (d : Design) (lo hi : Nat) : State :=
  d.regions.foldl (fun s g =>
    if g.side = chNum c ∧ g.base < hi ∧ lo < g.base + g.bytes then
      match d.regions.find? (fun o => o.index == g.index && o.side != g.side) with
      | some o =>
        let a := max lo g.base
        let n := min hi (g.base + g.bytes) - a
        let other := (s.ch (otherCh c)).hbm
        let src := (other.flat (fun _ => true)).filter (fun e => decide (o.base + (a - g.base) ≤ e.1) && decide (e.1 < o.base + (a - g.base) + n))
        s.modHbm c fun h => { h with mem := src.foldl (fun m e => Memory.write m (e.1 - o.base + g.base) e.2) (h.mem.zero a (a + n)),
                                      poison := h.poison.filter (fun x => !(decide (a ≤ x) && decide (x < a + n))) }
      | none => s
    else s) s

/-- An uncorrectable word of a Hutch, the roots of the counter tree included, is lost key material (R141, R283): the Hutch is wiped and the
designs with a partition of the channel stop; that their status is MEMORY_ERROR is a DESIGN CHOICE (log entry 40). -/
def State.hutchLost (s : State) (c : Ch) : State :=
  ((s.hubEvent c 0x2006 [chNum c, 1]).hutchWiped c 4).stopWhere (fun d => d.chans.contains c) .memoryError

/-- A node of the counter tree is lost (R283): the read that failed is recorded, SECURITY_ALARM and SUBTREE_LOST, sealed for a tenant range, and
a new subtree with fresh majors. -/
def State.nodeLost (s : State) (c : Ch) (addr level owner : Nat) : State :=
  let n := addr / subtreeBytes level
  let s := s.hbmUncorrected c (nodeAddr level n) 4 2
  let s := (s.alarm c 0 0 0xFF owner).event 0x6003 (1 + chNum c) 0xFF owner (decide (owner ≠ 0)) [chNum c, level, n]
  let major := s.free.toNat
  (s.modHbm c fun h => { h with tree := KV.put {} (nodeKey level n) { major := major } h.tree }).freeNext

/-- The subtree of a level that covers an address of a tenant range in ENC+INT is lost (R283): in TWINNED it is
rebuilt, otherwise its lines are lost and the designs with a region in it stop. Level 4 is a root, in the Hutch. -/
def State.subtreeLost (s : State) (c : Ch) (addr level : Nat) : State :=
  match s.rangeAt c addr with
  | none => s
  | some (r, g) =>
    if g.mode ≠ 2 then s
    else if 3 < level then s.hutchLost c
    else
    let n := addr / subtreeBytes level
    let lo := max (n * subtreeBytes level) (4096 * g.base)
    let hi := min ((n + 1) * subtreeBytes level) (4096 * (g.base + g.len))
    let s := s.nodeLost c addr level g.owner
    let mine := s.designs.filter (fun d => d.regions.any (fun x => x.side == chNum c && decide (x.base < hi) && decide (lo < x.base + x.bytes)))
    match mine.find? (fun d => d.twin && d.fencedSide.isNone) with
    | some d => s.rebuildSubtree c d lo hi
    | none =>
      let s := s.modHbm c fun h => { h with lost := h.lost ++ [(lo, hi)] }
      let s := s.modRange c r fun x => { x with state := 4 }
      s.stopWhere (fun d => mine.any (fun x => x.tag == d.tag)) .memoryError

/-! ### Reads that return -/

/-- Bin of a memory latency (R179): powers of two from the clock's count. -/
def latencyBin (ns : Nat) : Nat := if ns < 16 then 0 else min 15 (ns.log2 - 3)

/-- Put the words of a read into the landing buffer and set their flags (R73). -/
def State.land (s : State) (r : HRead) (bytes : List Byte) : State :=
  s.modDesign r.design fun d => d.modCab r.cab fun x =>
    { x with landing := (List.range (r.size / 8)).foldl (fun t i => KV.put 0 (r.lbo + i) (BitVec.ofNat 64 (rd bytes (8 * i) 8)) t) x.landing,
             invalid := x.invalid.filter (fun w => !(decide (r.lbo ≤ w) && decide (w < r.lbo + r.size / 8))) }

/-- A read in error (R90): an error within the frame in progress. The re-run issues the frame's own reads again; the controller repeats a read
of an earlier frame, whose words a later one may take (DESIGN CHOICE, log entry 28). -/
def State.readErr (s : State) (r : HRead) (src : ErrSrc) : State :=
  match s.design r.design with
  | some d =>
    let go := (d.state == .running || d.state == .stopping) && !d.flipped
    if r.attempt = 0 then s
    else if r.attempt = d.attempt ∧ r.frame = d.frame ∧ d.flipped = false then s.frameErr r.design (src, r.cab, r.addr)
    else
      let s := s.modHbm (chOfCab r.cab) fun h => { h with reads := h.reads ++ [r] }
      if go then s.frameErr r.design (src, r.cab, r.addr) else s
  | none => s

/-- Whether a range gives only errors: it is LOCKED (R284), or its key is lost (R289). -/
def KRange.unkeyed (g : KRange) : Bool := g.state == 3 || (g.mode != 0 && g.key.isNone)

/-- What the counter nodes of an access to a tenant range met (R283). -/
def State.eccNode (s : State) (c : Ch) (addr : Nat) : Ecc → State
  | .node l => s.subtreeLost c addr l
  | _ => s

/-- HBM_READ_RETURN (R145, R147, R154): read `k` in flight of a channel returns. Data of an aborted attempt are discarded; otherwise the
words land, or the read is an error within its frame; the counter node `node`, failed twice, is lost first (R283). A request of a
higher rank to its pseudo-channel goes first (R150). -/
def execHbmReadReturn (c : Ch) (k : Nat) (ecc : Ecc) (node : Option Nat) (s : State) : Host.Outcome State Fault Refusal :=
  .next (match (s.ch c).hbm.reads[k]? with
    | none => s
    | some r =>
      if s.hbmServes c r.addr (agedRank 3 r.issuedAt s.clock) r.issuedAt = false then s
      else
      let s := s.modHbm c fun h => { h with reads := h.reads.eraseIdx k }
      let s := s.eccNode c r.addr (lostNode node)
      let h := (s.ch c).hbm
      let rg := s.rangeAt c r.addr
      let integ := (rg.map (fun e => e.2.mode == 2)).getD false
      let s := if ecc = .corrected then s.count .hbmCorrected c [] else s
      if ecc = .uncorrectable ∨ h.unreadable r.addr r.size then
        (s.hbmUncorrected c r.addr 0 (h.kindAt r.addr r.size)).readErr r .hbmWord
      else if r.attempt = 0 then s
      else if (rg.map (·.2.unkeyed)).getD false then s.readErr r .mac
      else
        let cur := (s.design r.design).map (fun d => decide (r.attempt = d.attempt) && decide (r.frame = d.frame))
        let bytes := if cur = some true then h.overlay r else r.data
        let s := (s.land r bytes).inject c .hub (unitOut 0) 128 (memPacket 1 (s.cabAddr r.cab) (fabAddr c 2 0) r.design 0 1 0 r.num (r.size / 8)
          (hbmPayload r.addr (Nat.log2 (r.size / 8)) r.lbo r.attempt r.frame) (wordsOf bytes))
        let s := match s.physOf r.cab with
          | some (_, die, i) => s.modStat c (64 * die + nodeOfPhys i) fun x =>
              { x with mem := KV.upd 0 (latencyBin (s.clock - r.issuedAt)) (fun n => min 0xFFFFFFFF (n + 1)) x.mem }
          | none => s
        if integ then
          s.modHbm c fun h => { h with
            macs := h.macs.filter (fun m => !(m.failed && m.design == r.design && m.cab == r.cab && decide (r.lbo ≤ m.lbo) && decide (m.lbo < r.lbo + r.size / 8))) ++
              [{ design := r.design, cab := r.cab, attempt := r.attempt, frame := r.frame, addr := r.addr, link := none, lbo := r.lbo, words := r.size / 8 }] }
        else s)

/-! ### MAC verdicts (R284) -/

/-- An attack on a range (R284 step 4): its key is destroyed, it is LOCKED, and every design with a region in it stops. -/
def State.lockRange (s : State) (c : Ch) (r : Nat) : State :=
  let s := s.modRange c r fun g => { g with key := none, state := 3 }
  (s.alarmWhere fun d => d.usesRange c r).hubEvent c 0x6002 [chNum c, r]

/-- A MAC of HBM data fails (R284): alarm; the first failure of a line is an error within the frame that used it, now or later (R83), the
second locks the range. -/
def State.macFailed (s : State) (c : Ch) (m : MacCheck) : State :=
  let line := m.addr / 64 * 64
  let rg := s.rangeAt c m.addr
  let s := s.alarm c 0 0 (((s.design m.design).map (·.low)).getD 0xFF) ((rg.map (·.2.owner)).getD 0)
  let s := match s.design m.design with
    | some d => if m.used = some d.frame then s.frameErr m.design (.mac, m.cab, m.addr)
      else s.modHbm c fun h => { h with macs := h.macs ++ [{ m with failed := true }] }
    | none => s
  if (s.ch c).hbm.fails.contains line then
    let s := s.modHbm c fun h => { h with fails := h.fails.filter (fun x => x != line) }
    match rg with
    | some e => s.lockRange c e.1
    | none => s
  else s.modHbm c fun h => { h with fails := h.fails ++ [line] }

/-! ### The drain of the frame write buffer (R146, R154, R155) -/

/-- Whether a write costs a read and a merge (R143): it does not fill the 32-byte accesses, or in ENC+INT the lines, that it touches. -/
def needsMerge (addr size : Nat) (integ : Bool) : Bool :=
  let u := if integ then 64 else 32
  addr % u != 0 || (addr + size) % u != 0

/-- The first committed entry reaches the stack and frees its quota (R146). A write of a whole line clears its poison; a merge that cannot read
its line writes the new bytes and poisons it (R154, R155). -/
def State.drainOne (s : State) (c : Ch) (ecc : Ecc) : State :=
  match (s.ch c).hbm.wbuf.findIdx? (fun e => e.committed) with
  | none => s
  | some k => match (s.ch c).hbm.wbuf[k]? with
    | none => s
    | some e =>
      let n := e.data.length
      let integ := ((s.rangeAt c e.addr).map (fun x => x.2.mode == 2)).getD false
      let lines := linesOf e.addr n
      let whole := lines.filter (fun a => decide (e.addr ≤ a) && decide (a + 64 ≤ e.addr + n))
      let merge := needsMerge e.addr n integ
      let bad := merge && (ecc == .uncorrectable || (s.ch c).hbm.unreadable e.addr n)
      let kind := (s.ch c).hbm.kindAt e.addr n
      let s := s.modHbm c fun h =>
        { h with wbuf := h.wbuf.eraseIdx k, mem := h.mem.writeBytes e.addr e.data,
                 poison := h.poison.filter (fun a => !whole.contains a) }
      let s := if integ then s.modHbm c fun h => h.raiseLines lines else s
      if bad then
        (s.hbmUncorrected c e.addr 3 kind).modHbm c fun h =>
          { h with poison := h.poison ++ (lines.filter (fun a => !h.poison.contains a)) }
      else if merge && ecc == .corrected then s.count .hbmCorrected c [] else s

/-- Lines of a merge or of an overflow that fail their verification once, or twice (R282, R284): the second failure is an attack on the range. -/
def State.drainMacs (s : State) (c : Ch) (addr n : Nat) : State :=
  match s.rangeAt c addr with
  | some (r, g) =>
    if g.mode ≠ 2 ∨ n = 0 then s
    else
      let s := s.alarm c 0 0 0xFF g.owner
      if n = 1 then s else (s.alarm c 0 0 0xFF g.owner).lockRange c r
  | none => s

/-- WBUF_DRAIN (R146, R150): the first committed entry drains, unless a request of a higher rank to its pseudo-channel goes first. -/
def execWbufDrain (c : Ch) (met : DrainRead) (s : State) : Host.Outcome State Fault Refusal :=
  .next (match (s.ch c).hbm.wbuf.find? (fun e => e.committed) with
    | none => s
    | some e => if s.hbmServes c e.addr (agedRank 4 e.since s.clock) e.since then
        ((s.eccNode c e.addr met.ecc).drainMacs c e.addr met.macFails).drainOne c met.ecc
      else s)

/-- Committed entries drain until the quota of a partition, 2 MiB, has room for `n` bytes; `fuel` bounds it by their number (R146, R148). -/
def State.makeRoom (s : State) (c : Ch) (p n : Nat) : Nat → State
  | 0 => s
  | fuel + 1 =>
    if (s.ch c).hbm.quota p + n ≤ 2097152 ∨ (s.ch c).hbm.wbuf.all (fun e => !e.committed) then s
    else State.makeRoom (s.drainOne c .ok) c p n fuel

/-- The pieces of a run of bytes that lie in one line each. -/
def linePieces (addr : Nat) (data : List Byte) : List (Nat × List Byte) :=
  (linesOf addr data.length).map fun a => (max a addr, (data.drop (max a addr - addr)).take (a + 64 - max a addr))

/-- A write of a message engine or of a MEM message into a region of a design, through the write buffer as committed entries of one line each
(R143, R148, R149); they count against the design's lowest partition of the channel (DESIGN CHOICE, log entry 29). -/
def State.commitWrite (s : State) (c : Ch) (d : Design) (addr : Nat) (data : List Byte) : State :=
  let p := (d.allParts.filter (fun p => chOfPart p == c)).headD d.low
  (linePieces addr data).foldl (fun s e =>
    let s := s.makeRoom c p e.2.length (s.ch c).hbm.wbuf.length
    let x : WEntry := { design := d.tag, partition := p, committed := true, step := 0, port := 0, addr := e.1, data := e.2, since := s.clock }
    s.modHbm c fun h => { h with wbuf := h.wbuf ++ [x] }) s

/-! ### Sparing, refresh, heat -/

/-- HBM_SPARE_START (R156): a write of HBM_SPARE_CTRL; START is ignored with an event once the spare is used. PC 31 is no logical pseudo-channel:
START with it does nothing; in STANDBY the copy starts at once (DESIGN CHOICE, log entry 26). -/
def execHbmSpareStart (c : Ch) (value : Word32) (s : State) : Host.Outcome State Fault Refusal :=
  .next (if s.portAnswers = false then s else if s.domOn .hub c = false then s.timedOut (regOff .hbmSpareCtrl c [])
    else
      let s := s.storeBits .hbmSpareCtrl c [] value
      let pc := field value.toNat 1 5
      let h := (s.ch c).hbm
      if bitAt value.toNat 0 = false ∨ 30 < pc then s
      else if h.replaced.isSome then s.hubEvent c 0x2105 [chNum c]
      else if h.sparing = none then s.sparePc c pc
      else s.modHbm c fun h => { h with waitSparing := h.waitSparing ++ [32 + pc] })

/-- PC_SPARING_DONE (R156): the copy ends; the blocks of the pseudo-channel that could not be read, given by their positions, are
poisoned in the spare. Requests that waited find the spare used. -/
def execPcSparingDone (c : Ch) (unreadable : List Nat) (s : State) : Host.Outcome State Fault Refusal :=
  .next (match (s.ch c).hbm.sparing with
    | none => s
    | some pc =>
      let lines := unreadable.flatMap (fun b => linesOf ((b * 31 + pc) * 256) 256)
      let wait := (s.ch c).hbm.waitSparing
      let s := s.modHbm c fun h =>
        { h with sparing := none, sparePos := 0, replaced := some pc, waitSparing := [],
                 poison := h.poison ++ lines.filter (fun a => !h.poison.contains a) }
      let s := s.hubEvent c 0x2103 [chNum c, pc, 2]
      wait.foldl (fun s w => if 32 ≤ w then s.hubEvent c 0x2105 [chNum c] else s.sparePc c w) s)

/-- REFRESH (R151): every pseudo-channel of a serving stack stalls, so the requests in flight are late. -/
def execRefresh (c : Ch) (s : State) : Host.Outcome State Fault Refusal :=
  .next (if (s.pw c).state.arrayOn then s.modHbm c fun h => { h with reads := h.reads.map (fun r => { r with refreshed := true }) } else s)

/-- HBM_HOT (R151): above 85 °C refresh runs at 1.95 µs, and below 80 °C again at 3.9 µs. -/
def execHbmHot (c : Ch) (degC : Int) (s : State) : Host.Outcome State Fault Refusal :=
  .next (if (s.pw c).state.arrayOn = false then s
    else if 85 < degC then s.modHbm c fun h => { h with hot := true }
    else if degC < 80 then s.modHbm c fun h => { h with hot := false }
    else s)

/-! ### The HDM windows (R225, R284, R359) -/

/-- Bytes of the capture ring of a channel (R159). -/
def HbmSt.ringBytes (h : HbmSt) : Nat := (h.ring + 1) * 2 ^ 28

/-- First byte of the capture ring in the channel address space (R158). -/
def captureBase : Nat := 0x6A800000

/-- Whether an HDM address exists (R225). -/
def State.hdmIn (s : State) (c : Ch) (addr : Nat) : Bool := s.channels.contains c && decide (addr < (s.ch c).hbm.ringBytes)

/-- What CDAT reports of the window of an HDM decoder (R225): its capacity, and its latency and bandwidth; decoder 1 of a PD-7410 has none. -/
def State.cdat (s : State) (c : Ch) : Option (Nat × List Byte) :=
  if s.channels.contains c then some ((s.ch c).hbm.ringBytes, Config.cdatFigures (chNum c)) else none

/-- A host read that cannot be answered: poison. -/
def State.replyPoison (s : State) : State := (s.modRegs fun g => { g with reply := s.free, poison := true }).freeNext

/-- 64-byte units of a sealed block (R354): header, payload, tag. -/
def Block.units (b : Block) : Nat := (32 + b.payload.length + 16 + 63) / 64

/-- The block of the capture ring that holds a byte. -/
def AcqSt.blockAt (a : AcqSt) (h : HbmSt) (addr : Nat) : Option Block :=
  a.ringBlocks.find? (fun b => decide ((addr / 64 + h.ringBytes / 64 - b.pos) % (h.ringBytes / 64) < b.units))

/-- A block lost on its way to the host: reported and counted once (R359). -/
def State.captureLost (s : State) (c : Ch) (b : Block) : State :=
  if b.lost then s
  else
    let s := s.modAcq c fun a => { a with ringBlocks := a.ringBlocks.map (fun x => if x.pos = b.pos then { x with lost := true } else x) }
    (s.count .acqLost c []).hubEvent c 0xA003 [chNum c, b.type, b.id, b.bseq % 2 ^ 32]

/-- The blocks of the capture ring that a run of bytes of the channel holds are lost (R359). -/
def State.blocksLost (s : State) (c : Ch) (lo hi : Nat) : State :=
  let n := (s.ch c).hbm.ringBytes / 64
  (s.ch c).acq.ringBlocks.foldl (fun s b => if (List.range b.units).any (fun i =>
    let a := captureBase + 64 * ((b.pos + i) % n)
    decide (lo ≤ a) && decide (a < hi)) then s.captureLost c b else s) s

/-- A counter node of the capture ring is lost, and the blocks of its subtree with it (R283, R359); level 4 is a root, in the Hutch. -/
def State.ringNode (s : State) (c : Ch) (addr : Nat) : Ecc → State
  | .node l =>
    if (s.ch c).hbm.integrity = false then s
    else if 3 < l then s.hutchLost c
    else (s.nodeLost c addr l 0).blocksLost c (addr / subtreeBytes l * subtreeBytes l) ((addr / subtreeBytes l + 1) * subtreeBytes l)
  | _ => s

/-- A line of the capture ring fails its MAC (R284): alarm; the second failure is an attack on the hub region, which stops every design whose
records the ring holds. Whether it was the second. -/
def State.ringMacFailed (s : State) (c : Ch) (addr kind : Nat) : State × Bool :=
  let line := addr / 64 * 64
  let s := s.alarm c kind 0 0xFF 0
  if (s.ch c).hbm.fails.contains line then
    let ids := (s.ch c).acq.ringBlocks.map (·.id)
    ((s.modHbm c fun h => { h with fails := h.fails.filter (fun x => x != line) }).alarmWhere
      (fun d => ids.contains d.tag && d.chans.contains c), true)
  else (s.modHbm c fun h => { h with fails := h.fails ++ [line] }, false)

/-- HDM_READ (R225): the aligned word of the capture ring; poison for an uncorrectable line or a failed MAC, the second of a line being
an attack on the hub region, which stops every design whose records the ring holds. Without its hub key the ring is
unreadable (R289): what a read gives is a free value (log entry 4). -/
def execHdmRead (c : Ch) (addr : Nat) (ecc : Ecc) (macOk : Bool) (s : State) : Host.Outcome State Fault Refusal :=
  if s.portAnswers = false then .next s
  else if s.hdmIn c addr = false then .fault (.hdmOutside addr)
  else .next (
    let a := captureBase + addr / 8 * 8
    if (s.pw c).state.arrayOn = false then s.replyPoison
    else
    let s := s.ringNode c a ecc
    let h := (s.ch c).hbm
    let gone := match ecc with
      | .node _ => h.integrity
      | _ => false
    if gone then s.replyPoison
    else if ecc = .uncorrectable ∨ h.unreadable a 8 then
      let s := (s.hbmUncorrected c a 6 (h.kindAt a 8)).replyPoison
      match (s.ch c).acq.blockAt h addr with
      | some b => if (s.ch c).acq.active then s.captureLost c b else s
      | none => s
    else if macOk = false ∧ h.integrity then
      (s.ringMacFailed c a 2).1.replyPoison
    else
      let s := if ecc = .corrected then s.count .hbmCorrected c [] else s
      let s := (s.modHbm c fun h => { h with fails := h.fails.filter (fun x => x != a / 64 * 64) }).hubMem c 19 c 0 a 8 []
      if (s.ch c).hutch.hubKey.isNone then (s.modRegs fun g => { g with reply := s.free, poison := false }).freeNext
      else s.modRegs fun g => { g with reply := BitVec.ofNat 64 (leNat (h.mem.readBytes a 8)), poison := false })

/-- HDM_WRITE (R225): the write is discarded and logged as RING_ERROR cause 3 (R240). -/
def execHdmWrite (c : Ch) (addr : Nat) (_value : Word64) (s : State) : Host.Outcome State Fault Refusal :=
  if s.portAnswers = false then .next s
  else if s.hdmIn c addr = false then .fault (.hdmOutside addr)
  else .next (s.hubEvent c 0x0004 [0xFFFF, 3])

/-! ### Marches (R135-R137) -/

/-- Whether a physical Cabinet is owned by a tenant: it carries a logical Cabinet of a partition that a tenant holds (R136). -/
def State.cabOwned (s : State) (c : Ch) (die i : Nat) : Bool :=
  match s.logicalOf c die i with
  | some l => (s.part (partOfCab l)).owner != 0
  | none => false

/-- MARCH_START (R135, R136): a write of MARCH_CTRL. START on a Cabinet owned by a tenant has no effect but its event; in SERVICE the
right stands in the lifecycle state RETURNED, after the wipe of R268. -/
def execMarchStart (c : Ch) (die cab : Nat) (value : Word32) (s : State) : Host.Outcome State Fault Refusal :=
  .next (if s.portAnswers = false then s else if s.channels.contains c = false ∨ 2 ≤ die ∨ 34 ≤ cab then s.badAccess
    else if s.domOn .array c = false then s.timedOut (regOff .marchCtrl c [die, cab])
    else
      let s := s.storeBits .marchCtrl c [die, cab] value
      if bitAt value.toNat 0 = false ∨ s.sec.lifecycle = .blank ∨ s.sec.lifecycle = .scrapped then s
      else if s.cabOwned c die cab && !(s.mode.mode == .service && s.sec.lifecycle == .returned) then s.hubEvent c 0x2004 [die, cab]
      else if (s.cab c die cab).march.isSome then s
      else s.modCab c die cab fun p => { p with march := some { run := field value.toNat 1 1, design := none } })

/-- Complete the MARCH_OK of a design once no march of it runs (opcode 0x46): detail byte 16 is the number of Cabinets run. -/
def State.marchesDone (s : State) (tag : Nat) : State :=
  match s.design tag with
  | none => s
  | some d =>
    let busy := d.span.any (fun l => match s.physOf l with
      | some (c, die, i) => (s.cab c die i).march.isSome
      | none => false)
    if busy then s
    else match s.host.cmds.find? (fun m => m.desc.opcode == 0x46 && m.started && d.allParts.contains m.desc.partition.toNat) with
      | some m => s.complete m (if d.marched then .memoryError else .ok) (detail [BitVec.ofNat 8 d.span.length])
      | none => s

/-- The contents of a Cabinet's memory that nobody knows: a free value in every word (R137, log entry 4). -/
def freeMem (n : Nat) : KV Word64 :=
  ((List.range 131072).map (fun a => (a, Config.freeValue (n + a)))).filter (fun e => e.2 ≠ 0)

/-- MARCH_DONE (R135, R137): the run of a physical Cabinet ends; a failure, with its first bank and word, marks the Cabinet failed, so that a
spare takes its place, and after a PRESERVING run on a design's Cabinet the design stops and the contents are unknown. -/
def execMarchDone (c : Ch) (die cab : Nat) (fail : Option (Nat × Nat)) (s : State) : Host.Outcome State Fault Refusal :=
  .next (match (s.cab c die cab).march with
    | none => s
    | some m =>
      let s := s.modCab c die cab fun p => { p with march := none }
      let s := match fail with
        | none => s
        | some (bank, word) =>
          let s := s.modCab c die cab fun p =>
            { p with failed := true, marchFailed := true, failBank := bank % 16, failWord := word % 8192 }
          let s := s.hubEvent c 0x2005 [die, cab, bank % 16, word % 8192]
          match m.design, s.logicalOf c die cab with
          | some tag, some l =>
            let n := s.freeCtr
            let s := (s.stopWhere (fun d => d.tag == tag && d.state != .stopped) .memoryError).modDesign tag fun d =>
              ({ d with marched := true, badState := true }).modCab l fun x => { x with mem := freeMem n }
            { s with freeCtr := n + 131072 }.modCab c die cab fun p => { p with repairDue := true }
          | none, some _ => s.modCab c die cab fun p => { p with repairDue := true }
          | _, none => s.spareFailed c die
      match m.design with
      | some tag => s.marchesDone tag
      | none => s)

end Sys2Proof.Machine
end

