-- ==== Sys2Proof/Machine/Outputs.lean ====
section
/-! DEFINITION. What a committed frame gives to the outside (R84 step 5, R85): capture records (R351-R353, R358, R360, R366-R368),
trigger units (R362-R365, R396), data trace (R373-R375), link values (R216, R217), the guest's inputs (R184), outlet records
(R248, R252, R253) and probe pins (R370). -/

namespace Sys2Proof.Machine

open Sys2Proof

/-! ### Signals and image-local numbers -/

/-- Image-local number of a logical Cabinet (R115, R351, R361). -/
def Design.imageCab (d : Design) (l : Nat) : Nat := (if d.twin then l % 64 else l) ^^^ (16 * d.x)

/-- The value of a signal of PROBEMAP in the frame just run: the result of its cell at its step. -/
def Design.signal (d : Design) (sig : Nat) : Bool :=
  match d.probes.find? (fun p => p.signal == sig) with
  | some p => (d.cellAt (cellKey (d.liveCab p.cab) p.bench p.cell)).res.getLsbD p.step
  | none => false

/-- The Cabinets of the span in a channel, in ascending image-local number. -/
def Design.cabsIn (d : Design) (c : Ch) : List Nat :=
  ((d.span.filter (fun l => chOfCab l == c)).foldr (fun l acc => insKey (128 * d.imageCab l + l) acc) []).map (· % 128)

/-- Bits as bytes, bit k in bit k mod 8 of byte k / 8. -/
def packBits (bits : List Bool) : List Byte :=
  leBytes ((bits.length + 7) / 8) (bits.foldr (fun b v => bit01 b + 2 * v) 0)

/-- Pad with zero bytes to a multiple of `n`. -/
def padTo (n : Nat) (l : List Byte) : List Byte := l ++ List.replicate ((n - l.length % n) % n) 0

/-! ### Capture records (R351-R353, R358, R365-R368) -/

/-- Split bytes into runs of zeros and of non-zeros of at most 128. -/
def zeroRuns (l : List Byte) : List (Bool × List Byte) :=
  l.foldr (fun b acc => match acc with
    | (z, bs) :: rest => if (z == (b == 0)) && decide (bs.length < 128) then (z, b :: bs) :: rest else (b == 0, [b]) :: acc
    | [] => [(b == 0, [b])]) []

/-- The tokens of R358. Where tokens could be cut in more than one way, they are cut at the runs (log entry 12). -/
def tokens (l : List Byte) : List Byte :=
  (zeroRuns l).flatMap fun r => if r.1 then [BitVec.ofNat 8 (0x7F + r.2.length)] else BitVec.ofNat 8 (r.2.length - 1) :: r.2

/-- Whether the next record of a Cabinet may be compressed (R358): it is not the first of a group of 256. -/
def CabSt.mayCompress (x : CabSt) (body : List Byte) : Bool :=
  decide (0 < x.sinceFull) && decide (x.sinceFull < 256) && x.prevBody.length == body.length

/-- A FRAME record with its body, plain or coded (R351, R358). -/
def Design.frameForm (d : Design) (l : Nat) (comp : Bool) (body : List Byte) : List Byte :=
  let x := d.cab l
  let content := padTo 8 body
  leBytes 1 1 ++ leBytes 1 (bit01 (decide (262016 < x.tapCount)) + 2 * bit01 comp) ++ leBytes 2 (16 + content.length) ++ leBytes 6 d.frame ++
    leBytes 1 (d.imageCab l) ++ leBytes 1 d.phase ++ leBytes 4 x.taps.length ++ content

/-- The FRAME record of a Cabinet as it enters the FIFO, and the compressed form that an engine is to make of it (R351, R356, R358). -/
def Design.frameRec (d : Design) (l : Nat) : List Byte × Option (List Byte) :=
  let x := d.cab l
  let body := packBits x.taps
  (d.frameForm l false body,
    if d.cap.compress && x.mayCompress body then some (d.frameForm l true (tokens (body.zipWith (· ^^^ ·) x.prevBody))) else none)

/-- Remember the body of a record that was released (R358). -/
def Design.keepBody (d : Design) (l : Nat) : Design :=
  d.modCab l fun x =>
    let body := packBits x.taps
    { x with prevBody := body, sinceFull := if d.cap.compress && x.mayCompress body then x.sinceFull + 1 else 1 }

/-- Whether the frame just run ends an activity interval (R367). -/
def Design.endsInterval (d : Design) : Bool := d.cap.on && d.cap.activity && (d.frame + 1) % d.cap.interval == 0

/-- The toggle sum of a Cabinet over its interval, this frame included (R366, R367). -/
def CabSt.sumNow (x : CabSt) : Nat := min 0xFFFFFFFF (x.sum + x.toggles)

/-- The activity of the interval that ends with this frame, in 1/256 toggles per frame (R367). -/
def Design.activity (d : Design) (c : Ch) : Nat := 256 * ((d.cabsIn c).map (fun l => (d.cab l).sumNow)).sum / d.cap.interval

/-- The ACTIVITY record (R367). -/
def Design.activityRec (d : Design) (c : Ch) : List Byte :=
  let ls := d.cabsIn c
  let body := padTo 8 (ls.flatMap (fun l => leBytes 4 (d.cab l).sumNow))
  leBytes 1 3 ++ leBytes 1 (bit01 ((d.cc c).rerun || decide (1 < d.attempt))) ++ leBytes 2 (16 + body.length) ++ leBytes 6 d.frame ++
    leBytes 1 ls.length ++ leBytes 1 0 ++ leBytes 4 d.cap.interval ++ body

/-- A mark to place (R365): cause, frame, unit, FRAC, time, BASE_FRAME, sender, event time. -/
structure Mark where
  cause : Nat
  frame : Nat
  unit : Nat
  frac : Nat
  time : Nat
  base : Nat
  src : Nat
  event : Nat
  deriving DecidableEq, Repr

/-- The MARK record (R365). -/
def Mark.bytes (m : Mark) (dead : Nat) : List Byte :=
  leBytes 1 2 ++ leBytes 1 m.cause ++ leBytes 2 48 ++ leBytes 6 m.frame ++ leBytes 1 m.unit ++ leBytes 1 m.frac ++
    leBytes 4 (min 0xFFFFFFFF dead) ++ leBytes 8 m.time ++ leBytes 6 m.base ++ leBytes 1 m.src ++ leBytes 1 0 ++ leBytes 8 m.event ++ leBytes 8 0

/-- A plain mark of the frame just run. -/
def Design.mark (d : Design) (cause unit time : Nat) : Mark :=
  { cause := cause, frame := d.frame, unit := unit, frac := 0, time := time, base := d.frame, src := 0, event := 0 }

/-! ### Trigger units (R362-R368) -/

/-- The word that a unit compares: its signals in order (R362). -/
def Design.trigWord (d : Design) (u : TrigUnit) : BitVec 256 :=
  BitVec.ofNat 256 ((u.signals.map (fun g => bit01 (d.signal g))).foldr (fun b v => b + 2 * v) 0)

/-- The comparator of a unit. -/
def Design.comparator (d : Design) (u : TrigUnit) : Bool :=
  let w := d.trigWord u &&& u.mask
  match u.cmp with
  | 0 => w == u.value
  | 1 => w != u.value
  | _ => w != (u.prev &&& u.mask)

/-- Four nanoseconds of the raw counter (R396). -/
def raw4ns : Nat := 4 * 2 ^ 32

/-- Whether a line has an edge that counts for this frame (R396): acted on at least 4 ns before this commit step 5 and not counted by
the last one. -/
def State.lineEdge (s : State) (d : Design) (c : Ch) (l : Nat) : Bool :=
  let now := (s.ch c).time.raw.toNat
  ((KV.get ({} : Line) l (s.ch c).time.lines).edges).any (fun e => decide (e + raw4ns ≤ now) && decide ((d.cc c).step5 < e + raw4ns))

/-- Whether the condition of a unit's present state holds (R363, R368). -/
def State.unitCond (s : State) (d : Design) (c : Ch) (u : TrigUnit) : Bool :=
  match u.states[u.state]? with
  | none => false
  | some t =>
    match t.cond with
    | 1 => d.comparator u
    | 2 => (s.ch c).units.any (fun e => e.1 == t.arg && e.2.design == some d.tag && e.2.fired)
    | 3 => s.lineEdge d c t.arg
    | 4 => d.endsInterval && (match (d.cc c).prevA with
        | some p => decide (p < u.threshold) && decide (u.threshold ≤ d.activity c)
        | none => false)
    | 5 => d.endsInterval && (match (d.cc c).prevA with
        | some p => decide (u.threshold ≤ p) && decide (d.activity c < u.threshold)
        | none => false)
    | 6 => true
    | _ => false

/-- Evaluate a unit for the frame just run (R363). -/
def State.evalUnit (s : State) (d : Design) (c : Ch) (u : TrigUnit) : TrigUnit :=
  let w := d.trigWord u
  match u.states[u.state]? with
  | none => { u with prev := w, fired := false }
  | some t =>
    if s.unitCond d c u = false then { u with prev := w, fired := false }
    else if max 1 t.count ≤ u.counter + 1 then { u with prev := w, fired := t.fire, state := t.next, counter := 0 }
    else { u with prev := w, fired := false, counter := u.counter + 1 }

/-- The mark of a unit that fires; an activity crossing is placed by interpolation (R368). -/
def State.fireMark (s : State) (d : Design) (c : Ch) (k : Nat) (u : TrigUnit) : Mark :=
  let t1 := (s.viewNs c 0).toNat
  let plain := d.mark 1 k t1
  match u.states[u.state]?, (d.cc c).prevA with
  | some t, some p =>
    if t.cond = 4 ∨ t.cond = 5 then
      let a := d.activity c
      let frac := ((256 * ((u.threshold : Int) - p)).fdiv ((a : Int) - p)).toNat
      let base := d.frame - d.cap.interval
      let t0 := (d.cc c).prevT.toNat
      { plain with frac := frac, base := base, frame := base + frac * d.cap.interval / 256, time := t0 + frac * (t1 - t0) / 256 }
    else plain
  | _, _ => plain

/-- The units of a design in a channel. -/
def State.unitsOf (s : State) (d : Design) (c : Ch) : List (Nat × TrigUnit) :=
  if d.fencedSide = some c then [] else (s.ch c).units.filter (fun e => e.2.design == some d.tag)

/-- The units of a design that fire for the frame just run. -/
def State.firing (s : State) (d : Design) (c : Ch) : List (Nat × TrigUnit) :=
  (s.unitsOf d c).filter (fun e => (s.evalUnit d c e.2).fired)

/-! ### The records of a frame in a channel (R353, R360) -/

/-- The marks of a frame in a channel, in this order: failover, resumed after drop, TRIG messages, units. -/
def State.marks (s : State) (d : Design) (c : Ch) : List Mark :=
  let t := (s.viewNs c 0).toNat
  let msgs := ((s.ch c).time.marks.filter (fun m => m.1 == d.tag)).map fun m =>
    { d.mark 2 m.2.2.1 t with src := m.2.1, event := m.2.2.2.toNat }
  (if 0 < (d.cc c).dropRun then [d.mark 3 0xFF t] else []) ++ msgs ++ (s.firing d c).map (fun e => s.fireMark d c e.1 e.2)

/-- Marks as records; the first carries the frames dropped since the previous mark. -/
def markRecs (dead : Nat) : List Mark → List (List Byte)
  | [] => []
  | m :: ms => m.bytes dead :: markRecs 0 ms

/-- The records that the frame just run gives a channel's capture stream, and, at the commit at which capture starts, the mark that
opens it (R353, R361, R378). -/
def State.records (s : State) (d : Design) (c : Ch) : List (List Byte × Option (List Byte)) :=
  let plain := fun (l : List (List Byte)) => l.map fun r => (r, (none : Option (List Byte)))
  if d.cap.on then
    let fo := if d.failover then [d.mark 4 0xFF (s.viewNs c 0).toNat] else []
    let dead := (d.cc c).dead
    plain (markRecs dead fo) ++ (d.cabsIn c).map d.frameRec ++ plain (if d.endsInterval then [d.activityRec c] else []) ++
      plain (markRecs (if d.failover then 0 else dead) (s.marks d c))
  else match d.capReq with
    | some { start := some _, .. } => plain [(d.mark 5 0xFF (s.viewNs c 0).toNat).bytes 0]
    | _ => []

/-- Bytes staged in the capture FIFO of a channel. -/
def AcqSt.fill (a : AcqSt) : Nat := (a.fifo.map (fun r => r.bytes.length)).sum

/-- PANIC (R152): raised, with an event, once the FIFO's fill reaches HBM_PANIC_LEVEL, at least 512 KiB; lowered once it falls below the
level less 256 KiB. -/
def State.panicCheck (s : State) (c : Ch) : State :=
  let level := max 512 (s.regField .hbmPanicLevel c [] 0 12)
  let kib := 1024
  let f := (s.ch c).acq.fill
  if !(s.ch c).hbm.panic && decide (level * kib ≤ f) then (s.modHbm c fun h => { h with panic := true }).hubEvent c 0x2101 [chNum c, 1]
  else if (s.ch c).hbm.panic && decide (f < (level - 256) * kib) then
    (s.modHbm c fun h => { h with panic := false }).hubEvent c 0x2101 [chNum c, 2]
  else s

/-- Bytes of the records of a channel that wait in the release queues of a pair: the FIFO keeps room for them (R322, R356). -/
def State.queuedFill (s : State) (c : Ch) : Nat :=
  (s.designs.map fun d => (d.outQ.map fun o => ((o.recs.filter (fun r => r.1 == c)).map (fun r => r.2.1.length)).sum).sum).sum

/-- Whether the FIFO of a channel takes the records of the frame (R153, R360). -/
def State.captureFits (s : State) (d : Design) (c : Ch) : Bool :=
  let a := (s.ch c).acq
  let n := ((s.records d c).map (fun r => r.1.length)).sum
  n == 0 || (!a.disabled && !a.full && decide (a.fill + s.queuedFill c + n ≤ 2097152))

/-- Whether the policy of a design lets it drop records. -/
def Design.dropping (d : Design) : Bool :=
  d.cap.drop || (!d.cap.on && (match d.capReq with
    | some q => (q.start.map (·.drop)).getD false
    | none => false))

/-- The capture of a committed frame in a channel: its records are kept or, under DROP, counted as dropped; bodies, intervals and marks
move on. Answers the records to release; a partner compresses none, since its stream begins where it is promoted (R358, R361). -/
def State.captureCh (s : State) (d : Design) (c : Ch) : State × List (List Byte × Option (List Byte)) :=
  let recs := if s.pairRuns && s.mode.partner then (s.records d c).map (fun r => (r.1, none)) else s.records d c
  let fits := s.captureFits d c
  let s :=
    if d.cap.on = false ∧ fits then s
    else if fits then
      let s := s.dropEnds d c
      let marked := d.failover || !(s.marks d c).isEmpty
      s.modDesign d.tag fun x => ((d.cabsIn c).foldl (fun (x : Design) l => x.keepBody l) x).modCc c fun y => if marked then { y with dead := 0 } else y
    else
      (s.count .acqDropped c []).modDesign d.tag fun x =>
        ((d.cabsIn c).foldl (fun (x : Design) l => x.modCab l fun z => { z with sinceFull := 0 }) x).modCc c fun y =>
          { y with dead := y.dead + 1, dropRun := y.dropRun + 1 }
  let s := s.modDesign d.tag fun x =>
    if d.endsInterval then
      ((d.cabsIn c).foldl (fun (x : Design) l => x.modCab l fun z => { z with sum := 0 }) x).modCc c fun y =>
        { y with prevA := some (d.activity c), prevT := s.viewNs c 0, rerun := false }
    else if d.cap.on && d.cap.activity then
      ((d.cabsIn c).foldl (fun (x : Design) l => x.modCab l fun z => { z with sum := z.sumNow }) x).modCc c fun y =>
        { y with rerun := y.rerun || decide (1 < d.attempt) }
    else x
  let s := s.modTime c fun t => { t with marks := t.marks.filter (fun m => m.1 != d.tag) }
  (s, if fits then recs else [])

/-- CAPTURE_TRUNC, once per load and Cabinet (R352). -/
def State.captureTrunc (s : State) (d : Design) : State :=
  d.span.foldl (fun s l =>
    let x := d.cab l
    if d.cap.on && decide (262016 < x.tapCount) && !x.truncated then
      (s.designEvent d 0xA002 [l, x.tapCount]).modDesign d.tag fun d => d.modCab l fun z => { z with truncated := true }
    else s) s

/-! ### Data trace (R373-R375) -/

/-- The order of accesses in a frame: step, then Cabinet, then port (R374). -/
def Access.before (a b : Access) : Bool :=
  decide (a.step < b.step) || (a.step == b.step && (decide (a.cab < b.cab) || (a.cab == b.cab && decide (a.port < b.port))))

/-- Insert an access at its place. -/
def insAccess (a : Access) : List Access → List Access
  | [] => [a]
  | b :: bs => if b.before a then b :: insAccess a bs else a :: b :: bs

/-- Whether an access hits a trace range. -/
def Design.hits (d : Design) (a : Access) (g : TraceRange) : Bool :=
  g.space == a.space && g.place == (if a.space = 0 then d.imageCab a.place else a.place) && bitAt g.ops (a.op - 1) &&
  decide (g.low ≤ a.addr) && decide (a.addr ≤ g.high)

/-- The DATA packet of an access, without DT; its address stands whole, in 8 bytes, until its block is formed (R373). -/
def Design.dataPacket (d : Design) (a : Access) (range : Nat) : List Byte :=
  leBytes 1 (2 + 16 * a.op) ++ leBytes 1 (d.imageCab a.cab) ++ leBytes 2 a.step ++ leBytes 1 (a.port + 4 * range) ++
    (if a.op = 5 ∨ a.op = 6 then leBytes 1 a.place ++ leBytes 1 a.size else []) ++ leBytes 8 a.addr ++ a.words.flatMap (fun w => leBytes 8 w.toNat)

/-- The ranges of a design in a channel. -/
def State.rangesOf (s : State) (d : Design) (c : Ch) : List (Nat × TraceRange) :=
  (s.ch c).tranges.filter (fun e => e.2.design == some d.tag)

/-- Trace one access (R374): whether tracing is on after it, and its packet if it is traced. An access traced by no range carries range
number 0 (log entry 12). -/
def Design.traceAccess (d : Design) (rs : List (Nat × TraceRange)) (all on : Bool) (a : Access) : Bool × Option (List Byte) :=
  let hit := fun m => rs.find? (fun e => e.2.mode == m && d.hits a e.2)
  let on1 := on || (hit 2).isSome
  let filt := rs.any (fun e => e.2.mode == 1)
  let by' := (hit 2).orElse (fun _ => hit 1)
  let traced := all || (hit 2).isSome || (on1 && (!filt || (hit 1).isSome))
  (on1 && (hit 3).isNone, if traced then some (d.dataPacket a ((by'.map (·.1)).getD 0)) else none)

/-- The packets of a frame in a channel, each with its step and tick, and whether tracing is on after them. -/
def Design.traceList (d : Design) (rs : List (Nat × TraceRange)) (all : Bool) : Bool → List Access → Bool × List (Nat × Nat × List Byte)
  | on, [] => (on, [])
  | on, a :: as =>
    let r := d.traceAccess rs all on a
    let t := Design.traceList d rs all r.1 as
    (t.1, (r.2.map (fun p => (a.step, a.tick, p))).toList ++ t.2)

/-- The RATE packets of holds before a step go before the packets of its accesses (R376). -/
def mergeRates (rates : List (Nat × Nat × List Byte)) (l : List (Nat × Nat × List Byte)) : List (Nat × Nat × List Byte) :=
  rates.foldr (fun r l => l.takeWhile (fun x => decide (x.1 < r.1)) ++ r :: l.dropWhile (fun x => decide (x.1 < r.1))) l

/-- The data-trace packets of the frame just run in a channel, each with its tick, behind their FRAME packet, which is made at the commit
(R375, R376; DEDUCED, log entry 42). -/
def State.dataTrace (s : State) (d : Design) (c : Ch) : State × List (Nat × List Byte) :=
  if s.traced c d = false then (s, [])
  else
    let as := (d.accesses.filter (fun a => chOfCab a.cab == c)).foldr insAccess []
    let r := d.traceList (s.rangesOf d c) (d.cc c).traceAll (d.cc c).tracing as
    let l := (mergeRates (d.cc c).rates r.2).map (·.2)
    (s.modDesign d.tag fun d => d.modCc c fun x => { x with tracing := r.1 },
      if l.isEmpty then [] else (s.ticks c, leBytes 1 8 ++ leBytes 6 d.frame) :: l)

/-! ### Collecting the outputs of a frame -/

/-- The channel that carries a link slot: that of the Cabinet that drives it (R216, R217). -/
def Design.slotCh (d : Design) (slot : Nat) : Option Ch :=
  (d.ports.find? (fun e => (destFields e.2.toNat).any (fun x => field x.2 1 2 == 1 && field x.2 3 9 == slot) &&
    (!d.twin || chOfCab (e.1 / 2048) == d.home))).map (fun e => chOfCab (e.1 / 2048))

/-- PROD of an outlet window as committed (R248). -/
def Design.prodOf (d : Design) (w : Window) : Nat := (KV.get 0 w.word (d.cab (d.liveCab w.cab)).mem).toNat % 2 ^ 32

/-- The line that a unit drives when it fires. -/
def TrigUnit.line (u : TrigUnit) : Option Nat := if bitAt u.out 0 then some (field u.out 1 2) else none

/-- Forget the TRIG edges that every design with a unit in the channel has counted (R396). -/
def State.pruneEdges (s : State) (c : Ch) : State :=
  let now := (s.ch c).time.raw.toNat
  let keep := fun (e : Nat) => decide (now < e + raw4ns) || (s.ch c).units.any (fun u => match u.2.design.bind s.design with
    | some d => decide ((d.cc c).step5 < e + raw4ns)
    | none => false)
  s.modTime c fun t => { t with lines := (t.lines.map (fun e => (e.1, { e.2 with edges := e.2.edges.filter keep }))).filter (fun e => e.2 ≠ {}) }

/-- Collect the outputs of the frame just run, and move the units, the capture and the trace of the design on. -/
def State.collect (s : State) (d : Design) : State × OutSet :=
  let chans := d.capChans
  let outs := d.span.flatMap fun l => if d.twin && chOfCab l != d.home then [] else (d.cab l).outputs.map (fun o => (l, o))
  let prods := (s.portsOf d).filterMap fun e => e.2.outWin.map (fun w => (e.1, d.prodOf w))
  let pins := (s.pins.filter (fun e => e.2.design == d.tag)).filterMap fun e =>
    if e.2.mode = 1 then some (e.1, some (d.signal e.2.signal)) else if e.2.mode = 2 then some (e.1, none) else some (e.1, some false)
  let fires := [Ch.a, Ch.b].flatMap fun c => (s.firing d c).map fun e => (c, e.1, e.2.line, bitAt e.2.out 3)
  let s0 := s
  let s := s.captureTrunc d
  let (s, recs) := chans.foldl (fun (x : State × List (Ch × List Byte × Option (List Byte))) c =>
    let y := x.1.captureCh d c
    (y.1, x.2 ++ y.2.map (fun r => (c, r)))) (s, [])
  let (s, trace) := chans.foldl (fun (x : State × List (Ch × Nat × List Byte)) c =>
    let y := x.1.dataTrace d c
    (y.1, x.2 ++ y.2.map (fun r => (c, r)))) (s, [])
  let s := [Ch.a, Ch.b].foldl (fun s c =>
    s.modCh c fun h => { h with units := h.units.map (fun e =>
      if e.2.design = some d.tag ∧ d.fencedSide ≠ some c then (e.1, s0.evalUnit d c e.2) else e) }) s
  let s := s.modDesign d.tag fun x => ([Ch.a, Ch.b].foldl (fun (x : Design) c => x.modCc c fun y =>
    { y with step5 := (s0.ch c).time.raw.toNat }) x)
  let s := (s.pruneEdges .a).pruneEdges .b
  (s, { frame := d.frame, stage := d.stage, outs := outs, prods := prods, pins := pins, recs := recs, trace := trace, fires := fires })

/-! ### Releasing outputs -/

/-- Insert a link record at its place in the rising order of slots. -/
def insRec (r : LinkRec) : List LinkRec → List LinkRec
  | [] => [r]
  | x :: xs => if x.slot < r.slot then x :: insRec r xs else r :: x :: xs

/-- The node of a remote channel of a module; a bridge has one (R220). -/
def State.nodeOf (s : State) (m ch : Nat) : Nat := if (s.topo.map (fun x => x.kind m)).getD 0 = 4 then 2 * m else 2 * m + ch

/-- Send link records of one frame to a module, one VALUE message per remote channel (R217); until its SLOT_HOME arrives they wait. -/
def State.sendRecs (s : State) (c : Ch) (tag m : Nat) (frame : BitVec 48) (recs : List LinkRec) : State :=
  let k := (s.ch c).link
  if k.haveHome.contains m = false then s.modLink c fun x => { x with waiting := x.waiting ++ [(tag, m, frame, recs)] }
  else
    let home := KV.get 0 m k.homes
    [0, 1].foldl (fun s rc =>
      let l := recs.filter (fun r => bit01 (home.getLsbD r.slot) == rc)
      if l.isEmpty then s
      else
        let s := match ((s.members m).filterMap (fun t => s.nextHop c (s.nodeOf t rc))).eraseDups with
          | [] => s.count .vlDrops c []
          | ps => ps.foldl (fun s p => s.sendOn c p (.value m frame l)) s
        (s.members m).foldl (fun s t => s.modLink c fun x => { x with resend := x.resend ++ [(tag, s.nodeOf t rc, frame, l)] }) s) s

/-- Release the link values of a frame (R216, R217, R306): every bound slot of a hub gives a record, active where the frame drove it
and stage 1 has been reached. -/
def State.releaseLinks (s : State) (d : Design) (o : OutSet) : State :=
  let fr := BitVec.ofNat 48 o.frame
  d.capChans.foldl (fun s c =>
    let mine := d.slots.filter (fun b => d.slotCh b.slot == some c)
    let keep := fun (f : BitVec 48) => f == fr || f == fr - 1
    let s := s.modLink c fun x => { x with resend := x.resend.filter (fun e => e.1 != d.tag || keep e.2.2.1) }
    (mine.map (·.remote)).eraseDups.foldl (fun s m =>
      let recs := (mine.filter (fun b => b.remote == m)).map fun b =>
        match o.outs.find? (fun x => x.2.1 == 1 && x.2.2.1 == b.slot) with
        | some x => if 1 ≤ o.stage then ({ slot := b.remoteSlot, active := true, values := x.2.2.2 } : LinkRec)
                    else { slot := b.remoteSlot, active := false, values := 0 }
        | none => { slot := b.remoteSlot, active := false, values := 0 }
      s.sendRecs c d.tag m fr (recs.foldr insRec [])) s) s

/-- The GIN flits of an exchange (R184): twelve groups each, with the low 16 bits of the design-cycle number. -/
def ginFlits (gin : KV (BitVec 16)) (groups cycle : Nat) : List TxFlit :=
  (List.range ((groups + 11) / 12)).map fun k =>
    let vals := ((List.range 12).map (fun m => if 12 * k + m < groups then 2 ^ (16 * m) * (KV.get 0 (12 * k + m) gin).toNat else 0)).sum
    { vc := 4, tag := 0, flit := mkFlit (1 + 2 ^ 4 * (12 * k) + 2 ^ 16 * (cycle % 65536) + 2 ^ 32 * vals), last := true }

/-- Send the guest of a channel its inputs, at the commit of a last phase from stage 1 on (R184, R306). -/
def State.releaseGuest (s : State) (d : Design) (o : OutSet) : State :=
  if (o.frame + 1) % d.header.phases ≠ 0 ∨ o.stage < 1 then s
  else d.chans.foldl (fun s c =>
    if (s.ch c).guest.owner = some d.tag then
      let cycle := o.frame / d.header.phases
      let s := s.modGuest c fun g =>
        { g with gin := (o.outs.filter (fun x => x.2.1 == 2 && chOfCab x.1 == c)).foldl (fun t x => KV.put 0 x.2.2.1 x.2.2.2 t) g.gin,
                 phase := 1, cycle := cycle, haveOut := [], late := false, exchanged := true }
      let q := ginFlits (s.ch c).guest.gin d.header.guestGroups cycle
      s.modFab c fun f => ({ f with links := KV.upd {} 11 (fun x => { x with queue := x.queue ++ q }) f.links }).pushEnd 11
    else s) s

/-- A word of the data area of a window, by its count, as it stood at the last commit (R130, R248). -/
def Design.winWord (d : Design) (w : Window) (pos : Nat) : Word64 :=
  let x := d.cab (d.liveCab w.cab)
  KV.get 0 (w.word + 2 + pos % w.size) (undoMem x.mem x.undo)

/-- Read the records between two counts of an outlet window (R248); a header that gives no message of 1 to 4,096 bytes within PROD
leaves the rest in the window (log entry 13). -/
def Design.readOutlet (d : Design) (w : Window) (rel : Nat) : Nat → Nat → Nat → List OutRec × Nat
  | 0, pos, _ => ([], pos)
  | fuel + 1, pos, prod =>
    let hdr := (d.winWord w pos).toNat
    let n := field hdr 0 13
    let left := (prod + 2 ^ 32 - pos) % 2 ^ 32
    if n = 0 ∨ 4096 < n ∨ left < msgWords n ∨ w.size = 0 then ([], pos)
    else
      let data := ((List.range ((n + 7) / 8)).flatMap (fun i => leBytes 8 (d.winWord w (pos + 1 + i)).toNat)).take n
      let r := Design.readOutlet d w rel fuel ((pos + msgWords n) % 2 ^ 32) prod
      ({ fence := bitAt hdr 13, data := data, release := rel } :: r.1, r.2)

/-- Release the outlet records of a frame (R252), from stage 1 on; OUTLET_HOLD when a window's free space is below its RESERVE
(R253). -/
def State.releaseOutlets (s : State) (d : Design) (o : OutSet) : State :=
  if o.stage < 1 then s
  else o.prods.foldl (fun s e =>
    match (s.mport d.home e.1).outWin with
    | none => s
    | some w =>
      let m := s.mport d.home e.1
      let r := d.readOutlet w o.frame w.size m.readTo e.2
      let s := s.modDesignPort d e.1 fun p => { p with released := p.released ++ r.1, readTo := r.2 }
      let s := s.modSched d.home fun q => { q with waiting := q.waiting ++ r.1.map (fun _ => { group := m.group, work := .outlet e.1 }) }
      let free := d.outletFree (s.mport d.home e.1) w
      let short := decide (free < w.reserve)
      let s := if short && !m.holding then s.designEvent d 0x5002 [128 * chNum d.home + e.1, free] else s
      s.modDesignPort d e.1 fun p => { p with holding := short }) s

/-- Show the frame on the probe pins of the design (R370, R306). -/
def State.releasePins (s : State) (o : OutSet) : State :=
  { s with pins := o.pins.foldl (fun t e => KV.upd {} e.1 (fun p =>
      { p with level := decide (1 ≤ o.stage) && (match e.2 with
          | some v => v
          | none => !p.level) }) t) s.pins }

/-- SPAN of the TRIG lines of a hub, in 2^-32 ns (R395). -/
def State.trigSpan (s : State) (c : Ch) : Nat := s.regField .timTrigSpan c [] 0 13 * 2 ^ 32 / 100

/-- An edge on a TRIG line acted on by a hub at a raw time, stamped in view 0 with its drive-request time, and merged with one accepted less than
40 ns before (R394-R396). -/
def State.acceptEdge (s : State) (c : Ch) (l at' : Nat) : State :=
  if bitAt (s.reg .timTrigCfg c [l]).toNat 12 = false then s
  else s.modTime c fun t => { t with lines := KV.upd {} l (fun x =>
    match x.last.filter (fun p => decide (at' < p + 40 * 2 ^ 32)) with
    | some _ => x
    | none => { x with last := some at', stamp := some (viewAt 0 (s.view c 0) (at' - s.trigSpan c)), edges := x.edges ++ [at'] }) t.lines }

/-- A drive request on a TRIG line (R394, R395, R396): with TX_EN a 20 ns pulse leaves the hub, or the pulse under way stretches, and
both hubs enter a new pulse at its request time plus SPAN. Without a base image in force the outputs are disabled (R292). -/
def State.drivePulse (s : State) (c : Ch) (l : Nat) : State :=
  if bitAt (s.reg .timTrigCfg c [l]).toNat 13 = false ∨ s.base.inForce.isNone then s
  else
    let driving := [Ch.a, Ch.b].any fun h => match (KV.get ({} : Line) l (s.ch h).time.lines).pulseEnd with
      | some e => decide (s.clock < e)
      | none => false
    let s := s.modTime c fun t => { t with lines := KV.upd {} l (fun x => { x with pulseEnd := some (s.clock + 20) }) t.lines }
    if driving then s
    else s.channels.foldl (fun s h =>
      s.acceptEdge h l ((s.ch h).time.raw.toNat + s.trigSpan c)) s

/-- Drive the lines and send the messages of the units that fired, where ACQ_TRIGOUT allows them, from stage 1 on (R364). -/
def State.releaseFires (s : State) (d : Design) (o : OutSet) : State :=
  if o.stage < 1 then s
  else o.fires.foldl (fun s f =>
    let (c, k, line, msg) := f
    if bitAt (s.reg .acqTrigout c []).toNat k = false then s
    else
      let s := match line with
        | some l => s.drivePulse c l
        | none => s
      if msg then (d.slots.map (·.remote)).eraseDups.foldl (fun s m =>
        s.sendTo c m (.trig m k (BitVec.ofNat 48 o.frame) (s.viewNs c 0))) s
      else s) s

/-- A record enters the FIFO of its channel (R356); one that is to be compressed gives a unit of the service group (R259). -/
def State.fifoPut (s : State) (d : Design) (frame : Nat) (r : Ch × List Byte × Option (List Byte)) : State :=
  let s := s.modAcq r.1 fun a => { a with
    fifo := a.fifo ++ [{ s.streamRec r.1 (1 + 16 * d.tag) frame (s.ticks r.1) r.2.1 with packed := r.2.2 }] }
  if r.2.2.isSome then
    s.modSched r.1 fun q => { q with waiting := q.waiting ++ [{ group := s.regField .schCtrl r.1 [] 1 3, work := .compress }] }
  else s

/-- Release the outputs of a frame (R84 step 5). -/
def State.release (s : State) (d : Design) (o : OutSet) : State :=
  let s := s.releaseLinks d o
  let s := s.releaseGuest d o
  let s := s.releaseOutlets d o
  let s := s.releasePins o
  let s := o.recs.foldl (fun s r => s.fifoPut d o.frame r) s
  let s := (s.panicCheck .a).panicCheck .b
  let s := o.trace.foldl (fun s r => s.stage r.1 (s.streamRec r.1 (2 + 16 * d.tag) o.frame r.2.1 r.2.2)) s
  s.releaseFires d o

end Sys2Proof.Machine
end

