-- ==== Sys2Proof/Machine/Pair.lean ====
section
/-! DEFINITION. The operations that twins and pairs share: the release queue of a pair (R84, R322), leaving a pair, running solo and
promotion (R323-R325), health scores (R318), the state copies of a repair, a rejoin and a join (R316, R320, R326), and the inputs that
a partner takes over (R322). -/

namespace Sys2Proof.Machine

open Sys2Proof

/-- Release the queued outputs of a design that satisfy a test, oldest first (R84, R322). -/
def State.releaseQueue (s : State) (tag : Nat) (sel : OutSet → Bool) : State :=
  match s.design tag with
  | none => s
  | some d =>
    let s := s.modDesign tag fun d => { d with outQ := d.outQ.filter (fun o => !sel o) }
    (d.outQ.filter sel).foldl (fun s o => s.release d o) s

/-- Release all that is queued. -/
def State.releaseAll (s : State) : State := s.designs.foldl (fun s d => s.releaseQueue d.tag (fun _ => true)) s

/-- Set the state of both sequencers; a fenced one stays FENCED (R327). -/
def State.setSeq (s : State) (n cab : Nat) : State :=
  s.channels.foldl (fun s c => s.modCh c fun h => if h.fenced then h else { h with seq := n, seqCab := cab }) s

/-- The primary goes on alone (R325): it releases every frame at its commit. The event names why the partner left. -/
def State.runSolo (s : State) (other : Other) (cause : Nat) : State :=
  (((s.modMode fun x => { x with solo := true, other := other, precopy := false, final := false, rejoin := none }).releaseAll).setSeq 0 0x7F).hostEvent 0x8009 [cause]

/-- The capture streams of a promoted partner start with a MARK of CAUSE 4, before the frames it releases again, and with plain bodies (R358,
R361). -/
def State.streamsStart (s : State) (d : Design) : Design :=
  if d.cap.on = false then d
  else
    let d := { d with cabs := d.plainCabs }
    match d.outQ with
    | [] => { d with failover := true }
    | o :: os =>
      let first := fun (c : Ch) => (c, ({ d with frame := o.frame }.mark 4 0xFF (s.viewNs c 0).toNat).bytes 0, (none : Option (List Byte)))
      { d with outQ := { o with recs := d.capChans.map first ++ o.recs } :: os }

/-- The partner is promoted (R325): it releases its held outputs, tells every module, and runs on without a RUN of its own host. -/
def State.promote (s : State) (other : Other) : State :=
  let s := s.modMode fun x => { x with primary := true, partner := false, solo := true, other := other, precopy := false, final := false }
  let fr := ((s.designs.map (·.frame)).foldl max 0)
  let s := (s.setSeq 0 0x7F).hostEvent 0x8008 [fr]
  let s := { s with designs := s.designs.map s.streamsStart }.releaseAll
  match s.topo with
  | none => s
  | some t => ((List.range 64).filter (fun m => t.kind m != 0 && t.kind m != 4 && m != t.identity)).foldl (fun s m =>
      s.sendTo .a m (.pairPrimary m t.identity)) s

/-- This member leaves its pair (R323, R324): its designs stop at their last commits with FENCED, and a primary's launch entries
complete ABORTED (R390). `fault` sends TWIN FAULT first. -/
def State.leavePair (s : State) (fault : Bool) : State :=
  let s := if fault then s.channels.foldl (fun s c => s.sendTwin c .twinFault) s else s
  let s := if s.mode.primary then s.channels.foldl (fun s c => s.abortLaunches c (fun _ => true)) s else s
  let s := s.modMode fun x => { x with left := true, primary := false, partner := false, precopy := false, final := false }
  s.stopWhere (fun d => d.state == .running || d.state == .stopping) .fenced

/-- A lasting fault that would stop a design stops it, or, in a pair that runs, makes this member leave (R324); INTEGRITY_ALARM stops
it always, on both members. -/
def State.lastingStop (s : State) (tag : Nat) (st : Status) (dt : BitVec 128) : State :=
  if st = .integrityAlarm then s.alarmWhere (fun d => d.tag == tag)
  else if s.pairRuns then s.leavePair true else s.stopDetail tag st 1 dt

/-- Health score of a channel (R318). -/
def Health.score (h : Health) (now : Nat) : Nat :=
  1000 - (100 * h.spares + 20 * (h.lasting.filter (fun t => decide (now < t + 86400 * 10 ^ 9))).length +
    (h.transient.filter (fun t => decide (now < t + 3600 * 10 ^ 9))).length)

/-- Count a lasting fault of a channel (R318). -/
def State.healthLasting (s : State) (c : Ch) : State :=
  s.modCh c fun h => { h with health := { h.health with lasting := h.health.lasting ++ [s.clock] } }

/-- Count a transient fault of a channel (R318). -/
def State.healthTransient (s : State) (c : Ch) : State :=
  s.modCh c fun h => { h with health := { h.health with transient := h.health.transient ++ [s.clock] } }

/-- The channel that a recurrence fences: the lower score, or B on a tie (R318). -/
def State.weaker (s : State) : Ch :=
  if s.chA.health.score s.clock < s.chB.health.score s.clock then .a else .b

/-- Whether a TWINNED design has both copies. -/
def Design.twinAlive (d : Design) : Bool := d.twin && d.fencedSide.isNone

/-- The signature of a Cabinet for the attempt just run (R313). -/
def Design.sig (d : Design) (l : Nat) : Word64 := ~~~ (d.cab l).crc

/-! ### Copying committed state (R316, R320) -/

/-- Copy the state banks and written masks of the cells of one Cabinet to another; result and landing slots are not copied (R316). -/
def Design.copyCells (d : Design) (src dst : Nat) : Design :=
  let keys := (d.cells.filterMap (fun e => if e.1 / 1024 = src ∨ e.1 / 1024 = dst then some (e.1 % 1024) else none)).foldr insKey []
  { d with cells := keys.foldl (fun t k =>
      let a := d.cellAt (src * 1024 + k)
      KV.upd {} (dst * 1024 + k) (fun b =>
        { b with bank0 := a.bank0, bank1 := a.bank1, cur := a.cur, mask := a.mask, mask0 := a.mask0 }) t) d.cells }

/-- Copy the committed state of one Cabinet to another: cells, cabinet memory, landing buffer with its flags, gather registers
(R316). -/
def Design.copyCab (d : Design) (src dst : Nat) : Design :=
  let a := d.cab src
  (d.copyCells src dst).modCab dst fun x =>
    { x with mem := a.mem, landing := a.landing, invalid := a.invalid, addrG := a.addrG, dataG := a.dataG }

/-- Copy a run of bytes of one memory into another. -/
def copyBytes (m : Memory) (src : Nat) (m2 : Memory) (dst n : Nat) : Memory :=
  (m.filter (fun e => decide (src ≤ e.1) && decide (e.1 < src + n))).foldl (fun t e => Memory.write t (e.1 - src + dst) e.2) (m2.zero dst (dst + n))

/-- Copy a region of a design from the surviving channel's HBM, its committed writes included (R147), to the fenced channel's. -/
def State.copyRegion (s : State) (d : Design) (c : Ch) (g : Region) : State :=
  match d.regions.find? (fun o => o.index == g.index && o.side == chNum (otherCh c)) with
  | none => s
  | some o =>
    let h := (s.ch (otherCh c)).hbm
    let mem := h.flat fun e => e.design == d.tag
    s.modHbm c fun x => { x with
      mem := copyBytes mem o.base x.mem g.base g.bytes,
      poison := x.poison.filter (fun a => !(decide (g.base ≤ a) && decide (a < g.base + g.bytes))) ++
        (h.poison.filter (fun a => decide (o.base ≤ a) && decide (a < o.base + o.bytes))).map (fun a => a - o.base + g.base) }

/-! ### Rejoining a fenced channel (R320) -/

/-- A hold of at most `most` µs, whose length the manual leaves open: a free value (log entry 4). -/
def State.holdUs (s : State) (most : Nat) : Nat := s.free.toNat % (most + 1)

/-- Whether a design stands at a frame boundary at which the next banks hold nothing (R43, R320, R326). -/
def Design.atBoundary (d : Design) : Bool := !d.begun && d.frame % d.header.phases == 0

/-- The final hold of a rejoin (R320 item 4): the survivor's state is copied, the fence ends, the referee compares again. -/
def State.rejoinFinal (s : State) (c : Ch) : State :=
  let twins := s.designs.filter (fun d => d.twin && d.fencedSide == some c)
  let s := twins.foldl (fun s d => (d.regions.filter (fun g => g.side == chNum c)).foldl (fun s g => s.copyRegion d c g) s) s
  let s := { s with designs := s.designs.map (fun (d : Design) =>
    if d.twin && d.fencedSide == some c then
      { (d.allCabs.filter (fun l => chOfCab l == c)).foldl (fun (x : Design) l => x.copyCab (l ^^^ 64) l) d with fencedSide := none }
    else d) }
  let s := twins.foldl (fun s d => s.modParts (d.allParts.filter (fun p => chOfPart p == c)) fun p => { p with state := d.state }) s
  let s := s.modCh c fun h => { h with fenced := false, seq := 0, seqCab := 0x7F }
  let s := s.modMode fun x => { x with referee := .armed, rejoin := none, rejoinTested := false }
  let s := (s.event 0x800B 0 0xFF 0 false [chNum c, s.holdUs 600]).freeNext
  if c = .a then twins.foldl (fun s d => match s.design d.tag with
    | some d => s.sendSlotHome d .a
    | none => s) s else s

/-- The channel that a rejoin brings back. -/
def State.rejoinCh (s : State) : Ch := if s.chA.fenced then .a else .b

/-- Whether a rejoin may enter its final hold: tested, at most 32 MiB of marked pages, every twin at a boundary (R320). -/
def State.rejoinReady (s : State) : Bool :=
  s.mode.rejoinTested && (match s.mode.rejoin with
    | some r => decide (r ≤ 8192)
    | none => false) &&
  s.designs.all (fun d => !d.twin || d.state == .stopped || d.atBoundary) && s.designs.all (fun d => !d.twin || d.repairs.isEmpty)

/-! ### Joining a pair (R326) -/

/-- Bytes in a second of a mirror port, in 10^9, in force: 20 at 25.78125 Gbit/s, 8 at 10.3125 Gbit/s, half of that at width 4 (R206). -/
def State.mirrorGb (s : State) : Nat :=
  (s.channels.map (fun c => ((s.mirrorPorts c).map (fun p =>
    (if bitAt (s.reg .vlPortCtrl c [p]).toNat 1 then 8 else 20) / (if (s.port c p).width4.isSome then 2 else 1))).sum)).sum

/-- State that a final hold of a join sends whatever the residue: current banks and gather registers (R326). -/
def State.joinBytes (s : State) : Nat := (if s.id.twoCh then 8 else 4) * 2 ^ 20 + 32768

/-- The residue limit in force, in MiB (R326, MOD_PAIR_CTRL.LIMIT). -/
def State.joinLimit (s : State) : Nat := (s.mirrorGb * 950000 - s.joinBytes) / 2 ^ 20

/-- The bytes of a bank, a run of slots. -/
def bankBytes (v : BitVec 512) : List Byte := leBytes 64 v.toNat

/-- The STATE messages that carry a Cabinet of a design, the `i`-th of its span (TWIN STATE offsets): memory by page, landing words, flags
and gather registers, then the current banks. -/
def Design.cabState (d : Design) (i l : Nat) : List (Nat × List Byte) :=
  let x := d.cab l
  (List.range 256).map (fun p => (2 ^ 36 + l * 2 ^ 20 + 4096 * p, (List.range 512).flatMap (fun w => leBytes 8 (KV.get 0 (512 * p + w) x.mem).toNat))) ++
  (List.range 4).map (fun p => (3 * 2 ^ 36 + l * 32768 + 4096 * p, (List.range 512).flatMap (fun w => leBytes 8 (KV.get 0 (512 * p + w) x.landing).toNat))) ++
  [(3 * 2 ^ 36 + l * 32768 + 16384, packBits ((List.range 2048).map (fun k => !x.invalid.contains k)) ++
    (List.range 16).flatMap (fun b => leBytes 8 (KV.get 0 b x.addrG).toNat) ++ (List.range 16).flatMap (fun b => leBytes 8 (KV.get 0 b x.dataG).toNat))] ++
  (List.range 16).map (fun b => (i * 65536 + 4096 * b, (List.range 64).flatMap (fun k =>
    let c := d.cellAt (cellKey l b k)
    bankBytes (if c.cur then c.bank1 else c.bank0))))

/-- The STATE messages that carry the HBM regions of a design, page by page. -/
def State.regionState (s : State) (d : Design) : List (Nat × List Byte) :=
  d.regions.flatMap fun g => (List.range (g.bytes / 4096)).map fun p =>
    (2 * 2 ^ 36 + g.index * 2 ^ 32 + 4096 * p, (s.ch (chOf g.side)).hbm.committedBytes (g.base + 4096 * p) 4096)

/-- The final hold of a join (R326 item 3): the state goes to the joining member, which takes the partner's role at the same frame. -/
def State.joinFinal (s : State) (d : Design) : State :=
  let l := s.regionState d ++ (d.span.zip (List.range d.span.length)).flatMap (fun e => d.cabState e.2 e.1)
  let s := l.foldl (fun s e => s.sendTwin d.home (.twinState (BitVec.ofNat 48 d.frame) e.1 e.2)) s
  let s := s.modMode fun x => { x with other := .paired, solo := false, precopy := false, final := false, residue := 0, confirmed := BitVec.ofNat 48 d.frame }
  ((s.setSeq 0 0x7F).hostEvent 0x800A [s.holdUs 1000]).freeNext

/-- Whether a join may enter its final hold for a design. -/
def State.joinReady (s : State) (d : Design) : Bool :=
  s.mode.other == .joining && !s.mode.precopy && decide (s.mode.residue ≤ 256 * s.joinLimit) && d.atBoundary && d.repairs.isEmpty

/-- The final hold that a commit of the last phase of a design cycle can enter (R320, R326). -/
def State.boundary (s : State) (tag : Nat) : State :=
  match s.design tag with
  | none => s
  | some d => if d.twin && s.rejoinReady then s.rejoinFinal s.rejoinCh else if s.joinReady d then s.joinFinal d else s

/-! ### Inputs of the partner (R322) -/

/-- Take over the port-unit writes of the primary: an intake window's words and PROD, or an outlet window's CONS. The counts of messages
move with them, so that a promoted partner goes on unbroken (R325). -/
def State.applyInput (s : State) (port kind : Nat) (writes : List (Nat × Word64)) : State :=
  let c := chOf (port / 128)
  let k := port % 128
  let m := s.mport c k
  match m.design.bind s.design, (if kind = 0 then m.inWin else m.outWin) with
  | some d, some w =>
    let s := s.modDesign d.tag fun d => d.modCab w.cab fun x => { x with mem := writes.foldl (fun t e => KV.put 0 e.1 e.2 t) x.mem }
    match s.design d.tag with
    | none => s
    | some n =>
      if kind = 0 then
        let prod := (KV.get 0 w.word (n.cab w.cab).mem).toNat % 2 ^ 32
        s.modDesignPort n k fun p => { p with written := prod, mseqIn := p.mseqIn + BitVec.ofNat 64 (n.readOutlet w 0 w.size p.written prod).1.length }
      else
        let cons := (KV.get 0 (w.word + 1) (n.cab w.cab).mem).toNat % 2 ^ 32
        s.modDesignPort n k fun p => { p with readTo := cons, mseqOut := p.mseqOut + BitVec.ofNat 64 (n.readOutlet w 0 w.size p.readTo cons).1.length }
  | _, _ => s

/-- Apply the inputs of a frame that has just committed on the partner. -/
def State.applyInputs (s : State) (frame : BitVec 48) : State :=
  let mine := s.mode.inputs.filter (fun e => e.1 == frame)
  let s := s.modMode fun x => { x with inputs := x.inputs.filter (fun e => e.1 != frame) }
  mine.foldl (fun s e => s.applyInput e.2.1 e.2.2.1 e.2.2.2) s

/-- A lasting mismatch within 1 s of an unresolved one (R323): the member with the lower health score leaves, and a leaving primary promotes
the partner. The other member's score reaches this one by no message: a free value (log entry 4). -/
def State.pairRecurs (s : State) : State :=
  let mine := min (s.chA.health.score s.clock) (if s.id.twoCh then s.chB.health.score s.clock else 1000)
  let other := s.free.toNat % 1001
  let s := s.freeNext
  if mine < other then s.leavePair false
  else if s.mode.primary then s.runSolo .left 2 else s.promote .left

/-- Whether a lasting mismatch of a design falls within 1 s of an unresolved one on the same design (R315, R323). -/
def State.unresolvedLately (s : State) (d : Design) : Bool :=
  match d.unresolvedAt with
  | some t => decide (s.clock < t + 10 ^ 9)
  | none => false

end Sys2Proof.Machine
end

