-- ==== Sys2Proof/Machine/Commit.lean ====
section
/-! DEFINITION. The end of a frame: FRAME_COMMIT (R43, R80, R84, R85, R88, R106, R146, R306) and FRAME_ABORTED (R89-R91, R132,
R133, R315). -/

namespace Sys2Proof.Machine

open Sys2Proof

/-! ### The state flip (R43, R46) -/

/-- The state flip of a cell: unwritten slots carry forward, forced slots take their reset values, the next bank becomes current. -/
def Cell.flip (c : Cell) (forced : List (Nat × Bool)) : Cell :=
  let v := (c.nextBank &&& c.mask) ||| (c.curBank &&& ~~~c.mask)
  let v := forced.foldl (fun v f => setBit v f.1 f.2) v
  let c := c.setNext v
  { c with cur := !c.cur, mask := 0, mask0 := 0, landW := 0 }

/-- Keep the written mask of a phase that is not the last (R44, R87). -/
def Cell.keepMask (c : Cell) : Cell := { c with mask0 := c.mask, landW := 0 }

/-- The reset slots of a cell while resets are forced. -/
def Design.forcedSlots (d : Design) (key : Nat) : List (Nat × Bool) :=
  if d.stage < 3 then (d.resets.filter (fun r => cellKey r.cab r.bench r.cell == key)).map (fun r => (r.sti, r.value)) else []

/-- What the commit of a phase does to the cells of a design. -/
def Design.commitCells (d : Design) : KV Cell :=
  if d.lastPhase then
    let keys := (d.cells.map (·.1) ++ (if d.stage < 3 then d.resets.map (fun r => cellKey r.cab r.bench r.cell) else [])).foldr insKey []
    (keys.map (fun k => (k, (d.cellAt k).flip (d.forcedSlots k)))).filter (fun e => e.2 ≠ {})
  else (d.cells.map (fun e => (e.1, e.2.keepMask))).filter (fun e => e.2 ≠ {})

/-- What the commit does to a Cabinet: undo log and output buffers cleared, the next frame begins at step 0 with the tiles that its cells
fetched ahead (R54). -/
def CabSt.commit (x : CabSt) : CabSt :=
  { x with next := 0, reload := x.reload ++ (x.later.filter (fun u => u.2.2.2 == 1)).map (fun u => (u.1, u.2.1, u.2.2.1)),
           later := (x.later.filter (fun u => u.2.2.2 != 1)).map (fun u => (u.1, u.2.1, u.2.2.1, u.2.2.2 - 1)), undo := [], vals := [], rets := [], filledA := [], filledD := [], taps := [], tapCount := 0, toggles := 0,
           crc := 0xFFFFFFFFFFFFFFFF#64, outputs := [], overrun := false }

/-- A design after the commit of its frame: banks flipped, logs cleared, frame number advanced, stage advanced at the last phase of
design cycle k - 1 (R84, R88, R306). -/
def Design.committed (d : Design) : Design :=
  { d with cells := if d.flipped then d.cells else d.commitCells, cabs := (d.cabs.map (fun e => (e.1, e.2.commit))).filter (fun e => e.2 ≠ {}),
           packets := [], rets := d.rets.filter (fun r => r.ret.isNone), hazards := [], accesses := [], errs := [], lastErr := none,
           capA := { d.capA with rates := [] }, capB := { d.capB with rates := [] },
           begun := false, trA := {}, trB := {}, flipped := false, attempt := 1, verdict := none, verdictMask := [], sigSent := false,
           twinRepaired := false, failover := false, frame := d.frame + 1,
           stage := if d.lastPhase ∧ d.stage < 3 then min 3 (d.cycle + 1) else d.stage,
           linkIn := d.linkIn.filter (fun r => !laterFrame (BitVec.ofNat 48 d.frame) r.frame) }

/-! ### HBM at the commit (R84 step 4, R146, R147) -/

/-- Insert a write-buffer entry by step and port, behind those that compare equal. -/
def insEntry (e : WEntry) : List WEntry → List WEntry
  | [] => [e]
  | x :: xs => if 4 * e.step + e.port < 4 * x.step + x.port then e :: x :: xs else x :: insEntry e xs

/-- The reads of a committed frame that are still in flight keep what they saw of it; its entries become committed, in step and port
order, behind those of earlier commits. -/
def HbmSt.commit (h : HbmSt) (d : Design) (now : Nat) : HbmSt :=
  let mine := h.wbuf.filter (fun e => e.design == d.tag && !e.committed)
  let rest := h.wbuf.filter (fun e => !(e.design == d.tag && !e.committed))
  { h with reads := h.reads.map (fun r => if r.design = d.tag ∧ r.frame = d.frame ∧ r.attempt = d.attempt then { r with data := h.overlay r } else r),
           wbuf := rest ++ (mine.foldl (fun l e => insEntry e l) []).map (fun e => { e with committed := true, since := now }) }

/-- Steps 3 and 4 of a commit (R84): the state flips, the writes are marked committed, the undo logs are cleared. -/
def State.flipFrame (s : State) (d : Design) : State :=
  if d.flipped then s
  else ((s.modHbm .a fun h => h.commit d s.clock).modHbm .b fun h => h.commit d s.clock).modDesign d.tag fun x =>
    { x with cells := x.commitCells, cabs := (x.cabs.map (fun e => (e.1, { e.2 with undo := [] }))).filter (fun e => e.2 ≠ {}), flipped := true }

/-! ### Whether a frame may commit (R84 steps 1 and 2) -/

/-- Whether every Cabinet of the span has completed the last step, with no error found. -/
def Design.stepsDone (d : Design) : Bool :=
  (d.state == .running || d.state == .stopping) && d.begun && d.errs.isEmpty &&
  d.span.all (fun l => (d.cab l).next == d.header.frameLen && d.clearedOf l == d.header.frameLen)

/-- Whether every MAC check of the frame's data has passed (R83). -/
def State.macsDone (s : State) (d : Design) : Bool :=
  !((s.chA.hbm.macs ++ s.chB.hbm.macs).any (fun m => m.design == d.tag &&
    (if m.link.isSome then decide ((BitVec.ofNat 48 m.frame : BitVec 48) = BitVec.ofNat 48 d.frame) else m.used == some d.frame)))

/-- The Cabinets whose signatures differ from those that the primary sent for the frame (R322). -/
def State.pairMismatch (s : State) (d : Design) : List Nat :=
  d.span.filter fun l => s.mode.sigs.any fun e => e.1 == BitVec.ofNat 48 d.frame && decide (e.2.1 ≤ l) &&
    (match e.2.2[l - e.2.1]? with
      | some v => v != d.sig l
      | none => false)

/-- Whether the signatures of both channels of the primary have arrived for the frame. -/
def State.sigsHeld (s : State) (d : Design) : Bool :=
  d.chans.all fun c => s.mode.sigs.any (fun e => e.1 == BitVec.ofNat 48 d.frame && e.2.1 == 64 * chNum c)

/-- Whether the commit may pass step 2 (R84, R314, R322). -/
def State.compared (s : State) (d : Design) : Bool :=
  if d.twin then !(s.ch d.home).holding && (d.fencedSide.isSome || d.verdict == some true)
  else if s.pairRuns && s.mode.primary then !laterFrame (BitVec.ofNat 48 d.frame) (s.mode.confirmed + 1)
  else if s.pairRuns then s.sigsHeld d && (s.pairMismatch d).isEmpty
  else true

/-- Whether the records of the frame are in the way (R153, R360): a HOLD policy and a channel whose FIFO does not take them. -/
def State.captureHolds (s : State) (d : Design) : List Ch := if d.dropping then [] else d.capChans.filter (fun c => !s.captureFits d c)

/-- The signatures of the primary go to the partner at commit step 1 (R322). -/
def State.sendSigs (s : State) (d : Design) : State :=
  if s.pairRuns && s.mode.primary && !d.sigSent then
    (s.channels.foldl (fun s c => s.sendTwin c (.twinSignature (BitVec.ofNat 48 d.frame) (64 * chNum c)
      ((List.range 64).map (fun i => d.sig (64 * chNum c + i))))) s).modDesign d.tag fun d => { d with sigSent := true }
  else s

/-! ### Counting faults (R90, R315) -/

/-- Count in a counter of a logical Cabinet's registers. -/
def State.countCab (s : State) (r : Reg) (l : Nat) : State :=
  match s.physOf l with
  | some (c, die, i) => s.count r c [die, i]
  | none => s

/-- A committed re-run shows that its fault was transient (R90, R315). Where the attempts failed from different sources, it counts for the
Cabinet of the last error alone (DESIGN CHOICE, log entry 22). -/
def State.transientFault (s : State) (d : Design) : State :=
  match d.lastErr with
  | none => s
  | some (.twin, _, _) =>
    let s := d.verdictMask.foldl (fun s l => if d.twin then (s.countCab .cabAborts l).countCab .cabAborts (l ^^^ 64) else s.countCab .cabAborts l) s
    if d.twin then
      ((s.count .modTwinTransient .a []).hostDesignEvent d 0x8002 [d.low, d.verdictMask.headD 0]).modMode fun x =>
        if x.referee = .retry then { x with referee := .armed } else x
    else s
  | some (_, l, _) => (s.countCab .cabAborts l).healthTransient (chOfCab l)

/-! ### Hazards and breaks (R50, R105, R106) -/

/-- The order of hazard events: step, then address. -/
def Hazard.before (a b : Hazard) : Bool := decide (a.step < b.step) || (a.step == b.step && decide (a.place < b.place))

/-- Insert a hazard at its place. -/
def insHazard (a : Hazard) : List Hazard → List Hazard
  | [] => [a]
  | b :: bs => if b.before a then b :: insHazard a bs else a :: b :: bs

/-- Keep the first hazard of each place. -/
def firstOfPlace : List Hazard → List Nat → List Hazard
  | [], _ => []
  | h :: hs, seen => if seen.contains h.place then firstOfPlace hs seen else h :: firstOfPlace hs (h.place :: seen)

/-- Write the BREAK and HAZARD events of a committed frame, at most 16 of each with a count beyond (R50, R106). -/
def State.hazardEvents (s : State) (d : Design) : State :=
  let all := d.hazards.foldr insHazard []
  let brk := firstOfPlace (all.filter (fun h => h.kind == 0)) []
  let hz := all.filter (fun h => h.kind != 0)
  let addr := fun (h : Hazard) => s.cellAddr (h.place / 65536) (h.place / 256 % 256) (h.place % 256)
  let t := (brk.take 16).foldl (fun t h => t.designEvent d 0x1006 (addr h ++ [h.step])) s
  let t := if 16 < brk.length then t.designEvent d 0x1007 [brk.length] else t
  let t := (hz.take 16).foldl (fun t h => t.designEvent d 0x1202 (addr h ++ [h.step, h.kind, h.what])) t
  if 16 < hz.length then t.designEvent d 0x1203 [hz.length] else t

/-! ### After the commit -/

/-- CAPTURE_START and CAPTURE_STOP take effect (R378). -/
def State.captureChange (s : State) (tag : Nat) : State :=
  match s.design tag with
  | none => s
  | some d => match d.capReq with
    | none => s
    | some q =>
      match q.start with
        | some c => s.modDesign tag fun d =>
            let d := d.allCabs.foldl (fun (d : Design) l => d.modCab l fun x => { x with prevBody := [], sinceFull := 0, sum := 0 }) d
            let fresh := fun (x : CapCh) => { x with rerun := false, prevA := none, prevT := 0 }
            { (d.modCc .a fresh).modCc .b fresh with cap := c, capReq := none }
        | none => (d.capChans.foldl (fun (s : State) c => s.dropEnds d c) s).modDesign tag fun d =>
            let gone := fun (x : CapCh) => { x with dead := 0 }
            { (d.modCc .a gone).modCc .b gone with cap := {}, capReq := none }

/-- Stage 1 lets the guests of a design out of reset (R185, R306). -/
def State.guestsOut (s : State) (d : Design) : State :=
  [Ch.a, Ch.b].foldl (fun s c => if (s.ch c).guest.owner = some d.tag then s.modGuest c fun g => { g with rstLow := false } else s) s

/-- What ends a run at a commit (R50, R80, R106, R236): a hazard or break first, then the frames done, then a stop request. `d` is the
design before the commit. -/
def State.endRun (s : State) (d : Design) : State :=
  match s.design d.tag with
  | none => s
  | some n =>
    let left := match n.run with
      | some r => r.left
      | none => none
    let s := s.modDesign d.tag fun x => { x with run := x.run.map (fun r => { r with left := r.left.map (· - 1) }) }
    let after := match n.stopAfter with
      | some f => !laterFrame f (BitVec.ofNat 48 d.frame)
      | none => false
    let stop := if !d.hazards.isEmpty then some (Status.hazard, 2) else if left = some 1 then some (.ok, 4)
      else if !n.stops.isEmpty || after then some (.ok, 3) else none
    match stop with
    | some (st, kind) => ((s.tellStop n).stopAt d.tag st kind).finishStops d.tag
    | none => s

/-- Schedule the repair swap of a Cabinet with a stuck bit for the frame boundary (R134). -/
def State.dueRepairs (s : State) (tag : Nat) : State :=
  s.modDesign tag fun d =>
    let due := d.span.filter fun l => match s.physOf l with
      | some (c, die, i) => (s.cab c die i).repairDue
      | none => false
    { d with repairs := d.repairs ++ due.map (fun l => (2, l, 0)) }

/-- Step 5 of the commit of a design's frame (R84), and what follows a commit. -/
def State.commitFrame (s : State) (d : Design) : State :=
  let s := s.transientFault d
  let (s, o) := s.collect d
  let queue := s.pairRuns
  let s := s.modDesign d.tag Design.committed
  let s := s.modMode fun x => if x.referee = .verify ∧ d.twin then { x with referee := .armed } else x
  let s := [Ch.a, Ch.b].foldl (fun s c => if d.capChans.contains c then s.modAcq c fun a => { a with holding := false } else s) s
  let s :=
    if queue && s.mode.primary then s.modDesign d.tag fun x => { x with outQ := x.outQ ++ [o] }
    else if queue then
      let s := s.sendTwin d.home (.confirm (BitVec.ofNat 48 d.frame) 0)
      s.modDesign d.tag fun x => { x with outQ := (x.outQ ++ [o]).drop (x.outQ.length + 1 - 3) }
    else s.release d o
  let s := if d.lastPhase ∧ d.stage < 3 then
      let k := min 3 (d.cycle + 1)
      (if k = 1 then s.guestsOut d else s).designPlain d 0x7005 [d.low, k]
    else s
  let s := s.hazardEvents d
  let s := s.captureChange d.tag
  let s := if s.mode.mode == .mirrored then
      (s.applyInputs (BitVec.ofNat 48 d.frame)).modMode fun x => { x with sigs := x.sigs.filter (fun e => laterFrame e.1 (BitVec.ofNat 48 d.frame)) }
    else s
  let s := (s.dueRepairs d.tag).endRun d
  let s := match s.design d.tag with
    | some n => if n.stage = 3 then d.chans.foldl (fun s c => s.modHbm c fun h => { h with staging := h.staging.filter (fun e => e.1 != d.tag) }) s else s
    | none => s
  if d.lastPhase then s.boundary d.tag else s

/-- A partner whose signatures differ from the primary's reports it and aborts the frame (R323). -/
def State.pairDiffers (s : State) (d : Design) : State :=
  let m := s.pairMismatch d
  let mask : BitVec 128 := m.foldl (fun v l => setBit v l true) 0
  ((s.sendTwin d.home (.confirm (BitVec.ofNat 48 d.frame) mask)).modDesign d.tag fun d => { d with verdictMask := m }).frameErr d.tag
    (.twin, m.headD 0, 0)

/-- FRAME_COMMIT (R84): once every step has completed and every check has passed, the frame of the design that holds partition `p`
commits; while one is missing it waits. Records that do not fit make it wait at step 5, behind the flip (R153). -/
def execFrameCommit (p : Nat) (s : State) : Host.Outcome State Fault Refusal :=
  .next (match s.designAt p with
    | none => s
    | some d =>
      if d.flipped then (if (s.captureHolds d).isEmpty then s.commitFrame d else s)
      else if d.stepsDone = false ∨ s.macsDone d = false then s
      else
        let s := s.sendSigs d
        if s.pairRuns && s.mode.partner && s.sigsHeld d && !(s.pairMismatch d).isEmpty then s.pairDiffers d
        else if s.compared d = false then s
        else
          let s := s.flipFrame d
          if (s.captureHolds d).isEmpty = false then
            (s.captureHolds d).foldl (fun s c => s.modAcq c fun a => { a with holding := true }) s
          else match s.design d.tag with
            | some d => s.commitFrame d
            | none => s)

/-! ### FRAME_ABORTED -/

/-- Whether an error comes from the same source as the one before (R90): the same kind at the same place; a twin mismatch at any. -/
def sameSource (a : Option (ErrSrc × Nat × Nat)) (e : ErrSrc × Nat × Nat) : Bool :=
  match a with
  | some x => x.1 == e.1 && (e.1 == .twin || x == e)
  | none => false

/-- Read the failing lines of a region under the twin's key and write them whole (R318 table, R155). -/
def State.twinLine (s : State) (d : Design) (cab addr : Nat) : State :=
  let c := chOfCab cab
  match d.regions.find? (fun g => g.side == chNum c && decide (g.base ≤ addr) && decide (addr < g.base + g.bytes)) with
  | none => s
  | some g =>
    match d.regions.find? (fun o => o.index == g.index && o.side != g.side) with
    | none => s
    | some o =>
      let bad := ((s.ch c).hbm.poison.filter (fun a => decide (addr / 256 = a / 256))) ++ [addr / 64 * 64]
      bad.foldl (fun s a =>
        let bytes := (s.ch (otherCh c)).hbm.committedBytes (a - g.base + o.base) 64
        s.modHbm c fun h => { h with mem := h.mem.writeBytes a bytes, poison := h.poison.filter (fun x => x != a) }) s

/-- A lasting twin mismatch is counted (R315, R316); a recurrence, after a repair or within 1 s of an unresolved one, fences a channel
(R318). -/
def State.twinLasting (s : State) (d : Design) : State :=
  let s := if d.twinRepaired then s else s.count .modTwinLasting .a []
  if d.twinRepaired || s.unresolvedLately d then
    (s.fenceOff s.weaker 1).modDesign d.tag fun x => { x with attempt := 4, lastErr := none, verdict := none }
  else
    let s := s.modMode fun x =>
      { x with referee := .repair, cabinet := d.verdictMask.headD 0x7F }
    let s := s.setSeq 1 (d.verdictMask.headD 0x7F)
    s.modDesign d.tag fun x => { x with repairs := x.repairs ++ d.verdictMask.map (fun l => (3, l, 0)), attempt := d.attempt + 1, lastErr := none }

/-- A lasting fault is counted and logged (R90). -/
def State.lastingNoted (s : State) (d : Design) (e : ErrSrc × Nat × Nat) : State :=
  ((s.countCab .cabLasting e.2.1).healthLasting (chOfCab e.2.1)).designEvent d 0x1102 [e.1.code, e.2.1, d.frame % 2 ^ 32]

/-- The repair path of a lasting fault other than a twin mismatch, as the chapter of its source settles (R61, R133, R154, R173). -/
def State.lastingFault (s : State) (d : Design) (e : ErrSrc × Nat × Nat) : State :=
  let (src, l, place) := e
  let s := s.lastingNoted d e
  let again := fun (r : List (Nat × Nat × Nat)) (s : State) => s.modDesign d.tag fun x =>
    { x with repairs := x.repairs ++ r, attempt := d.attempt + 1, lastErr := none }
  match src with
  | .benchParity => again [(1, l, place)] s
  | .cmemWord =>
    let s := s.designEvent d 0x2002 [l, place]
    if d.twinAlive then again [(2, l, 1)] s
    else
      let s := match s.physOf l with
        | some (c, die, i) => s.modCab c die i fun q => { q with repairDue := true }
        | none => s
      s.lastingStop d.tag .memoryError 0
  | .hbmWord => if d.twinAlive then again [] (s.twinLine d l place) else s.lastingStop d.tag .memoryError 0
  | src => s.lastingStop d.tag src.stop 0

/-- A twin mismatch of the second attempt in a pair: both members hold and test the named Cabinets (R323). -/
def State.pairLasting (s : State) (d : Design) : State :=
  if s.unresolvedLately d then s.pairRecurs
  else (s.modDesign d.tag fun x => { x with
    repairs := x.repairs ++ d.verdictMask.map (fun l => (3, l, 0)), attempt := d.attempt + 1, lastErr := none }).setSeq 1 (d.verdictMask.headD 0x7F)

/-- The retry rule for an aborted frame (R90, R91). A fourth failure that repeats the source of the third is a lasting fault too. -/
def State.retry (s : State) (d : Design) (e : ErrSrc × Nat × Nat) : State :=
  if 4 ≤ d.attempt then (if e.1 ≠ .twin ∧ sameSource d.lastErr e then s.lastingNoted d e else s).lastingStop d.tag e.1.stop 0
  else if e.1 = .twin ∧ d.twinAlive ∧ (d.twinRepaired ∨ sameSource d.lastErr e) then s.twinLasting d
  else if e.1 = .twin ∧ sameSource d.lastErr e then s.pairLasting d
  else if sameSource d.lastErr e then s.lastingFault d e
  else
    let s := if e.1 = .twin ∧ d.twin then s.modMode fun x => { x with referee := .retry, cabinet := e.2.1 % 64 } else s
    s.modDesign d.tag fun x => { x with attempt := d.attempt + 1, lastErr := some e }

/-- An undo-log entry that cannot be read leaves a word of a Cabinet unknown (R132): a twin restores it, otherwise the word is a free value
and the design stops. -/
def State.undoLost (s : State) (d : Design) (cab bank word : Nat) : State :=
  let s := (s.countCab .cmemUncorrected cab).designEvent d 0x2001 [cab, bank]
  if d.twinAlive then s.modDesign d.tag fun x => x.modCab cab fun y => { y with mem := (x.cab (cab ^^^ 64)).mem }
  else
    let v := s.free
    ((s.modDesign d.tag fun x => x.modCab cab fun y => { y with mem := KV.put 0 (8192 * bank + word) v y.mem }).freeNext).lastingStop d.tag
      .memoryError (detail [BitVec.ofNat 8 cab, BitVec.ofNat 8 bank])

/-- FRAME_ABORTED (R89-R91): the frame of the design that holds partition `p` met an error and is rolled back; the retry rule decides
what follows. -/
def execFrameAborted (p : Nat) (undo : UndoRead) (s : State) : Host.Outcome State Fault Refusal :=
  .next (match s.designAt p with
    | none => s
    | some d => match (if d.flipped then [] else d.errs) with
      | [] => s
      | e :: _ =>
        let s := s.designEvent d 0x1101 [e.1.code, d.attempt, e.2.1, d.frame % 2 ^ 32]
        let s := (undo.fixed.filter (fun l => d.span.contains l)).foldl (fun s l => s.countCab .cmemCorrected l) s
        let lost := undo.bad.filter fun u => d.span.contains u.1 && (d.cab u.1).undo.any (fun y => y.1 == u.2.1 && y.2.1 == 8192 * u.2.1 + u.2.2)
        let s := s.abortFrame d.tag
        match lost with
        | some (cab, bank, word) =>
          let s := s.undoLost d cab bank word
          if d.twinAlive then s.retry d e else s
        | none => s.retry d e)

end Sys2Proof.Machine
end

