-- ==== Sys2Proof/Machine/Sealed.lean ====
section
/-! DEFINITION. Host data sealed under a tenant's data key (R257, R277): opening the buffers of a command and sealing its results. -/

namespace Sys2Proof.Machine

open Sys2Proof

/-- Open a sealed host buffer of a command (R277): ciphertext, then a 16-byte tag, under the data key of the ring's owner; `first` is 1 for
the first buffer and 2 for the second. None where the tag fails or no data key is installed. -/
def Cmd.openBuf (m : Cmd) (first : Nat) (buf : List Byte) : Option (List Byte) :=
  match m.key 5 0 with
  | none => none
  | some k =>
    let ct := buf.take (buf.length - 16)
    let iv := m.iv first
    if 16 ≤ buf.length ∧ leBytes 16 (Config.gcmTag k.material iv m.desc.bytes ct).toNat = buf.drop (buf.length - 16)
    then some (gcmSeal k.material iv ct) else none

/-- Seal a result of a command (R277): ciphertext and tag; with no data key there is nothing to write. -/
def Cmd.sealResult (m : Cmd) (plain : List Byte) : List Byte :=
  match m.key 5 0 with
  | none => []
  | some k =>
    let iv := m.iv 0x81
    let ct := gcmSeal k.material iv plain
    ct ++ leBytes 16 (Config.gcmTag k.material iv m.desc.bytes ct).toNat

/-- The ciphertext of a result stopped before its end: no tag follows, so it fails to open (R264). -/
def Cmd.sealPart (m : Cmd) (plain : List Byte) : List Byte :=
  match m.key 5 0 with
  | none => []
  | some k => gcmSeal k.material (m.iv 0x81) plain

end Sys2Proof.Machine
end

