-- ==== Sys2Proof/Machine/CaptureTrace.lean ====
section
/-! DEFINITION. The commands of capture, triggers and trace (R354-R378): starting and stopping capture, trigger units, probe pins, trace
ranges, and the way of the blocks to the host. -/

namespace Sys2Proof.Machine

open Sys2Proof

/-! ### Capture commands (R378) -/

/-- CAPTURE_START (R378): completes at once and takes effect at the design's next commit (log entry 18). -/
def execCaptureStart (r : RingNo) (t : Tag) (s : State) : Host.Outcome State Fault Refusal :=
  .next (s.withCmd r t 0x70 fun s m =>
    match s.designAt m.desc.partition.toNat with
    | none => s.complete m .refusedState 0
    | some d =>
      if d.cap.on ∨ d.capReq.isSome then s.complete m .refusedState 0
      else if (s.key d.slot 6 0).isNone then s.complete m .resource 0
      else
        let c : Capture :=
          { on := true, drop := m.desc.par 8 1 == 1, compress := bitAt (m.desc.par 9 1) 0, activity := bitAt (m.desc.par 9 1) 1,
            interval := max 1 (m.desc.par 12 2) }
        (s.modDesign d.tag fun d => { d with capReq := some { start := some c } }).complete m .ok 0)

/-- CAPTURE_STOP (R378): stops capture at the next commit, or withdraws a start that has not taken effect. -/
def execCaptureStop (r : RingNo) (t : Tag) (s : State) : Host.Outcome State Fault Refusal :=
  .next (s.withCmd r t 0x71 fun s m =>
    match s.designAt m.desc.partition.toNat with
    | none => s.complete m .nothingToAbort 0
    | some d =>
      if d.cap.on then (s.modDesign d.tag fun d => { d with capReq := some { start := none } }).complete m .ok 0
      else if d.capReq.isSome then (s.modDesign d.tag fun d => { d with capReq := none }).complete m .ok 0
      else s.complete m .nothingToAbort 0)

/-! ### Trigger units (R362) -/

/-- State entry `i` of a trigger program. -/
def trigState (p : List Byte) (i : Nat) : TrigState :=
  let o := 80 + 16 * i
  { cond := rd p o 1, arg := rd p (o + 1) 1, next := rd p (o + 2) 1, fire := bitAt (rd p (o + 3) 1) 0, count := rd p (o + 4) 4 }

/-- Signals of a trigger program. -/
def trigSignals (p : List Byte) : List Nat := (List.range (rd p 0 2)).map (fun j => rd p (144 + 4 * j) 4)

/-- Whether every field of a trigger program holds a value that the program format defines, its reserved fields 0 (R362). -/
def trigOk (p : List Byte) : Bool :=
  decide (1 ≤ rd p 0 2) && decide (rd p 0 2 ≤ 256) && decide (p.length = 144 + 4 * rd p 0 2) && decide (rd p 2 1 ≤ 2) &&
  decide (rd p 3 1 < 16) && decide (rd p 10 6 = 0) &&
  (List.range 4).all (fun i =>
    let o := 80 + 16 * i
    decide (rd p o 1 ≤ 6) && decide (rd p (o + 2) 1 ≤ 3) && decide (rd p (o + 3) 1 ≤ 1) && decide (rd p (o + 8) 8 = 0))

/-- The unit that a program makes: state 0, counter 0 (R362). -/
def trigUnit (tag : Nat) (p : List Byte) : TrigUnit :=
  { design := some tag, cmp := rd p 2 1, out := rd p 3 1, threshold := rd p 4 6, value := BitVec.ofNat 256 (rd p 16 32),
    mask := BitVec.ofNat 256 (rd p 48 32), states := (List.range 4).map (trigState p), signals := trigSignals p }

/-- The unit that TRIG_SET takes: the one named, or for 0xFF the lowest free one. -/
def State.freeUnit (s : State) (c : Ch) (n : Nat) : Option Nat :=
  let free := fun k => (KV.get ({} : TrigUnit) k (s.ch c).units).design.isNone
  if n = 0xFF then (List.range 16).find? free else if n < 16 ∧ free n then some n else none

/-- Give a unit to a design. Its word of the previous committed frame stands in the result slots while no frame is under way; within one
it is a free value (log entry 4). -/
def State.setUnit (s : State) (c : Ch) (d : Design) (k : Nat) (u : TrigUnit) : State :=
  let prev : BitVec 256 := if d.begun then BitVec.ofNat 256 (leNat (s.freeBytes 32)) else d.trigWord u
  let s := if d.begun then { s with freeCtr := s.freeCtr + 32 } else s
  let s := s.modCh c fun h => { h with units := KV.put {} k { u with prev := prev } h.units }
  s.modDesign d.tag fun d => d.modCc c fun x => if x.step5 = 0 then { x with step5 := (s.ch c).time.raw.toNat } else x

/-- TRIG_SET (R362): load a sealed trigger program into a unit of a channel. -/
def execTrigSet (r : RingNo) (t : Tag) (sealedBuf : List Byte) (s : State) : Host.Outcome State Fault Refusal :=
  .next (s.withCmd r t 0x72 fun s m =>
    let c := chOf (m.desc.par 17 1)
    match s.designAt m.desc.partition.toNat with
    | none => s.complete m .refusedState 0
    | some d =>
      match m.openBuf 1 sealedBuf with
      | none => s.complete m .authFail 0
      | some p =>
        let sigs := trigSignals p
        if s.channels.contains c = false ∨ trigOk p = false then s.complete m .refusedState 0
        else if sigs.any (fun g => d.probes.all (fun q => q.signal != g)) then s.complete m .resource 0
        else if d.probes.any (fun q => sigs.contains q.signal && chOfCab (d.liveCab q.cab) != c) then s.complete m .refusedState 0
        else match s.freeUnit c (m.desc.par 16 1) with
          | none => s.complete m .resource 0
          | some k => (s.setUnit c d k (trigUnit d.tag p)).complete m .ok (detail [BitVec.ofNat 8 k]))

/-- TRIG_CLEAR (R378): free a unit of the design. -/
def execTrigClear (r : RingNo) (t : Tag) (s : State) : Host.Outcome State Fault Refusal :=
  .next (s.withCmd r t 0x73 fun s m =>
    let c := chOf (m.desc.par 17 1)
    let k := m.desc.par 16 1
    match s.designAt m.desc.partition.toNat with
    | none => s.complete m .nothingToAbort 0
    | some d =>
      if (KV.get ({} : TrigUnit) k (s.ch c).units).design = some d.tag then
        (s.modCh c fun h => { h with units := KV.put {} k {} h.units }).complete m .ok 0
      else s.complete m .nothingToAbort 0)

/-! ### Probe pins (R369-R371) -/

/-- Whether groups 0-4 form the parallel trace port (R371). -/
def State.tracePort (s : State) : Bool := bitAt (s.reg .modProbeTrace .a []).toNat 0

/-- Owner of a pin group: 0 none; groups of the trace port have none (R369, R371). -/
def State.pinOwner (s : State) (g : Nat) : Nat :=
  let o := s.regField .modProbeGroup .a [] (4 * g) 4
  if 8 < o ∨ (g < 5 ∧ s.tracePort) then 0 else o

/-- Whether entry `i` of PROBE_SET's buffer is one that the tenant may give: its pin held, its fields defined, its signal one of the
design's. -/
def State.probeOk (s : State) (d : Design) (p : List Byte) (i : Nat) : Bool :=
  let o := 8 * i
  decide (rd p o 1 < 64) && decide (rd p (o + 1) 1 ≤ 2) && decide (rd p (o + 2) 2 = 0) && s.pinOwner (rd p o 1 / 8) == d.slot &&
  (rd p (o + 1) 1 != 1 || d.probes.any (fun q => q.signal == rd p (o + 4) 4))

/-- PROBE_SET (R370): select what the tenant's pins show from the design's next commit on. -/
def execProbeSet (r : RingNo) (t : Tag) (sealedBuf : List Byte) (s : State) : Host.Outcome State Fault Refusal :=
  .next (s.withCmd r t 0x74 fun s m =>
    let n := m.desc.par 16 1
    match s.designAt m.desc.partition.toNat with
    | none => s.complete m .refusedState 0
    | some d =>
      match m.openBuf 1 sealedBuf with
      | none => s.complete m .authFail 0
      | some p =>
        if p.length ≠ 8 * n ∨ (List.range n).any (fun i => !s.probeOk d p i) then s.complete m .refusedState 0
        else
          let s := (List.range n).foldl (fun (s : State) i =>
            { s with pins := KV.upd {} (rd p (8 * i) 1) (fun q =>
                { q with mode := rd p (8 * i + 1) 1, design := d.tag, signal := rd p (8 * i + 4) 4 }) s.pins }) s
          s.complete m .ok 0)

/-- Release the pins of some groups: they drive 0 and lose their selections (R369). -/
def State.dropPins (s : State) (sel : Nat → Bool) : State := { s with pins := s.pins.filter (fun e => !sel (e.1 / 8)) }

/-- A write of MOD_PROBE_GROUP (R369): a change of assignment takes effect at once. Groups of the trace port keep none (R371). -/
def execModProbeGroupWrite (value : Word32) (s : State) : Host.Outcome State Fault Refusal :=
  .next (if s.portAnswers = false then s
    else
      let new := s.setReg .modProbeGroup .a [] (if s.tracePort then value &&& 0xFFF00000#32 else value)
      new.dropPins (fun g => s.pinOwner g != new.pinOwner g))

/-- A write of MOD_PROBE_TRACE (R371): turning the trace port on ends the assignments of groups 0-4. -/
def execModProbeTraceWrite (value : Word32) (s : State) : Host.Outcome State Fault Refusal :=
  .next (if s.portAnswers = false then s
    else
      let s := s.setReg .modProbeTrace .a [] (value &&& 3)
      if value.getLsbD 0 then
        (s.setReg .modProbeGroup .a [] (s.reg .modProbeGroup .a [] &&& 0xFFF00000#32)).dropPins (fun g => decide (g < 5))
      else s)

/-! ### Data trace (R374, R378) -/

/-- Range `i` of TRACE_SET's buffer. -/
def traceRange (tag : Nat) (p : List Byte) (i : Nat) : TraceRange :=
  let o := 24 * i
  { design := some tag, mode := rd p o 1, space := rd p (o + 1) 1, place := rd p (o + 2) 1, ops := rd p (o + 3) 1,
    low := rd p (o + 8) 8, high := rd p (o + 16) 8 }

/-- Whether range `i` of TRACE_SET's buffer holds defined values, its reserved field 0. -/
def traceRangeOk (p : List Byte) (i : Nat) : Bool :=
  decide (rd p (24 * i) 1 ≤ 3) && decide (rd p (24 * i + 1) 1 ≤ 1) && decide (rd p (24 * i + 4) 4 = 0)

/-- TRACE_SET (R374): allocate the lowest free ranges of a channel to the design. -/
def execTraceSet (r : RingNo) (t : Tag) (sealedBuf : List Byte) (s : State) : Host.Outcome State Fault Refusal :=
  .next (s.withCmd r t 0x75 fun s m =>
    let n := m.desc.par 16 1
    let all := bitAt (m.desc.par 17 1) 0
    let c := chOf (m.desc.par 18 1)
    match s.designAt m.desc.partition.toNat with
    | none => s.complete m .refusedState 0
    | some d =>
      if d.chans.contains c = false ∨ (all ∧ s.mode.mode.isDebug = false) then s.complete m .refusedState 0
      else if (s.key d.slot 7 0).isNone then s.complete m .resource 0
      else match m.openBuf 1 sealedBuf with
        | none => s.complete m .authFail 0
        | some p =>
          let free := (List.range 8).filter (fun k => (KV.get ({} : TraceRange) k (s.ch c).tranges).design.isNone)
          if p.length ≠ 24 * n ∨ (List.range n).all (traceRangeOk p) = false then s.complete m .refusedState 0
          else if free.length < n then s.complete m .resource 0
          else
            let s := s.modCh c fun h => { h with
              tranges := ((free.take n).zip (List.range n)).foldl (fun k e => KV.put {} e.1 (traceRange d.tag p e.2) k) h.tranges }
            let start := (s.rangesOf d c).any (fun e => e.2.mode == 2)
            (s.modDesign d.tag fun d => d.modCc c fun x => { x with traceAll := x.traceAll || all, tracing := !start }).complete m .ok 0)

/-- TRACE_STOP (R378): release the design's ranges in a channel. -/
def execTraceStop (r : RingNo) (t : Tag) (s : State) : Host.Outcome State Fault Refusal :=
  .next (s.withCmd r t 0x76 fun s m =>
    let c := chOf (m.desc.par 18 1)
    match s.designAt m.desc.partition.toNat with
    | none => s.complete m .nothingToAbort 0
    | some d =>
      if s.traced c d then
        let s := s.modCh c fun h => { h with tranges := h.tranges.filter (fun e => e.2.design != some d.tag) }
        (s.modDesign d.tag fun d => d.modCc c fun x => { x with traceAll := false, tracing := true }).complete m .ok 0
      else s.complete m .nothingToAbort 0)

/-! ### Blocks (R354, R355) -/

/-- The 32-byte header of a block. -/
def blockHeader (c : Ch) (r : StreamRec) (isSealed lost : Bool) (len bseq : Nat) : List Byte :=
  leBytes 1 r.type ++ leBytes 1 (chNum c + 2 * bit01 isSealed + 4 * bit01 lost) ++ leBytes 1 r.id ++ leBytes 1 0 ++ leBytes 4 len ++
    leBytes 8 bseq ++ leBytes 8 r.image.toNat ++ leBytes 8 r.nonce.toNat

/-- Whether the blocks of a stream are sealed (R355). -/
def StreamRec.isSealed (r : StreamRec) : Bool := r.slot != 0

/-- Close a block over a payload (R354, R355): the block, and its bytes with tag and padding. None while the tenant holds no stream key. -/
def State.closeBlock (s : State) (c : Ch) (r : StreamRec) (bseq : Nat) (payload : List Byte) : Option (Block × List Byte) :=
  let b := fun (data : List Byte) => ({ type := r.type, id := r.id, bseq := bseq, nonce := r.nonce, image := r.image, payload := data, lost := false } : Block)
  let head := blockHeader c r r.isSealed false payload.length bseq
  if r.isSealed = false then some (b payload, padTo 64 (head ++ payload))
  else (s.key r.slot (if r.type = 1 then 6 else 7) 0).map fun k =>
    let key := (Config.hkdf k.material [] (strBytes "lumwell stream" ++ leBytes 1 r.type ++ leBytes 1 (chNum c) ++ leBytes 8 r.nonce.toNat)).take 32
    let iv := leBytes 1 r.type ++ leBytes 1 (chNum c) ++ leBytes 2 0 ++ leBytes 8 bseq
    let ct := gcmSeal key iv payload
    (b ct, padTo 64 (head ++ ct ++ leBytes 16 (Config.gcmTag key iv head ct).toNat))

/-- The records of a stream that fit a payload limit, whole and in order, up to one that an engine has yet to compress (R356). -/
def takeRecs (room : Nat) : List StreamRec → List StreamRec
  | [] => []
  | r :: rs => if r.bytes.length ≤ room ∧ r.packed.isNone then r :: takeRecs (room - r.bytes.length) rs else []

/-- Drop the first `n` records of a stream from a list. -/
def dropRecs (key : Nat) : Nat → List StreamRec → List StreamRec
  | 0, l => l
  | _, [] => []
  | n + 1, r :: rs => if r.key = key then dropRecs key n rs else r :: dropRecs key (n + 1) rs

/-! ### The capture ring and its delivery (R356, R357, R359) -/

/-- 64-byte units of the blocks in the capture ring. -/
def AcqSt.held (a : AcqSt) : Nat := (a.ringBlocks.map Block.units).sum

/-- 64-byte units of the capture ring in use: in PULL what the host has not consumed, in PUSH the blocks not yet copied (R357). -/
def State.ringUsed (s : State) (c : Ch) : Nat :=
  let a := (s.ch c).acq
  if a.active then (a.produced - s.reg .acqConsumed c []).toNat else a.held

/-- Write bytes into the capture ring from a unit on, wrapping at its end; whole lines clear their poison, and with integrity on they count in
the counter tree (R161, R282). -/
def HbmSt.ringWrite (h : HbmSt) (pos : Nat) (data : List Byte) : HbmSt :=
  let off := 64 * pos
  let first := data.take (h.ringBytes - off)
  let rest := data.drop (h.ringBytes - off)
  let lines := (linesOf (captureBase + off) first.length ++ (if rest.isEmpty then [] else linesOf captureBase rest.length))
  let h := { h with mem := (h.mem.writeBytes (captureBase + off) first).writeBytes captureBase rest, poison := h.poison.filter (fun a => !lines.contains a) }
  if h.integrity then h.raiseLines lines else h

/-- Whether the controller serves the capture writer now (R150, R152). -/
def State.captureServed (s : State) (c : Ch) : Bool :=
  match (s.ch c).acq.fifo with
  | [] => true
  | r :: _ =>
    let since := s.clock - (s.ticks c - r.tick)
    s.hbmServes c (s.captureNext c) (if (s.ch c).hbm.panic then 1 else agedRank 5 since s.clock) since

/-- The ring has given space back: it is full no longer where the next block fits. -/
def State.ringFreed (s : State) (c : Ch) : State :=
  s.modAcq c fun a => { a with full := a.full && decide ((s.ch c).hbm.ringBytes / 64 < s.ringUsed c + 1026) && decide (0 < s.ringUsed c) }

/-- CAPTURE_BLOCK_CLOSE (R356): the staged records of a design's stream, up to 65,536 bytes, are sealed as a block and written into the
capture ring; where the ring lacks room it is full, with one event. Outside PANIC a request of a higher rank to the pseudo-channel of its first
line goes before it (R150, R152). -/
def execCaptureBlockClose (c : Ch) (design : Nat) (s : State) : Host.Outcome State Fault Refusal :=
  .next (
    let a := (s.ch c).acq
    let h := (s.ch c).hbm
    if (s.pw c).state.arrayOn = false ∨ a.disabled ∨ s.captureServed c = false then s
    else match a.fifo.find? (fun r => r.id == design) with
      | none => s
      | some r =>
        let recs := takeRecs 65536 (a.fifo.filter (fun x => x.key == r.key))
        if recs.isEmpty then s else
        let n := KV.get 0 r.key a.bseq
        match s.closeBlock c r n (recs.flatMap (·.bytes)) with
        | none => s
        | some (b, bytes) =>
          let units := bytes.length / 64
          let total := h.ringBytes / 64
          if total < s.ringUsed c + units then
            if a.full then s else (s.modAcq c fun a => { a with full := true }).hubEvent c 0xA004 [chNum c]
          else
            let s := s.modHbm c fun h => h.ringWrite a.ringPos bytes
            (s.modAcq c fun a => { a with
              fifo := dropRecs r.key recs.length a.fifo, bseq := KV.put 0 r.key (n + 1) a.bseq,
              ringBlocks := a.ringBlocks ++ [{ b with pos := a.ringPos }], ringPos := (a.ringPos + units) % total,
              produced := if a.active then a.produced + BitVec.ofNat 32 units else a.produced, full := false }).panicCheck c)

/-- Size of the host capture or trace buffer in 64-byte units. -/
def State.hostUnits (s : State) (r : Reg) (c : Ch) : Nat := 2 ^ (max 20 (min 34 (s.regField r c [] 0 5))) / 64

/-- Write units of a block into a host buffer at a produced count, wrapping at its end. -/
def State.bufWrite (s : State) (base units : Nat) (produced : Word32) (data : List Byte) : State :=
  let off := 64 * (produced.toNat % units)
  let first := data.take (64 * units - off)
  let s := s.hostWrite (base + off) first
  if data.length ≤ first.length then s else s.hostWrite base (data.drop first.length)

/-- Base address of the host capture or trace buffer. -/
def State.bufBase (s : State) (lo hi : Reg) (c : Ch) : Nat := (s.reg lo c []).toNat / 4096 * 4096 + 2 ^ 32 * (s.reg hi c []).toNat

/-- CAPTURE_DELIVERY (R357, R359): in PUSH the hub copies the oldest block of the ring to the host buffer, where its units fit; a lost block
keeps its place as a block of 64 bytes. `read` is what its lines met (R154, R283); a block whose line fails its MAC is read again, and after the
second failure it is lost (R284, R359; DEDUCED, log entry 40). Without its hub key the ring yields no block (R161, R289). -/
def execCaptureDelivery (c : Ch) (read : BlockRead) (s : State) : Host.Outcome State Fault Refusal :=
  .next (
    let ⟨ecc, macOk⟩ := read
    let a := (s.ch c).acq
    if a.active ∨ s.host.perst ∨ (s.pw c).state.arrayOn = false then s
    else match a.ringBlocks with
      | [] => s
      | b :: _ =>
        let at0 := captureBase + 64 * b.pos
        let (s, twice) := if macOk = false ∧ (s.ch c).hbm.integrity then s.ringMacFailed c at0 0 else (s, false)
        if macOk = false ∧ (s.ch c).hbm.integrity ∧ twice = false then s else
        let s := s.ringNode c at0 ecc
        let h := (s.ch c).hbm
        let node := match ecc with
          | .node _ => h.integrity
          | _ => false
        let n := 64 * b.units
        let first := min n (h.ringBytes - 64 * b.pos)
        let bad := ecc == .uncorrectable || h.unreadable (captureBase + 64 * b.pos) first || (decide (first < n) && h.unreadable captureBase (n - first))
        let gone := bad || twice || node || b.lost || (h.integrity && (s.ch c).hutch.hubKey.isNone)
        let r : StreamRec := { type := b.type, id := b.id, slot := 0, nonce := b.nonce, image := b.image, tick := 0, bytes := [] }
        let data := if gone then padTo 64 (blockHeader c r false true 0 b.bseq)
          else h.mem.readBytes (captureBase + 64 * b.pos) first ++ h.mem.readBytes captureBase (n - first)
        let units := s.hostUnits .acqHostSize c
        if units < (a.produced - s.reg .acqConsumed c []).toNat + data.length / 64 then s
        else
          let s := if bad && !b.lost then s.hbmUncorrected c (captureBase + 64 * b.pos) 5 (h.kindAt (captureBase + 64 * b.pos) first) else s
          let s := if gone ∧ (s.ch c).acq.ringBlocks.all (fun x => x.pos != b.pos || !x.lost) then s.captureLost c b else s
          let s := s.bufWrite (s.bufBase .acqHostBaseLo .acqHostBaseHi c) units a.produced data
          (s.modAcq c fun a => { a with ringBlocks := a.ringBlocks.drop 1, produced := a.produced + BitVec.ofNat 32 (data.length / 64) }).ringFreed c)

/-- A write of ACQ_CTRL (R357): the delivery mode requested. -/
def execDeliveryChange (c : Ch) (value : Word32) (s : State) : Host.Outcome State Fault Refusal :=
  .next (if s.portAnswers = false then s else if (s.pw c).state.hubOn then s.setReg .acqCtrl c [] (value &&& 1) else s)

/-- DELIVERY_MODE_APPLIED (R357): once the ring is empty and the counts are equal, the mode requested applies and both counts start at
0. -/
def execDeliveryModeApplied (c : Ch) (s : State) : Host.Outcome State Fault Refusal :=
  .next (
    let a := (s.ch c).acq
    let want := bitAt (s.reg .acqCtrl c []).toNat 0
    if want = a.active ∨ a.ringBlocks.isEmpty = false ∨ a.produced ≠ s.reg .acqConsumed c [] then s
    else (s.modAcq c fun a => { a with active := want, produced := 0, ringPos := 0 }).setReg .acqConsumed c [] 0)

/-- Whether a count from the host neither moves backwards nor passes the produced count (R357). -/
def countOk (produced old new : Word32) : Bool := decide ((new - old).toNat ≤ (produced - old).toNat)

/-- Blocks that stay in the ring once the host has consumed up to a count, the first of them at `start` (R357, PULL). -/
def consumeBlocks (consumed : Word32) : Word32 → List Block → List Block
  | _, [] => []
  | start, b :: bs =>
    if b.units ≤ (consumed - start).toNat ∧ (consumed - start).toNat < 2 ^ 31 then consumeBlocks consumed (start + BitVec.ofNat 32 b.units) bs
    else b :: bs

/-- A write of ACQ_CONSUMED (R357): frees space, or is ignored and logged. -/
def execAcqConsumedWrite (c : Ch) (value : Word32) (s : State) : Host.Outcome State Fault Refusal :=
  .next (if s.portAnswers = false then s else if (s.pw c).state.hubOn = false then s
    else
      let a := (s.ch c).acq
      if countOk a.produced (s.reg .acqConsumed c []) value = false then s.hubEvent c 0x0004 [0xFFFF, 4]
      else
        let s := s.setReg .acqConsumed c [] value
        if a.active then
          (s.modAcq c fun a => { a with ringBlocks := consumeBlocks value (a.produced - BitVec.ofNat 32 a.held) a.ringBlocks }).ringFreed c
        else s)

/-- A write of TRC_CONSUMED (R357). -/
def execTrcConsumedWrite (c : Ch) (value : Word32) (s : State) : Host.Outcome State Fault Refusal :=
  .next (if s.portAnswers = false then s else if (s.pw c).state.hubOn = false then s
    else if countOk (s.ch c).trc.produced (s.reg .trcConsumed c []) value then s.setReg .trcConsumed c [] value
    else s.hubEvent c 0x0004 [0xFFFF, 5])

/-! ### Trace blocks (R371-R373, R377) -/

/-- The signed difference coded as zigzag in LEB128 (R373). -/
def zigzag (x : Int) : List Byte := leb 10 (if 0 ≤ x then 2 * x.toNat else 2 * (-x).toNat - 1)

/-- A DATA packet's address difference from the base of its space; the rest of the packets have none (R373). `bases` are those of cabinet
memory and HBM. -/
def packetBody (bases : Int × Int) (p : List Byte) : List Byte × (Int × Int) :=
  let op := rd p 0 1 / 16
  if rd p 0 1 % 16 ≠ 2 then (p.drop 1, bases)
  else
    let hbm := decide (op = 5 ∨ op = 6)
    let n := if hbm then 7 else 5
    let addr : Int := rd p n 8
    ((p.take n).drop 1 ++ zigzag (addr - (if hbm then bases.2 else bases.1)) ++ p.drop (n + 8),
      if hbm then (bases.1, addr) else (addr, bases.2))

/-- SYNC at a tick (R373): time view 0 and the frame number of the stream's design. -/
def State.syncBody (s : State) (c : Ch) (r : StreamRec) (tick : Nat) : List Byte :=
  leBytes 8 (BitVec.ofInt 64 (viewAt 0 (s.view c 0) (tick * 2 ^ 32) / 2 ^ 32)).toNat ++
    leBytes 6 r.frame

/-- The payload of a block: SYNC, then the packets with their times and address differences; a SYNC follows each OVERFLOW (R373, R377). -/
def State.packetBytes (s : State) (c : Ch) : Nat → (Int × Int) → Bool → List StreamRec → List Byte
  | _, _, _, [] => []
  | last, bases, sync, r :: rs =>
    let dt := fun (from' : Nat) => zigzag ((r.tick : Int) - from')
    if sync then
      leBytes 1 1 ++ dt last ++ s.syncBody c r r.tick ++ r.bytes.take 1 ++ dt r.tick ++ (packetBody (0, 0) r.bytes).1 ++
        State.packetBytes s c r.tick (packetBody (0, 0) r.bytes).2 (rd r.bytes 0 1 % 16 == 10) rs
    else
      r.bytes.take 1 ++ dt last ++ (packetBody bases r.bytes).1 ++
        State.packetBytes s c r.tick (packetBody bases r.bytes).2 (rd r.bytes 0 1 % 16 == 10) rs

/-- The longest run of packets of a stream whose payload fits a block, at most `n` of them. -/
def State.packetRun (s : State) (c : Ch) (last most : Nat) (l : List StreamRec) : Nat → List StreamRec
  | 0 => []
  | n + 1 => if (s.packetBytes c last (0, 0) true (l.take (n + 1))).length ≤ most then l.take (n + 1) else State.packetRun s c last most l n

/-- Where the trace blocks of a hub go: 0 the host buffer, 1 the parallel port, 2 a link port (TRC_CTRL.DEST). -/
def State.traceDest (s : State) (c : Ch) : Nat :=
  match s.regField .trcCtrl c [] 0 2 with
  | 1 => if s.tracePort && (!s.id.twoCh || bitAt (s.reg .modProbeTrace .a []).toNat 1 == (c == .b)) then 1 else 0
  | 2 => 2
  | _ => 0

/-- A block on the parallel trace port (R371): a word with TRACE_CTL at 0, then its bytes, byte 0 in bits [7:0]. -/
def portWords (bytes : List Byte) : List (Bool × Word32) :=
  (false, 0) :: (List.range (bytes.length / 4)).map (fun i => (true, BitVec.ofNat 32 (rd bytes (4 * i) 4)))

/-- Send a closed block to its destination; false where the host buffer has no room for it (R372). -/
def State.sendBlock (s : State) (c : Ch) (r : StreamRec) (bytes : List Byte) (keys : List Nat) : State × Bool :=
  let n := bytes.length / 64
  match s.traceDest c with
  | 1 => (s.modTrc c fun t => { t with portOut := t.portOut ++ portWords bytes }, true)
  | 2 =>
    let p := s.regField .trcCtrl c [] 2 3
    if s.portUse c p 3 && s.carries c p then
      let rseq := KV.get 0 r.key (s.ch c).trc.rseq
      ((s.sendOn c p (.trace (r.type + 16 * r.id) rseq bytes)).modTrc c fun t => { t with rseq := KV.put 0 r.key (rseq + 1) t.rseq }, true)
    else (s.traceLost c keys, true)
  | _ =>
    let units := s.hostUnits .trcHostSize c
    let t := (s.ch c).trc
    if s.host.perst ∨ units < (t.produced - s.reg .trcConsumed c []).toNat + n then (s, false)
    else ((s.bufWrite (s.bufBase .trcHostBaseLo .trcHostBaseHi c) units t.produced bytes).modTrc c fun t =>
      { t with produced := t.produced + BitVec.ofNat 32 n }, true)

/-- Close and send one block of a stream of staged packets. -/
def State.traceBlock (s : State) (c : Ch) (key : Nat) : State :=
  let t := (s.ch c).trc
  let l := t.staged.filter (fun r => r.key == key)
  match l with
  | [] => s
  | r :: _ =>
    let last := KV.get r.tick key t.lastTick
    let run := s.packetRun c last (if s.traceDest c = 2 then 4096 else 65536) l l.length
    let n := KV.get 0 key t.bseq
    match s.closeBlock c r n (s.packetBytes c last (0, 0) true run) with
    | none => s
    | some (_, bytes) =>
      let (s, sent) := s.sendBlock c r bytes (run.map (·.key))
      if sent = false then s
      else s.modTrc c fun t => { t with
        staged := dropRecs key run.length t.staged, bseq := KV.put 0 key (n + 1) t.bseq,
        lastTick := KV.ins key ((run.getLast?.map (·.tick)).getD 0) (KV.del key t.lastTick) }

/-- TRACE_BLOCK_DELIVERY (R372): the hub closes the open block of each stream and sends it to the destination that TRC_CTRL.DEST names. -/
def execTraceBlockDelivery (c : Ch) (s : State) : Host.Outcome State Fault Refusal :=
  .next (if (s.pw c).state.hubOn = false ∨ (s.ch c).trc.disabled then s
    else (((s.ch c).trc.staged.map (·.key)).eraseDups).foldl (fun s k => s.traceBlock c k) s)

/-- TRACE_OVERFLOW (R377): the newest packets find no room in the staging and are lost. -/
def execTraceOverflow (c : Ch) (packets : Nat) (s : State) : Host.Outcome State Fault Refusal :=
  .next (
    let l := (s.ch c).trc.staged
    let keep := l.length - packets
    (s.modTrc c fun t => { t with staged := t.staged.take keep }).traceLost c ((l.drop keep).map (·.key)))

end Sys2Proof.Machine
end

