-- ==== Sys2Proof/Machine/LoadImage.lean ====
section
/-! DEFINITION. Loading (R119-R122, R304): the checks in their order, the resolution of patches (R117, R118, R216, R247,
R287), and what a load writes. -/

namespace Sys2Proof.Machine

open Sys2Proof

/-- A refusal of a load (R119): the check, the status, the item and the index of the completion detail. -/
structure LoadFail where
  check : Nat
  status : Status
  item : Nat
  index : Nat

/-- A refusal with item 0 and index 0xFFFF. -/
def LoadFail.plain (check : Nat) (status : Status) : LoadFail := { check := check, status := status, item := 0, index := 0xFFFF }

/-- A failed check of the image's form, as a refusal. -/
def Fail.load (check : Nat) (status : Status) (f : Fail) : LoadFail :=
  { check := check, status := status, item := f.1, index := f.2 }

/-- Channels of a list of partitions. -/
def chansOf (ps : List Nat) : List Ch := [Ch.a, Ch.b].filter (fun c => ps.any (fun p => chOfPart p == c))

/-- Every partition that a load takes, channel B's copy included in TWINNED (R312). -/
def State.loadParts (s : State) (targets : List Nat) : List Nat :=
  targets ++ (if s.mode.mode == Mode.twinned then targets.map (· ^^^ 4) else [])

/-! ### Checks 1 to 5 (R119, R304, R108, R95, R97) -/

/-- Check 1 (R304, R292, R312). A TWINNED load whose copy would lie in a fenced channel is refused with FENCED as one whose targets do
(DESIGN CHOICE, log entry 31). -/
def State.check1 (s : State) (slot mask : Nat) : Option LoadFail :=
  let all := s.loadParts (maskParts mask)
  if s.base.inForce.isNone || s.mode.mode == .service || mask == 0 then some (.plain 1 .refusedState)
  else if all.any (fun p => (s.ch (chOfPart p)).fenced) then some (.plain 1 .fenced)
  else if !(s.mode.mode == Mode.twinned && decide (16 ≤ mask)) && s.partsExist mask && all.all (fun p => (s.part p).state == .empty && (s.part p).owner == slot &&
      (s.pw (chOfPart p)).state.arrayOn) then none
  else some (.plain 1 .refusedState)

/-- Check 2 (R108): the outer header and the length that LOAD gives. -/
def outerOk (image : List Byte) (len : Nat) : Bool :=
  decide (128 ≤ image.length) && rd image 0 4 == 0x314D4946 && rd image 4 2 == 1 && rd image 6 2 == 0x80 && rd image 8 8 % 64 == 0 &&
  ((image.drop 72).take 56).all (· == 0) && len == 128 + rd image 8 8 + 16 && image.length == len

/-- The placement of R97: the smallest allowed x that maps the mask onto the targets; none where R95 or R97 refuses. -/
def State.placement (s : State) (mask : Nat) (targets : List Nat) : Option Nat :=
  let md := s.mode.mode
  let one := md == .split || md == .twinned || md == .debugSplit
  let pair := (List.range 4).any fun d => field mask (2 * d) 2 == 3
  if mask == 0 || (one && mask % 16 != 0 && decide (16 ≤ mask)) || (md == .twinned && decide (16 ≤ mask)) then none
  else (List.range 8).find? fun x => (!pair || x % 2 == 0) && (md != .twinned || decide (x < 4)) &&
    (maskParts mask).length == targets.length && (maskParts mask).all (fun q => targets.contains (q ^^^ x))

/-- The first key field of R95 that does not match, in the order of their numbers. -/
def State.keyField (s : State) (image : List Byte) (targets : List Nat) : Option Nat :=
  let h := rd image 24 24
  let linked := rd image 20 1 != 1 || s.mode.mode == .mirrored
  let hashOk := if linked then (s.topo.map (fun t => t.hash.toNat % 2 ^ 192 == h)).getD false else h == 0
  if rd image 16 1 ≠ s.grade then some 1
  else if rd image 17 1 ≠ s.mode.mode.code then some 2
  else if (s.placement (rd image 18 1) targets).isNone then some 3
  else if rd image 19 1 ≠ 1 then some 4
  else if rd image 20 1 = 0 ∨ 64 < rd image 20 1 then some 5
  else if hashOk = false then some 6
  else if rd image 21 3 ≠ 0 then some 7
  else none

/-- Ciphertext of the body. -/
def imageCipher (image : List Byte) : List Byte := (image.drop 128).take (rd image 8 8)

/-- Check 5 (R108): the GCM tag over the body with the outer header as additional data. -/
def tagOk (key image : List Byte) : Bool :=
  (Config.gcmTag key ((image.drop 52).take 12) (image.take 128) (imageCipher image)).toNat == rd image (128 + rd image 8 8) 16

/-- The decrypted body. -/
def imageBody (key image : List Byte) : List Byte := gcmSeal key ((image.drop 52).take 12) (imageCipher image)

/-- The parameters of a body that the module keeps. -/
def imageHeader (image b : List Byte) : Header :=
  let h := sectData b 1
  { frameLen := frameLen b, phases := phases b, pclass := (List.range 8).map (fun q => rd h (4 + q) 1), regions := rd h 12 2,
    slots := rd h 14 2, msgPorts := rd h 16 2, guestGroups := rd h 18 2, imageId := BitVec.ofNat 64 (rd image 64 8),
    keyId := rd image 48 4, modules := rd image 20 1, topoHash := BitVec.ofNat 192 (rd image 24 24), mask := rd image 18 1 }

/-! ### Check 13: patches (R117, R118, R216, R246, R247, R287) -/

/-- What the patches of a load resolve to. -/
structure Resolved where
  regions : List Region := []
  slots : List SlotBind := []
  binds : List PBind := []

/-- What check 13 knows of a load. -/
structure LoadCtx where
  slot : Nat
  targets : List Nat
  x : Nat
  header : Header
  body : List Byte

/-- Relocation of a logical Cabinet (R115). -/
def LoadCtx.reloc (k : LoadCtx) (c : Nat) : Nat := c ^^^ (16 * k.x)

/-- The channel that serves the links and ports of a load: that of its lowest-numbered partition after placement (R246). -/
def LoadCtx.home (k : LoadCtx) : Ch := chOfPart (k.targets.head?.getD 0)

/-- Channels that a SIDE names (R117, R312). -/
def State.sideChans (s : State) (k : LoadCtx) (side : Nat) : List Ch :=
  if s.mode.mode = .twinned then [.a, .b] else [chOf (side ^^^ (k.x / 4 % 2))]

/-- An HBM region patch (R117). -/
def State.resolveRegion (s : State) (k : LoadCtx) (r : List Byte) (v : Resolved) : Option Resolved :=
  let side := rd r 1 1
  let idx := rd r 2 2
  let cs := s.sideChans k side
  let ok := field k.header.mask (4 * side) 4 != 0 && cs.all fun c =>
    let g := s.range c (rd r 4 1)
    g.owner == k.slot && g.len != 0 && (g.state == 2 || g.state == 4) && decide (rd r 5 1 ≤ g.mode) &&
      decide (rd r 8 4 + rd r 12 4 ≤ g.len) && !v.regions.any (fun y => y.index == idx && y.side == chNum c)
  if ok then some { v with regions := v.regions ++ cs.map fun c =>
    { index := idx, side := chNum c, base := ((s.range c (rd r 4 1)).base + rd r 8 4) * 4096, bytes := rd r 12 4 * 4096,
      range := rd r 4 1 } }
  else none

/-- The link-slot destination fields of a body: relocated Cabinet and slot. -/
def LoadCtx.slotUses (k : LoadCtx) : List (Nat × Nat) :=
  ((portFields k.body).filter (fun x => bitAt x.2.2.2 0 && field x.2.2.2 1 2 == 1)).map (fun x => (k.reloc x.1, field x.2.2.2 3 9))

/-- Whether the operator and a tenant have installed the same bridge root (R285, R287). -/
def State.sameBridgeRoot (s : State) (slot : Nat) : Bool :=
  (s.chA.hutch.keys ++ s.chB.hutch.keys).any fun a => a.kind == 9 && a.holder == slot &&
    (s.chA.hutch.keys ++ s.chB.hutch.keys).any (fun b => b.kind == 9 && b.holder == 0 && b.material == a.material)

/-- A link-slot patch (R117, R216, R287). -/
def State.resolveSlot (s : State) (k : LoadCtx) (r : List Byte) (v : Resolved) : Option Resolved :=
  match s.topo with
  | none => none
  | some t =>
    let idx := rd r 2 2
    let m := rd r 4 1
    let a := t.address m
    let used := ((k.slotUses.filter (fun u => u.2 == idx)).map (fun u => chOfCab u.1))
    let cs := if used.isEmpty then [k.home] else used
    let kindOk := t.kind m == 1 || t.kind m == 2 || t.kind m == 3
    let free := !v.slots.any (fun y => y.slot == idx) &&
      !s.designs.any (fun d => d.slots.any (fun y => y.remote == a && y.slot == idx)) &&
      !s.loads.any (fun d => d.slots.any (fun y => y.remote == a && y.slot == idx))
    let route := cs.all (fun c => s.reaches c a && (!s.viaBridge c a || s.sameBridgeRoot k.slot))
    if kindOk && free && route then some { v with slots := v.slots ++ [{ slot := idx, remote := a, remoteSlot := rd r 6 2 }] }
    else none

/-- Whether a hub port is free for a load (R246, R312). -/
def State.hubPortFree (s : State) (k : LoadCtx) (v : Resolved) (p : Nat) : Bool :=
  (s.mport k.home p).design.isNone && !v.binds.any (fun y => y.hub == p) &&
  !s.loads.any (fun l => chOfPart (l.targets.head?.getD 0) == k.home && l.binds.any (fun y => y.hub == p)) &&
  (s.mode.mode != .twinned || (s.mport (otherCh k.home) p).design.isNone)

/-- Whether a message ring is bound to a port direction. -/
def State.ringBound (s : State) (v : Resolved) (g : RingNo) : Bool :=
  ([Ch.a, Ch.b].any fun c => (s.ch c).mports.any (fun e => e.2.inRing == some g || e.2.outRing == some g)) ||
  v.binds.any (fun y => y.ring == g) || s.loads.any (fun l => l.binds.any (fun y => y.ring == g))

/-- The words that MEMINIT gives a relocated Cabinet at a word address; 0 where none does. -/
def initWord (l : List MemRec) (x cab w : Nat) : Nat :=
  l.foldl (fun a m => if m.cab ^^^ (16 * x) = cab ∧ m.word ≤ w ∧ w < m.word + m.count then rd m.data (8 * (w - m.word)) 8 else a) 0

/-- The relocated Cabinet that holds the port directory: the lowest-numbered Cabinet of the image (R247). -/
def LoadCtx.dirCab (k : LoadCtx) : Nat := k.reloc (16 * ((maskParts k.header.mask).head?.getD 0))

/-- A directory word (R247). -/
def LoadCtx.dirWord (k : LoadCtx) (port dir : Nat) : Nat :=
  initWord (okList (bodyMemInit k.body)) k.x k.dirCab (0x1FF00 + 2 * port + dir)

/-- The window that a directory word describes, none for a malformed word (R247). -/
def LoadCtx.window (k : LoadCtx) (w dir : Nat) : Option Window :=
  let size := 2 ^ (10 + field w 22 2)
  let cab := k.reloc (field w 1 7)
  let res := field w 24 13
  let word := (14 + field w 8 1) * 8192 + field w 9 13
  let inDir := cab == k.dirCab && decide (0x1FF00 < word + 2 + size)
  let resOk := if dir = 0 then res == 0 else decide (1 ≤ res) && decide (res ≤ 4096) && decide (res ≤ size - 513)
  if field w 22 2 ≠ 3 ∧ field w 37 27 = 0 ∧ field w 9 13 + 2 + size ≤ 8192 ∧ chOfCab cab = k.home ∧
      k.targets.contains (partOfCab cab) ∧ inDir = false ∧ resOk then
    some { cab := cab, word := word, size := size, reserve := res }
  else none

/-- A message-port patch (R117, R246, R262). -/
def State.resolvePort (s : State) (k : LoadCtx) (r : List Byte) (v : Resolved) : Option Resolved :=
  let p := rd r 2 2
  let dir := rd r 4 1
  let grp := rd r 5 1
  let ring := 128 + rd r 6 2
  let owner := s.groupOwner k.home grp
  let mine := s.proxy.isSome || (s.ringOwner ring == k.slot && !s.ringBound v ring)
  let hub := match v.binds.find? (fun y => y.image == p) with
    | some y => some y.hub
    | none => (List.range 128).find? (fun n => s.hubPortFree k v n)
  let w := k.dirWord p dir
  match hub with
  | some n =>
    if rd r 6 2 ≤ 127 ∧ mine ∧ (owner = 0 ∨ owner = k.slot) ∧ v.binds.any (fun y => y.image == p && y.dir == dir) = false ∧
        bitAt w 0 ∧ (k.window w dir).isSome then
      some { v with binds := v.binds ++ [{ hub := n, image := p, dir := dir, group := grp, ring := ring, win := k.window w dir }] }
    else none
  | none => none

/-- Resolve one patch record (R117). -/
def State.resolveOne (s : State) (k : LoadCtx) (v : Resolved) (r : List Byte) : Option Resolved :=
  match rd r 0 1 with
  | 1 => s.resolveRegion k r v
  | 2 => s.resolveSlot k r v
  | _ => s.resolvePort k r v

/-- Resolve the patch records in order; the index of the first that does not resolve. -/
def State.resolveAll (s : State) (k : LoadCtx) (i : Nat) (v : Resolved) : List (List Byte) → Except Nat Resolved
  | [] => .ok v
  | r :: rs => match s.resolveOne k v r with
    | some v => State.resolveAll s k (i + 1) v rs
    | none => .error i

/-- Whether two windows lie apart. -/
def Window.apart (a b : Window) : Bool :=
  a.cab != b.cab || decide (a.word + 2 + a.size ≤ b.word) || decide (b.word + 2 + b.size ≤ a.word)

/-- Whether the directory and the patches agree, and windows lie apart (R247, R118). -/
def LoadCtx.directoryOk (k : LoadCtx) (v : Resolved) : Bool :=
  ((List.range 128).all fun p => [0, 1].all fun dir =>
    let w := k.dirWord p dir
    if bitAt w 0 then v.binds.any (fun y => y.image == p && y.dir == dir) else w == 0) &&
  (List.range k.header.msgPorts).all (fun p => v.binds.any (fun y => y.image == p)) &&
  (repeated Window.apart (v.binds.filterMap (·.win))).isNone

/-- Whether the directory is looked at: an image that uses no message port has none (R247). -/
def LoadCtx.usesPorts (k : LoadCtx) (v : Resolved) : Bool := k.header.msgPorts != 0 || !v.binds.isEmpty

/-- The first HBM operation whose region has no patch in its Cabinet's channel, by relocated Cabinet (R118). -/
def LoadCtx.badRegion (k : LoadCtx) (v : Resolved) : Option Nat :=
  ((memFields k.body).find? (fun x => (field x.2.2.2 0 3 == 5 || field x.2.2.2 0 3 == 6) &&
    !v.regions.any (fun y => y.index == field x.2.2.2 12 4 && y.side == chNum (chOfCab (k.reloc x.1))))).map (fun x => k.reloc x.1)

/-- The first link-slot destination without a patch, or that names a slot named before (R118, R216). -/
def LoadCtx.badSlot (k : LoadCtx) (v : Resolved) : Option Nat :=
  match k.slotUses.find? (fun u => !v.slots.any (fun y => y.slot == u.2)) with
  | some u => some u.1
  | none => (repeated (fun a b => a.2 != b.2) k.slotUses).map (fun i => (k.slotUses.getD i (0, 0)).1)

/-- Whether a body uses guest input groups. -/
def bodyUsesGuest (h : Header) (b : List Byte) : Bool :=
  h.guestGroups != 0 || (portFields b).any (fun x => bitAt x.2.2.2 0 && field x.2.2.2 1 2 == 2)

/-- Whether a load's body uses guest input groups. -/
def LoadCtx.usesGuest (k : LoadCtx) : Bool := bodyUsesGuest k.header k.body

/-- Whether the body of a load in progress uses guest input groups (R182). -/
def Load.usesGuest (l : Load) : Bool := bodyUsesGuest l.header l.body

/-- Whether a channel has a guest fitted (MOD_POPULATION.GUEST_FITTED). -/
def Ident.fitted (i : Ident) (c : Ch) : Bool := i.variantG && i.twoCh && (if c = .a then i.guestA else i.guestB)

/-- Whether MOD_POPULATION.GUEST_FITTED shows a guest on a hub. -/
def State.guestFitted (s : State) (c : Ch) : Bool := s.id.fitted c

/-- Whether the guests that a design reaches can serve it (R118, R182). -/
def State.guestsOk (s : State) (k : LoadCtx) : Bool :=
  s.mode.mode != .twinned && s.mode.mode != .mirrored && (chansOf k.targets).all fun c =>
    s.guestFitted c && (s.ch c).guest.owner.isNone &&
      !s.loads.any (fun l => l.usesGuest && (chansOf l.targets).contains c)

/-- Bytes that a load stages: its MEMINIT, PROBEMAP and RESETMAP sections (R161). -/
def stagedBytes (b : List Byte) : Nat := (sect b 8).2 + (sect b 9).2 + (sect b 10).2

/-- Staging in use in a channel (R161). -/
def State.staging (s : State) (c : Ch) : Nat :=
  ((s.ch c).hbm.staging.map (fun e => e.2.2.length)).sum

/-- Check 13 (R117, R118, R161, R182, R216, R247, R287, R345). -/
def State.check13 (s : State) (k : LoadCtx) : Except LoadFail Resolved :=
  let f := fun i => ({ check := 13, status := .resource, item := 0, index := i } : LoadFail)
  let all := s.loadParts k.targets
  if all.any (fun p => (s.part p).retired) then .error (f 0xFFFF)
  else match s.resolveAll k 0 {} (bodyPatch k.body) with
    | .error i => .error (f i)
    | .ok v =>
      match k.badRegion v, k.badSlot v with
      | some i, _ => .error (f i)
      | none, some i => .error (f i)
      | none, none =>
        if (k.usesPorts v && !k.directoryOk v) || (k.usesGuest && !s.guestsOk k) ||
            (chansOf all).any (fun c => decide (201326592 < s.staging c + stagedBytes k.body)) then .error (f 0xFFFF)
        else .ok v

/-! ### Check 14 and the whole (R103, R119) -/

/-- Predicted power in µW of a load's partitions at the present speed points (R102). -/
def State.loadPower (s : State) (ps : List Nat) (h : Header) (x : Nat) : Nat :=
  (ps.map (fun p => classMicroW (h.classOf x (if s.mode.mode == Mode.twinned then p % 4 else p)) ((s.pw (chOfPart p)).predSp))).sum

/-- Whether the prediction with a load and the loads in progress fits the budget (R103). -/
def State.check14 (s : State) (k : LoadCtx) : Bool :=
  let others := (s.loads.map (fun l => s.loadPower (s.loadParts l.targets) l.header l.x)).sum
  decide ((s.predAt s.pwr.a.predSp s.pwr.b.predSp + others + s.loadPower (s.loadParts k.targets) k.header k.x) / 1000000 ≤ s.budgetW)

/-- Checks 6 to 12 of a decrypted body. -/
def bodyChecks (k : LoadCtx) (signing : Option (List Byte)) : Option LoadFail :=
  let b := k.body
  let inside := fun c => k.targets.contains (partOfCab (k.reloc c))
  if check6 b signing = false then some (.plain 6 .authFail)
  else match check7 b k.header.mask k.header.imageId.toNat with
  | some f => some (f.load 7 .contractMismatch)
  | none =>
    if check8 b = false then some (.plain 8 .contractMismatch)
    else match check9 b inside with
    | some f => some (f.load 9 .regionViolation)
    | none => match check10 b k.reloc with
      | some f => some (f.load 10 .contractMismatch)
      | none => match check11 b k.reloc with
        | some f => some (f.load 11 .contractMismatch)
        | none => (check12 b k.reloc).map (Fail.load 12 .contractMismatch)

/-- All checks of R119: the load in progress, or the refusal. -/
def State.loadChecks (s : State) (m : Cmd) (image : List Byte) : Except LoadFail Load :=
  let slot := s.ringOwner m.ring
  let targets := maskParts (m.desc.par 24 1)
  match s.check1 slot (m.desc.par 24 1) with
  | some f => .error f
  | none =>
  if outerOk image (m.desc.par 16 8) = false then .error (.plain 2 .contractMismatch)
  else match s.keyField image targets with
  | some q => .error { check := 3, status := .contractMismatch, item := q, index := 0xFFFF }
  | none => match m.key 3 (rd image 48 4) with
  | none => .error (.plain 4 .authFail)
  | some ik =>
    if tagOk ik.material image = false then .error (.plain 5 .authFail)
    else
      let b := imageBody ik.material image
      let k : LoadCtx := { slot := slot, targets := targets, x := (s.placement (rd image 18 1) targets).getD 0,
                           header := imageHeader image b, body := b }
      match bodyChecks k ((m.key 8 0).map (·.material)) with
      | some f => .error f
      | none => match s.check13 k with
        | .error f => .error f
        | .ok v =>
          if s.check14 k then .ok { ring := m.ring, tag := m.desc.tag, slot := slot, targets := targets, x := k.x, header := k.header,
                                    digest := imageDigest b, body := b, regions := v.regions, slots := v.slots, binds := v.binds }
          else .error (.plain 14 .powerClass)

/-- Drop the slices of rolling test that have chosen a Cabinet of partitions that are now being loaded (R121). -/
def State.dropSlices (s : State) (ps : List Nat) : State :=
  [Ch.a, Ch.b].foldl (fun s c => [0, 1].foldl (fun s die => s.modDie c die fun x =>
    match x.chosen with
    | some i => if ps.contains (partOfCab (64 * chNum c + 32 * die + i)) then { x with slice := .idle, chosen := none } else x
    | none => x) s) s

/-- The sections of a body that a load stages in the hub region (R161): MEMINIT, PROBEMAP and RESETMAP. -/
def stagedSections (b : List Byte) : List (Nat × List Byte) :=
  ([8, 9, 10].map (fun t => (t, sectData b t))).filter (fun e => !e.2.isEmpty)

/-- A load that goes on writes its body into the image-copy slots of its partitions under a fresh slot key, filed with the loading tenant's
keys in the Hutch of every hub, and stages its sections (R120, R122, R160, R161, R413). -/
def State.fileImages (s : State) (l : Load) : State :=
  let id := 256 + l.targets.headD 0
  let ps := s.loadParts l.targets
  let key := s.free
  let s := ps.foldl (fun s p => s.modHbm (chOfPart p) fun h =>
    { h with images := KV.put {} (p % 4) { key := key, design := id, body := l.body } h.images }) s
  let s := (chansOf ps).foldl (fun s c => s.modHbm c fun h => { h with staging := h.staging ++ (stagedSections l.body).map (fun e => (id, e.1, e.2)) }) s
  (s.channels.foldl (fun s c => if (s.ch c).hutch.powered then
    s.modHutch c fun h => { h with slotKeys := h.slotKeys ++ [(id, l.slot, key)] } else s) s).freeNext

/-- Step 1 of R122: the image copy of a load becomes that of its design, with the tiles and programs of each partition as relocated; only
RESETMAP stays staged (R161). -/
def State.keepImages (s : State) (d : Design) : State :=
  let id := 256 + d.targets.headD 0
  let mine := fun (p key n : Nat) => partOfCab (key / n) == p
  let s := d.allParts.foldl (fun s p => s.modHbm (chOfPart p) fun h =>
    { h with images := KV.upd {} (p % 4) (fun i => { i with
        design := d.tag, tiles := d.code.filter (fun e => mine p e.1 131072), ports := d.ports.filter (fun e => mine p e.1 2048),
        memops := d.memops.filter (fun e => mine p e.1 2048) }) h.images }) s
  let s := d.chans.foldl (fun s c => s.modHbm c fun h => { h with
      staging := (h.staging.filter (fun e => e.1 != id || e.2.1 == 10)).map (fun e => if e.1 = id then (d.tag, e.2) else e) }) s
  let own := fun (h : Hutch) => { h with slotKeys := h.slotKeys.map (fun k => if k.1 = id then (d.tag, k.2) else k) }
  (s.modHutch .a own).modHutch .b own

/-- A refused load (R119, R120): LOAD_REFUSED, the count of refusals, the completion with its detail. -/
def State.refuseLoad (s : State) (m : Cmd) (f : LoadFail) : State :=
  let ts := maskParts (m.desc.par 24 1)
  let src := match ts.head? with | some p => 1 + chNum (chOfPart p) | none => 0
  let s := s.event 0x7006 src (ts.head?.getD 0xFF) (s.ringOwner m.ring) false [f.check]
  let s := (chansOf (s.loadParts ts)).foldl (fun s c => s.count .ptnRefusals c []) s
  s.completeAt m f.status 0 (BitVec.ofNat 128 (f.check + 2 ^ 8 * f.item + 2 ^ 16 * (f.index % 2 ^ 16)))

/-- LOAD (R119-R122, R304): `image` is what stands in host memory at the address. A load waits while a base image is being
delivered (R295). A body that is refused leaves its slots clear, as they were (R120). -/
def execLoad (r : RingNo) (t : Tag) (image : List Byte) (s : State) : Host.Outcome State Fault Refusal :=
  .next (s.withCmd r t 0x40 fun s m =>
    if s.base.delivery.isSome then s
    else match s.loadChecks m image with
      | .error f => s.refuseLoad m f
      | .ok l =>
        let s := (s.start m).modParts (s.loadParts l.targets) fun p => { p with state := .loading }
        let c := chOfPart (l.targets.headD 0)
        let s := s.modSched c fun q => { q with waiting := q.waiting ++ [{ group := s.regField .schCtrl c [] 1 3, work := .module r t }] }
        { (s.fileImages l).dropSlices (s.loadParts l.targets) with loads := s.loads ++ [l] })

/-! ### Completion of a load (R122, R35, R115, R305) -/

/-- The relocated Cabinets that an image Cabinet becomes: with channel B's copy in TWINNED. -/
def copies (x : Nat) (twin : Bool) (c : Nat) : List Nat :=
  let r := c ^^^ (16 * x)
  if twin then [r, r ^^^ 64] else [r]

/-- The code table: every tile that is not all zero but for its CRC (R111). -/
def codeTable (b : List Byte) (x : Nat) (twin : Bool) : KV (BitVec 1440) :=
  (okList (bodyCells b)).foldl (fun t c => c.tileList.foldl (fun t y =>
    if y.2.2 % 2 ^ 1408 = 0 then t
    else (copies x twin c.cab).foldl (fun t cab =>
      KV.put 0 (cellKey cab c.bench y.1 * 128 + y.2.1) (BitVec.ofNat 1440 y.2.2) t) t) t) []

/-- A destination field as relocated (R115): the DEST of a KIND 0b00 field, with the copy's own channel in TWINNED. -/
def relocDest (x cab f : Nat) : Nat :=
  if bitAt f 0 ∧ field f 1 2 = 0 then
    let d := field f 3 9
    let d' := (d ^^^ (16 * x)) % 64 + 64 * (if cab < 64 then 0 else 1)
    f - d * 8 + d' * 8
  else f

/-- A port-program entry as relocated for a Cabinet; a design in the JOINED layout keeps its own channel numbers. -/
def relocEntry (x : Nat) (twin : Bool) (cab e : Nat) : Nat :=
  ((List.range 4).map (fun k =>
    let f := field e (32 * k) 32
    let g := if twin then relocDest x cab f
      else if bitAt f 0 ∧ field f 1 2 = 0 then f - field f 3 9 * 8 + (field f 3 9 ^^^ (16 * x)) * 8 else f
    g * 2 ^ (32 * k))).sum

/-- The port programs. -/
def portTable (b : List Byte) (x : Nat) (twin : Bool) : KV (BitVec 128) :=
  (okList (bodyPorts b)).foldl (fun t c => (List.range (frameLen b)).foldl (fun t st =>
    (copies x twin c.cab).foldl (fun t cab =>
      KV.put 0 (cab * 2048 + st) (BitVec.ofNat 128 (relocEntry x twin cab (rd c.data (16 * st) 16))) t) t) t) []

/-- The memory-op programs. -/
def memTable (b : List Byte) (x : Nat) (twin : Bool) : KV (BitVec 192) :=
  (okList (bodyMems b)).foldl (fun t c => (List.range (frameLen b)).foldl (fun t st =>
    (copies x twin c.cab).foldl (fun t cab => KV.put 0 (cab * 2048 + st) (BitVec.ofNat 192 (rd c.data (24 * st) 24)) t) t) t) []

/-- The Cabinets with their MEMINIT words. -/
def initCabs (b : List Byte) (x : Nat) (twin : Bool) : KV CabSt :=
  (okList (bodyMemInit b)).foldl (fun t m => (copies x twin m.cab).foldl (fun t cab =>
    KV.upd {} cab (fun c => { c with mem := (List.range m.count).foldl (fun q i =>
      KV.put 0 (m.word + i) (BitVec.ofNat 64 (rd m.data (8 * i) 8)) q) c.mem }) t) t) []

/-- The RESETMAP records, relocated. -/
def initResets (b : List Byte) (x : Nat) (twin : Bool) : List Reset :=
  (bodyResets b).flatMap fun r => (copies x twin (rd r 0 1)).map fun cab =>
    { cab := cab, bench := rd r 1 1, cell := rd r 2 1, value := bitAt (rd r 3 1) 0, sti := rd r 4 2 }

/-- The cells with the RESETMAP values in state bank 0 (R305). -/
def initCells (rs : List Reset) : KV Cell :=
  rs.foldl (fun t r => KV.upd {} (cellKey r.cab r.bench r.cell) (fun c => { c with bank0 := setBit c.bank0 r.sti r.value }) t) []

/-- The PROBEMAP records, relocated. -/
def initProbes (b : List Byte) (x : Nat) : List Probe :=
  (bodyProbes b).map fun r => { signal := rd r 0 4, cab := rd r 4 1 ^^^ (16 * x), bench := rd r 5 1, cell := rd r 6 1, step := rd r 8 2 }

/-- The lowest design tag not in use (R165). -/
def State.freeTag (s : State) : Option Nat := ((List.range 255).map (· + 1)).find? (fun t => (s.design t).isNone)

/-- The design that a load becomes (R122, R305, R307). -/
def State.makeDesign (s : State) (l : Load) (tag : Nat) : Design :=
  let twin := s.mode.mode == Mode.twinned
  let rs := initResets l.body l.x twin
  { tag := tag, slot := l.slot, targets := l.targets, x := l.x, header := l.header, nonce := s.free, digest := l.digest,
    regions := l.regions, slots := l.slots, probes := initProbes l.body l.x, resets := rs, code := codeTable l.body l.x twin,
    ports := portTable l.body l.x twin, memops := memTable l.body l.x twin, cells := initCells rs,
    cabs := initCabs l.body l.x twin, guests := if l.usesGuest then chansOf l.targets else [], twin := twin }

/-- Bind a port direction (R246). -/
def MPort.bind (p : MPort) (tag : Nat) (y : PBind) : MPort :=
  let p := { p with design := some tag, image := y.image, group := y.group, mseqIn := 0, mseqOut := 0 }
  if y.dir = 0 then { p with inRing := some y.ring, inWin := y.win } else { p with outRing := some y.ring, outWin := y.win }

/-- Counters of the design's Cabinets clear at load (R180). -/
def State.clearCounters (s : State) (d : Design) : State :=
  d.allCabs.foldl (fun s l => match s.physOf l with
    | some (c, die, i) =>
      let s := s.modFab c fun f => { f with stats := f.stats.filter (fun e => e.1 != 64 * die + nodeOfPhys i) }
      let s := s.setReg .cmemUndoPeak c [die, i] 0
      (List.range 6).foldl (fun s m => (s.setReg .cmemConflictLo c [die, i, m] 0).setReg .cmemConflictHi c [die, i, m] 0) s
    | none => s) s

/-- The load that holds partition `p` has written everything (R122): a STOPPED design at stage 0 and frame 0. -/
def State.loadDone (s : State) (p : Nat) : State :=
  match s.loadAt p, s.freeTag with
    | some l, some tag =>
      let d := s.makeDesign l tag
      let s := { s with designs := s.designs ++ [d], freeCtr := s.freeCtr + 1,
                        loads := s.loads.filter (fun x => !(x.ring == l.ring && x.tag == l.tag)) }
      let s := s.modParts d.allParts fun q => { q with state := .stopped, design := tag }
      let s := l.binds.foldl (fun s y => s.modDesignPort d y.hub fun q => q.bind tag y) s
      let s := s.keepImages d
      let s := d.guests.foldl (fun s c => s.modGuest c fun g => { g with owner := some tag, rstLow := true }) s
      let s := (s.clearCounters d).sendSlotHome d d.home
      let s := if s.mode.mode == Mode.mirrored then
          (s.modMode fun x => { x with confirmed := 0, sigs := [], inputs := [] }).sendDescriptor d else s
      let s := d.chans.foldl (fun s c => s.count .ptnLoads c []) s
      match s.cmd l.ring l.tag with
      | some m => s.completeAt m .ok 0 (BitVec.ofNat 128 (2 ^ 32 * d.nonce.toNat))
      | none => s
    | _, _ => s

end Sys2Proof.Machine
end

