-- ==== Sys2Proof/Machine/Repair.lean ====
section
/-! DEFINITION. Repair by spares: tile reloads (R56, R57), cell swaps (R58-R60), Bench swaps (R61, R62), Cabinet swaps (R26, R334,
R338, R339), the grade (R345), and the faults of configuration cells (R332). -/

namespace Sys2Proof.Machine

open Sys2Proof

/-! ### Retired partitions (R345) -/

/-- Retire a partition (R345). -/
def State.retirePart (s : State) (p : Nat) : State :=
  if (s.part p).retired then s
  else
    let c := chOfPart p
    let die := p / 2 % 2
    let s := s.modPart p fun x => { x with retired := true }
    let s := s.modDie c die fun x => if p % 2 = 0 then { x with retired0 := true } else { x with retired1 := true }
    (s.hubEvent c 0x9004 [p]).gradeDown c die 2

/-! ### Cells and Benches of a physical Cabinet (R58-R62) -/

/-- Physical cell that carries a logical cell of a Bench. -/
def BenchSt.physCell (b : BenchSt) (cell : Nat) : Nat := if b.spare0 = cell then 64 else if b.spare1 = cell then 65 else cell

/-- The lower-numbered healthy spare cell that is free (R59). -/
def BenchSt.freeSpare (b : BenchSt) : Option Nat :=
  if b.spare0 = 0x7F ∧ !b.failed.contains 64 then some 64 else if b.spare1 = 0x7F ∧ !b.failed.contains 65 then some 65 else none

/-- A spare cell that carries no logical cell fails: it can be taken no more. -/
def BenchSt.spareFailed (b : BenchSt) (cell : Nat) : BenchSt :=
  let b := { b with failed := insKey cell b.failed }
  if cell = 64 then { b with spare0 := 0x7E } else { b with spare1 := 0x7E }

/-- Put a logical cell onto a spare, marking the physical cell that carried it as failed (R59 step 4). -/
def BenchSt.swapCell (b : BenchSt) (cell spare : Nat) : BenchSt :=
  let old := b.physCell cell
  let b := { b with failed := insKey old b.failed }
  let b := if old = 64 then { b with spare0 := 0x7E } else if old = 65 then { b with spare1 := 0x7E } else b
  if spare = 64 then { b with spare0 := cell } else { b with spare1 := cell }

/-- Map a Bench afresh around its failed cells (R335 step 2, R337). -/
def BenchSt.remap (b : BenchSt) : BenchSt :=
  let bad := b.failed.filter (fun x => decide (x < 64))
  let f64 := b.failed.contains 64
  let s0 := if f64 then 0x7E else bad.headD 0x7F
  let s1 := if b.failed.contains 65 then 0x7E else ((if f64 then bad else bad.drop 1)).headD 0x7F
  { b with spare0 := s0, spare1 := s1 }

/-- Whether a Bench can still carry 64 logical cells (R337). -/
def BenchSt.usable (b : BenchSt) : Bool := !b.retired && decide (b.failed.length ≤ 2)

/-- Map a Cabinet afresh around its failed parts: the spare Bench carries the one logical Bench that cannot. -/
def PhysCab.remap (p : PhysCab) : PhysCab :=
  let p := { p with benches := (p.benches.map (fun (e : Nat × BenchSt) => (e.1, e.2.remap))).filter (fun (e : Nat × BenchSt) => e.2 ≠ ({} : BenchSt)) }
  { p with spareBench := (List.range 16).find? (fun b => !(p.bench b).usable) }

/-- Whether a Cabinet can still form 16 Benches of 64 healthy cells (R337). -/
def PhysCab.formsCabinet (p : PhysCab) : Bool := decide (16 ≤ ((List.range 17).filter (fun b => (p.bench b).usable)).length)

/-! ### Swapping a Cabinet (R26, R334, R338, R339) -/

/-- Take a spare Cabinet of a die for a repair (R26): the standing one, or else the rotating one, whose slice is abandoned. The other
becomes the standing spare. -/
def State.takeSpare (s : State) (c : Ch) (die : Nat) : Option (Nat × State) :=
  match s.spares c die with
  | [] => none
  | i :: rest =>
    let x := s.die c die
    let abandon := x.slice == .preload || x.slice == .waitBoundary
    some (i, (s.modDie c die fun y =>
      { y with standing := rest.head?, rotating := none, slice := if abandon then .idle else y.slice,
               chosen := if abandon then none else y.chosen }).modCh c fun h => { h with health := { h.health with spares := h.health.spares + 1 } })

/-- Move a logical Cabinet onto a spare (R24, R163, R303): the failed Cabinet leaves service, its successor is mapped around its own failed
parts, repairs under way below the Cabinet are abandoned (R22). -/
def State.moveCab (s : State) (c : Ch) (die idx old new : Nat) : State :=
  let s := s.modDie c die fun x => { x with map := KV.put (some idx) idx (some new) x.map }
  let s := s.modCab c die old fun p => { p with failed := true, repairDue := false, corrected := [], march := none }
  s.modCab c die new fun p => p.remap

/-- Drop the repairs of a Cabinet that a Cabinet swap has made needless (R22, R62). -/
def Design.repaired (d : Design) (l : Nat) : Design :=
  ({ d with repairs := d.repairs.filter (fun r => r.2.1 != l) }).modCab l fun x => { x with reload := [], later := [] }

/-- Whether no packet to or from a logical Cabinet, no access of its banks and no HBM read of it is in flight: the hub changes the map of a
Cabinet only then (R163, R336). -/
def State.cabQuiet (s : State) (d : Design) (l : Nat) : Bool :=
  !d.packets.any (fun x => x.dst == l || x.src == l) && !d.rets.any (fun x => x.cab == l) &&
  !(s.ch (chOfCab l)).hbm.reads.any (fun r => r.design == d.tag && r.cab == l && r.attempt != 0)

/-- Position of a tile in the image copy of its partition (R160): the slot of the partition, then 180 bytes for each tile by logical cell
and tile index. -/
def tileAddr (cab bench cell tile : Nat) : Nat :=
  0x10000000 + partOfCab cab % 4 * (362 * 2 ^ 20) + ((cab % 16 * 1024 + bench * 64 + cell) * 128 + tile) * 180

/-- A read of the image copy that the HBM cannot correct is recorded (R57, R154), or the counter node that failed for it (R283). -/
def State.imageRead (s : State) (cab : Nat) : ImageRead → State
  | .lost b k t l =>
    let c := chOfCab cab
    if l = 0 ∨ (s.ch c).hbm.integrity = false then s.hbmUncorrected c (tileAddr cab b k t) 1 0
    else if 3 < l then s.hutchLost c
    else s.nodeLost c (tileAddr cab b k t) l 0
  | _ => s

/-- Tiles that the image copy does not yield and no twin lends (R57): the design stops at its last commit. -/
def State.imageLost (s : State) (d : Design) : State := s.lastingStop d.tag .memoryError 0

/-- No healthy spare Cabinet is left for a Cabinet that must be swapped: its partition is retired, since its die no longer holds its 16 logical
Cabinets (R345); in TWINNED its channel is fenced (R316), otherwise every design with a part on it stops with RESOURCE (R339). -/
def State.noSpareCab (s : State) (d : Design) (l : Nat) : State :=
  let s := s.retirePart (partOfCab l)
  if d.twinAlive then s.fenceOff (chOfCab l) 2 else s.lastingStop d.tag .resource 0

/-- CABINET_REPAIRED (R134, R316, R329, R338, R339): the swap of a logical Cabinet to a spare that a lasting fault asked for. Within a frame
it runs only when a tile of the Cabinet already holds the span (R55, R61), never while the partition is being loaded (R121), and only with
nothing in flight to or from the Cabinet (R163). -/
def execCabinetRepaired (cab : Nat) (image : ImageRead) (s : State) : Host.Outcome State Fault Refusal :=
  .next (match s.physOf cab with
    | none => s
    | some (c, die, i) =>
      let d := s.designs.find? (fun d => d.allCabs.contains cab)
      let asked := (s.cab c die i).repairDue || (d.map (fun d => d.repairs.any (fun r => r.1 == 2 && r.2.1 == cab))).getD false
      let seqLost := if c = .a then s.mode.seqLostA else s.mode.seqLostB
      let inFrame := (d.map (fun d => d.begun && (d.cab cab).reload.isEmpty)).getD false
      let busy := (d.map (fun d => !s.cabQuiet d cab)).getD ((s.part (partOfCab cab)).state == .loading)
      if asked = false ∨ inFrame ∨ busy then s
      else match d with
        | none => match s.takeSpare c die with
          | none => s.retirePart (partOfCab cab)
          | some (n, s) => ((s.moveCab c die (cab % 32) i n).hubEvent c 0x9002 [die, n]).spareCheck c die
        | some d =>
          let s := s.imageRead cab image
          if seqLost && !d.twin then s.lastingStop d.tag .fenced 0
          else if image ≠ .good ∧ d.twinAlive = false then s.imageLost d
          else match s.takeSpare c die with
            | none => s.noSpareCab d cab
            | some (n, s) =>
              let last := (s.cab c die i).lastPass
              let borrow := d.twinAlive && d.repairs.any (fun r => r == (2, cab, 1))
              let s := s.moveCab c die (cab % 32) i n
              let s := s.modDesign d.tag fun x =>
                let x := if borrow then x.modCab cab fun y => { y with mem := (x.cab (cab ^^^ 64)).mem } else x
                x.repaired cab
              (s.designEvent d 0x9002 [die, n, d.frame, last]).spareCheck c die)

/-! ### Bench swaps (R61, R62) -/

/-- BENCH_SWAPPED (R61, R62): the spare Bench of the Cabinet takes a Bench whose parity fault is lasting (cause 2) or that has no spare cell
left (cause 1). With no healthy spare Bench the repair passes to the Cabinet. -/
def execBenchSwapped (cab bench : Nat) (image : ImageRead) (s : State) : Host.Outcome State Fault Refusal :=
  .next (match s.designs.find? (fun d => d.repairs.any (fun r => (r.1 == 1 || r.1 == 4) && r.2 == (cab, bench))), s.physOf cab with
    | some d, some (c, die, i) =>
      let cause := if d.repairs.any (fun r => r == (1, cab, bench)) then 2 else 1
      let p := s.cab c die i
      let clear := fun (s : State) (more : List (Nat × Nat × Nat)) => s.modDesign d.tag fun x =>
        { x with repairs := x.repairs.filter (fun (r : Nat × Nat × Nat) => !(r.2.1 == cab &&
          ((r.1 == 1 || r.1 == 4) && r.2.2 == bench || r.1 == 5 && r.2.2 / 64 == bench))) ++ more }
      let s := s.imageRead cab image
      if image ≠ .good ∧ d.twinAlive = false then s.imageLost d
      else if p.spareBench.isSome ∨ (p.bench 16).usable = false then clear s [(2, cab, 0)]
      else
        let s := s.modCab c die i fun p => { p with spareBench := some bench, benches := KV.upd {} bench (fun b => { b with retired := true }) p.benches }
        let s := (clear s []).modDesign d.tag fun x => x.modCab cab fun y => y.dropBad fun b _ => b == bench
        s.designEvent d 0x1004 [cab, bench, cause]
    | _, _ => s)

/-! ### Tile reloads and cell swaps (R56-R60) -/

/-- Whether a physical cell was reloaded within the last second (R56). -/
def BenchSt.reloadedLately (b : BenchSt) (cell now : Nat) : Bool :=
  let t := KV.get 0 cell b.reloads
  decide (0 < t) && decide (now + 1 < t + 10 ^ 9)

/-- Ask for a cell swap (R56 step 3). -/
def State.askCellSwap (s : State) (d : Design) (cab bench cell : Nat) : State :=
  s.modDesign d.tag fun x =>
    if x.repairs.contains (5, cab, 64 * bench + cell) then x else { x with repairs := x.repairs ++ [(5, cab, 64 * bench + cell)] }

/-- Record a reload of a physical cell that passed. -/
def State.reloadDone (s : State) (c : Ch) (die i pb cell : Nat) : State :=
  (s.count .benchTileReload c [die, i, pb]).modBench c die i pb fun b => { b with reloads := KV.put 0 cell (s.clock + 1) b.reloads }

/-- The first tile of a logical cell that waits for its reload: of the frame in progress, then of those that follow. -/
def CabSt.waitingTile (x : CabSt) (bench cell : Nat) : Option Nat :=
  ((x.reload ++ x.later.map (fun u => (u.1, u.2.1, u.2.2.1))).find? (fun t => t.1 == bench && t.2.1 == cell)).map (·.2.2)

/-- Write a tile of the image copy into its cell (R56 step 2), from the slot of the Cabinet's partition (R160). -/
def State.reloadTile (s : State) (d : Design) (cab bench cell tile : Nat) : State :=
  let i := KV.get {} (partOfCab cab % 4) (s.ch (chOfCab cab)).hbm.images
  let k := cellKey cab bench cell * 128 + tile
  if i.design = d.tag then s.modDesign d.tag fun x => { x with code := KV.put 0 k (KV.get 0 k i.tiles) x.code } else s

/-- TILE_RELOADED (R56, R57): the first tile of a cell that waits for its reload is written from the image copy and checked. A second reload
of the cell within 1 s counts as failed, and a failed reload asks for a cell swap. -/
def execTileReloaded (cab bench cell : Nat) (image : ImageRead) (tileOk : Bool) (s : State) : Host.Outcome State Fault Refusal :=
  .next (match s.designs.find? (fun d => d.span.contains cab && ((d.cab cab).waitingTile bench cell).isSome), s.physOf cab with
    | some d, some (c, die, i) =>
      match (d.cab cab).waitingTile bench cell with
      | none => s
      | some t =>
        let pb := (s.cab c die i).physBench bench
        let pc := ((s.cab c die i).bench pb).physCell cell
        let s := s.imageRead cab image
        if image ≠ .good ∧ d.twinAlive = false then s.imageLost d
        else if tileOk = false ∨ ((s.cab c die i).bench pb).reloadedLately pc s.clock then s.askCellSwap d cab bench cell
        else
          let s := (s.reloadDone c die i pb pc).reloadTile d cab bench cell t
          let s := s.modDesign d.tag fun x => x.modCab cab fun y =>
            { y with reload := y.reload.filter (fun u => u != (bench, cell, t)), later := y.later.filter (fun u => !(u.1 == bench && u.2.1 == cell && u.2.2.1 == t)) }
          s.designEvent d 0x1002 (s.cellAddr cab bench cell ++ [t])
    | _, _ => s)

/-- CELL_SWAPPED (R58-R60, R341): the swap of a cell that a patrol asked for runs in a commit gap. The lower-numbered healthy spare cell of the Bench takes the logical cell; with none the whole Bench must be
swapped (R61). -/
def execCellSwapped (cab bench cell : Nat) (image : ImageRead) (s : State) : Host.Outcome State Fault Refusal :=
  .next (match s.designs.find? (fun d => d.repairs.contains (5, cab, 64 * bench + cell)), s.physOf cab with
    | some d, some (c, die, i) =>
      let pb := (s.cab c die i).physBench bench
      let clear := fun (s : State) (more : List (Nat × Nat × Nat)) => s.modDesign d.tag fun x =>
        { x with repairs := x.repairs.filter (fun r => r != (5, cab, 64 * bench + cell)) ++ more }
      if d.begun ∧ d.tileRepair (5, cab, 64 * bench + cell) = false then s
      else
      let s := s.imageRead cab image
      if image ≠ .good ∧ d.twinAlive = false then s.imageLost d
      else match ((s.cab c die i).bench pb).freeSpare with
        | none => clear s [(4, cab, bench)]
        | some sp =>
          let s := s.modBench c die i pb fun b => b.swapCell cell sp
          let s := (clear s []).modDesign d.tag fun x => x.modCab cab fun y =>
            y.dropBad fun b k => b == bench && k == cell
          s.designEvent d 0x1003 (s.cellAddr cab bench cell ++ [sp])
    | _, _ => s)

/-! ### The end of a load (R122, R141, R154, R283) -/

/-- Address of a word of the load staging (R158, R161), which its reads have not named: a free value (log entry 4). -/
def State.stagingAddr (s : State) : Nat := 0x4000000 + s.free.toNat % 0xC000000

/-- LOAD_COMPLETE: the load that holds a partition has written everything (R122). `load` says what its reads of the scratchpad and of the
staging in the hub region met: a word beyond correction ends the load with MEMORY_ERROR (R141, R154), and a lost counter node ends every load
in progress of the channel (R283). -/
def execLoadComplete (load : LoadEnd) (s : State) : Host.Outcome State Fault Refusal :=
  .next (match s.loadAt load.part with
    | none => s
    | some l =>
      let p := load.part
      let c := chOfPart p
      match load.staged with
      | .ok => s.loadDone p
      | .corrected => (s.count .hbmCorrected c []).loadDone p
      | .uncorrectable => (s.freeNext.hbmUncorrected c s.stagingAddr 2 0).cancelLoad l .memoryError
      | .scratch => (s.hubEvent c 0x2006 [chNum c, 2]).cancelLoad l .memoryError
      | .node n =>
        if (s.ch c).hbm.integrity = false then s.loadDone p
        else
          let s := if 3 < n then s.hutchLost c else s.freeNext.nodeLost c s.stagingAddr n 0
          (s.loads.filter (fun x => (s.loadParts x.targets).any (fun q => chOfPart q == c))).foldl (fun s x => s.cancelLoad x .memoryError) s)

/-! ### Configuration cells (R332) -/

/-- CONFIG_PARITY_FAIL (R332): a hard defect in the configuration cells of a physical Cabinet is a lasting fault of that Cabinet. -/
def execConfigParityFail (c : Ch) (die cab : Nat) (s : State) : Host.Outcome State Fault Refusal :=
  .next (if (s.pw c).state.arrayOn = false ∨ 2 ≤ die ∨ 34 ≤ cab ∨ (s.cab c die cab).configBad then s
    else
      let s := s.modCab c die cab fun p => { p with configBad := true }
      let s := (s.count .cabLasting c [die, cab]).healthLasting c
      match s.logicalOf c die cab with
      | none => s.spareFailed c die
      | some l =>
        let s := s.modCab c die cab fun p => { p with repairDue := true }
        match s.designs.find? (fun d => d.span.contains l) with
        | none => s
        | some d => if d.begun then s else s.dueRepairs d.tag)

end Sys2Proof.Machine
end

