-- ==== Sys2Proof/Machine/Recovery.lean ====
section
/-! DEFINITION. Twins, pairs and the recovery controllers (14_modes_and_recovery.md): verdicts and repairs of TWINNED (R314-R318),
rejoin (R320), the messages of a pair (R321-R326), the loss of a controller (R327-R329). -/

namespace Sys2Proof.Machine

open Sys2Proof

/-! ### The referee (R314, R315) -/

/-- TWIN_VERDICT (R314, R315): with both copies done, the referee compares the signatures of the pairs of the design that holds partition
`p`. A mismatch aborts the frame in both copies. -/
def execTwinVerdict (p : Nat) (s : State) : Host.Outcome State Fault Refusal :=
  .next (match s.designAt p with
    | none => s
    | some d =>
      if d.twinAlive = false ∨ d.stepsDone = false ∨ s.macsDone d = false ∨ d.verdict.isSome ∨ s.mode.refLost ∨ s.host.perst then s
      else
        let bad := (d.targets.flatMap cabsOfPart).filter (fun l => d.sig l != d.sig (l ^^^ 64))
        match bad with
        | [] => s.modDesign d.tag fun d => { d with verdict := some true }
        | l :: _ => (s.modDesign d.tag fun d => { d with verdict := some false, verdictMask := bad }).frameErr d.tag (.twin, l, 0))

/-! ### The quick slice test and what it decides (R316, R317, R320, R323) -/

/-- Count a Cabinet that failed the slice test as a lasting fault of its channel (R318). -/
def State.cabFailed (s : State) (l : Nat) : State := (s.countCab .cabLasting l).healthLasting (chOfCab l)

/-- Swap a logical Cabinet onto a healthy spare; none where its die holds none. `src` says where its state comes from: 0 the twin, 1 its
own failed Cabinet. -/
def State.twinSwap (s : State) (tag l src : Nat) : Option State :=
  match s.physOf l with
  | none => none
  | some (c, die, i) => (s.takeSpare c die).map fun (n, s) =>
      let s := s.moveCab c die (l % 32) i n
      let s := s.modDesign tag fun d => { d.repaired l with repairs := d.repairs.filter (fun r => r.2.1 != l) ++ [(6, l, src)] }
      s.spareCheck c die

/-- An event of the host die about the design of a tag, if one is loaded. -/
def State.twinEvent (s : State) (tag code : Nat) (args : List Nat) : State :=
  match s.design tag with
  | some d => s.hostDesignEvent d code args
  | none => s

/-- Decide the repair of one named pair (R316, R345): `l` in channel A numbering. -/
def State.decidePair (s : State) (tag l : Nat) (failA failB : Bool) : State :=
  let what := if failA && failB then 2 else if failA then 0 else if failB then 1 else 3
  let s := s.twinEvent tag 0x8003 [l, what]
  let s := if failA then s.cabFailed l else s
  let s := if failB then s.cabFailed (l ^^^ 64) else s
  if failA && failB then
    match s.twinSwap tag l 1 with
    | some sa => match sa.twinSwap tag (l ^^^ 64) 1 with
      | some sb => sb
      | none => (sa.retirePart (partOfCab (l ^^^ 64))).fenceOff .b 2
    | none => match s.twinSwap tag (l ^^^ 64) 1 with
      | some sb => (sb.retirePart (partOfCab l)).fenceOff .a 2
      | none => ((s.retirePart (partOfCab l)).retirePart (partOfCab (l ^^^ 64))).stopAt tag .resource 1
  else if failA then (s.twinSwap tag l 0).getD ((s.retirePart (partOfCab l)).fenceOff .a 2)
  else if failB then (s.twinSwap tag (l ^^^ 64) 0).getD ((s.retirePart (partOfCab (l ^^^ 64))).fenceOff .b 2)
  else ((s.twinEvent tag 0x8004 [l]).modMode fun x => { x with unresolvedAt := some s.clock }).modDesign tag fun x =>
    { x with unresolvedAt := some s.clock }

/-- The repair is done: the referee watches the next attempt (R327). -/
def State.repairDone (s : State) (tag : Nat) : State :=
  match s.design tag with
  | none => s
  | some d =>
    if d.repairs.any (fun r => r.1 == 6) then s.setSeq 2 (s.ch .a).seqCab
    else
      let s := s.setSeq 0 0x7F
      s.modMode fun x => if x.referee = .repair then { x with referee := .verify } else x

/-- The outcome of the slice test in TWINNED (R316). -/
def State.twinTested (s : State) (d : Design) (ls : List Nat) (fails : List (Nat × Bool × Bool)) : State :=
  let s := s.modDesign d.tag fun d => { d with repairs := d.repairs.filter (fun r => r.1 != 3), twinRepaired := true }
  let s := ls.foldl (fun s l =>
    let f := (fails.find? (fun e => e.1 == l)).map (·.2)
    s.decidePair d.tag l ((f.map (·.1)).getD false) ((f.map (·.2)).getD false)) s
  s.repairDone d.tag

/-- The outcome of the slice test in a pair (R323): the first flag is the primary's Cabinet, the second the partner's. -/
def State.pairTested (s : State) (d : Design) (ls : List Nat) (fails : List (Nat × Bool × Bool)) : State :=
  let mine := fails.filter (fun e => ls.contains e.1)
  let s := (s.modDesign d.tag fun d => { d with repairs := d.repairs.filter (fun r => r.1 != 3) }).setSeq 0 0x7F
  let own := mine.filter (fun e => if s.mode.primary then e.2.1 else e.2.2)
  let s := own.foldl (fun s e => s.cabFailed e.1) s
  if mine.any (fun e => e.2.2) then
    if s.mode.primary then
      (s.runSolo .left 1).modDesign d.tag fun d => { d with repairs := d.repairs ++ own.map (fun e => (2, e.1, 0)) }
    else s.leavePair false
  else if mine.any (fun e => e.2.1) then if s.mode.primary then s.leavePair false else s.promote .left
  else (s.modMode fun x => { x with mismatchAt := none }).modDesign d.tag fun x => { x with unresolvedAt := some s.clock }

/-- The Cabinets of a channel take their tiles and programs anew from the channel's own image copies (R160, R320 item 2). -/
def State.reloadCopy (s : State) (c : Ch) : State :=
  { s with designs := s.designs.map fun (d : Design) =>
      let mine := (s.ch c).hbm.images.filter (fun e => e.2.design == d.tag)
      let inC := fun (n : Nat) (e : Nat) => chOfCab (e / n) == c
      if d.twin ∧ mine ≠ [] then
        { d with code := mine.foldl (fun t i => i.2.tiles.foldl (fun t e => KV.put 0 e.1 e.2 t) t) (d.code.filter (fun e => !inC 131072 e.1)),
                 ports := mine.foldl (fun t i => i.2.ports.foldl (fun t e => KV.put 0 e.1 e.2 t) t) (d.ports.filter (fun e => !inC 2048 e.1)),
                 memops := mine.foldl (fun t i => i.2.memops.foldl (fun t e => KV.put 0 e.1 e.2 t) t) (d.memops.filter (fun e => !inC 2048 e.1)) }
      else d }

/-- The slice test of the fenced copy in a rejoin (R320 items 1 and 2): failing Cabinets are swapped, then the copy reloads its tiles; without a
spare the rejoin ends. -/
def State.rejoinTest (s : State) (fails : List (Nat × Bool × Bool)) : State :=
  let c := s.rejoinCh
  let bad := (fails.filter (fun e => if c = .a then e.2.1 else e.2.2)).map (fun e => if c = .a then e.1 else e.1 ^^^ 64)
  let r := bad.foldl (fun (x : Option State) l => x.bind fun s => match s.designs.find? (fun d => d.twin && d.allCabs.contains l) with
    | some d => (s.cabFailed l).twinSwap d.tag l 0
    | none => some s) (some s)
  match r with
  | none => ((s.modMode fun x => { x with rejoin := none, rejoinTested := false }).modCh c fun h => { h with seq := 7 }).hostEvent 0x800C [chNum c]
  | some s =>
    let s := { s with designs := s.designs.map fun (d : Design) => if d.twin then { d with repairs := d.repairs.filter (fun r => r.1 != 6) } else d }
    ((s.reloadCopy c).modMode fun x => { x with rejoinTested := true }).modCh c fun h => { h with seq := 4 }

/-- QUICK_SLICE_TEST_DONE (R316, R317, R320, R323): the test of the named Cabinets, or of a fenced copy that rejoins, has ended. -/
def execQuickSliceTestDone (p : Nat) (fails : List (Nat × Bool × Bool)) (s : State) : Host.Outcome State Fault Refusal :=
  .next (match s.designAt p with
    | none => s
    | some d =>
      let ls := (d.repairs.filter (fun r => r.1 == 3)).map (·.2.1)
      if ls.isEmpty then
        if d.twin && s.mode.rejoin.isSome && !s.mode.rejoinTested then s.rejoinTest fails else s
      else if d.begun then s
      else if d.twinAlive then s.twinTested d ls fails
      else if s.pairRuns then s.pairTested d ls fails
      else s)

/-- TWIN_STATE_COPY_DONE (R316 items 2 and 3): the committed state of every swapped Cabinet of the design has reached its spare. -/
def execTwinStateCopyDone (p : Nat) (s : State) : Host.Outcome State Fault Refusal :=
  .next (match s.designAt p with
    | none => s
    | some d =>
      let copies := d.repairs.filter (fun r => r.1 == 6)
      if copies.isEmpty then s
      else
        let s := s.modDesign d.tag fun d =>
          let d := copies.foldl (fun (d : Design) r => if r.2.2 = 0 then d.copyCab (r.2.1 ^^^ 64) r.2.1 else d) d
          { d with repairs := d.repairs.filter (fun r => r.1 != 6) }
        s.repairDone d.tag)

/-! ### Rejoin and join (R320, R326) -/

/-- A write of MOD_TWIN_CTRL (R320): REJOIN is ignored unless the referee is DEGRADED. Every page is marked until the first pass has
run. -/
def execModTwinRejoin (value : Word32) (s : State) : Host.Outcome State Fault Refusal :=
  .next (if s.portAnswers = false then s else if value.getLsbD 0 = false ∨ s.mode.referee ≠ .degraded ∨ s.mode.rejoin.isSome then s
    else (s.modMode fun x => { x with rejoin := some 0xFFFFFF, rejoinTested := false }).modCh s.rejoinCh fun h => { h with seq := 1 })

/-- REJOIN_PRECOPY_PASS (R320): a pass has ended with `residue` marked pages of 4 KiB. -/
def execRejoinPrecopyPass (residue : Nat) (s : State) : Host.Outcome State Fault Refusal :=
  .next (if s.mode.rejoin.isNone ∨ s.mode.rejoinTested = false then s
    else
      let s := s.modMode fun x => { x with rejoin := some (min residue 0xFFFFFF) }
      if s.rejoinReady then s.rejoinFinal s.rejoinCh else s)

/-- The design that a pair runs: the one whose descriptor both members hold (R321). -/
def State.pairDesign (s : State) : Option Design := s.designs.find? (fun d => d.descriptor == s.mode.descriptor)

/-- Pages of a design's cabinet memory, landing buffers and HBM regions (R326 item 1). -/
def Design.pages (d : Design) : Nat := d.span.length * 260 + (d.regions.map (fun g => g.bytes / 4096)).sum

/-- A write of MOD_PAIR_CTRL (R326): REPLACE on a primary that runs alone starts a join, when the other member holds the same design. -/
def execModPairReplace (value : Word32) (s : State) : Host.Outcome State Fault Refusal :=
  .next (if s.portAnswers = false then s else match s.pairDesign with
    | none => s
    | some d =>
      if value.getLsbD 0 && s.mode.mode == .mirrored && s.mode.primary && s.mode.solo && s.mode.other != .joining then
        (s.modMode fun x => { x with other := .joining, precopy := true, residue := min 0xFFFFFF d.pages }).setSeq 4 0x7F
      else s)

/-- JOIN_PRECOPY_PASS (R326): a pass has ended with `residue` marked pages of 4 KiB. -/
def execJoinPrecopyPass (residue : Nat) (s : State) : Host.Outcome State Fault Refusal :=
  .next (match s.pairDesign with
    | none => s
    | some d =>
      if s.mode.other ≠ .joining then s
      else
        let r := min residue 0xFFFFFF
        let s := s.modMode fun x => { x with residue := r, precopy := decide (256 * s.joinLimit < r) }
        if s.joinReady d then s.joinFinal d else s)

/-! ### The recovery controllers (R327-R329) -/

/-- A hub loses the referee's heartbeat (R328); in TWINNED its commits hold. -/
def State.loseReferee (s : State) (c : Ch) : State :=
  s.modCh c fun h => { h with refLost := true, holding := h.holding || s.mode.mode == Mode.twinned }

/-- REFEREE_LOST (R328). -/
def execRefereeLost (s : State) : Host.Outcome State Fault Refusal :=
  .next (if s.mode.refLost then s
    else (s.channels.foldl State.loseReferee (s.modMode fun x => { x with refLost := true })).hostEvent 0x8006 [])

/-- A write of HUB_RECOVERY_CTRL that does not act: ignored with an event, for which the manual names no code: a free value (log entry 4). -/
def State.choiceIgnored (s : State) (c : Ch) : State := (s.hubEvent c (s.free.toNat % 65536) []).freeNext

/-- A hub acts on its CHOICE (R328). -/
def State.recovery (s : State) (c : Ch) (f : State → State) : State :=
  if (s.ch c).refLost = false then s.choiceIgnored c else f (s.modCh c fun h => { h with holding := false })

/-- The channel fences itself by the operator's choice (R328). -/
def State.selfFence (s : State) (c : Ch) : State := s.fenceOff c 4

/-- RECOVERY_CONTINUE (R328): channel A runs on uncompared; on HUB-B it acts as FENCE. -/
def execRecoveryContinue (c : Ch) (s : State) : Host.Outcome State Fault Refusal :=
  .next (s.recovery c fun s =>
    if c = .b then s.selfFence .b
    else { s with designs := s.designs.map (fun (d : Design) => if d.twinAlive then { d with fencedSide := some .b } else d) })

/-- RECOVERY_FENCE (R328). -/
def execRecoveryFence (c : Ch) (s : State) : Host.Outcome State Fault Refusal := .next (s.recovery c fun s => s.selfFence c)

/-- RECOVERY_STOP (R328): the design stops at its last commit with FENCED, unless the hub's copy no longer runs. -/
def execRecoveryStop (c : Ch) (s : State) : Host.Outcome State Fault Refusal :=
  .next (s.recovery c fun s => s.stopWhere (fun d => d.twin && d.fencedSide != some c) .fenced)

/-- SEQUENCER_LOST (R329). -/
def execSequencerLost (c : Ch) (s : State) : Host.Outcome State Fault Refusal :=
  .next (if (if c = .a then s.mode.seqLostA else s.mode.seqLostB) then s
    else
      let s := (s.modMode fun x => if c = .a then { x with seqLostA := true } else { x with seqLostB := true }).hostEvent 0x8007 [chNum c]
      match s.mode.mode with
      | .twinned => s.fenceOff c 3
      | .mirrored => if s.pairRuns then (s.sendTwin (otherCh c) .twinFault).leavePair false else s
      | _ => s)

/-- CONTROLLER_HEARTBEAT (R327, R328): 0 the referee, 1 and 2 the sequencers of channels A and B answer again. -/
def execControllerHeartbeat (who : Nat) (s : State) : Host.Outcome State Fault Refusal :=
  .next (match who with
    | 0 => s.channels.foldl (fun s c => s.modCh c fun h => { h with refLost := false, holding := false }) (s.modMode fun x => { x with refLost := false })
    | 1 => s.modMode fun x => { x with seqLostA := false }
    | 2 => s.modMode fun x => { x with seqLostB := false }
    | _ => s)

/-! ### The messages of a pair (R321-R325) -/

/-- TWIN_HEARTBEAT_SEND (R325): a heartbeat leaves on a working mirror port. -/
def execTwinHeartbeatSend (c : Ch) (p : Nat) (s : State) : Host.Outcome State Fault Refusal :=
  .next (if s.mode.mode == .mirrored && (s.mirrorPorts c).contains p then s.sendOn c p .twinHeartbeat else s)

/-- Take up a TWIN message on a mirror port of a channel (R213, R322). -/
def State.withTwin (s : State) (c : Ch) (m : Sent) (f : State → State) : State :=
  s.withMsgOn c (s.mirrorPorts c) none m fun s _ _ => f s

/-- A TWIN message has arrived (R325). -/
def State.twinHeard (s : State) : State := s.modMode fun x => { x with twinLastAt := s.clock }

/-- TWIN_HEARTBEAT (R325). -/
def execTwinHeartbeat (c : Ch) (p : Nat) (s : State) : Host.Outcome State Fault Refusal :=
  .next (if (s.mirrorPorts c).contains p then
      s.withMsg c p none .twinHeartbeat fun s _ => if s.mode.mode == .mirrored then s.twinHeard else s
    else s)

/-- The partner starts the paired design with the primary (R321): it runs without a RUN of its own host. -/
def State.startPartner (s : State) (frame : BitVec 48) : State :=
  match s.pairDesign with
  | none => s
  | some d =>
    if s.canRun d && BitVec.ofNat 48 d.frame == frame then
      (s.setDesignState d .running).modDesign d.tag fun d => { d with waitPartner := true }
    else s

/-- TWIN_SIGNATURE (R322): the primary's signatures of a frame, from Cabinet `first` on. -/
def execTwinSignature (c : Ch) (frame : BitVec 48) (first : Nat) (sigs : List Word64) (s : State) : Host.Outcome State Fault Refusal :=
  .next (s.withTwin c (.twinSignature frame first sigs) fun s => if s.pairRuns && s.mode.partner then
      let s := s.twinHeard.modMode fun x =>
        { x with sigs := x.sigs.filter (fun e => !(e.1 == frame && e.2.1 == first)) ++ [(frame, first, sigs)] }
      s.startPartner frame
    else s)

/-- TWIN_INPUT (R322): the partner applies the writes in its own commit gap after `frame`. -/
def execTwinInput (c : Ch) (frame : BitVec 48) (port kind : Nat) (writes : List (Nat × Word64)) (s : State) : Host.Outcome State Fault Refusal :=
  .next (s.withTwin c (.twinInput frame port kind writes) fun s => if s.pairRuns && s.mode.partner then
      let s := s.twinHeard
      match (s.mport (chOf (port / 128)) (port % 128)).design.bind s.design with
      | none => s
      | some d =>
        if laterFrame (BitVec.ofNat 48 d.frame) frame && !d.begun then s.applyInput port kind writes
        else s.modMode fun x => { x with inputs := x.inputs ++ [(frame, port, kind, writes)] }
    else s)

/-- The primary learns of a second mismatch of a frame (R323): it holds at its next commit and tests the named Cabinets. -/
def State.primaryTests (s : State) (mask : BitVec 128) : State :=
  let ls := (List.range 128).filter (fun l => mask.getLsbD l)
  match s.pairDesign with
  | none => s
  | some d =>
    if s.unresolvedLately d then s.pairRecurs
    else (s.modDesign d.tag fun d => { d with repairs := d.repairs ++ ls.map (fun l => (3, l, 0)), verdictMask := ls }).setSeq 1 (ls.headD 0x7F)

/-- CONFIRM (R322, R323): a zero mask releases the outputs of the frame; the second non-zero mask of a frame is a lasting mismatch. -/
def execConfirm (c : Ch) (frame : BitVec 48) (mask : BitVec 128) (s : State) : Host.Outcome State Fault Refusal :=
  .next (s.withTwin c (.confirm frame mask) fun s => if s.pairRuns && s.mode.primary then
      let s := s.twinHeard
      if mask = 0 then
        let s := s.modMode fun x => { x with confirmed := frame + 1, mismatchAt := none }
        match s.pairDesign with
        | none => s
        | some d => s.releaseQueue d.tag (fun o => !laterFrame (BitVec.ofNat 48 o.frame) frame)
      else if s.mode.mismatchAt = some frame then s.primaryTests mask
      else s.modMode fun x => { x with mismatchAt := some frame }
    else s)

/-- The other member is gone (R324, R325): a partner is promoted, a primary runs SOLO. -/
def State.otherLost (s : State) (cause : Nat) : State :=
  if s.pairRuns = false then s else if s.mode.partner then s.promote .lost else s.runSolo .lost cause

/-- TWIN_FAULT (R324, R325). -/
def execTwinFault (c : Ch) (s : State) : Host.Outcome State Fault Refusal := .next (s.withTwin c .twinFault fun s => s.twinHeard.otherLost 3)

/-- PARTNER_LOST (R325): no TWIN message for 200 µs. -/
def execPartnerLost (s : State) : Host.Outcome State Fault Refusal :=
  .next (if s.mode.twinLastAt + 200000 ≤ s.clock then s.otherLost 4 else s)

/-! ### TWIN STATE (R321, R326) -/

/-- Put byte `i` of a word. -/
def putByte (w : Word64) (i : Nat) (b : Byte) : Word64 := (w &&& ~~~(0xFF#64 <<< (8 * i))) ||| (b.setWidth 64 <<< (8 * i))

/-- Put one byte at a byte address of a table of words. -/
def putByteAt (m : KV Word64) (a : Nat) (b : Byte) : KV Word64 := KV.upd 0 (a / 8) (fun w => putByte w (a % 8) b) m

/-- Put one byte of the state banks, by logical cell order. -/
def Design.putBank (d : Design) (a : Nat) (b : Byte) : Design :=
  let l := (d.span[a / 65536]?).getD 0
  let k := a / 64 % 1024
  let set := fun (v : BitVec 512) => (List.range 8).foldl (fun v i => setBit v (8 * (a % 64) + i) (b.getLsbD i)) v
  { d with cells := KV.upd {} (l * 1024 + k) (fun c => if c.cur then { c with bank1 := set c.bank1 } else { c with bank0 := set c.bank0 }) d.cells }

/-- Put one byte of a landing buffer, its flags, or the gather registers of a Cabinet. -/
def CabSt.putLanding (x : CabSt) (a : Nat) (b : Byte) : CabSt :=
  if a < 16384 then { x with landing := putByteAt x.landing a b }
  else if a < 16640 then
    (List.range 8).foldl (fun (x : CabSt) i =>
      let k := 8 * (a - 16384) + i
      { x with invalid := if b.getLsbD i then x.invalid.filter (· != k) else insKey k x.invalid }) x
  else if a < 16768 then { x with addrG := putByteAt x.addrG (a - 16640) b }
  else if a < 16896 then { x with dataG := putByteAt x.dataG (a - 16768) b }
  else x

/-- Put one byte at a TWIN STATE offset. -/
def State.putState (s : State) (tag a : Nat) (b : Byte) : State :=
  let o := a % 2 ^ 36
  match a / 2 ^ 36 with
  | 0 => s.modDesign tag fun d => d.putBank o b
  | 1 => s.modDesign tag fun d => d.modCab (o / 2 ^ 20) fun x => { x with mem := putByteAt x.mem (o % 2 ^ 20) b }
  | 2 => match (s.design tag).bind (fun d => d.regions.find? (fun g => g.index == o / 2 ^ 32)) with
    | some g => s.modHbm (chOf g.side) fun h => { h with
        mem := h.mem.write (g.base + o % 2 ^ 32) b, poison := h.poison.filter (fun x => x != (g.base + o % 2 ^ 32) / 64 * 64) }
    | none => s
  | 3 => s.modDesign tag fun d => d.modCab (o / 32768) fun x => x.putLanding (o % 32768) b
  | _ => s

/-- The final hold of a join has reached the joining member: it takes the partner's role at the same frame (R326 item 3). -/
def State.becomePartner (s : State) (d : Design) (frame : BitVec 48) : State :=
  let s := s.modMode fun x => { x with left := false, primary := false, partner := true, solo := false, other := .paired }
  let s := s.modDesign d.tag fun d => { d with frame := frame.toNat, stage := min 3 (frame.toNat / d.header.phases), waitPartner := true, outQ := [] }
  s.setDesignState d .running

/-- TWIN_STATE (R321, R326): at offset 0xFF_FFFF_FFFF the other member's design descriptor, answered with this member's own when it is
news; otherwise committed state for the same design. -/
def execTwinState (c : Ch) (frame : BitVec 48) (offset : Nat) (data : List Byte) (s : State) : Host.Outcome State Fault Refusal :=
  .next (s.withTwin c (.twinState frame offset data) fun s => if s.mode.mode != .mirrored then s
    else
      let s := s.twinHeard
      if offset = 0xFFFFFFFFFF then
        let news := s.mode.descriptor != data
        let s := s.modMode fun x => { x with descriptor := data }
        match news, s.designs.find? (fun d => d.descriptor == data) with
        | true, some d => (s.sendDescriptor d).modMode fun x => if d.state = .stopped then { x with confirmed := frame } else x
        | _, _ => s
      else match s.pairDesign with
        | none => s
        | some d =>
          if s.mode.primary && !s.mode.left then s
          else
            let s := (data.zip (List.range data.length)).foldl (fun s e => s.putState d.tag (offset + e.2) e.1) s
            if offset / 2 ^ 36 = 0 ∧ s.mode.partner = false then s.becomePartner d frame else s)

/-- PAIR_PRIMARY (R214, R325): the member of a pair that is primary now. -/
def execPairPrimary (src : Sender) (member : Nat) (s : State) : Host.Outcome State Fault Refusal :=
  .next (s.withMsgOn src.ch ((List.range 8).filter (s.carries src.ch)) (some src.mod) (.pairPrimary 0 member) fun s _ _ =>
    s.modMode fun x => { x with pairPrimary := KV.put 64 src.mod member x.pairPrimary })

/-! ### STOP_AT (R214, R321, R322) -/

/-- Whether a design takes STOP_AT from a module: it has a link slot there, or the module is the other member of its pair. -/
def State.stopsFor (s : State) (d : Design) (src : Nat) : Bool :=
  d.slots.any (fun b => b.remote == src) || (match s.topo with
    | some t => s.mode.mode == .mirrored && (s.mode.partner || s.mode.primary) && ((t.mods[t.identity]?).map (·.pair)) == some src
    | none => false)

/-- STOP_AT (R214, R321): a design stops after the commit of `frame`, or at once where that frame has committed. -/
def execStopAt (c : Ch) (src : Nat) (frame : BitVec 48) (s : State) : Host.Outcome State Fault Refusal :=
  .next (s.withMsgOn c ((List.range 8).filter (s.carries c)) (some src) (.stopAt 0 frame) fun s _ _ => s.designs.foldl (fun s d =>
    if (d.state == .running || d.state == .stopping) && s.stopsFor d src then
      if laterFrame (BitVec.ofNat 48 d.frame) frame then (s.stopAt d.tag .ok 3).finishStops d.tag
      else s.modDesign d.tag fun d => { d with stopAfter := some frame }
    else s) s)

end Sys2Proof.Machine
end

