-- ==== Sys2Proof/Machine/SelfTest.lean ====
section
/-! DEFINITION. Rolling Cabinet self-test (R333-R339), wire rotation (R340), tile patrol (R341, R342), persistent stores (R348,
R349). -/

namespace Sys2Proof.Machine

open Sys2Proof

/-! ### Slices (R333-R337) -/

/-- The causes that pause rolling test on a die, in the order of the table of R333. -/
def State.pauses (s : State) (c : Ch) (die : Nat) : List Bool :=
  [decide ((s.spares c die).length < 2),
   if c = .a then s.mode.seqLostA else s.mode.seqLostB,
   s.mode.rejoin.isSome || s.mode.other == .joining || s.mode.final ||
     s.designs.any (fun d => d.repairs.any (fun r => (r.1 == 2 || r.1 == 3 || r.1 == 6) && chOfCab r.2.1 == c)),
   !bitAt (s.reg .bstCtrl c []).toNat 0,
   !(s.pw c).state.arrayOn || s.mode.mode == .service,
   (s.ch c).fenced]

/-- Whether rolling test may run on a die now (R270, R333). -/
def State.sliceMay (s : State) (c : Ch) (die : Nat) : Bool :=
  s.channels.contains c && decide (die < 2) && !(s.pauses c die).contains true && !(s.sec.lifecycle == .blank || s.sec.lifecycle == .scrapped)

/-- Whether a slice skips a logical Cabinet (R335 step 1): its partition is being loaded, or it is under repair. -/
def State.sliceSkips (s : State) (c : Ch) (die idx : Nat) : Bool :=
  let l := 64 * chNum c + 32 * die + idx
  (s.part (partOfCab l)).state == .loading || s.designs.any (fun d => d.repairs.any (fun r => r.2.1 == l)) ||
    (match s.physOf l with
      | some (c, d, i) => (s.cab c d i).repairDue
      | none => false)

/-- Start a slice on a die (R335 step 1): choose the next logical Cabinet; one of a loaded design is preloaded first. -/
def State.startSlice (s : State) (c : Ch) (die : Nat) : State :=
  let x := s.die c die
  if s.sliceMay c die = false ∨ x.slice ≠ .idle then s
  else match ((List.range 32).map (fun k => (x.next + k) % 32)).find? (fun i => !s.sliceSkips c die i) with
    | none => s
    | some i =>
      let used := s.designs.any (fun d => d.span.contains (64 * chNum c + 32 * die + i))
      s.modDie c die fun y => { y with slice := if used then .preload else .waitBoundary, chosen := some i, next := (i + 1) % 32 }

/-- SLICE_START (R333, R335): the slice interval of a die expires. -/
def execSliceStart (c : Ch) (die : Nat) (s : State) : Host.Outcome State Fault Refusal := .next (s.startSlice c die)

/-- Leave a slice (R338): the chosen Cabinet stays in place. -/
def State.dropSlice (s : State) (c : Ch) (die : Nat) : State := s.modDie c die fun y => { y with slice := .idle, chosen := none }

/-- SLICE_PRELOAD_DONE (R335 step 2, R338): the swap waits for the frame boundary; a design unloaded meanwhile ends the slice. A tile that the
image copy does not yield stops the design, unless a twin lends it (R57), and ends the slice. -/
def execSlicePreloadDone (c : Ch) (spare : Preload) (s : State) : Host.Outcome State Fault Refusal :=
  .next (
    let ⟨die, image⟩ := spare
    match (s.die c die).slice, (s.die c die).chosen with
    | .preload, some i =>
      let l := 64 * chNum c + 32 * die + i
      match s.designs.find? (fun d => d.span.contains l) with
      | none => s.dropSlice c die
      | some d =>
        let s := s.imageRead l image
        if image ≠ .good ∧ d.twinAlive = false then (s.dropSlice c die).imageLost d
        else s.modDie c die fun y => { y with slice := .waitBoundary }
    | _, _ => s)

/-- SLICE_SWAP (R335 step 3, R336): at a frame boundary of its design the chosen Cabinet is swapped for the rotating spare, with
nothing in flight to or from it (R163) and no load into its partition (R121); `holdNs` is the length of the hold. Cell and Bench repairs
under way in it are abandoned (R22); a lasting fault of it turns the slice into its repair (R338). The freed Cabinet's march begins (R135). -/
def execSliceSwap (c : Ch) (die : Nat) (holdNs : Nat) (s : State) : Host.Outcome State Fault Refusal :=
  .next (match (s.die c die).slice, (s.die c die).chosen, (s.die c die).rotating with
    | .waitBoundary, some i, some new =>
      let l := 64 * chNum c + 32 * die + i
      let d := s.designs.find? (fun d => d.span.contains l)
      match (s.die c die).phys i with
      | none => s
      | some old =>
        let repair := (s.cab c die old).repairDue || (d.map (fun d => d.repairs.any (fun r => r.2.1 == l && (r.1 == 2 || r.1 == 3 || r.1 == 6)))).getD false
        if (d.map (fun d => d.begun || !s.cabQuiet d l)).getD false ∨ (s.part (partOfCab l)).state = .loading then s
        else if repair then s.dropSlice c die
        else
          let held := (d.map (fun d => d.state == .running || d.state == .stopping)).getD false
          let s := s.modDie c die fun y =>
            { y with slice := .test, chosen := none, map := KV.put (some i) i (some new) y.map, rotating := none, freed := some old,
                     freedFrame := (d.map (·.frame)).getD 0, freedOwner := (d.map (·.tag)).getD 0 }
          let s := if held then s.modCh c fun h => { h with lastHold := min 0xFFFF holdNs } else s
          let s := match d with
            | some d => s.modDesign d.tag fun x => x.repaired l
            | none => s
          let s := s.modCab c die old fun p => { p with march := some { run := 0, design := none } }
          s.modCab c die new fun p => p.remap
    | _, _, _ => s)

/-- Mark what a test of a freed Cabinet found (R337). -/
def PhysCab.tested (p : PhysCab) (o : CabTest) : PhysCab :=
  let p := { p with benches := o.benches.foldl (fun t b => if b < 17 then KV.upd {} b (fun (x : BenchSt) => { x with retired := true }) t else t) p.benches }
  let p := { p with benches := o.cells.foldl (fun t (e : Nat × Nat) => if e.1 < 17 ∧ e.2 < 66 then
      KV.upd {} e.1 (fun (x : BenchSt) => { x with failed := insKey e.2 x.failed }) t else t) p.benches }
  { p.remap with drift := o.drift, measured := true }

/-- Drift at which BST_AGE.WARN is set, in 0.01 % units (R346). -/
def PhysCab.ageWarn (p : PhysCab) : Bool := p.measured && decide (600 ≤ p.drift.toInt)

/-- CABINET_TEST_DONE (R334, R335 steps 4 and 5, R337, R346): the freed Cabinet becomes the standing spare, or is marked failed. -/
def execCabinetTestDone (c : Ch) (die : Nat) (obs : CabTest) (s : State) : Host.Outcome State Fault Refusal :=
  .next (match (s.die c die).slice, (s.die c die).freed with
    | .test, some i =>
      let x := s.die c die
      let warned := (s.cab c die i).ageWarn
      let last := (s.cab c die i).lastPass
      let s := s.modCab c die i fun p => { (p.tested obs) with march := none, corrected := [] }
      let p := s.cab c die i
      let s := if p.ageWarn && !warned then s.hubEvent c 0x900A [die, i, p.drift.toNat] else s
      let s := s.count .bstSlices c []
      let fin := fun (s : State) => s.modDie c die fun y => { y with slice := .idle, freed := none, freedFrame := 0, freedOwner := 0 }
      if obs.partFailed || p.marchFailed || !p.formsCabinet then
        let s := (s.modCab c die i fun p => { p with failed := true }).count .bstSliceFails c []
        let s := match s.design x.freedOwner with
          | some d => s.designEvent d 0x9001 [die, i, x.freedFrame, last]
          | none => s.hubEvent c 0x9001 [die, i, x.freedFrame, last]
        (fin s).spareFailed c die
      else
        fin ((s.modCab c die i fun p => { p with lastPass := (s.now0 (1 + chNum c)).toNat }).modDie c die fun y =>
          ({ y with standing := some i, rotating := y.standing } : DieSt).settle)
    | _, _ => s)

/-- A host write of BST_CTRL: PATROL_EN written 0 ends STOPPED (R342). -/
def State.bstWrite (s : State) (c : Ch) (value : Word32) : State :=
  let s := s.storeBits .bstCtrl c [] value
  if bitAt value.toNat 2 then s
  else [0, 1].foldl (fun s d => s.modDie c d fun x => { x with patrolStopped := false, disagreeAt := [] }) s

/-- SLICE_NOW (R333): a write of BST_CTRL whose SLICE_NOW starts a slice on each die. -/
def execSliceNow (c : Ch) (value : Word32) (s : State) : Host.Outcome State Fault Refusal :=
  .next (if s.portAnswers = false then s else if s.domOn .hub c = false then s.timedOut (regOff .bstCtrl c [])
    else
      let s := s.bstWrite c value
      if bitAt value.toNat 3 then (s.startSlice c 0).startSlice c 1 else s)

/-- PATROL_RESTART (R342): a write of BST_CTRL that changes PATROL_EN; 0 and then 1 restarts a stopped pair. -/
def execPatrolRestart (c : Ch) (value : Word32) (s : State) : Host.Outcome State Fault Refusal :=
  .next (if s.portAnswers = false then s else if s.domOn .hub c = false then s.timedOut (regOff .bstCtrl c []) else s.bstWrite c value)

/-! ### Wires (R340, R345) -/

/-- Data wires of a link direction (R175). -/
def wireCount (link : Nat) : Nat := if endPort link = 10 then 128 else 256

/-- WIRE_ROTATION (R340): the next wire of a group whose spare is healthy moves onto it. -/
def execWireRotation (c : Ch) (link : Nat) (s : State) : Host.Outcome State Fault Refusal :=
  .next (
    let x := s.flink c link
    let n := wireCount link
    if bitAt (s.reg .bstCtrl c []).toNat 1 = false ∨ endOk link = false ∨ x.failed ∨ x.check ≠ 0 ∨ x.testing.isSome ∨
        (s.pw c).state.hubOn = false then s
    else match ((List.range n).map (fun k => (x.nextWire + k) % n)).find? (fun w => !(x.lanes.map (wireGroup link)).contains (wireGroup link w)) with
      | none => s
      | some w => s.modFlink c link fun y => { y with testing := some w, nextWire := (w + 1) % n })

/-- WIRE_TEST_DONE (R340, R345): the freed wire becomes the group's spare, or is marked failed. A mesh link whose spare wires are used up
retires the partitions whose rows hold it. -/
def execWireTestDone (c : Ch) (link : Nat) (passed : Bool) (s : State) : Host.Outcome State Fault Refusal :=
  .next (match (s.flink c link).testing with
    | none => s
    | some w =>
      let g := wireGroup link w
      let s := s.modFlink c link fun y => { y with testing := none }
      if passed then s.modFlink c link fun y => { y with spareAt := KV.put 0 g (w + 1) y.spareAt }
      else
        let s := s.modFlink c link fun y => { y with lanes := insKey w y.lanes }
        let s := (s.count .bstWireFails c []).hubEvent c 0x9006
          [if isMesh link then meshDie link else chNum c, if isMesh link then (link - 12) % 256 else endPort link, w]
        if isMesh link ∧ wireGroups link ≤ (s.flink c link).lanes.length then
          (meshParts link).foldl (fun s p => s.retirePart (4 * chNum c + 2 * meshDie link + p)) s
        else s)

/-! ### Patrol (R341, R342) -/

/-- Retire a physical Bench, mapping the Cabinet afresh around it. -/
def PhysCab.retireBench (p : PhysCab) (bench : Nat) : PhysCab :=
  ({ p with benches := KV.upd {} bench (fun (b : BenchSt) => { b with retired := true }) p.benches }).remap

/-- Swap a cell of a Cabinet that holds no design for a spare cell; with none, its Bench for the spare Bench; with none, the Cabinet for a
spare one, a spare itself failing (R59, R61). Nothing is swapped in a partition that is being loaded (R121). -/
def State.swapIdleCell (s : State) (c : Ch) (die i bench cell : Nat) : State :=
  let q := s.cab c die i
  if ((s.logicalOf c die i).map (fun l => (s.part (partOfCab l)).state == .loading)).getD false then s
  else match (q.bench bench).freeSpare with
  | some sp => (s.modBench c die i bench fun b => b.swapCell cell sp).hubEvent c 0x1003 [die, i, bench]
  | none =>
    if (q.retireBench bench).formsCabinet then (s.modCab c die i fun p => p.retireBench bench).hubEvent c 0x1004 [die, i, bench]
    else match s.logicalOf c die i with
      | some _ => s.modCab c die i fun p => { p with repairDue := true }
      | none => (s.modCab c die i fun p => { p.retireBench bench with failed := true }).spareFailed c die

/-- One tile that a patrol pass found bad (R56, R341). Benches and cells are given by their physical numbers. A spare cell that carries no
logical cell is marked failed where it would be swapped; a part already marked failed is not looked at. -/
def State.patrolTile (s : State) (c : Ch) (die : Nat) (o : PatrolObs) : State :=
  let s := s.count .bstPatrolMismatch c []
  let q := s.cab c die o.cab
  let b := q.bench o.bench
  let lb := if o.bench = 16 then q.spareBench.getD 16 else o.bench
  let lc := if o.cell = 64 then b.spare0 else if o.cell = 65 then b.spare1 else o.cell
  let idle := decide (64 ≤ o.cell) && decide (0x7E ≤ lc)
  if q.failed || b.retired || b.failed.contains o.cell then s
  else match (if lb = 16 || idle then none else s.designOfPhys c die o.cab), s.logicalOf c die o.cab with
  | some d, some l =>
    if o.rereadOk then (s.count .benchTileTransient c [die, o.cab, o.bench]).designEvent d 0x1001 (s.cellAddr l lb lc ++ [o.tile])
    else if o.image ≠ .good ∧ d.twinAlive = false then (s.imageRead l o.image).imageLost d
    else
      let s := s.imageRead l o.image
      if o.reloadOk && !b.reloadedLately o.cell s.clock then
      (s.reloadDone c die o.cab o.bench o.cell).designEvent d 0x1002 (s.cellAddr l lb lc ++ [o.tile])
    else s.askCellSwap d l lb lc
  | _, _ =>
    if o.rereadOk then (s.count .benchTileTransient c [die, o.cab, o.bench]).hubEvent c 0x1001 [die, o.cab, o.bench]
    else if o.reloadOk && !b.reloadedLately o.cell s.clock then (s.reloadDone c die o.cab o.bench o.cell).hubEvent c 0x1002 [die, o.cab, o.bench]
    else if idle then s.modBench c die o.cab o.bench fun x => x.spareFailed o.cell
    else s.swapIdleCell c die o.cab o.bench lc

/-- PATROL_PASS (R341, R342): a pass over a die, with the tiles it found bad and the disagreements of its halves. Sixteen disagreements
within 1 s stop the patrol. -/
def execPatrolPass (c : Ch) (die : Nat) (bad : List PatrolObs) (disagreements : Nat) (s : State) : Host.Outcome State Fault Refusal :=
  .next (if s.channels.contains c = false ∨ 2 ≤ die ∨ bitAt (s.reg .bstCtrl c []).toNat 2 = false ∨ (s.die c die).patrolStopped ∨
      (s.pw c).state.arrayOn = false then s
    else
      let s := bad.foldl (fun s o => s.patrolTile c die o) s
      let s := s.countBy .bstPatrolDisagree c [] disagreements
      let s := s.modDie c die fun x =>
        { x with disagreeAt := ((x.disagreeAt.filter (fun t => decide (s.clock < t + 10 ^ 9))) ++ List.replicate (min 16 disagreements) s.clock) }
      if 16 ≤ (s.die c die).disagreeAt.length then (s.modDie c die fun x => { x with patrolStopped := true }).hubEvent c 0x9005 [die]
      else s)

/-! ### Persistent stores (R348, R349) -/

/-- Retire a block of a store: to a spare block, or with none left NO_SPARE is set. -/
def Store.retire (t : Store) (block : Nat) : Store :=
  if t.sparesLeft = 0 then { t with noSpare := true }
  else { t with sparesLeft := t.sparesLeft - 1, retired := t.retired + 1, blocks := t.blocks ++ [block] }

/-- STORE_BLOCK_RETIRED (R348, R349): a block of store 0 (host die), 1 (HUB-A) or 2 (HUB-B) reached its rating or failed. -/
def execStoreBlockRetired (store block : Nat) (s : State) : Host.Outcome State Fault Refusal :=
  .next (
    let t := if store = 0 then s.store else if store = 1 then s.chA.store else s.chB.store
    if 2 < store then s
    else
      let ev := fun (s : State) => if t.sparesLeft = 0 then s.event 0x9008 store 0xFF 0 false [store]
        else s.event 0x9007 store 0xFF 0 false [store, block]
      if store = 0 then ev { s with store := t.retire block }
      else ev (s.modCh (if store = 1 then .a else .b) fun h => { h with store := h.store.retire block }))

end Sys2Proof.Machine
end

