-- ==== Sys2Proof/Machine/FabricGuest.lean ====
section
/-! DEFINITION. The links of Velvin Fabric (07_velvin_fabric.md): the receive side of a link (R169, R171, R172, R176), lane checks and link
failures (R173, R177, R178), and the guest port (R181-R186). -/

namespace Sys2Proof.Machine

open Sys2Proof

/-! ### Link failures (R173) -/

/-- The flits that are lost with an end of a link (R173): those in its replay buffer and those that wait to be sent. -/
def FLink.lostFlits (x : FLink) : List TxFlit := x.replay ++ x.queue

/-- A frame begun of a design whose flits are lost meets an error within the frame (R173, R90); the Cabinet named is the lowest of the design
in the channel. -/
def State.loseTag (s : State) (c : Ch) (tag : Nat) : State :=
  match s.design tag with
  | none => s
  | some d =>
    if d.begun && d.runs then s.frameErr tag (.fabric, ((d.span.filter (fun l => chOfCab l == c)).head?).getD 0, 0) else s

/-- The engines of a hub that a lost packet names as its source or destination lose it (R173): their work items complete MEMORY_ERROR. -/
def State.loseEngine (s : State) (c : Ch) (flit : BitVec 256) : State :=
  [16, 32].foldl (fun s lo =>
    let a := field flit.toNat lo 9
    let n := field a 3 6
    if chOf (field a 0 1) = c ∧ field a 1 2 = 2 ∧ 1 ≤ n ∧ n ≤ 18 then
      s.modSched c fun q => { q with engines := KV.upd { spare := decide (16 ≤ n - 1) } (n - 1) (fun x => { x with lost := x.busy.isSome }) q.engines }
    else s) s

/-- What is lost with the flits of a failed link (R173). A head is told from a body flit by its class and CRC. -/
def State.loseFlits (s : State) (c : Ch) (l : List TxFlit) : State :=
  let s := (((l.map (·.tag)).filter (fun t => t != 0)).eraseDups).foldl (fun s t => s.loseTag c t) s
  l.foldl (fun s t => if headBad t.flit.toNat then s else s.loseEngine c t.flit) s

/-- A partition whose two hub ports have failed (R173, R345): every design that holds it stops with FENCED, and it is retired. -/
def State.partCut (s : State) (c : Ch) (die p : Nat) : State :=
  let part := 4 * chNum c + 2 * die + p
  let s := match s.designAt part with
    | none => s
    | some d => if d.twinAlive then s.fenceOff c 5 else s.lastingStop d.tag .fenced 0
  s.retirePart part

/-- The host-die link of a channel fails (R173): designs that span both channels stop with FENCED; a TWINNED copy that the host die cannot
reach is fenced. -/
def State.hostLinkDown (s : State) (c : Ch) : State :=
  let s := s.designs.foldl (fun s d => if d.spansBoth then s.lastingStop d.tag .fenced 0 else s) s
  if s.designs.any (fun d => d.twinAlive) then s.fenceOff c 5 else s

/-- Ends of the fabric of a channel take another route where their output has failed (R173). -/
def State.rerouted (s : State) (c : Ch) : State :=
  s.modFab c fun f => { f with flows := f.flows.map fun x =>
    if x.granted || !(KV.get {} x.out f.links).failed || decide (1024 ≤ x.out) then x
    else match x.flits with
      | h :: _ =>
        let pl := if x.input < 1024 then endPlace x.input
          else if x.input < 2048 then .router ((x.input - 1024) / 64) ((x.input - 1024) % 64) else .hub
        { x with out := s.outOf c pl h.toNat }
      | [] => x }

/-- A link fails, with both its ends (R172, R173, R186): the flits of its replay buffers and those that were passing it are lost. -/
def State.linkFails (s : State) (c : Ch) (link : Nat) : State :=
  let ends := link :: (peerEnd link).toList
  let port := endPort link
  let lost := ends.flatMap (fun e => (s.flink c e).lostFlits)
  let cut := ((s.ch c).fab.flows.filter (fun x => (ends.contains x.input && decide (0 < x.left)) || (x.granted && ends.contains x.out))).flatMap
    (fun x => x.flits.map (fun w => ({ vc := x.vc, tag := x.tag, flit := w, last := false } : TxFlit)))
  let s := ends.foldl (fun s e => s.modFlink c e fun x =>
    { x with failed := true, check := 0, nak := false, fails := 0, queue := [], replay := [], used := [], owed := [] }) s
  let s := s.modFab c fun f => { f with
    flows := f.flows.filter (fun x => !((ends.contains x.input && decide (0 < x.left)) || (x.granted && ends.contains x.out))) }
  let s := s.hubEvent c 0x3002 [chNum c, port,
    if port < 8 then port / 4 else if port < 10 then 1 else if port = 10 then 3 else if port = 11 then 2 else meshDie link,
    if isMesh link then (link - 12) % 256 / 4 else 0]
  let s := s.loseFlits c (lost ++ cut)
  let s :=
    if port < 8 then
      if (s.flink c (port - port % 2)).failed && (s.flink c (port - port % 2 + 1)).failed then s.partCut c (port / 4) (port % 4 / 2) else s
    else if port = 10 then s.hostLinkDown c
    else if port = 11 then s.modGuest c fun g => { g with failed := true }
    else if isMesh link then (meshParts link).foldl (fun s p => s.retirePart (4 * chNum c + 2 * meshDie link + p)) s
    else s
  (s.rerouted c).fabSettle c

/-! ### Receiving (R165, R169-R172, R176) -/

/-- An expected flit fails its check (R172): NAK, and after four failures a lane check of both receivers of the link, or its end. -/
def State.flitFailed (s : State) (c : Ch) (link : Nat) : State :=
  let s := s.count .vfCrcErrors c []
  let x := s.flink c link
  if x.fails + 1 < 4 then s.modFlink c link fun x => { x with fails := x.fails + 1, nak := true }.reply
  else if x.checked then s.linkFails c link
  else
    let s := (s.count .vfLaneChecks c []).modFlink c link fun x => { x with fails := 0, nak := true, checked := true }.reply
    (link :: (peerEnd link).toList).foldl (fun s e => s.modFlink c e fun x => { x with check := 1, mapSeen := false, mapAcked := false }) s

/-- A receiver ends its part of a lane check once it has the far side's map and the far side's acknowledgement of its own (R177). Where the
far end still waits for a flit that failed, its NAK goes out. -/
def State.checkOver (s : State) (c : Ch) (link : Nat) : State :=
  s.modFlink c link fun x =>
    if x.check = 2 ∧ x.mapSeen ∧ x.mapAcked then
      let y := { x with check := 0 }
      (if y.nak then y.reply else y).push (linkWindow link) (y.queue.length + 2)
    else x

/-- A LINK flit (R169, R177): credits come back, or the far side's lane map, which is acknowledged. What a map of the guest's receiver says is
a free value (log entry 4). -/
def State.linkCode (s : State) (c : Ch) (link w : Nat) : State :=
  if field w 64 8 = 1 then
    s.modFlink c link fun x => { x with used := (List.range 4).foldl (fun u v => KV.upd 0 v (fun n => n - field w (96 + 8 * v) 8) u) x.used }
  else
    let r := match peerEnd link with
      | some e => ((s.flink c e).lanes.length, !(s.flink c e).sbLanes.isEmpty)
      | none => (s.free.toNat % 17, s.free.getLsbD 5)
    let s := if (peerEnd link).isNone then s.freeNext else s
    (s.modFlink c link fun x => { x with outSpares := r.1, outSb := r.2, mapSeen := true }.reply).checkOver c link

/-- Take a body flit of the packet whose head came before it on an input; a malformed one ends its packet (R169). -/
def State.takeBody (s : State) (c : Ch) (k : Nat) (x : Flow) (flit : BitVec 256) : State :=
  let w := (x.flits.head?.map (·.toNat)).getD 1
  if bodyBad (field w 0 3) flit.toNat && !x.begun then
    let s := s.count .vfCrcErrors c []
    (s.modFab c fun f => ({ f with flows := f.flows.eraseIdx k }).owe x.input x.vc (x.flits.length + 1)).modFlink c x.input fun y =>
      { y with drop := x.left - 1 }
  else s.modFab c fun f => { f with flows := f.flows.set k { x with flits := x.flits ++ [flit], left := x.left - 1 } }

/-- Hand an accepted flit to the router behind an end: a head is checked, isolated and waits for its output, a body flit follows its head. -/
def State.flitPassed (s : State) (c : Ch) (link : Nat) (flit : BitVec 256) : State :=
  let w := flit.toNat
  let fl := (s.ch c).fab.flows
  match ((List.range fl.length).zip fl).find? (fun e => e.2.input == link && decide (0 < e.2.left)) with
  | some e => (s.takeBody c e.1 e.2 flit).fabSettle c
  | none =>
    if 0 < (s.flink c link).drop then (s.modFlink c link fun x => { x with drop := x.drop - 1 }).fabSettle c
    else if headBad w then
      let s := (s.count .vfCrcErrors c []).modFlink c link fun x => { x with drop := min 16 (field w 3 5) }
      (s.modFab c fun f => f.owe link (vcOf c (endPlace link) w) 1).fabSettle c
    else if field w 0 3 = 7 then (s.linkCode c link w).fabSettle c
    else (s.enter c (endPlace link) link [flit] (field w 3 5)).fabSettle c

/-- A payload of the guest port (R184): a GOUT flit waits to be taken; any other, or one with a reserved bit, is malformed. -/
def State.guestFlit (s : State) (c : Ch) (flit : BitVec 256) : State :=
  let w := flit.toNat
  if field w 0 3 = 7 then (if headBad w then s.count .vfCrcErrors c [] else s.linkCode c 11 w)
  else if field w 0 4 = 2 ∧ field w 14 2 = 0 ∧ (bitAt w 13 = false ∨ field w 16 16 = 0) then
    s.modGuest c fun g => { g with rx := g.rx ++ [flit.setWidth 224] }
  else s.count .vfCrcErrors c []

/-- Whether the sideband word of a unit interval has odd parity (R176). -/
def sideOk (side : BitVec 16) : Bool := ((List.range 16).map (fun i => bit01 (bitAt side.toNat i))).sum % 2 == 1

/-- Whether a head finds room in the buffer of its virtual channel (R166). -/
def State.bufferFull (s : State) (c : Ch) (link : Nat) (w : Nat) : Bool :=
  let vc := vcOf c (endPlace link) w
  decide (vcRoom ≤ ((s.ch c).fab.flows.filter (fun x => x.input == link && x.vc == vc)).foldl (fun n x => n + x.flits.length) 0)

/-- Whether an end of a channel's fabric can receive: it exists, its hub and its die have power, and it has not failed. -/
def State.endUp (s : State) (c : Ch) (link : Nat) : Bool :=
  s.channels.contains c && endOk link && (s.pw c).state.hubOn && (!onArray link || (s.pw c).state.arrayOn) && !(s.flink c link).failed

/-- Take a flit whose number is the one expected, or, during a lane check, a lane map whatever its number (R172, R177). `parity`: the bytes of the
flit fail their parity inside the router, which counts as a CRC failure on its input (R171). -/
def State.takeFlit (s : State) (c : Ch) (link : Nat) (flit : BitVec 256) (parity : Bool) : State :=
  let x := s.flink c link
  if x.check ≠ 0 then
    if flitCrcOk flit && !parity && !headBad flit.toNat && field flit.toNat 0 3 == 7 && field flit.toNat 64 8 == 2 then s.linkCode c link flit.toNat else s
  else if flitCrcOk flit = false ∨ parity then s.flitFailed c link
  else if link ≠ 11 ∧ s.bufferFull c link flit.toNat then s.modFlink c link fun x => { x with nak := true }.reply
  else
    let s := if 0 < x.fails ∨ x.checked ∨ x.nak then s.count .vfReplays c [] else s
    let s := s.modFlink c link fun x => { x with next := (x.next + 1) % 64, fails := 0, checked := false, nak := false }.reply
    if link = 11 then s.guestFlit c flit else s.flitPassed c link flit

/-- FLIT_RECEIVE (R171, R172, R176): one unit interval at an end of a fabric link of channel `c`, with its sideband word. A sideband word with bad
parity is ignored. An acknowledgement frees the replay buffer, a NAK sends it again. A flit out of sequence is not taken: NAK, unless one
stands already or the flit is an old one. -/
def execFlitReceive (c : Ch) (link : Nat) (flit : FlitIn) (side : BitVec 16) (s : State) : Host.Outcome State Fault Refusal :=
  .next (
    let sb := side.toNat
    if s.endUp c link = false ∨ sideOk side = false then s
    else
      let s := if bitAt sb 7 then
          ((s.modFlink c link fun x => x.acked (field sb 8 6) (bitAt sb 14)).checkOver c link).modFab c fun f => f.pushEnd link
        else s
      let x := s.flink c link
      let s :=
        if bitAt sb 0 = false then s
        else if field sb 1 6 = x.next ∨ x.check ≠ 0 then s.takeFlit c link flit.bits flit.parity
        else if (field sb 1 6 + 64 - x.next) % 64 < linkWindow link then
          (if x.nak then s else s.modFlink c link fun x => { x with nak := true }.reply)
        else s.modFlink c link fun x => x.reply
      s.fabSettle c)

/-- LANE_CHECK_DONE (R177, R178): the receiver at an end marks the lanes found failed, spares included from 256 on (128 on the host-die link),
and the sideband lanes, 16 their spare. Each goes to its group's spare, and the map goes to the far side; where a group or the sideband has
two, the link fails. -/
def execLaneCheckDone (c : Ch) (link : Nat) (failed side : List Nat) (s : State) : Host.Outcome State Fault Refusal :=
  .next (
    let x := s.flink c link
    if x.check ≠ 1 then s
    else
      let lanes := failed.foldl (fun l w => insKey w l) x.lanes
      let sb := side.foldl (fun l w => insKey w l) x.sbLanes
      let gs := lanes.map (wireGroup link)
      if gs.eraseDups.length ≠ gs.length ∨ gs.any (fun g => decide (wireGroups link ≤ g)) ∨ 1 < sb.length then s.linkFails c link
      else
        let new := lanes.length + sb.length - x.lanes.length - x.sbLanes.length
        let s := s.modFlink c link fun x =>
          { x with check := 2, mapAcked := false, lanes := lanes, sbLanes := sb,
                   sent := x.sent ++ [(sideWord x true x.seq, headFlit 7 0 0 0 0 0 2 0)] }
        let s := s.checkOver c link
        let s := if new = 0 then s else s.hubEvent c 0x3003 [chNum c, endPort link, new]
        if isMesh link ∧ wireGroups link ≤ lanes.length then
          (meshParts link).foldl (fun s p => s.retirePart (4 * chNum c + 2 * meshDie link + p)) s
        else s)

/-! ### The guest port (R181, R184-R186) -/

/-- Whether the hub of a channel has a guest site. -/
def State.hasGuest (s : State) (c : Ch) : Bool := s.id.variantG && s.channels.contains c

/-- A write of VF_GUEST_CTRL (R181): RAILS switches both guest rails, and the port comes up with a lane check (R177); written 1 while FAULT is
set it is refused with an event, written 0 it ends FAULT. Before a base image is in force the rails stay off (R292). -/
def execGuestRailsWrite (c : Ch) (value : Word32) (s : State) : Host.Outcome State Fault Refusal :=
  .next (if s.portAnswers = false then s else if s.hasGuest c = false ∨ (s.pw c).state.hubOn = false then s
    else
      let on := value.getLsbD 30
      let g := (s.ch c).guest
      let s := s.setReg .vfGuestCtrl c [] (setBit (value &&& 0x7FFFFFFF#32) 30 (on && !g.fault))
      if on && g.fault then s.hubEvent c 0x3006 [chNum c]
      else if on then (if g.rails ∨ s.base.inForce.isNone then s else (s.modGuest c fun g => { g with rails := true, failed := false }).linkUpAgain c [11])
      else s.modGuest c fun g => { g with rails := false, fault := false })

/-- GUEST_RAIL_FAULT (R181): guest power averaged over 100 µs above 27.5 W, or GVDD current above 45 A (`current`). Both rails go off. -/
def execGuestRailFault (c : Ch) (current : Bool) (s : State) : Host.Outcome State Fault Refusal :=
  .next (if (s.ch c).guest.rails = false then s
    else
      let s := s.modGuest c fun g => { g with rails := false, fault := true, phase := 0 }
      s.hubEvent c 0x3004 [chNum c, if current then 2 else 1])

/-- GUEST_PULSES (R184 items 2 and 3): the last GIN flit is acknowledged and SETUP has passed; the hub drives PULSES pulses. -/
def execGuestPulses (c : Ch) (s : State) : Host.Outcome State Fault Refusal :=
  .next (
    let g := (s.ch c).guest
    let x := s.flink c 11
    if g.phase ≠ 1 ∨ g.rails = false ∨ g.failed ∨ x.queue ≠ [] ∨ x.replay ≠ [] then s
    else s.modGuest c fun g => { g with phase := 2, pulses := g.pulses + s.regField .vfGuestCtrl c [] 0 4 + 1 })

/-- The groups that a guest flit carries: twelve from FIRST_GROUP, within the register of 512. -/
def guestGroups (payload : BitVec 224) : List (Nat × BitVec 16) :=
  let w := payload.toNat
  ((List.range 12).map (fun m => (field w 4 9 + m, BitVec.ofNat 16 (field w (32 + 16 * m) 16)))).filter (fun e => decide (e.1 < 512))

/-- Take the output groups of a guest flit. -/
def GuestSt.take (g : GuestSt) (payload : BitVec 224) : GuestSt :=
  let l := guestGroups payload
  { g with gout := l.foldl (fun t e => KV.put 0 e.1 e.2 t) g.gout, haveOut := l.foldl (fun h e => insKey e.1 h) g.haveOut }

/-- Whether the guest of an owner has given every group it uses (R183). -/
def State.guestDone (s : State) (c : Ch) : Bool :=
  match (s.ch c).guest.owner.bind s.design with
  | some d => (List.range d.header.guestGroups).all (fun g => (s.ch c).guest.haveOut.contains g)
  | none => false

/-- The hub sends the groups of a guest flit to the Cabinets that consume them (R183, R184 item 6). -/
def State.sendGuestOut (s : State) (c : Ch) (payload : BitVec 224) : State :=
  match (s.ch c).guest.owner.bind s.design with
  | none => s
  | some d => (guestGroups payload).foldl (fun s g => s.sendOuter d c 2 g.1 g.2) s

/-- GOUT_RECEIVE (R184 items 5 and 6): the hub takes the guest flit `payload`, the oldest received, an output flit of the design cycle under way;
its groups go to the Cabinets. One of another cycle is discarded. A reset output waits for GUEST_RESET_OUTPUTS. -/
def execGoutReceive (c : Ch) (payload : BitVec 224) (s : State) : Host.Outcome State Fault Refusal :=
  .next (
    let g := (s.ch c).guest
    match g.rx with
    | [] => s
    | oldest :: rest =>
      let w := payload.toNat
      if oldest ≠ payload ∨ bitAt w 13 then s
      else
        let s := s.modGuest c fun g => { g with rx := rest }
        if g.phase ≠ 2 ∨ field w 16 16 ≠ g.cycle % 65536 ∨ g.failed then s
        else
          let s := (s.modGuest c fun g => g.take payload).sendGuestOut c payload
          if s.guestDone c then s.modGuest c fun g => { g with phase := 0, late := false } else s)

/-- GUEST_RESET_OUTPUTS (R185): the hub takes the guest flit `payload`, the oldest received, with RST = 1: after GUEST_RST_N has risen and before the first
exchange its groups serve every design cycle. At any other time it is discarded. -/
def execGuestResetOutputs (c : Ch) (payload : BitVec 224) (s : State) : Host.Outcome State Fault Refusal :=
  .next (
    let g := (s.ch c).guest
    match g.rx with
    | [] => s
    | oldest :: rest =>
      if oldest ≠ payload ∨ bitAt payload.toNat 13 = false then s
      else
        let s := s.modGuest c fun g => { g with rx := rest }
        if g.rstLow ∨ g.owner.isNone ∨ g.exchanged ∨ g.failed then s
        else (s.modGuest c fun g => g.take payload).sendGuestOut c payload)

/-- GUEST_LATE (R186): GOUT has not arrived within VF_GUEST_TIMEOUT of the last pulse; the design stays held. -/
def execGuestLate (c : Ch) (s : State) : Host.Outcome State Fault Refusal :=
  .next (
    let g := (s.ch c).guest
    if g.phase ≠ 2 ∨ g.late then s else (s.modGuest c fun g => { g with late := true }).hubEvent c 0x3005 [chNum c])

end Sys2Proof.Machine
end

