-- ==== Sys2Proof/Machine/Lanes.lean ====
section
/-! DEFINITION. The lanes of the Velvin Link ports (08_velvin_link_lanes.md; R190-R205, R209): port control, lane and port states,
alignment markers, spare lanes, rotation, and the eye scan. -/

namespace Sys2Proof.Machine

open Sys2Proof

/-- The place that a physical lane holds in a map. -/
def placeOf (m : KV Nat) (lane : Nat) : Nat := (List.find? (fun x => laneOf m x == lane) (List.range 68)).getD lane

/-- Whether SPARING is set on a port. -/
def State.sparing (s : State) (c : Ch) (p : Nat) : Bool := bitAt ((s.reg .vlPortCtrl c [p]).toNat) 2

/-- The healthy spares assigned to a port, on its receive side, that no request names; those under test last, and only while the test has shown no
mismatch (R204). -/
def State.sparesOf (s : State) (c : Ch) (p : Nat) : List Nat :=
  if s.sparing c p = false then []
  else
    let l := fun k => s.lane c (laneOf (s.ch c).rxMap (64 + k))
    let asked := (s.port c p).rxReq.map (·.2.1)
    let ok := (List.range 4).filter (fun k => s.assigned c k p && !(l k).failed && (l k).mismatches == 0 && asked != some k)
    ok.filter (fun k => !(l k).testing) ++ ok.filter (fun k => (l k).testing)

/-- A port reaches UP: a port that was UP before sends RESYNC (R210), and HELLO goes out where none has matched yet. -/
def State.portUp (s : State) (c : Ch) (p : Nat) : State :=
  let s := s.withRoutes fun s =>
      s.modPort c p fun x => { x with state := .up, badRx := 0 }
  let x := s.port c p
  let s :=
    if x.needResync then
      (s.modPort c p fun x => { x with rxNext := (x.ackSeq + 1) % 4096, groupRx := [], early := 0, needResync := false }).sendCtl c p 3
    else s
  let s := (s.flushPort c p).chainOn c p
  if x.helloOk then s else s.sendHello c p

/-- A port whose needed lanes are all LOCKED goes on to DESKEW (R194). -/
def State.portLocks (s : State) (c : Ch) (p : Nat) : State :=
  let x := s.port c p
  if (x.state == .acquire && x.lanes.all fun i => (s.lane c (s.rxLane c p i)).state == .locked) =
        true then
    s.modPort c p fun x => { x with state := .deskew, badAm := [] }
  else s

/-- A loss under R195: the port returns to ACQUIRE, sending FAULT with REASON 0x03 where it was UP. `cause` as PORT_LEFT_UP. -/
def State.portLoss (s : State) (c : Ch) (p : Nat) (cause : Nat) : State :=
  let x := s.port c p
  if (x.state == .up || x.state == .waitRemote || x.state == .deskew) then
    let s := s.withRoutes fun s =>
        s.modPort c p fun x => { x with state := .acquire, rxOk := false, badAm := [], badRx := 0, needResync := x.needResync || x.state == .up }
    let s :=
      if x.state == .up then (s.hubEvent c 0x4003 [chNum c, p, cause]).sendFault c p 3
      else s
    s.portLocks c p
  else s

/-- Mark a lane failed in the spare map (R203). -/
def State.laneFailed (s : State) (c : Ch) (lane : Nat) (cause : Nat) : State :=
  (s.modLane c lane fun x => { x with testing := false, failed := true }).hubEvent c
    0x4001 [chNum c, lane, cause]

/-- Fall back to a width of 4 on a half without a failed lane, or to FAILED with none left (R205): what waits for a repair has failed as well.
`hint` is the half to take where both are whole. -/
def State.fallBack (s : State) (c : Ch) (p : Nat) (hint : Nat) : State :=
  let x := s.port c p
  let lost := (x.rxReq.toList.filter (fun q => q.2.2 && !x.rxSwitched)).map (·.1) ++ x.repairs
  let s := ((lost.map (s.rxLane c p)).filter (fun l => (s.lane c l).state != .locked)).foldl (fun s l => s.laneFailed c l 2) s
  let bad := fun h => (List.range 4).any fun i => (s.lane c (s.rxLane c p (4 * h + i))).failed
  let half := if bad hint then if bad (1 - hint) then none else some (1 - hint) else some hint
  match half with
  | some h =>
    let s := s.modPort c p fun x => { x with width4 := some h, rxReq := none, rxSwitched := false, repairs := [], health := [], badAm := [] }
    (s.hubEvent c 0x4004 [chNum c, p, h]).portLocks c p
  | none =>
    ((s.withRoutes fun s =>
              s.modPort c p fun x => { x with state := .failed, rxOk := false, repairs := [], health := [] }).loseTraffic c p).hubEvent c 0x4005 [chNum c, p]

/-- Ask for a spare copy of a logical lane for its repair (R202, R204): a rotation's test on the spare stops. -/
def State.askSpare (s : State) (c : Ch) (p : Nat) (i : Nat) (k : Nat) : State :=
  let l := laneOf (s.ch c).rxMap (64 + k)
  let s := s.modLane c l fun x => { x with testing := false }
  s.modPort c p fun x =>
    { x with rxReq := some (i, k, true), rxSwitched := false,
             rotating := if x.rotating.map (·.1) = some l then none else x.rotating }

/-- A logical lane needs a repair, with no request under way (R202, R205): it asks for a spare, or with no healthy one the port narrows. -/
def State.repairLane (s : State) (c : Ch) (p : Nat) (i : Nat) : State :=
  match s.sparesOf c p with
  | k :: _ => s.askSpare c p i k
  | [] => (s.laneFailed c (s.rxLane c p i) 2).fallBack c p (if i < 4 then 1 else 0)

/-- A lane that a port needs fails (R202, R204, R205): a repair prevails over a rotation not yet switched, waits for any other swap of its
direction, and with no healthy spare the port narrows at once. -/
def State.laneLost (s : State) (c : Ch) (p : Nat) (i : Nat) : State :=
  let x := s.port c p
  match x.rxReq with
  | none => s.repairLane c p i
  | some (_, _, repair) =>
    if !repair && !x.rxSwitched then (s.modPort c p fun x => { x with rxReq := none }).repairLane c p i
    else if (s.sparesOf c p).isEmpty then s.repairLane c p i
    else s.modPort c p fun x => { x with repairs := if x.repairs.contains i then x.repairs else x.repairs ++ [i] }

/-- The next lane of a health check, after the one under check (R209); after the last, replay resumes, and a check that switched a lane counts as
none run. -/
def State.nextHealth (s : State) (c : Ch) (p : Nat) : State :=
  let x := s.port c p
  match x.health.drop 1, s.sparesOf c p with
  | i :: rest, k :: _ => (s.modPort c p fun x => { x with health := i :: rest }).askSpare c p i k
  | _, _ => s.modPort c p fun x => { x with checked := x.checked && !x.healthSw, health := [], healthSw := false }

/-- A swap of the receive direction has ended (R202): the health check goes on, or the next repair that waits begins. -/
def State.swapDone (s : State) (c : Ch) (p : Nat) : State :=
  let s := if (s.port c p).health.isEmpty then s else s.nextHealth c p
  let x := s.port c p
  match x.rxReq, x.repairs with
  | none, i :: rest => (s.modPort c p fun x => { x with repairs := rest }).repairLane c p i
  | _, _ => s

/-- Put every receive lane of a port, its spares included, back to ACQUIRE (R187, R193). -/
def State.dropLanes (s : State) (c : Ch) (p : Nat) : State :=
  ((List.range 8).map (s.rxLane c p) ++ ((List.range 4).filter (fun k => s.assigned c k p)).map (fun k => laneOf (s.ch c).rxMap (64 + k))).foldl
    (fun s l => s.modLane c l fun x => { x with state := .acquire, noSignal := false, rxPrbs := none }) s

/-- A rotation test that is cut off ends without a result (R196, R204). -/
def State.endTest (s : State) (c : Ch) (p : Nat) : State :=
  match (s.port c p).rotating with
  | some (l, _) => (s.modLane c l fun x => { x with testing := false }).modPort c p fun x => { x with rotating := none }
  | none => s

/-- A write of VL_PORT_CTRL_p (R194, R196): the bits, then EN and RATE; before a base image is in force EN acts on port 0 of HUB-A only
(R196, R292). A disabled port keeps its lane maps; its traffic layer, keys included, starts afresh (log entry 15). -/
def State.portCtrl (s : State) (c : Ch) (p : Nat) (value : Word32) : State :=
  let old := s.reg .vlPortCtrl c [p]
  let v := value &&& 15#32
  let s := s.setReg .vlPortCtrl c [p] v
  if s.portAllowed c p = false then s
  else if old.getLsbD 0 && !v.getLsbD 0 then
    let s := ((s.sendFault c p 1).loseTraffic c p).endTest c p
    (s.withRoutes fun s => s.modPort c p fun x => { nextRotate := x.nextRotate, sent := x.sent }).dropLanes c p
  else if !old.getLsbD 0 && v.getLsbD 0 then
    (s.modPort c p fun x => { state := .acquire, nextRotate := x.nextRotate, sent := x.sent }).portLocks c p
  else if v.getLsbD 0 && old.getLsbD 1 != v.getLsbD 1 then
    let s := ((s.sendFault c p 2).endTest c p).withRoutes fun s => s.modPort c p fun x =>
      { x with state := .acquire, rxOk := false, badAm := [], badRx := 0, rxReq := none, rxSwitched := false, txReq := none,
               health := [], repairs := [], needResync := x.needResync || x.state == .up }
    s.dropLanes c p
  else s

/-- Whether a command names a port of a hub that answers. -/
def State.portLive (s : State) (c : Ch) (p : Nat) : Bool := s.channels.contains c && (s.pw c).state.hubOn && decide (p < 8)

/-- PORT_ENABLE (R194): VL_PORT_CTRL written with EN = 1. -/
def execPortEnable (c : Ch) (p : Nat) (value : Word32) (s : State) : Host.Outcome State Fault Refusal :=
  .next (if s.portAnswers = false then s else if (s.portLive c p && value.getLsbD 0) then s.portCtrl c p value else s)

/-- PORT_DISABLE (R196): VL_PORT_CTRL written with EN = 0. -/
def execPortDisable (c : Ch) (p : Nat) (value : Word32) (s : State) : Host.Outcome State Fault Refusal :=
  .next (if s.portAnswers = false then s else if (s.portLive c p && !value.getLsbD 0) then s.portCtrl c p value else s)

/-- PORT_RATE_CHANGE (R196): VL_PORT_CTRL written with another RATE. -/
def execPortRateChange (c : Ch) (p : Nat) (value : Word32) (s : State) : Host.Outcome State Fault Refusal :=
  .next (if s.portAnswers = false then s else if (s.portLive c p && value.getLsbD 1 != BitVec.getLsbD (s.reg .vlPortCtrl c [p]) 1) then
      s.portCtrl c p value
    else s)

/-- The port and logical lane that a physical lane serves on the receive side; none for a spare. -/
def State.servedBy (s : State) (c : Ch) (lane : Nat) : Option (Nat × Nat) :=
  let x := placeOf (s.ch c).rxMap lane
  if x < 64 then some (x / 8, x % 8) else none

/-- Whether the port of a lane runs; a spare's port is the one it is assigned to. -/
def State.laneEnabled (s : State) (c : Ch) (lane : Nat) : Bool :=
  match s.servedBy c lane with
  | some (p, _) => s.portEnabled c p
  | none =>
    (List.range 8).any fun p =>
      s.assigned c (placeOf (s.ch c).rxMap lane - 64) p && s.portEnabled c p

/-- LANE_CDR_LOCK (R193). -/
def execLaneCdrLock (c : Ch) (lane : Nat) (s : State) : Host.Outcome State Fault Refusal :=
  .next (if lane < 68 ∧ (s.lane c lane).state = .acquire ∧ s.laneEnabled c lane then
      s.modLane c lane fun x => { x with state := .hunt, noSignal := false }
    else s)

/-- LANE_BLOCK_LOCK (R188, R193, R194): after the invalid headers that moved the bit position. -/
def execLaneBlockLock (c : Ch) (lane : LaneHeaders) (s : State) : Host.Outcome State Fault Refusal :=
  .next (
    let ⟨lane, invalid⟩ := lane
    if lane < 68 ∧ (s.lane c lane).state = .hunt then
      let s := (s.countBy .vlLaneErr c [lane] invalid).modLane c lane fun x => { x with state := .locked, noSignal := false }
      match s.servedBy c lane with
      | some (p, _) => s.portLocks c p
      | none => s
    else s)

/-- LANE_LOCK_LOST (R188, R193, R195, R205): 16 invalid headers within 64 blocks, or loss of the clock and data recovery (`cdr`). A lane that its port needed has failed, unless the far end said that it stops (FAULT
REASON 1 or 2; log entry 37). -/
def execLaneLockLost (c : Ch) (lane : LaneHeaders) (cdr : Bool) (s : State) : Host.Outcome State Fault Refusal :=
  .next (
    let ⟨lane, invalid⟩ := lane
    let st := (s.lane c lane).state
    if 68 ≤ lane ∨ st = .acquire ∨ st = .hunt ∧ cdr = false then s
    else
      let s := s.modLane c lane fun x => { x with state := if cdr then .acquire else .hunt, rxPrbs := none }
      let s := s.countBy .vlLaneErr c [lane] invalid
      match s.servedBy c lane with
      | none => s
      | some (p, i) =>
        let x := s.port c p
        if st ≠ .locked ∨ x.lanes.contains i = false then s
        else
          let s := s.portLoss c p 1
          if [.deskew, .waitRemote, .up].contains x.state ∨ x.needResync then
            (if x.farFault = 1 ∨ x.farFault = 2 then s else s.laneLost c p i)
          else s)

/-- LANE_NO_SIGNAL (R193): no lock within 100 µs; the lane keeps trying. -/
def execLaneNoSignal (c : Ch) (lane : Nat) (s : State) : Host.Outcome State Fault Refusal :=
  .next (if lane < 68 ∧ (s.lane c lane).state ≠ .locked ∧ s.laneEnabled c lane then
      s.modLane c lane fun x => { x with noSignal := true }
    else s)

/-- Whether an AM has the fixed pattern and no reserved bit (R191). Content byte `k` stands at bits [8k - 1 : 8k - 8]. -/
def amValid (a : Nat) : Bool := field a 48 8 == 90 && field a 6 2 == 0 && field a 11 5 == 0 && field a 22 2 == 0

/-- Logical lane of an AM. -/
def amLane (a : Nat) : Nat := field a 0 3

/-- PORT of an AM. -/
def amPort (a : Nat) : Nat := field a 8 3

/-- AMSEQ of an AM. -/
def amSeqOf (a : Nat) : Nat := field a 24 16

/-- The AM that arrived on a physical lane. -/
def amOn (ams : List (Nat × BitVec 56)) (lane : Nat) : Option Nat := Option.map (fun x => x.2.toNat) (List.find? (fun e => e.1 == lane) ams)

/-- PORT that the AMs of a port must show before it is deskewed (R194): the far end's of the table, else what the first lane shows. -/
def State.wantPort (s : State) (c : Ch) (p : Nat) (shown : Nat) : Nat :=
  match s.farEnd c p with
  | some e => field e.2 0 3
  | none => shown

/-- Align a port on one AM column (R191, R194): its lanes are ordered by LANE, and RX_OK is set in its own AMs. -/
def State.deskew (s : State) (c : Ch) (p : Nat) (ams : List (Nat × BitVec 56)) : State :=
  let x := s.port c p
  let phys := List.map (s.rxLane c p) x.lanes
  let got := List.filterMap (amOn ams) phys
  match got with
  | [] => s
  | a :: _ =>
    let want := s.wantPort c p (amPort a)
    let ls := List.map amLane got
    let ok := got.all fun b => amValid b && !bitAt b 3 && amSeqOf b == amSeqOf a && amPort b == want && x.lanes.contains (amLane b)
    if got.length = phys.length ∧ ok ∧ ls.eraseDups.length = ls.length then
      let s := s.modCh c fun h => { h with rxMap := List.foldl (fun m e => putLane m (8 * p + e.2) e.1) h.rxMap (phys.zip ls) }
      s.modPort c p fun x => { x with state := .waitRemote, rxOk := true, badAm := [], badRx := 0, lastAm := BitVec.ofNat 16 (amSeqOf a), expPort := want }
    else s

/-- Check an AM column against what a deskewed port expects (R195): per lane the count of AMs in a row that are missing or wrong. -/
def State.checkAms (s : State) (c : Ch) (p : Nat) (ams : List (Nat × BitVec 56)) : State :=
  let want := (s.port c p).lastAm + 1
  let bad := fun (x : VPort) => x.lanes.foldl (fun t i =>
    match amOn ams (s.rxLane c p i) with
    | some a => if amValid a && amLane a == i && amPort a == x.expPort && amSeqOf a == want.toNat then KV.put 0 i 0 t
                else KV.upd 0 i (· + 1) t
    | none => KV.upd 0 i (· + 1) t) x.badAm
  let s := s.modPort c p fun x => { x with badAm := bad x, lastAm := want }
  if (List.any (s.port c p).badAm fun e => decide (2 ≤ e.2)) then s.portLoss c p 2 else s

/-- The far receiver's spare request in an AM (R202): this transmitter copies the lane, and on SWITCHED gives the old lane up. -/
def State.spareRequest (s : State) (c : Ch) (p : Nat) (a : Nat) : State :=
  let req := field a 40 4
  let k := field a 44 2
  if req = 15 then s.modPort c p fun x => { x with txReq := none }
  else if req < 8 ∧ s.sparing c p ∧ s.assigned c k p then
    if bitAt a 46 then
      if (s.port c p).txReq.map (fun q => (q.1, q.2.1)) = some (req, k) then
        (s.modCh c fun h => { h with txMap := swapLanes h.txMap (8 * p + req) (64 + k) }).modPort c p fun x => { x with txReq := none }
      else s
    else s.modPort c p fun x => { x with txReq := some (req, k, bitAt a 47) }
  else s

/-- What an AM says of the far end (R191, R202, R205): who it is, RX_OK, its spare request, and its width, on the half that its AMs show. -/
def State.heedAm (s : State) (c : Ch) (p : Nat) (a : Nat) (ls : List Nat) : State :=
  let s := s.modPort c p fun x => { x with remoteRxOk := bitAt a 4, badRx := if bitAt a 4 then 0 else x.badRx + 1, farFault := 0 }
  let s := s.spareRequest c p a
  if bitAt a 5 && (s.port c p).width4.isNone then
    let h := if ls.all (fun l => decide (4 ≤ l)) then 1 else 0
    (s.modPort c p fun x => { x with width4 := some h, badAm := [], repairs := [] }).hubEvent c 0x4004 [chNum c, p, h]
  else s

/-- AM_RECEIVE (R191, R194, R195, R202, R205): one AM column, by physical lane. -/
def execAmReceive (c : Ch) (p : Nat) (ams : List (Nat × BitVec 56)) (s : State) : Host.Outcome State Fault Refusal :=
  .next (
    let x := s.port c p
    if s.portLive c p = false ∨ [.deskew, .waitRemote, .up].contains x.state = false then s
    else
      let valid := (x.lanes.filterMap (fun i => amOn ams (s.rxLane c p i))).filter (fun a => amValid a && !bitAt a 3)
      let s := match valid with
        | a :: _ => s.modPort c p fun x => { x with remoteModule := field a 16 6, remotePort := amPort a }
        | [] => s
      let want := if x.state = .deskew then s.wantPort c p (s.port c p).remotePort else x.expPort
      let good := valid.filter (fun a => amPort a == want)
      let s := match good with
        | a :: _ => s.heedAm c p a (good.map amLane)
        | [] => s
      if x.state = .deskew then s.deskew c p ams
      else
        let s := s.checkAms c p ams
        let y := s.port c p
        if y.state ≠ x.state then s
        else if x.state = .up ∧ 2 ≤ y.badRx then s.portLoss c p 3
        else if x.state = .waitRemote ∧ y.remoteRxOk ∧ good ≠ [] then s.portUp c p
        else s)

/-- The content of an AM (R191): of a logical lane, or with `lane` none of a spare that carries none. -/
def State.amWord (s : State) (p : Nat) (x : VPort) (lane : Option Nat) : Nat :=
  let req := match x.rxReq with
    | some (i, k, repair) => i + 16 * k + 64 * bit01 x.rxSwitched + 128 * bit01 repair
    | none => 15
  (lane.getD 7 + 8 * bit01 lane.isNone + 16 * bit01 x.rxOk + 32 * bit01 x.width4.isSome) + 2 ^ 8 * p + 2 ^ 16 * s.identity +
    2 ^ 24 * (x.amSeq + 1).toNat + 2 ^ 40 * req + 2 ^ 48 * 0x5A

/-- Whether the transmitter of a port runs: it is enabled and has not FAILED (R194). -/
def State.transmits (s : State) (c : Ch) (p : Nat) : Bool :=
  s.portLive c p && (s.port c p).state != .disabled && (s.port c p).state != .failed

/-- Send an AM column (R191, R202): on every active lane and assigned spare. One that carried SWITCHED ends the receiver's request (log entry
38). -/
def State.sendAm (s : State) (c : Ch) (p : Nat) : State :=
  let x := s.port c p
  let l := s.column c p (fun i => .am (s.amWord p x (some i))) (fun _ => .am (s.amWord p x none))
  let ams := l.filterMap fun e => match e.2 with
    | .am a => some (e.1, BitVec.ofNat 56 a)
    | _ => none
  let s := (s.modPort c p fun x => { x with
    amSeq := x.amSeq + 1, rxReq := if x.rxSwitched then none else x.rxReq, rxSwitched := false, sent := x.sent ++ [.am ams] }).sendBlocks c l
  if x.rxSwitched then s.swapDone c p else s

/-- AM_SEND (R191): the AM column due once in 16,384 columns. -/
def execAmSend (c : Ch) (p : Nat) (s : State) : Host.Outcome State Fault Refusal :=
  .next (if s.transmits c p then s.sendAm c p else s)

/-- FILL_SEND (R192, R204): a FILL column; one that falls due in the column of an AM goes in the next. -/
def execFillSend (c : Ch) (column : FillColumn) (s : State) : Host.Outcome State Fault Refusal :=
  .next (
    let ⟨p, amDue⟩ := column
    if s.transmits c p then
      let s := if amDue then s.sendAm c p else s
      (s.modPort c p fun x => { x with sent := x.sent ++ [.fill] }).wholeColumn c p 0x4B 0
    else s)

/-- A write of VL_SPARE_ASSIGN (R201): the field of a spare that carries a logical lane does not change, and each such field writes an
event. -/
def execSpareAssignWrite (c : Ch) (value : Word32) (s : State) : Host.Outcome State Fault Refusal :=
  .next (if s.portAnswers = false then s else if s.channels.contains c = false ∨ (s.pw c).state.hubOn = false then s
    else
      let carries := fun k =>
        decide (placeOf (s.ch c).rxMap (64 + k) < 64) || decide (placeOf (s.ch c).txMap (64 + k) < 64)
      let mask := (List.map (fun k => if carries k then 0 else 15 * 2 ^ (4 * k)) (List.range 4)).sum
      let old := s.reg .vlSpareAssign c []
      let s := s.setReg .vlSpareAssign c [] (old &&& ~~~BitVec.ofNat 32 mask ||| value &&& BitVec.ofNat 32 mask)
      List.foldl (fun s k => s.hubEvent c 0x4002 [chNum c, k]) s (List.filter carries (List.range 4)))

/-- Take a logical lane from its spare (R202 item 3). -/
def State.takeLane (s : State) (c : Ch) (p : Nat) (i : Nat) (k : Nat) : State :=
  (s.modCh c fun h => { h with rxMap := swapLanes h.rxMap (8 * p + i) (64 + k) }).modPort c p fun x => { x with rxSwitched := true }

/-- SPARE_SWITCH (R202, R209): the comparison of a lane with its spare copy has ended. `agree`: the copies agree, or, for a lane that has
failed, the spare has block lock. A rotation and the repair of a failed lane switch when it agrees, a health check when it does not. -/
def execSpareSwitch (c : Ch) (p : Nat) (agree : Bool) (s : State) : Host.Outcome State Fault Refusal :=
  .next (
    let x := s.port c p
    match x.rxReq with
    | none => s
    | some (i, k, repair) =>
      if x.rxSwitched then s
      else
        let old := s.rxLane c p i
        if x.health.head? = some i then
          if agree then (s.modPort c p fun x => { x with rxReq := none }).swapDone c p
          else ((s.takeLane c p i k).laneFailed c old 2).modPort c p fun x => { x with healthSw := true }
        else if agree = false then s
        else
          let s := s.takeLane c p i k
          if repair then (s.laneFailed c old 2).portLocks c p
          else
            (s.modLane c old fun l => { l with testing := true, mismatches := 0, rxPrbs := none }).modPort c p fun x =>
              { x with rotating := some (old, k) })

/-- LANE_ROTATION (R203): the next logical lane of a port with SPARING, ROTATE and a healthy assigned spare asks for it. -/
def execLaneRotation (c : Ch) (p : Nat) (s : State) : Host.Outcome State Fault Refusal :=
  .next (
    let x := s.port c p
    if s.portLive c p = false ∨
          x.state ≠ .up ∨
            bitAt ((s.reg .vlPortCtrl c [p]).toNat) 3 = false ∨
              x.rxReq.isSome ∨ x.rotating.isSome then
      s
    else
      match s.sparesOf c p,
        List.find? (fun i => x.lanes.contains i) (List.map (fun n => (x.nextRotate + n) % 8) (List.range 8)) with
      | k :: _, some i =>
        s.modPort c p fun x => { x with rxReq := some (i, k, false), rxSwitched := false, nextRotate := (i + 1) % 8 }
      | _, _ => s)

/-- ROTATION_TEST_DONE (R203): the scan gave `h` in 1/64 UI and `mv` in mV; `mismatches` are those of TEST blocks that no other command
has shown. A freed lane that has shown no mismatch and passes the margin test
stays a spare. -/
def execRotationTestDone (c : Ch) (p mismatches h mv : Nat) (s : State) : Host.Outcome State Fault Refusal :=
  .next (match (s.port c p).rotating with
    | none => s
    | some (lane, _) =>
      let n := (s.lane c lane).mismatches + mismatches
      let s := (s.modPort c p fun x => { x with rotating := none }).modLane c lane fun l => { l with testing := false, mismatches := 0 }
      if n = 0 ∧ 16 ≤ h ∧ 30 ≤ mv then s else s.laneFailed c lane 1)

/-- A write of VL_SCAN_CTRL (R200): START begins a scan of a lane 0 to 67 when none runs. -/
def execEyeScanStart (c : Ch) (value : Word32) (s : State) : Host.Outcome State Fault Refusal :=
  .next (if s.portAnswers = false then s else if s.channels.contains c = false ∨ (s.pw c).state.hubOn = false then s
    else
      let s := s.setReg .vlScanCtrl c [] (value &&& 0xFFFF7F#32)
      let lane := field value.toNat 0 7
      if (value.getLsbD 7 && decide (lane < 68) && !(s.ch c).scan.busy) then
        s.modCh c fun x => { x with scan := { x.scan with busy := true, lane := lane } }
      else s)

/-- EYE_SCAN_DONE (R200): the openings, in 1/64 UI and 5 mV. -/
def execEyeScanDone (c : Ch) (h : BitVec 7) (v : Byte) (s : State) : Host.Outcome State Fault Refusal :=
  .next (if (s.ch c).scan.busy then
      s.modCh c fun x => { x with scan := { x.scan with busy := false, h := h, v := v } }
    else s)

end Sys2Proof.Machine
end

