-- ==== Sys2Proof/Machine/LinkTraffic.lean ====
section
/-! DEFINITION. Velvin Link traffic (09_velvin_link_traffic.md): flits, acknowledgement and replay (R206-R210), sealed groups (R211, R212),
forwarding (R214), VALUE and MEM messages (R213, R217, R221, R222), HELLO (R219), SLOT_HOME (R217), and the keys of a link (R285,
R286). A message that has arrived whole waits in the receive buffer of its port, and the command of its type takes it up. -/

namespace Sys2Proof.Machine

open Sys2Proof

/-- The secret of the next epoch (R286). -/
def nextSecret (secret : BitVec 64) : BitVec 64 := BitVec.ofNat 64 (leNat ((Config.hkdf (leBytes 8 secret.toNat) [] (strBytes "lumwell epoch")).take 8))

/-! ### Failures of a sealed group (R212) -/

/-- The checks of link records of a port that are outstanding. -/
def State.linkChecks (s : State) (p : Nat) (c : Ch) : List MacCheck := (s.ch c).hbm.macs.filter (fun m => m.link == some p)

/-- Whether a step of the frame under way has consumed the record of a slot (R216): a port program that takes the slot in at a step that has
begun. -/
def Design.consumed (d : Design) (slot : Nat) : Bool :=
  d.begun && d.ports.any (fun e => decide (e.1 % 2048 < (d.cab (e.1 / 2048)).next) &&
    (destFields e.2.toNat).any (fun x => field x.2 1 2 == 1 && field x.2 3 9 == slot))

/-- Whether the frame that a check belongs to has consumed its record. -/
def State.usedBy (s : State) (m : MacCheck) : Bool :=
  match s.design m.design with
  | some d => d.frame == m.frame && d.consumed m.addr
  | none => false

/-- Drop records of an unverified group, with their checks. -/
def State.dropRecords (s : State) (c : Ch) (ms : List MacCheck) : State :=
  let s := ms.foldl (fun s m => s.modDesign m.design fun d =>
    { d with linkIn := d.linkIn.filter (fun r => !(r.slot == m.addr && r.frame + 1 == BitVec.ofNat 48 m.frame)) }) s
  s.modHbm c fun h => { h with macs := h.macs.filter (fun m => !ms.contains m) }

/-- An attack on a port (R212): it is disabled, its keys are destroyed, and every design whose frame failed twice stops with
INTEGRITY_ALARM. -/
def State.portAttacked (s : State) (c : Ch) (p : Nat) (ds : List Nat) : State :=
  let s := (s.portCtrl c p ((s.reg .vlPortCtrl c [p]) &&& 0xFFFFFFFE#32)).hubEvent c 0x4101 [chNum c, p, 2]
  s.stopWhere (fun d => ds.contains d.tag && d.lastErr.map (·.1) == some .mac) .integrityAlarm

/-- NAK of a port's receiver (R208): no part of an unverified group is kept across it but what a frame has consumed, which still waits for the
verdict on its group (R212). -/
def State.linkNak (s : State) (c : Ch) (p : Nat) : State :=
  let x := s.port c p
  if x.nak then s
  else
    let s := s.dropRecords c ((s.linkChecks p c).filter (fun m => !s.usedBy m))
    ((s.count .vlReplays c [p]).modPort c p fun x =>
      { x with nak := true, rxNext := (x.ackSeq + 1) % 4096, groupRx := [], early := 0, nakHigh := x.rxHigh }).sendCtl c p 2

/-- The tag of a group fails (R212): every frame that has consumed a record of it fails, and the resent records replace those dropped. -/
def State.sealFailed (s : State) (c : Ch) (p : Nat) : State :=
  let ms := s.linkChecks p c
  let used := ms.filter s.usedBy
  let s := (s.count .vlSealFails c [p]).alarm c 1 p 0xFF 0
  let s := used.foldl (fun s m => s.frameErr m.design (.mac, m.cab, m.addr)) s
  let s := (s.dropRecords c ms).modPort c p fun x => { x with sealFails := x.sealFails + 1 }
  if 2 ≤ (s.port c p).sealFails then s.portAttacked c p (used.map (·.design)) else s.linkNak c p

/-- A group of a port has verified: its records may be committed (R83, R212). -/
def State.sealPassed (s : State) (c : Ch) (p : Nat) : State :=
  (s.modHbm c fun h => { h with macs := h.macs.filter (fun m => m.link != some p) }).modPort c p fun x => { x with sealFails := 0 }

/-- MAC_VERDICT (R83, R284): the verdict of check `k` of channel `c`, of HBM data or of a group of link records that a frame has used. -/
def execMacVerdict (c : Ch) (k : Nat) (pass : Bool) (s : State) : Host.Outcome State Fault Refusal :=
  .next (match (s.ch c).hbm.macs[k]? with
    | none => s
    | some m =>
      match m.link with
      | some p => if pass then s.sealPassed c p else s.sealFailed c p
      | none =>
        let s := s.modHbm c fun h => { h with macs := h.macs.eraseIdx k }
        if pass then s.modHbm c fun h => { h with fails := h.fails.filter (fun a => a != m.addr / 64 * 64) } else s.macFailed c m)

/-! ### What arrives on the lanes (R188-R192, R201) -/

/-- The physical lanes of a flit slot of a port: slots 0 and 1, one slot at width 4, and slots 2 to 5 for the spares 0 to 3 assigned to it. -/
def State.slotLanes (s : State) (c : Ch) (p slot : Nat) : List Nat :=
  let x := s.port c p
  if slot < 2 then match x.width4 with
    | none => (List.range 4).map (fun i => s.rxLane c p (4 * slot + i))
    | some h => if slot = 0 then (List.range 4).map (fun i => s.rxLane c p (4 * h + i)) else []
  else if slot < 6 ∧ s.assigned c (slot - 2) p then [laneOf (s.ch c).rxMap (62 + slot)] else []

/-- Read blocks on LOCKED lanes; each invalid header or reserved type counts in VL_LANE_ERR (R188, R190). -/
def State.readBlocks (s : State) (c : Ch) : List (Nat × BitVec 66) → State × List (Option LinkBlock)
  | [] => (s, [])
  | (l, b) :: rest =>
    let r := (s.lane c l).read (s.rxInv c l) b
    let s := s.modLane c l fun _ => r.1
    let s := if r.2.isNone then s.count .vlLaneErr c [l] else s
    let x := State.readBlocks s c rest
    (x.1, r.2 :: x.2)

/-- The flit that four data blocks carry (R206). -/
def flitOf : List (Option LinkBlock) → Option (BitVec 256)
  | [some (.data a), some (.data b), some (.data d), some (.data e)] => some (BitVec.ofNat 256 (a + 2 ^ 64 * b + 2 ^ 128 * d + 2 ^ 192 * e))
  | _ => none

/-- A TEST block on an assigned spare that carries no logical lane (R201): a block that does not go on from the one before is counted, and fails the
rotation test that runs (R203). -/
def State.hearTest (s : State) (c : Ch) (lane : Nat) (b : Option LinkBlock) : State :=
  match b with
  | some (.control 0x33 x) =>
    let bad := match (s.lane c lane).rxPrbs with
      | some q => prbsNext q.toNat != x
      | none => false
    let s := s.modLane c lane fun l =>
      { l with rxPrbs := some (BitVec.ofNat 31 (x >>> 25)), mismatches := if bad && l.testing then l.mismatches + 1 else l.mismatches }
    if bad then s.count .vlLaneErr c [lane] else s
  | some _ => s.modLane c lane fun l => { l with rxPrbs := none }
  | none => s

/-- A FILL column (R192): against the drift of the two references since the last one, a free value of at most one column either way (log entry 4), the elastic
buffer deletes it above its midpoint and adds one below. -/
def State.hearFill (s : State) (c : Ch) (p : Nat) : State :=
  let d : Int := (s.free.toNat % 3 : Nat) - 1
  (s.modPort c p fun x =>
    let e := x.elastic + d
    { x with elastic := if 0 < e then e - 1 else if e < 0 then e + 1 else e }).freeNext

/-- Blocks of a flit slot that carry no flit: a FAULT column says why the far end sends none; a deskewed port rates FILL columns (R190, R192). -/
def State.hearControl (s : State) (c : Ch) (p : Nat) (bs : List (Option LinkBlock)) : State :=
  match bs with
  | some (.control 0xD2 r) :: rest => if rest.all (· == some (.control 0xD2 r)) then s.modPort c p fun x => { x with farFault := r % 256 } else s
  | some (.control 0x4B _) :: _ => if [.waitRemote, .up].contains (s.port c p).state then s.hearFill c p else s
  | _ => s

/-! ### Flits (R206-R211) -/

/-- Count an accepted flit, and acknowledge every 32nd (R207). -/
def State.countAck (s : State) (c : Ch) (p : Nat) : State :=
  let s := s.modPort c p fun x => { x with sinceAck := x.sinceAck + 1 }
  if 32 ≤ (s.port c p).sinceAck then s.sendCtl c p 1 else s

/-- Take a port out of traffic (R209). -/
def State.outOfTraffic (s : State) (c : Ch) (p : Nat) : State :=
  let s := s.withRoutes fun s => s.modPort c p fun x => { x with out := true, traffic := false, fails := 0 }
  (s.loseTraffic c p).hubEvent c 0x4101 [chNum c, p, 1]

/-- Begin a lane health check of the four lanes of a flit slot (R209). -/
def State.healthCheck (s : State) (c : Ch) (p slot : Nat) : State :=
  let half := (s.port c p).width4.getD slot
  let s := s.modPort c p fun x => { x with checked := true, fails := 0, healthSw := false }
  match s.sparesOf c p with
  | [] => s.fallBack c p (1 - half)
  | k :: _ => (s.modPort c p fun x => { x with health := (List.range 4).map (fun i => 4 * half + i) }).askSpare c p (4 * half) k

/-- The expected flit failed on a flit slot (R208, R209). -/
def State.linkFlitBad (s : State) (c : Ch) (p slot : Nat) : State :=
  let x := s.port c p
  let n := if x.failSeq = x.rxNext then x.fails + 1 else 1
  let s := s.modPort c p fun x => { x with fails := n, failSeq := x.rxNext, checked := x.checked && x.failSeq == x.rxNext }
  let s := s.linkNak c p
  if n < 4 then s else if (s.port c p).checked then s.outOfTraffic c p else s.healthCheck c p slot

/-- Whether SEQ `a` lies at or below SEQ `b`, modulo 4,096. -/
def seqUpTo (a b : Nat) : Bool := decide ((b + 4096 - a) % 4096 < 2048)

/-- Open the flits of a group (R211). -/
def openFlits (key : List Byte) (group : Nat) (l : List RxFlit) : List RxFlit :=
  (l.zip (List.range l.length)).map fun e =>
    let w := e.1.flit.toNat
    { e.1 with flit := BitVec.ofNat 256 (w % 2 ^ 16 + 2 ^ 16 * (groupBody key group e.2 (BitVec.ofNat 208 (field w 16 208))).toNat) }

/-- The key of a receive group by its EPOCH (R211, R286). -/
def State.sealKey (s : State) (c : Ch) (p ep : Nat) : Option (List Byte) :=
  let x := s.port c p
  ((x.keys.toList ++ x.nextKeys.toList).find? (fun k => k.2 % 4 == ep)).map (fun k => s.rxKey c p k.1)

/-- GROUP that the next group of an epoch has. -/
def VPort.nextGroup (x : VPort) (ep : Nat) : Nat := if ep = x.rxEpoch then x.groupRxNext else 0

/-- Verify the group that a SEAL flit closes (R211, R212): its key by EPOCH, its GROUP the next of the epoch, FLITS as received, and the
tag. -/
def State.groupOk (s : State) (c : Ch) (p : Nat) (w : Nat) : Bool :=
  let x := s.port c p
  let ep := field w (16 + 198) 2
  let body := field w 16 208
  match s.sealKey c p ep with
  | none => false
  | some key =>
    field body 192 6 + 1 == x.groupRx.length && field body 200 8 == 0 && field body 128 64 == x.nextGroup ep &&
      (groupTag key (x.groupRx.map (·.flit)) (field body 128 64) (field body 128 72)).toNat == field body 0 128

/-- The messages of the open group of a port that would be whole, with what is left of each VC. -/
def State.groupMsgs (s : State) (c : Ch) (p ep : Nat) : (List RxFlit × List RxFlit) × List Heard :=
  let x := s.port c p
  takeBodies x.part0 x.part1 (openFlits ((s.sealKey c p ep).getD []) (x.nextGroup ep) x.groupRx)

/-- Split off the first `n` VALUE messages for this module. -/
def State.splitEarly (s : State) : Nat → List Heard → List Heard × List Heard
  | _, [] => ([], [])
  | n, h :: hs =>
    let mine := s.forMe h && h.type == 1 && decide (0 < n)
    let r := State.splitEarly s (if mine then n - 1 else n) hs
    if mine then (h :: r.1, r.2) else (r.1, h :: r.2)

/-- A SEAL flit closes a group (R211, R212, R286): its messages have verified, and those that were not used before it wait for their commands. -/
def State.takeSeal (s : State) (c : Ch) (p w : Nat) : State :=
  if s.groupOk c p w then
    let ep := field w (16 + 198) 2
    let r := s.groupMsgs c p ep
    let l := s.splitEarly (s.port c p).early r.2
    let s := s.modPort c p fun x =>
      { x.freeMsgs l.1 with
        part0 := r.1.1, part1 := r.1.2, groupRx := [], early := 0, groupRxNext := x.nextGroup ep + 1, rxEpoch := ep,
        nextKeys := if x.keys.map (fun (k : BitVec 64 × Nat) => k.2 % 4) = some ep ∧ ep ≠ x.rxEpoch then none else x.nextKeys }
    (s.arrive c p l.2).sealPassed c p
  else s.sealFailed c p

/-- A DATA flit accepted in order (R208, R211, R213): it joins the open group, or with no keys in force what has arrived of its message. -/
def State.takeData (s : State) (c : Ch) (p : Nat) (f : RxFlit) : State :=
  let x := s.port c p
  if x.keys.isSome then s.modPort c p fun x => { x with groupRx := x.groupRx ++ [f] }
  else
    let r := takeBodies x.part0 x.part1 [f]
    (s.modPort c p fun x => { x with part0 := r.1.1, part1 := r.1.2 }).arrive c p r.2

/-- A DATA or SEAL flit on a port that is UP (R206, R208, R209, R211, R212). -/
def State.hearFlit (s : State) (c : Ch) (p slot : Nat) (flit : BitVec 256) : State :=
  let w := flit.toNat
  let seq := field w 0 12
  if linkCrcOk flit = false ∨ field w 12 2 = 3 ∨ bitAt w 15 then s.linkFlitBad c p slot
  else
    let s := s.modPort c p fun x => { x with rxHigh := some (match x.rxHigh with
      | some h => if seqUpTo seq h then h else seq
      | none => seq) }
    let x := s.port c p
    if seq ≠ x.rxNext then s.linkNak c p
    else
      let old := match x.nakHigh with
        | some h => seqUpTo seq h
        | none => false
      let s := s.modPort c p fun x =>
        { x with rxNext := (x.rxNext + 1) % 4096, nak := false, nakHigh := if old then x.nakHigh else none,
                 fails := if x.failSeq = x.rxNext then 0 else x.fails, checked := x.checked && x.failSeq != x.rxNext }
      let s := if field w 12 2 = 1 then (if x.keys.isSome then s.takeSeal c p w else s)
        else s.takeData c p { flit := flit, resent := old, arrived := s.rawNow c }
      if (s.port c p).nak then s else s.countAck c p

/-- Whether a port takes flits (R194, R209): it is UP, in use, and no health check runs. -/
def VPort.takes (x : VPort) : Bool := x.state == .up && !x.out && x.health.isEmpty

/-- Whether the blocks of a flit slot can arrive: its lanes are LOCKED, and there is one block on each. -/
def State.slotReady (s : State) (c : Ch) (p slot : Nat) (blocks : List (BitVec 66)) : Bool :=
  let ls := s.slotLanes c p slot
  s.portLive c p && (s.port c p).state != .disabled && !ls.isEmpty && ls.length == blocks.length && ls.all (fun l => (s.lane c l).state == .locked)

/-- Whether a flit is a LINKCTL flit with a good CRC (R206, R207). -/
def isCtl (flit : BitVec 256) : Bool := linkCrcOk flit && field flit.toNat 12 2 == 2

/-- LINK_FLIT_RECEIVE (R188, R190, R192, R201, R206, R208, R209, R211, R212): the blocks of one flit slot arrive, and on a port that is UP a DATA
or SEAL flit in them is accepted in sequence or discarded with a NAK. A slot without a flit may be IDLE, FILL or FAULT, or TEST on a spare. -/
def execLinkFlitReceive (c : Ch) (p : Nat) (arrived : SlotBlocks) (s : State) : Host.Outcome State Fault Refusal :=
  .next (
    let ⟨slot, blocks⟩ := arrived
    if s.slotReady c p slot blocks = false then s
    else
      let ls := s.slotLanes c p slot
      let r := s.readBlocks c (ls.zip blocks)
      if 2 ≤ slot then r.1.hearTest c (ls.headD 0) (r.2.headD none)
      else match flitOf r.2 with
        | none => r.1.hearControl c p r.2
        | some f => if (s.port c p).takes = false then r.1 else if isCtl f then s else r.1.hearFlit c p slot f)

/-- What a LINKCTL flit says (R207, R208, R210): it frees the replay buffer up to ACKSEQ and returns credits; on NAK and RESYNC the sender resends
from ACKSEQ + 1. -/
def State.takeCtl (s : State) (c : Ch) (p w : Nat) : State :=
  let a := field w 20 12
  let s := s.modPort c p fun x =>
    { x with txAcked := a, unacked := x.unacked.filter (fun (k : KeptFlit) => !seqUpTo k.seq a), far0 := field w 32 12, far1 := field w 44 12 }
  let s := if 2 ≤ field w 16 4 then s.resend c p else s
  (s.flushPort c p).chainOn c p

/-- LINKCTL_RECEIVE (R207, R208, R210): ACK, NAK or RESYNC in the blocks of one flit slot; one that acknowledges what was not sent, or with a
reserved bit or code, says nothing. -/
def execLinkctlReceive (c : Ch) (p : Nat) (arrived : SlotBlocks) (s : State) : Host.Outcome State Fault Refusal :=
  .next (
    let ⟨slot, blocks⟩ := arrived
    if s.slotReady c p slot blocks = false ∨ 2 ≤ slot then s
    else
      let r := s.readBlocks c ((s.slotLanes c p slot).zip blocks)
      match flitOf r.2 with
      | none => s
      | some f =>
        let x := s.port c p
        let w := f.toNat
        if isCtl f = false ∨ x.state ≠ .up then s
        else if field w 0 12 ≠ 0 ∨ bitAt w 15 ∨ field w 16 4 = 0 ∨ 3 < field w 16 4 ∨ field w 56 168 ≠ 0 ∨
            x.inFlight < (field w 20 12 + 4096 - x.txAcked) % 4096 then r.1
        else r.1.takeCtl c p w)

/-- ACK_TIMER (R207): a LINKCTL flit for what is unacknowledged or unreturned. -/
def execAckTimer (c : Ch) (p : Nat) (s : State) : Host.Outcome State Fault Refusal :=
  .next (
    let x := s.port c p
    if s.portLive c p = false ∨ x.state ≠ .up ∨ (x.sinceAck = 0 ∧ x.freed0 = x.told0 ∧ x.freed1 = x.told1) then s else s.sendCtl c p 1)

/-- NAK_REPEAT (R208): while the expected flit is missing. -/
def execNakRepeat (c : Ch) (p : Nat) (s : State) : Host.Outcome State Fault Refusal :=
  .next (
    let x := s.port c p
    if s.portLive c p = false ∨ x.state ≠ .up ∨ x.nak = false then s
    else ((s.count .vlReplays c [p]).modPort c p fun x => { x with nakHigh := x.rxHigh }).sendCtl c p 2)

/-- GROUP_CLOSE (R211): 100 ns after its first flit the sender closes a group that is still open. -/
def execGroupClose (c : Ch) (p : Nat) (s : State) : Host.Outcome State Fault Refusal :=
  .next (
    let x := s.port c p
    if x.keys.isNone ∨ x.groupOpen.isEmpty ∨ x.state ≠ .up ∨ 1024 ≤ x.inFlight then s else s.closeGroup c p)

/-! ### Forwarding (R214, R220) -/

/-- MESSAGE_FORWARD (R214, R215, R221): the first message whose DST is another module's, its group verified, goes on with TTL - 1 on its route, on the
channel it arrived on; with TTL 0 or with no route it is discarded and counted. -/
def execMessageForward (c : Ch) (p dst src type ttl flits : Nat) (s : State) : Host.Outcome State Fault Refusal :=
  .next (match (s.port c p).inbox.find? (fun h => !s.forMe h) with
    | none => s
    | some h =>
      if s.carries c p = false ∨ [h.dst, h.src, h.type, h.ttl, h.rest.length] ≠ [dst, src, type, ttl, flits] then s
      else
        let s := s.takeOut c p h
        let qs := if ttl = 0 then [] else s.portsTo c dst
        let bodies := BitVec.ofNat 208 (h.head - 2 ^ 24) :: h.bodies.drop 1
        if qs.isEmpty then s.count .vlDrops c [] else qs.foldl (fun s q => s.sendOn c q (.forward dst h.vc1 bodies h.arrived)) s)

/-! ### VALUE messages and SLOT_HOME (R216, R217, R221) -/

/-- Take one link record (R216, R217): to the design that has bound its slot to the sender, for a frame that it may still expect; one whose group
has not verified (`sure`) waits for the verdict. Answers whether the record was stale. -/
def State.takeRecord (s : State) (c : Ch) (p src : Nat) (frame : BitVec 48) (sure : Bool) (x : State × Bool) (r : LinkRec) : State × Bool :=
  let (s', stale) := x
  match s.designs.find? (fun d => d.slots.any (fun b => b.remote == src && b.slot == r.slot) && (if d.twin then d.home == c else d.slotCh r.slot == some c)) with
  | none => (s'.count .vlDrops c [], stale)
  | some d =>
    let low := BitVec.ofNat 48 (d.frame - 1)
    if laterFrame low frame then (s'.count .vlDrops c [], true)
    else if laterFrame frame (low + 1) then (s'.count .vlDrops c [], stale)
    else if d.linkIn.any (fun k => k.slot == r.slot && k.frame == frame) then (s', stale)
    else
      let n : LinkIn := { src := src, slot := r.slot, frame := frame, active := r.active, values := r.values }
      let s' := (s'.modDesign d.tag fun d => { d with linkIn := d.linkIn ++ [n] }).sendOuter d c 1 r.slot (if r.active then r.values else 0)
      let m : MacCheck := { design := d.tag, cab := d.span.headD 0, attempt := 0, frame := (frame + 1).toNat, addr := r.slot, link := some p }
      (if sure then s' else s'.modHbm c fun h => { h with macs := h.macs ++ [m] }, stale)

/-- Take the records of a VALUE message (R216, R217, R221): one for a frame below that expected is counted and logged, one already held is
discarded. -/
def State.takeValue (s : State) (c : Ch) (p src : Nat) (frame : BitVec 48) (recs : List LinkRec) (sure : Bool) : State :=
  let r := recs.foldl (fun x r => s.takeRecord c p src frame sure x r) (s, false)
  if r.2 then r.1.hubEvent c 0x4102 [chNum c, p, src] else r.1

/-- The first VALUE message of the open group of a port that has not been used (R212); none while groups of two epochs may come. -/
def State.earlyValue (s : State) (c : Ch) (p : Nat) : Option Heard :=
  let x := s.port c p
  if x.keys.isNone ∨ x.nextKeys.isSome ∨ x.groupRx.isEmpty then none
  else ((((s.groupMsgs c p ((x.keys.map (fun (k : BitVec 64 × Nat) => k.2 % 4)).getD 0)).2.filter
    (fun h => s.forMe h && h.type == 1)).drop x.early).head?)

/-- VALUE_MESSAGE_RECEIVE (R212, R216, R217, R221): a VALUE message that waits, or one of the open group, which is used before its group
verifies. -/
def execValueMessageReceive (c : Ch) (p src : Nat) (frame : BitVec 48) (recs : List LinkRec) (s : State) : Host.Outcome State Fault Refusal :=
  .next (
    let m : Sent := .value 0 frame recs
    if s.carries c p = false then s
    else if (s.heard c p (1, 0)).isSome then s.withMsg c p (some src) m fun s _ => s.takeValue c p src frame recs true
    else match s.earlyValue c p with
      | some h => if h.ok && h.is (some src) m then
          (s.modPort c p fun x => { x with early := x.early + 1 }).takeValue c p src frame recs false else s
      | none => s)

/-- The ports of a channel that carry traffic (R219). -/
def State.carrying (s : State) (c : Ch) : List Nat := (List.range 8).filter (s.carries c)

/-- SLOT_HOME (R217): it is known to both hubs; VALUE messages that waited for it go. -/
def execSlotHome (c : Ch) (src : Nat) (map : BitVec 512) (s : State) : Host.Outcome State Fault Refusal :=
  .next (s.withMsgOn c (s.carrying c) (some src) (.slotHome 0 map) fun s _ _ => s.channels.foldl (fun s c =>
    let wait := (s.ch c).link.waiting.filter (fun e => e.2.1 == src)
    let s := s.modLink c fun k =>
      { k with homes := KV.put 0 src map k.homes, haveHome := insKey src k.haveHome, waiting := k.waiting.filter (fun e => e.2.1 != src) }
    wait.foldl (fun s e => s.sendRecs c e.1 src e.2.2.1 e.2.2.2) s) s)

/-- SLOT_HOME_TIMER (R217): SLOT_HOME again for every design that stays loaded. -/
def execSlotHomeTimer (c : Ch) (s : State) : Host.Outcome State Fault Refusal :=
  .next (s.designs.foldl (fun s d => if d.home = c then s.sendSlotHome d c else s) s)

/-! ### MEM messages (R149, R213, R222) -/

/-- The design, and its region in each channel, that a MEM request names: SLOT bound to its sender, the region long enough (R213). -/
def State.memTarget (s : State) (m : MemMsg) : Option (Design × List Region) :=
  match s.designs.find? (fun d => d.slots.any (fun b => b.remote == m.src && b.slot == m.slot)) with
  | none => none
  | some d =>
    let gs := d.regions.filter (fun g => g.index == m.region)
    if gs.isEmpty ∨ 6 ≤ m.size ∨ gs.any (fun g => decide (g.bytes < m.offset + sizeBytes m.size)) then none else some (d, gs)

/-- Answer a MEM request. -/
def State.memAnswer (s : State) (c : Ch) (m : MemMsg) (op st : Nat) (data : List Byte) : State :=
  s.sendTo c m.src (.mem m.src { m with src := s.ownAddress, op := op, status := st, data := data })

/-- Carry out a MEM write into a design that does not run, through the write buffer as a committed entry (R149), and to the partner of a pair
(R322). -/
def State.memWrite (s : State) (c : Ch) (m : MemMsg) (d : Design) (gs : List Region) : State :=
  let data := m.data.take (sizeBytes m.size)
  let s := gs.foldl (fun s g =>
    (s.hubMem c 22 (chOf g.side) d.tag (g.base + m.offset) data.length data).commitWrite (chOf g.side) d (g.base + m.offset) data) s
  let s := if s.pairRuns && s.mode.primary then
      s.sendTwin d.home (.twinState (BitVec.ofNat 48 d.frame) (2 * 2 ^ 36 + m.region * 2 ^ 32 + m.offset) data) else s
  s.memAnswer c m 9 0 []

/-- Serve the MEM writes of a channel that waited for their designs to stop (R149). -/
def State.serveMem (s : State) (c : Ch) : State :=
  let ready := fun (m : MemMsg) => match s.memTarget m with
    | some (d, _) => d.state != .running && d.state != .stopping
    | none => true
  let l := (s.ch c).link.memWait
  let s := s.modLink c fun k => { k with memWait := l.filter (fun m => !ready m) }
  (l.filter ready).foldl (fun s m => match s.memTarget m with
    | some (d, gs) => s.memWrite c m d gs
    | none => s.memAnswer c m 9 2 []) s

/-- MEM_MESSAGE_RECEIVE (R147, R149, R213, R221): a request is served inside the design that has bound SLOT to its sender, any other gets STATUS
2; a response completes its tag, one whose tag is not outstanding is discarded. -/
def execMemMessageReceive (c : Ch) (p : Nat) (m : MemMsg) (s : State) : Host.Outcome State Fault Refusal :=
  .next (
    if s.carries c p = false then s
    else s.withMsg c p (some m.src) (.mem 0 m) fun s _ => match m.op with
    | 0 => match s.memTarget m with
      | none => s.memAnswer c m 8 2 []
      | some (d, gs) => match gs.find? (fun g => g.side == chNum d.home || gs.length == 1) with
        | none => s.memAnswer c m 8 2 []
        | some g =>
          let h := (s.ch (chOf g.side)).hbm
          let n := sizeBytes m.size
          let s := s.hubMem c 22 (chOf g.side) d.tag (g.base + m.offset) n []
          if h.unreadable (g.base + m.offset) n then
            (s.hbmUncorrected (chOf g.side) (g.base + m.offset) 2 (h.kindAt (g.base + m.offset) n)).memAnswer c m 8 1 []
          else if ((s.rangeAt (chOf g.side) (g.base + m.offset)).map (·.2.unkeyed)).getD false then s.memAnswer c m 8 1 []
          else s.memAnswer c m 8 0 (h.committedBytes (g.base + m.offset) n)
    | 1 => match s.memTarget m with
      | none => s.memAnswer c m 9 2 []
      | some (d, gs) =>
        if d.state = .running ∨ d.state = .stopping then s.modLink c fun k => { k with memWait := k.memWait ++ [m] }
        else s.memWrite c m d gs
    | 8 | 9 => match (s.ch c).link.mem.find? (fun q => q.tag == m.tag) with
      | none => s
      | some q =>
        (s.modLink c fun k => { k with mem := k.mem.filter (fun q => q.tag != m.tag) }).completeTag q.ring q.cmd
          (if m.status = 0 then .ok else if m.status = 1 then .memoryError else .regionViolation) 0
    | _ => s)

/-- MEM_TIMEOUT (R222): a request without a response after 1 ms completes its work item with TIMEOUT. -/
def execMemTimeout (c : Ch) (tag : Nat) (s : State) : Host.Outcome State Fault Refusal :=
  .next (match (s.ch c).link.mem.find? (fun q => q.tag == tag) with
    | none => s
    | some q => (s.modLink c fun k => { k with mem := k.mem.filter (fun q => q.tag != tag) }).completeTag q.ring q.cmd .timeout 0)

/-! ### HELLO and link authentication (R219, R285, R286) -/

/-- What OFFER and ACCEPT carry before any signature (R285): the certificate chain to the alias, the ephemeral key, the nonce, a free value, and
measurement block 5. How the fields are framed the manual leaves open (log entry 8). -/
def State.offerBytes (s : State) (own : BitVec 64) : List Byte :=
  Config.certChain s.attKey s.id.serial ++ Config.ephemeral own ++ s.freeBytes 32 ++ (s.measBlock none 5).getD []

/-- Begin an authentication (R285). -/
def State.startAuth (s : State) (c : Ch) (p : Nat) : State :=
  ((s.modPort c p fun x => { x with auth := some { initiator := true, accepted := false, own := s.free } }).sendOn c p
    (.auth 1 (s.offerBytes s.free))).freeNext

/-- HELLO (R219): the far end names the module, port and channel that the table gives for the link, and the same table. -/
def execHello (c : Ch) (p remotePort : Nat) (remoteCh : Ch) (remoteModule : Nat) (hash : BitVec 192) (s : State) : Host.Outcome State Fault Refusal :=
  .next (
    let x := s.port c p
    if s.portLive c p = false ∨ x.state ≠ .up then s
    else s.withMsg c p (some remoteModule) (.hello remotePort (chNum remoteCh) hash) fun s _ =>
      let was := s.carries c p
      let ok := s.farEnd c p == some (remoteModule, remotePort + 8 * chNum remoteCh) && (s.topo.map (fun t => t.hash.toNat % 2 ^ 192)) == some hash.toNat
      let s := if ok && !x.helloOk then s.sendHello c p else s
      let s := s.withRoutes fun s => s.modPort c p fun x => { x with helloOk := ok, traffic := ok && x.keys.isSome && !x.out }
      let s := if was && !ok then s.loseTraffic c p else s
      if ok && x.keys.isNone && x.auth.isNone && s.initiates c p then s.startAuth c p else s)

/-- What authentication messages are signed over (log entry 8). -/
def linkTranscript (m : AuthMsg) : Digest := Config.sha384 (m.chain ++ m.eph ++ leBytes 32 m.nonce.toNat)

/-- Why a far end is refused (R285): REJECT reason 1 chain, 2 serial, 4 lifecycle state or tamper latch; none where it passes. For a bridge the
chain must reach a bridge root that the operator has installed. -/
def State.farRefused (s : State) (c : Ch) (p : Nat) (m : AuthMsg) : Option Nat :=
  match s.topo, s.farEnd c p with
  | some t, some (f, _) =>
    let bridge := t.kind f == 4
    let root := if bridge then (s.chA.hutch.keys ++ s.chB.hutch.keys).any (fun k => k.kind == 9 && k.holder == 0 &&
        Config.ecdsaVerify k.material (Config.sha384 m.chain) m.chain) else Config.chainOk m.chain
    if root = false then some 1
    else if !bridge && (t.mods[f]?).map (·.serial) != some m.serial then some 2
    else if (!bridge && !m.fieldState) || m.latched then some 4
    else none
  | _, _ => some 1

/-- Refuse an exchange (R285). -/
def State.rejectAuth (s : State) (c : Ch) (p reason : Nat) : State :=
  ((s.modPort c p fun x => { x with auth := none, nextKeys := if x.keys.isNone then none else x.nextKeys }).sendOn c p (.auth 6 (leBytes 1 reason))).hubEvent c
    0x6007 [chNum c, p, reason]

/-- The secret of an exchange: the ECDH of the far key and this side's ephemeral key, with the transcript as salt (R285). -/
def linkSecret (own : BitVec 64) (m : AuthMsg) : BitVec 64 :=
  BitVec.ofNat 64 (leNat ((Config.hkdf (Config.ecdh m.eph own) (leBytes 48 (linkTranscript m).toNat) (strBytes "lumwell link")).take 8))

/-- The keys of a port come into force: epoch 0 begins (R285). A mirror port then carries the design descriptors (R321). -/
def State.keysInForce (s : State) (c : Ch) (p : Nat) (secret : BitVec 64) : State :=
  let s := s.withRoutes fun s => s.modPort c p fun x =>
    { x with keys := some (secret, 0), nextKeys := none, auth := none, traffic := x.helloOk && !x.out, groupsInEpoch := 0,
             groupTx := 0, groupOpen := [], groupRx := [], early := 0, groupRxNext := 0, rxEpoch := 0, part0 := [], part1 := [], updating := false,
             sealFails := 0 }
  if s.mode.mode == .mirrored && s.portUse c p 2 then s.designs.foldl (fun s d => if d.home = c then s.sendDescriptor d else s) s else s

/-- OFFER (R285), at the responder. -/
def execOffer (c : Ch) (p : Nat) (m : AuthMsg) (s : State) : Host.Outcome State Fault Refusal :=
  .next (
    let x := s.port c p
    if s.portLive c p = false ∨ x.state ≠ .up ∨ x.helloOk = false ∨ s.initiates c p then s
    else s.withAuth c p (leBytes 1 1) fun s => match s.farRefused c p m with
      | some r => s.rejectAuth c p r
      | none =>
        let was := s.carries c p
        let s := (if x.keys.isSome then s.closeGroup c p else s).withRoutes fun s => s.modPort c p fun x =>
          { x with keys := none, traffic := false, auth := none, nextKeys := none }
        let s := if was then s.loseTraffic c p else s
        let own := s.free
        let s := s.modPort c p fun x =>
          { x with auth := some { initiator := false, accepted := true, own := own }, nextKeys := some (linkSecret own m, 0) }
        (s.sendOn c p (.auth 2 (s.offerBytes own ++ Config.ecdsaSign s.attKey (linkTranscript m)))).freeNext)

/-- ACCEPT (R285), at the initiator. -/
def execAccept (c : Ch) (p : Nat) (m : AuthMsg) (s : State) : Host.Outcome State Fault Refusal :=
  .next (
    let x := s.port c p
    match x.auth with
    | none => s
    | some a =>
      if a.initiator = false ∨ a.accepted then s
      else s.withAuth c p (leBytes 1 2) fun s => match s.farRefused c p m with
        | some r => s.rejectAuth c p r
        | none =>
          if Config.ecdsaVerify m.chain (linkTranscript m) m.sig = false then s.rejectAuth c p 3
          else (s.sendOn c p (.auth 3 (Config.ecdsaSign s.attKey (linkTranscript m)))).keysInForce c p (linkSecret a.own m))

/-- AUTH_FINISH (R285), at the responder. -/
def execAuthFinish (c : Ch) (p : Nat) (m : AuthMsg) (s : State) : Host.Outcome State Fault Refusal :=
  .next (
    let x := s.port c p
    match x.auth, x.nextKeys with
    | some a, some k =>
      if a.initiator then s
      else s.withAuth c p (leBytes 1 3) fun s => if Config.ecdsaVerify m.chain (linkTranscript m) m.sig = false then s.rejectAuth c p 3
      else s.keysInForce c p k.1
    | _, _ => s)

/-- REJECT (R285): the exchange has failed at the far end. -/
def execReject (c : Ch) (p reason : Nat) (s : State) : Host.Outcome State Fault Refusal :=
  .next (if (s.port c p).auth.isNone then s
    else s.withAuth c p (leBytes 1 6 ++ leBytes 1 reason) fun s =>
      (s.modPort c p fun x => { x with auth := none, nextKeys := if x.keys.isNone then none else x.nextKeys }).hubEvent c 0x6007 [chNum c, p, reason])

/-- LINK_AUTH_TIMEOUT (R285): the exchange has not ended within 10 ms. -/
def execLinkAuthTimeout (c : Ch) (p : Nat) (s : State) : Host.Outcome State Fault Refusal :=
  .next (if (s.port c p).auth.isNone then s
    else (s.modPort c p fun x => { x with auth := none, nextKeys := if x.keys.isNone then none else x.nextKeys }).hubEvent c 0x6007 [chNum c, p, 0])

/-- LINK_AUTH_RETRY (R285): the initiator tries again. -/
def execLinkAuthRetry (c : Ch) (p : Nat) (s : State) : Host.Outcome State Fault Refusal :=
  .next (
    let x := s.port c p
    if s.portLive c p && x.state == .up && x.helloOk && x.keys.isNone && x.auth.isNone && s.initiates c p then s.startAuth c p else s)

/-- EPOCH_ROLLOVER (R286): after 2^32 groups or 24 h the initiator starts a new epoch. -/
def execEpochRollover (c : Ch) (p : Nat) (s : State) : Host.Outcome State Fault Refusal :=
  .next (
    let x := s.port c p
    match x.keys with
    | some (k, e) =>
      if x.updating ∨ s.initiates c p = false then s
      else (s.modPort c p fun x => { x with updating := true, nextKeys := some (nextSecret k, e + 1) }).sendOn c p (.auth 4 (leBytes 4 (e + 1)))
    | none => s)

/-- UPDATE (R286): the next keys are derived and the update acknowledged; this end's sender asks for its own acknowledgement. -/
def execUpdate (c : Ch) (p epoch : Nat) (s : State) : Host.Outcome State Fault Refusal :=
  .next (
    let x := s.port c p
    match x.keys with
    | some (k, e) => s.withAuth c p (leBytes 1 4 ++ leBytes 4 epoch) fun s =>
      if epoch = e + 1 then
        let s := s.sendOn c p (.auth 5 (leBytes 4 epoch))
        if x.updating then s
        else (s.modPort c p fun x => { x with updating := true, nextKeys := some (nextSecret k, e + 1) }).sendOn c p (.auth 4 (leBytes 4 (e + 1)))
      else if epoch = e ∧ 0 < e then s.sendOn c p (.auth 5 (leBytes 4 epoch))
      else s
    | none => s)

/-- UPDATE_ACK (R286): this end's sender switches; its receiver takes groups of both epochs until one of the new epoch verifies. -/
def execUpdateAck (c : Ch) (p epoch : Nat) (s : State) : Host.Outcome State Fault Refusal :=
  .next (
    let x := s.port c p
    match x.nextKeys with
    | some k =>
      if x.updating = false ∨ k.2 ≠ epoch then s
      else s.withAuth c p (leBytes 1 5 ++ leBytes 4 epoch) fun s => (s.closeGroup c p).modPort c p fun x =>
        { x with keys := some k, nextKeys := if x.rxEpoch = epoch % 4 then none else x.keys, updating := false, groupTx := 0, groupsInEpoch := 0 }
    | none => s)

end Sys2Proof.Machine
end

