-- ==== Sys2Proof/Machine/Messages.lean ====
section
/-! DEFINITION. Message ports, work items and the scheduler (11_message_ports.md): intake messages (R250, R251, R254, R256), outlet records
(R252, R253), work items (R257, R258), engines and dispatch (R260-R262, R267, R343), and the traffic of a proxied module (R213, R246). -/

namespace Sys2Proof.Machine

open Sys2Proof

/-! ### Windows (R247-R249) -/

/-- The Cabinets that hold a window: in TWINNED both copies that run (R266). -/
def Design.windowCabs (d : Design) (w : Window) : List Nat :=
  (if d.twin then [w.cab, w.cab ^^^ 64] else [w.cab]).filter (fun l => d.span.contains l)

/-- Write words of a window, and tell the partner of a pair (R249, R266, R322). -/
def State.winWrite (s : State) (d : Design) (k kind : Nat) (w : Window) (ws : List (Nat × Word64)) : State :=
  let s := s.modDesign d.tag fun x => (d.windowCabs w).foldl (fun (x : Design) l => x.modCab l fun z =>
    { z with mem := ws.foldl (fun t e => KV.put 0 e.1 e.2 t) z.mem }) x
  if s.pairRuns && s.mode.primary then
    s.sendTwin d.home (.twinInput (BitVec.ofNat 48 d.frame - 1) (128 * chNum d.home + k) kind ws)
  else s

/-- Whether the port unit may write the windows of a design: it stands in a commit gap, or is stopped (R249). -/
def Design.gapOpen (d : Design) : Bool := !d.begun && d.trA.cleared == 0 && d.trB.cleared == 0

/-- Words written in the present commit gap, and the lowest acceptance number delivered in it. -/
def Design.gapNow (d : Design) : Nat × Option Nat :=
  match d.gap with
  | some (f, n, o) => if f = d.frame then (n, some o) else (0, none)
  | none => (0, none)

/-! ### Intake (R250, R251, R254-R256) -/

/-- The words of a message in its window (R248). -/
def InMsg.words (m : InMsg) : List Word64 :=
  BitVec.ofNat 64 (m.data.length + 8192 * bit01 m.fence) ::
    (List.range ((m.data.length + 7) / 8)).map (fun i => BitVec.ofNat 64 (rd m.data (8 * i) 8))

/-- Whether a member of a pair takes its inputs from the other still (R322, R325): the partner does, and once promoted it first runs the frames
whose SIGNATURE it holds. -/
def State.replays (s : State) (d : Design) : Bool :=
  s.mode.mode == .mirrored && (s.mode.partner || (s.mode.primary && s.mode.sigs.any (fun e => !laterFrame (BitVec.ofNat 48 d.frame) e.1)))

/-- Whether the first accepted message of a port may be delivered now: room in its window, its FENCE, the allowance of the gap. -/
def State.mayDeliver (s : State) (d : Design) (p : MPort) : Bool :=
  match p.accepted with
  | [] => false
  | m :: _ =>
    let n := msgWords m.data.length
    let (used, low) := d.gapNow
    d.gapOpen && !p.disabled && !s.replays d && decide (n ≤ s.intakeFree p) &&
    (!m.fence || ((s.portsOf d).all (fun e => e.2.accepted.all (fun x => decide (m.order ≤ x.order))) &&
      (match low with
        | some o => decide (m.order < o)
        | none => true))) &&
    (!d.runs || used == 0 || decide (used + n ≤ max 1 (s.regField .schCtrl d.home [] 4 12)))

/-- A unit of the scheduler has ended: it waits no longer, or its engine is free. -/
def State.unitDone (s : State) (c : Ch) (w : Work) : State :=
  s.modSched c fun q =>
    match q.engines.find? (fun e => (e.2.busy.map (·.work)) == some w) with
    | some e => { q with engines := KV.upd { spare := decide (16 ≤ e.1) } e.1 (fun x => { x with busy := none }) q.engines }
    | none => { q with waiting := match q.waiting.findIdx? (fun u => u.work == w) with
        | some i => q.waiting.eraseIdx i
        | none => q.waiting }

/-- Deliver the first accepted message of port `k`: its record, then PROD; it completes OK with the frame at which it is visible (R250). Its engine
sends it to the Cabinet as MSG packets (R169). -/
def State.deliver (s : State) (d : Design) (k : Nat) : State :=
  let p := s.mport d.home k
  match p.accepted, p.inWin with
  | m :: rest, some w =>
    let ws := m.words
    let prod := (p.written + ws.length) % 2 ^ 32
    let s := s.winWrite d k 0 w (((List.range ws.length).zip ws).map (fun e => (w.word + 2 + (p.written + e.1) % w.size, e.2)) ++
      [(w.word, BitVec.ofNat 64 prod)])
    let e := (((s.ch d.home).sched.engines.find? (fun e => (e.2.busy.map (fun u => u.work == .intake k)).getD false)).map (·.1)).getD 0
    let s := (msgPackets (s.cabAddr (d.liveCab w.cab)) (fabAddr d.home 2 (1 + e)) d.tag k m.data).foldl (fun s p => s.hubInject d.home (1 + e) p) s
    let (used, low) := d.gapNow
    let s := s.modDesign d.tag fun x => { x with gap := some (d.frame, used + ws.length, min m.order (low.getD m.order)) }
    let s := (s.modDesignPort d k fun q => { q with accepted := rest, written := prod }).unitDone d.home (.intake k)
    match s.cmd m.ring m.tag with
    | some q => s.completeAt q .ok (BitVec.ofNat 48 d.frame) 0
    | none => s
  | _, _ => s

/-- The port of a design whose first message goes next: the lowest acceptance number among those that may go. -/
def State.nextPort (s : State) (d : Design) : Option Nat :=
  ((((s.portsOf d).filter (fun e => s.mayDeliver d e.2)).foldl (fun (b : Option (Nat × Nat)) e =>
    match e.2.accepted, b with
    | m :: _, some x => if m.order < x.1 then some (m.order, e.1) else some x
    | m :: _, none => some (m.order, e.1)
    | [], _ => b) none).map (·.2))

/-- Deliver messages of a design while they may go, at most `n`. -/
def State.deliverAll (s : State) (tag : Nat) : Nat → State
  | 0 => s
  | n + 1 => match s.design tag with
    | none => s
    | some d => match s.nextPort d with
      | some k => State.deliverAll (s.deliver d k) tag n
      | none => s

/-- CONS of an outlet: the records written out have left the window (R252). -/
def MPort.cons (p : MPort) : Nat := (p.readTo + 2 ^ 32 - (p.released.map (fun r => msgWords r.data.length)).sum % 2 ^ 32) % 2 ^ 32

/-- Write CONS of the outlets of a design whose windows hold another value (R252). -/
def State.writeCons (s : State) (tag : Nat) : State :=
  match s.design tag with
  | none => s
  | some d => (s.portsOf d).foldl (fun s e =>
      match e.2.outWin with
      | none => s
      | some w =>
        let v : Word64 := BitVec.ofNat 64 e.2.cons
        if KV.get 0 (w.word + 1) (d.cab (d.liveCab w.cab)).mem = v then s else s.winWrite d e.1 1 w [(w.word + 1, v)]) s

/-- INTAKE_DELIVERY (R250-R252, R256): the port unit's work in a commit gap of the design that holds partition `p`, or while it is stopped:
messages in acceptance order, then CONS of the outlets. -/
def execIntakeDelivery (p : Nat) (s : State) : Host.Outcome State Fault Refusal :=
  .next (match s.designAt p with
    | none => s
    | some d =>
      if d.gapOpen = false then s
      else (s.deliverAll d.tag ((s.portsOf d).map (fun e => e.2.accepted.length)).sum).writeCons d.tag)

/-- Whether the tag of an intake message verifies under the message key of the load (R253, R278); its plaintext. -/
def State.openMsg (s : State) (d : Design) (k : Nat) (m : Cmd) (cipher : List Byte) : Option (List Byte) :=
  match s.msgKey d with
  | none => none
  | some key =>
    let iv := msgIv 0xA0 (128 * chNum d.home + k) (BitVec.ofNat 64 (m.desc.par 24 8))
    let ct := cipher.take (m.desc.par 16 2)
    if (Config.gcmTag key iv (m.desc.bytes.take 32) ct).toNat = m.desc.par 32 16 then some (gcmSeal key iv ct) else none

/-- At a proxy, an intake message goes on as a MSG message (R213, R246). What the module that holds the key is given is the manual's silence: free
bytes; the command completes as the message leaves (log entry 19). -/
def State.proxyIn (s : State) (m : Cmd) (dst port : Nat) : State :=
  let data := s.freeBytes (max 1 (m.desc.par 16 2))
  let s := s.hostHub |> fun c => s.sendTo c dst (.msg dst { src := s.ownAddress, port := port, toHost := false, fence := m.desc.fence, data := data })
  s.freeNext.complete m .ok 0

/-- At a proxy, an outlet record of another module's design is written to the ring of its port (R246, R252): its partition, MSEQ, ciphertext
and tag are free values (log entry 19). -/
def State.proxyOut (s : State) (g : RingNo) (m : PortMsg) : State :=
  let n := (s.ring g).produced
  let addr := s.ringBase g + 64 * s.ringSize g + 4096 * (n.toNat % s.ringSize g)
  let ct := s.freeBytes m.data.length
  let o : OutMsg := { addr := addr, partition := s.free.toNat % 8, fence := m.fence, mseq := s.free, cipher := ct, tag := s.free.setWidth 128 }
  ((s.hostWrite addr ct).writeEntry g (fun ph => .msg o ph)).freeNext

/-- MSG_IN (R254): the oldest unread message of its ring is accepted in MSEQ order or refused with AUTH_FAIL; a tag that fails consumes its
MSEQ. `cipher` is what stands at DATA. FENCE orders the delivery (R256), not the acceptance. -/
def execMsgIn (r : RingNo) (t : Tag) (cipher : List Byte) (s : State) : Host.Outcome State Fault Refusal :=
  .next (match (s.unread r).head? with
    | none => s
    | some m =>
      if m.desc.tag ≠ t then s
      else if s.sec.latched then s.complete m .tamper 0
      else match s.intakeOf r with
        | none => match s.proxyFor r with
          | none => s.complete m .aborted 0
          | some q => s.proxyIn m q.1 q.2
        | some (_, k, p) => match p.design.bind s.design with
          | none => s.complete m .aborted 0
          | some d =>
            let mseq : BitVec 64 := BitVec.ofNat 64 (m.desc.par 24 8)
            let port := 128 * chNum d.home + k
            if mseq ≠ p.mseqIn then (s.designEvent d 0x5001 [port, p.mseqIn.toNat, mseq.toNat]).complete m .authFail 0
            else
              let s := s.modDesignPort d k fun q => q.useMseq mseq
              match s.openMsg d k m cipher with
              | none => s.complete m .authFail 0
              | some data =>
                if p.disabled then s.complete m .aborted 0
                else
                  let i : InMsg := { ring := r, tag := t, cring := m.desc.cring, fence := m.desc.fence, data := data, order := d.msgSeq }
                  let s := (s.start m).modDesign d.tag fun x => { x with msgSeq := x.msgSeq + 1 }
                  let s := s.modDesignPort d k fun q => { q with accepted := q.accepted ++ [i] }
                  s.modSched d.home fun q => { q with waiting := q.waiting ++ [{ group := p.group, work := .intake k }] })

/-! ### Outlets (R252, R253, R256, R246) -/

/-- Whether the FENCE of the first released record of a port lets it go (R256). -/
def State.outletFence (s : State) (d : Design) (e : Nat × MPort) : Bool :=
  match e.2.released with
  | [] => false
  | r :: _ => !r.fence || (s.portsOf d).all (fun o => o.1 == e.1 || o.2.released.all (fun x =>
      decide (r.release < x.release) || (r.release == x.release && decide (e.1 < o.1))))

/-- Whether a record of a port can leave now: to its ring, or to the proxy of this module. -/
def State.outletGoes (s : State) (d : Design) (e : Nat × MPort) : Bool :=
  if s.proxy.isSome then s.outletFence d e && !e.2.disabled else s.outletReady d e

/-- Send the first released record of a port on its way. -/
def State.outletOne (s : State) (d : Design) (k : Nat) : State :=
  let s' := match s.proxy with
    | none => s.writeOutlet d k
    | some x => match (s.mport d.home k).released with
      | [] => s
      | r :: rs =>
        let s := s.modDesignPort d k fun p => { p with released := rs, mseqOut := p.mseqOut + 1 }
        s.sendTo d.home x (.msg x { src := s.ownAddress, port := 128 * chNum d.home + k, toHost := true, fence := r.fence, data := r.data })
  let s' := s'.unitDone d.home (.outlet k)
  let p := s'.mport d.home k
  match p.outWin with
  | some w => s'.modDesignPort d k fun q => { q with holding := q.holding && decide (d.outletFree p w < w.reserve) }
  | none => s'

/-- Write out records of a port while they can go, at most `n`. -/
def State.outletAll (s : State) (d : Design) (k : Nat) : Nat → State
  | 0 => s
  | n + 1 => if s.outletGoes d (k, s.mport d.home k) then State.outletAll (s.outletOne d k) d k n else s

/-- OUTLET_WRITE_OUT (R252): the released records of a port are sealed and written to its ring in order, as far as it has room. CONS follows
at once while the design is stopped, otherwise in a commit gap. -/
def execOutletWriteOut (c : Ch) (port : Nat) (s : State) : Host.Outcome State Fault Refusal :=
  .next (match (s.mport c port).design.bind s.design with
    | none => s
    | some d =>
      if d.home ≠ c ∨ s.host.perst then s
      else
        let s := s.outletAll d port (s.mport c port).released.length
        if d.runs then s else s.writeCons d.tag)

/-- MSG_MESSAGE_RECEIVE (R213, R246): message-port traffic. Towards a design it joins the accepted messages of the port; from the design of a
proxied module it goes to the ring of its port, and waits while that ring has no room. -/
def execMsgMessageReceive (c : Ch) (p : Nat) (m : PortMsg) (s : State) : Host.Outcome State Fault Refusal :=
  .next (if s.carries c p = false then s
    else if m.toHost then
      let g := 128 + Config.proxyRing m.src m.port % 256
      if s.ringOn g && !s.ringFull g && !s.host.perst then s.withMsg c p (some m.src) (.msg 0 m) fun s _ => s.proxyOut g m else s
    else s.withMsg c p (some m.src) (.msg 0 m) fun s _ =>
      let k := m.port % 128
      let q := s.mport (chOf (m.port / 128)) k
      match q.design.bind s.design with
      | none => s
      | some d =>
        if q.inWin.isNone ∨ q.disabled ∨ m.data.isEmpty ∨ 4096 < m.data.length then s
        else
          let i : InMsg := { ring := 512, tag := 0, cring := 0, fence := m.fence, data := m.data, order := d.msgSeq }
          let s := s.modDesign d.tag fun x => { x with msgSeq := x.msgSeq + 1 }
          let s := s.modDesignPort d k fun x => { x.useMseq x.mseqIn with accepted := x.accepted ++ [i] }
          s.modSched d.home fun x => { x with waiting := x.waiting ++ [{ group := q.group, work := .intake k }] })

/-! ### Work items (R257, R258) -/

/-- An area in a design that a work item names: SPACE, REGION or CABINET, OFFSET. -/
structure Area where
  space : Nat
  place : Nat
  offset : Nat
  deriving DecidableEq, Repr

end Sys2Proof.Machine

namespace Sys2Proof

open Sys2Proof.Machine

/-- The area of a work item's parameters at bytes 16-25. -/
def Desc.area (d : Desc) : Area := { space := d.par 24 1, place := d.par 25 1, offset := d.par 16 8 }

/-- The target area of COPY. -/
def Desc.target (d : Desc) : Area := { space := d.par 26 1, place := d.par 27 1, offset := d.par 32 8 }

/-- Bytes of the design that a work item moves. -/
def Desc.workBytes (d : Desc) : Nat :=
  if d.opcode = 0x66#8 ∨ d.opcode = 0x67#8 then d.par 28 4 * sizeBytes (d.par 26 1) else d.par 28 4

/-- Whether a work item writes the design. -/
def Desc.writes (d : Desc) : Bool := [0x62, 0x64, 0x65, 0x67].contains d.opcode.toNat

/-- Packets of up to 4 KiB of a work item (R260). -/
def Desc.packets (d : Desc) : Nat := max 1 ((d.workBytes + 4095) / 4096)

/-- The area that a work item writes. -/
def Desc.writeArea (d : Desc) : Area := if d.opcode = 0x64#8 then d.target else d.area

/-- Host address of the result of a work item. -/
def Desc.resultAddr (d : Desc) : Nat := if d.opcode = 0x63#8 then d.par 8 8 else d.par 32 8

/-- Whether a work item opens a first, and a second, host buffer. -/
def Desc.opens (d : Desc) : Bool × Bool := ([0x62, 0x66, 0x67].contains d.opcode.toNat, d.opcode == 0x67#8)

end Sys2Proof

namespace Sys2Proof.Machine

open Sys2Proof

/-- The logical Cabinet that an image-local one becomes (R115, R257). -/
def Design.workCab (d : Design) (n : Nat) : Nat := d.liveCab (n ^^^ (16 * d.x))

/-- The region of an index that a read takes: the serving channel's, or the only one (R117). -/
def Design.workRegion (d : Design) (n : Nat) : Option Region :=
  let gs := d.regions.filter (fun g => g.index == n)
  gs.find? (fun g => g.side == chNum d.home || gs.length == 1)

/-- Whether bytes of an area lie inside its region or Cabinet (R257). -/
def Design.areaOk (d : Design) (a : Area) (off n : Nat) : Bool :=
  if a.space = 0 then d.span.contains (d.workCab a.place) && decide (off + n ≤ 2 ^ 20)
  else match d.workRegion a.place with
    | some g => decide (off + n ≤ g.bytes)
    | none => false

/-- Committed bytes of an area (R130, R147, R258). -/
def State.areaRead (s : State) (d : Design) (a : Area) (off n : Nat) : List Byte :=
  if a.space = 0 then
    let x := d.cab (d.workCab a.place)
    let m := undoMem x.mem x.undo
    (((List.range ((off + n + 7) / 8 - off / 8)).flatMap (fun i => leBytes 8 (KV.get 0 (off / 8 + i) m).toNat)).drop (off % 8)).take n
  else match d.workRegion a.place with
    | some g => (s.ch (chOf g.side)).hbm.committedBytes (g.base + off) n
    | none => []

/-- Write bytes into an area of a stopped design, in TWINNED into both copies, and tell the partner of a pair (R131, R258, R322). -/
def State.areaWrite (s : State) (d : Design) (a : Area) (off : Nat) (data : List Byte) : State :=
  if data.isEmpty then s
  else if a.space = 0 then
    let l := a.place ^^^ (16 * d.x)
    let ws := (List.range (data.length / 8)).map (fun i => (off / 8 + i, BitVec.ofNat 64 (rd data (8 * i) 8)))
    let s := s.modDesign d.tag fun x => ((if d.twin then [l, l ^^^ 64] else [l]).filter (fun i => d.span.contains i)).foldl
      (fun (x : Design) i => x.modCab i fun z => { z with mem := ws.foldl (fun t e => KV.put 0 e.1 e.2 t) z.mem }) x
    if s.pairRuns && s.mode.primary then
      s.sendTwin d.home (.twinState (BitVec.ofNat 48 d.frame) (2 ^ 36 + l * 2 ^ 20 + off) data) else s
  else
    let gs := d.regions.filter (fun g => g.index == a.place && some (chOf g.side) != d.fencedSide)
    let s := gs.foldl (fun s g => s.commitWrite (chOf g.side) d (g.base + off) data) s
    if s.pairRuns && s.mode.primary then
      s.sendTwin d.home (.twinState (BitVec.ofNat 48 d.frame) (2 * 2 ^ 36 + a.place * 2 ^ 32 + off) data) else s

/-- Write data into an area in pieces of 4 KiB at most. -/
def State.areaWriteAll (s : State) (tag : Nat) (a : Area) (off : Nat) (data : List Byte) : State :=
  (List.range ((data.length + 4095) / 4096)).foldl (fun s i => match s.design tag with
    | some d => s.areaWrite d a (off + 4096 * i) ((data.drop (4096 * i)).take 4096)
    | none => s) s

/-- Whether the group of a work item is open to a tenant (R262). -/
def State.groupOpen (s : State) (c : Ch) (g slot : Nat) : Bool :=
  s.groupOwner c g == 0 || s.groupOwner c g == slot

/-- Take up a work item (R257, R262): its group, its areas and its keys are checked, then it waits for engines. -/
def State.workItem (s : State) (m : Cmd) : State :=
  match s.designAt m.desc.partition.toNat with
  | none => s.complete m .refusedState 0
  | some d =>
    let op := m.desc.opcode.toNat
    let n := m.desc.workBytes
    let listed := op == 0x66 || op == 0x67
    if s.base.delivery.isSome ∧ d.home = .a then s
    else if s.groupOpen d.home m.desc.group d.slot = false then s.complete m .refusedState 0
    else if (!listed && !d.areaOk m.desc.area m.desc.area.offset n) || (op == 0x64 && !d.areaOk m.desc.target m.desc.target.offset n) ||
        (listed && !d.areaOk m.desc.area 0 0) then s.complete m .regionViolation 0
    else if (op = 0x63 ∨ op = 0x66 ∨ op = 0x68) ∧ (m.key 5 0).isNone then s.complete m .resource 0
    else (s.start m).modSched d.home fun q => { q with
      waiting := q.waiting ++ [{ group := m.desc.group, work := .item m.ring m.desc.tag 0 m.desc.packets }] }

/-- COPY_IN (R257): opens host data and writes it to the design. -/
def execCopyIn (r : RingNo) (t : Tag) (s : State) : Host.Outcome State Fault Refusal :=
  .next (s.withCmd r t 0x62 State.workItem)

/-- COPY_OUT (R257): reads committed data and writes it sealed to the host. -/
def execCopyOut (r : RingNo) (t : Tag) (s : State) : Host.Outcome State Fault Refusal :=
  .next (s.withCmd r t 0x63 State.workItem)

/-- COPY (R257): copies within the design. -/
def execCopy (r : RingNo) (t : Tag) (s : State) : Host.Outcome State Fault Refusal :=
  .next (s.withCmd r t 0x64 State.workItem)

/-- FILL (R257): writes a pattern to every word. -/
def execFill (r : RingNo) (t : Tag) (s : State) : Host.Outcome State Fault Refusal :=
  .next (s.withCmd r t 0x65 State.workItem)

/-- GATHER (R257): reads listed elements and writes them sealed in list order. -/
def execGather (r : RingNo) (t : Tag) (s : State) : Host.Outcome State Fault Refusal :=
  .next (s.withCmd r t 0x66 State.workItem)

/-- SCATTER (R257): writes elements to listed offsets. -/
def execScatter (r : RingNo) (t : Tag) (s : State) : Host.Outcome State Fault Refusal :=
  .next (s.withCmd r t 0x67 State.workItem)

/-- CHECKSUM (R257): writes a checksum of an area sealed to the host. -/
def execChecksum (r : RingNo) (t : Tag) (s : State) : Host.Outcome State Fault Refusal :=
  .next (s.withCmd r t 0x68 State.workItem)

/-! ### The units of a work item -/

/-- Whether any unit of a work item waits or runs on a hub. -/
def SchedSt.holds (q : SchedSt) (r : RingNo) (t : Tag) : Bool :=
  let mine := fun (u : WorkUnit) => match u.work with
    | .item r' t' _ _ => r' == r && t' == t
    | _ => false
  q.waiting.any mine || q.engines.any (fun e => (e.2.busy.map mine).getD false)

/-- Drop every unit of a work item: its waiting units, and the engines that run it. -/
def SchedSt.drop (q : SchedSt) (r : RingNo) (t : Tag) : SchedSt :=
  let mine := fun (u : WorkUnit) => match u.work with
    | .item r' t' _ _ => r' == r && t' == t
    | _ => false
  { q with waiting := q.waiting.filter (fun u => !mine u),
           engines := (q.engines.map (fun (e : Nat × Engine) =>
             (e.1, if (e.2.busy.map mine).getD false then { e.2 with busy := none } else e.2))).filter
               (fun e => e.2 ≠ { spare := decide (16 ≤ e.1) }) }

/-- End a work item with a status; none of its units goes on. -/
def State.endItem (s : State) (c : Ch) (m : Cmd) (st : Status) : State :=
  (s.modSched c fun q => q.drop m.ring m.desc.tag).complete m st 0

/-- The offsets of the elements `first` to `first + n - 1` of a sealed list. -/
def listOffsets (l : List Byte) (first n : Nat) : List Nat := (List.range n).map (fun i => rd l (8 * (first + i)) 8)

/-- What a work item writes to the design for its bytes from `lo` to `hi`: offsets and data; `b1` and `b2` are the opened host buffers. -/
def State.itemWrites (s : State) (d : Design) (m : Cmd) (b1 b2 : List Byte) (lo hi : Nat) : List (Nat × List Byte) :=
  let n := hi - lo
  let a := m.desc.area
  match m.desc.opcode.toNat with
  | 0x62 => [(a.offset + lo, (b1.drop lo).take n)]
  | 0x64 => [(m.desc.target.offset + lo, s.areaRead d a (a.offset + lo) n)]
  | 0x65 => [(a.offset + lo, (List.range (n / 8)).flatMap (fun _ => leBytes 8 (m.desc.par 32 8)))]
  | 0x67 =>
    let sz := sizeBytes (m.desc.par 26 1)
    ((listOffsets b1 (lo / sz) (n / sz)).zip (List.range (n / sz))).map (fun e => (e.1, (b2.drop (lo + sz * e.2)).take sz))
  | _ => []

/-- The plaintext result of a work item that reads. -/
def State.itemResult (s : State) (d : Design) (m : Cmd) (b1 : List Byte) : List Byte :=
  let a := m.desc.area
  match m.desc.opcode.toNat with
  | 0x63 => s.areaRead d a a.offset m.desc.workBytes
  | 0x66 => (listOffsets b1 0 (m.desc.par 28 4)).flatMap (fun o => s.areaRead d a o (sizeBytes (m.desc.par 26 1)))
  | 0x68 =>
    let data := s.areaRead d a a.offset m.desc.workBytes
    if m.desc.par 26 1 = 0 then leBytes 4 (crc32c data).toNat else leBytes 48 (Config.sha384 data).toNat
  | _ => []

/-- The bytes that a unit of a work item reads in the design, as offsets and lengths: those of its packets, of all the elements of GATHER, or none.
The reads for a result are made with the item's last packet. -/
def itemReads (m : Cmd) (b1 : List Byte) (lo hi : Nat) : List (Nat × Nat) :=
  match m.desc.opcode.toNat with
  | 0x63 | 0x64 | 0x68 => [(m.desc.area.offset + lo, hi - lo)]
  | 0x66 => (listOffsets b1 0 (m.desc.par 28 4)).map (fun o => (o, sizeBytes (m.desc.par 26 1)))
  | _ => []

/-- The offset of the first line that a unit of a work item cannot read for poison or a lost subtree (R155, R283). -/
def State.itemPoison (s : State) (d : Design) (m : Cmd) (b1 : List Byte) (lo hi : Nat) : Option Nat :=
  if m.desc.area.space ≠ 1 then none
  else match d.workRegion m.desc.area.place with
    | none => none
    | some g => (itemReads m b1 lo hi).findSome? fun e =>
        ((linesOf (g.base + e.1) e.2).find? (fun a => (s.ch (chOf g.side)).hbm.unreadable a 64)).map (fun a => a - g.base)

/-- The status of a read or write of a design by an engine that failed at an offset of an area (R154, R284): counted and reported as its memory
says. -/
def State.itemError (s : State) (d : Design) (a : Area) (mac : Bool) : State × Status :=
  if a.space = 0 then
    match s.physOf (d.workCab a.place) with
    | some (c, die, i) => (s.count .cmemUncorrected c [die, i], .memoryError)
    | none => (s, .memoryError)
  else match d.workRegion a.place with
    | none => (s, .memoryError)
    | some g =>
      let c := chOf g.side
      if mac then
        (s.macFailed c { design := 0, cab := 0, attempt := 0, frame := 0, addr := g.base + a.offset, link := none }, .integrityAlarm)
      else (s.hbmUncorrected c (g.base + a.offset) 2 ((s.ch c).hbm.kindAt (g.base + a.offset) 8), .memoryError)

/-- Whether a march runs on a Cabinet whose memory a work item reaches: no other master reaches its banks (R135). -/
def State.itemMarched (s : State) (d : Design) (m : Cmd) : Bool :=
  (m.desc.area.space == 0 && s.marching (d.workCab m.desc.area.place)) ||
  (m.desc.opcode == 0x64#8 && m.desc.target.space == 0 && s.marching (d.workCab m.desc.target.place))

/-- What the accesses of a unit of a work item to cabinet memory count (R126, R128, R134): the bank requests, and a word corrected. -/
def State.itemBanks (s : State) (d : Design) (m : Cmd) (reads : List (Nat × Nat)) (ecc : Ecc) : State :=
  if m.desc.area.space ≠ 0 then (if ecc = .corrected then match d.workRegion m.desc.area.place with
    | some g => s.count .hbmCorrected (chOf g.side) []
    | none => s else s)
  else
    let l := d.workCab m.desc.area.place
    let words := reads.flatMap (fun e => (List.range ((e.1 + e.2 + 7) / 8 - e.1 / 8)).map (e.1 / 8 + ·))
    let s := s.bankRequests d l 5 words
    match s.physOf l, words with
    | some (c, die, i), w :: _ =>
      if ecc = .corrected then (s.count .cmemCorrected c [die, i]).corrected d (partOfCab l) c die i w
      else s.modCab c die i fun q => { q with corrected := q.corrected.filter (fun a => !words.contains a) }
    | _, _ => s

/-- Every unit of a work item has ended: a result is written sealed, and the item completes OK. -/
def State.itemEnds (s : State) (c : Ch) (d : Design) (m : Cmd) (b1 : List Byte) : State :=
  if (s.ch c).sched.holds m.ring m.desc.tag then s
  else if m.desc.writes then s.complete m .ok 0
  else (s.hostWrite m.desc.resultAddr (m.sealResult (s.itemResult d m b1))).complete m .ok 0

/-- Whether a work item reaches a range that gives only errors (R284). -/
def State.itemUnkeyed (s : State) (d : Design) (a : Area) (l : List (Nat × Nat)) : Bool :=
  a.space == 1 && (match d.workRegion a.place with
    | none => false
    | some g => l.any (fun e => ((s.rangeAt (chOf g.side) (g.base + e.1)).map (·.2.unkeyed)).getD false))

/-- What the counter nodes met that a work item reads (R283): those of the first bytes it reads or writes. -/
def State.itemNode (s : State) (d : Design) (a : Area) (first : Nat) (ecc : Ecc) : State :=
  if a.space ≠ 1 then s
  else match d.workRegion a.place with
    | none => s
    | some g => s.eccNode (chOf g.side) (g.base + first) ecc

/-- Run `n` packets of a work item from packet `first` on, on an engine of a hub (R257, R258). -/
def State.runItem (s : State) (c : Ch) (m : Cmd) (first n : Nat) (buf1 buf2 : List Byte) (ecc : Ecc) (macOk : Bool) : State :=
  let w : Work := .item m.ring m.desc.tag first n
  match s.designAt m.desc.partition.toNat with
  | none => s.endItem c m .aborted
  | some d =>
    if (m.desc.writes && d.runs) || s.itemMarched d m then s
    else
      let (o1, o2) := m.desc.opens
      match (if o1 then m.openBuf 1 buf1 else some []), (if o2 then m.openBuf 2 buf2 else some []) with
      | some b1, some b2 =>
        let lo := 4096 * first
        let hi := min m.desc.workBytes (4096 * (first + n))
        let ws := s.itemWrites d m b1 b2 lo hi
        let offs := if m.desc.opcode = 0x66#8 then (listOffsets b1 0 (m.desc.par 28 4)).map (fun o => (o, sizeBytes (m.desc.par 26 1)))
          else ws.map (fun e => (e.1, e.2.length))
        let area := if m.desc.writes then m.desc.writeArea else m.desc.area
        if offs.any (fun e => e.1 % 8 != 0 || !d.areaOk area e.1 e.2) then s.endItem c m .regionViolation
        else if ecc = .scratch then (s.hubEvent c 0x2006 [chNum c, 2]).endItem c m .memoryError
        else
        let reads := itemReads m b1 lo hi
        let first := (((if reads.isEmpty then offs else reads).head?).map (·.1)).getD area.offset
        let s := s.itemNode d (if reads.isEmpty then area else m.desc.area) first ecc
        if ecc = .uncorrectable ∨ (s.itemPoison d m b1 lo hi).isSome then
          let (s, st) := s.itemError d { m.desc.area with offset := (s.itemPoison d m b1 lo hi).getD first } false
          s.endItem c m st
        else if s.itemUnkeyed d m.desc.area reads || (m.desc.writes && s.itemUnkeyed d area offs) then s.endItem c m .integrityAlarm
        else if macOk = false ∧ m.desc.area.space = 1 then
          let (s, st) := s.itemError d m.desc.area true
          s.endItem c m st
        else
          let s := s.itemBanks d m (if m.desc.writes then offs else itemReads m b1 lo hi) ecc
          let s := ws.foldl (fun s e => s.areaWriteAll d.tag area e.1 e.2) s
          (s.unitDone c w).itemEnds c d m b1
      | _, _ => s.endItem c m .authFail

/-- Stop the running unit of a work item at its next 256-byte boundary (R264): which one is a free value (log entry 4). What it has written
stays; a result is left without its tag. The host data that it had opened is not shown to the module at the stop, so a write from it that
had begun leaves free bytes (log entry 4). -/
def State.cutItem (s : State) (c : Ch) (m : Cmd) (first n : Nat) : State :=
  let lo := 4096 * first
  let hi := min m.desc.workBytes (4096 * (first + n))
  let cut := lo + 256 * (s.free.toNat % ((hi - lo) / 256 + 1))
  let s := s.freeNext
  match s.designAt m.desc.partition.toNat with
  | none => s.endItem c m .aborted
  | some d =>
    let s :=
      if m.desc.writes then
        if d.runs then s
        else if m.desc.opcode = 0x67#8 then { s with freeCtr := s.freeCtr + 1 }
        else
          let ws := if m.desc.opcode = 0x62#8 then s.itemWrites d m (List.replicate lo 0 ++ s.freeBytes (cut - lo)) [] lo cut
            else s.itemWrites d m [] [] lo cut
          { ws.foldl (fun (s : State) e => s.areaWriteAll d.tag m.desc.writeArea e.1 e.2) s with freeCtr := s.freeCtr + (cut - lo) }
      else if m.desc.opcode = 0x63#8 then s.hostWrite m.desc.resultAddr (m.sealPart (s.areaRead d m.desc.area m.desc.area.offset cut))
      else s
    s.endItem c m .aborted

/-! ### The scheduler (R260, R261, R267) -/

/-- An engine; the last two are the spares at manufacture (R343). -/
def SchedSt.engine (q : SchedSt) (e : Nat) : Engine := KV.get { spare := decide (16 ≤ e) } e q.engines

/-- Update an engine. -/
def State.modEngine (s : State) (c : Ch) (e : Nat) (f : Engine → Engine) : State :=
  s.modSched c fun q => { q with engines := KV.upd { spare := decide (16 ≤ e) } e f q.engines }

/-- Whether an engine can take a unit. -/
def Engine.isFree (x : Engine) : Bool := !x.spare && x.busy.isNone && !x.disabled && !x.failed

/-- Whether a unit still has something to do; others leave the queue. -/
def State.unitAlive (s : State) (c : Ch) (u : WorkUnit) : Bool :=
  match u.work with
  | .intake k => !(s.mport c k).accepted.isEmpty
  | .outlet k => !(s.mport c k).released.isEmpty
  | .item r t _ _ => (s.cmd r t).isSome
  | .module r t => s.loads.any (fun l => l.ring == r && l.tag == t)
  | .compress => (s.ch c).acq.fifo.any (fun r => r.packed.isSome)

/-- Whether a unit is eligible: the orders of R256 and R258 allow it, and it can finish (R260). -/
def State.eligible (s : State) (c : Ch) (u : WorkUnit) : Bool :=
  match u.work with
  | .intake k => match (s.mport c k).design.bind s.design with
    | some d => s.mayDeliver d (s.mport c k)
    | none => false
  | .outlet k => match (s.mport c k).design.bind s.design with
    | some d => s.outletGoes d (k, s.mport c k)
    | none => false
  | .item r t _ _ => match s.cmd r t with
    | some m => !m.desc.writes || !((s.designAt m.desc.partition.toNat).map Design.runs).getD false
    | none => false
  | .module _ _ | .compress => true

/-- The next group and unit by weighted round robin, with the credits that stand (R261). -/
def State.pick (s : State) (c : Ch) (credits : KV Nat) : Option (Nat × WorkUnit) :=
  let q := (s.ch c).sched
  (List.range 8).findSome? fun i =>
    let g := (q.last + 1 + i) % 8
    if KV.get 0 g credits = 0 then none
    else (q.waiting.find? (fun u => u.group == g && s.eligible c u)).map (fun u => (g, u))

/-- The credits of a new round: the weights as they stand (R261, R262). -/
def State.newRound (s : State) (c : Ch) : KV Nat :=
  (List.range 8).foldl (fun k g => KV.put 0 g (s.regField .schGroup c [g] 0 8) k) []

/-- The part of a unit that is dispatched: one packet of a work item in EVENT, the whole of it in WORK (R260). -/
def WorkUnit.head (u : WorkUnit) (whole : Bool) : WorkUnit :=
  match u.work with
  | .item r t first n => if whole then u else { u with work := .item r t first (min 1 n) }
  | _ => u

/-- What stays in the queue when a unit is dispatched; in WORK the deliveries, or the write-outs, of a port go as one (R260). -/
def takeUnit (whole : Bool) (u : WorkUnit) : List WorkUnit → List WorkUnit
  | [] => []
  | x :: xs =>
    if x = u then
      match u.work with
      | .item r t first n => if whole ∨ n ≤ 1 then xs else { u with work := .item r t (first + 1) (n - 1) } :: xs
      | .intake _ | .outlet _ => if whole then xs.filter (fun y => y.work != u.work) else xs
      | .module _ _ | .compress => xs
    else x :: takeUnit whole u xs

/-- The 16-byte record of a dispatch (R267). -/
def State.schedRecord (s : State) (c : Ch) (g e credit : Nat) (u : WorkUnit) (whole : Bool) : List Byte :=
  let (kind, port, tag) := match u.work with
    | .intake k => (1, 128 * chNum c + k, ((s.mport c k).accepted.head?.map (fun m => m.tag.toNat)).getD 0)
    | .outlet k => (2, 128 * chNum c + k, (s.mport c k).mseqOut.toNat % 2 ^ 32)
    | .item r t _ _ => (if whole then 3 else 4, r, t.toNat)
    | .module r t => (5, r, t.toNat)
    | .compress => (5, 0, 0)
  leBytes 4 ((s.viewNs c 0).toNat % 2 ^ 32) ++ leBytes 1 (g + 8 * e) ++ leBytes 1 kind ++ leBytes 1 credit ++ leBytes 1 0 ++
    leBytes 2 port ++ leBytes 2 0 ++ leBytes 4 tag

/-- Write the record of a dispatch into the stream of the group's owner, which draws its NONCE when it starts (R267, R355). -/
def State.traceDispatch (s : State) (c : Ch) (g : Nat) (bytes : List Byte) : State :=
  if bitAt (s.reg .schTraceCtrl c []).toNat g = false then s
  else
    let owner := s.groupOwner c g
    let s := if ((s.ch c).trc.schedNonce.any (fun e => e.1 == owner)) then s
      else (s.modTrc c fun t => { t with schedNonce := KV.ins owner s.free t.schedNonce }).freeNext
    s.tracePkt c (3 + 16 * owner) (leBytes 1 3 ++ bytes)

/-- Give a unit of group `g` to engine `e`, with the credits that stand. -/
def State.dispatch (s : State) (c : Ch) (e g : Nat) (u : WorkUnit) (credits : KV Nat) : State :=
  let whole := bitAt (s.reg .schCtrl c []).toNat 0
  let left := KV.get 0 g credits - 1
  let rec' := s.schedRecord c g e left u whole
  let s := s.modSched c fun q =>
    { q with credits := KV.put 0 g left credits, last := g, waiting := takeUnit whole u q.waiting }
  let s := if (s.ch c).sched.waiting.isEmpty then s.roundOwners c else s
  (s.modEngine c e fun x => { x with busy := some (u.head whole) }).traceDispatch c g rec'

/-- A new round begins (R261, R262): each group has the credit of its weight, and the owner of its register. -/
def State.beginRound (s : State) (c : Ch) : State := (s.modSched c fun q => { q with credits := s.newRound c }).roundOwners c

/-- ENGINE_DISPATCH (R260, R261): a free engine receives the oldest eligible unit of the next group that has credit; when no group has both, a
new round begins. -/
def execEngineDispatch (c : Ch) (s : State) : Host.Outcome State Fault Refusal :=
  .next (
    let s := s.modSched c fun q => { q with waiting := q.waiting.filter (fun u => s.unitAlive c u) }
    let q := (s.ch c).sched
    match (List.range 18).find? (fun e => (q.engine e).isFree) with
    | none => s
    | some e =>
      match s.pick c q.credits with
      | some (g, u) => s.dispatch c e g u q.credits
      | none =>
        let s := s.beginRound c
        match s.pick c (s.newRound c) with
        | some (g, u) => s.dispatch c e g u (s.newRound c)
        | none => s)

/-- The MEM packets of a unit of a work item in the counters of its engine (R179): how an engine cuts an access into packets is not stated, so
what they count is free values (log entry 4). -/
def State.engineTraffic (s : State) (c : Ch) (e : Nat) : State :=
  let s := s.injected c (129 + e) s.free.toNat
  let s := s.freeNext
  (s.modStat c (129 + e) fun x => { x with mem := KV.upd 0 (s.free.toNat % 16) (fun n => min 0xFFFFFFFF (n + s.free.toNat / 16)) x.mem }).freeNext

/-- An engine compresses the oldest record of the FIFO that waits for it (R259, R356). -/
def packOldest : List StreamRec → List StreamRec
  | [] => []
  | r :: rs => match r.packed with
    | some b => { r with bytes := b, packed := none } :: rs
    | none => r :: packOldest rs

/-- UNIT_COMPLETE (R257-R260, R173): the unit on engine `e` runs to its end. `buf1` and `buf2` are the host buffers that a work item reads; `ecc` and
`macOk` what its reads of the design met. -/
def execUnitComplete (c : Ch) (e : Nat) (buf1 buf2 : List Byte) (ecc : Ecc) (macOk : Bool) (s : State) : Host.Outcome State Fault Refusal :=
  .next (match ((s.ch c).sched.engine e).busy with
    | none => s
    | some u =>
      let free := fun (s : State) => s.modEngine c e fun x => { x with busy := none }
      let whole := bitAt (s.reg .schCtrl c []).toNat 0
      match u.work with
      | .module _ _ => free s
      | .compress => free (s.modAcq c fun a => { a with fifo := packOldest a.fifo })
      | .intake k => match (s.mport c k).design.bind s.design with
        | none => free s
        | some d =>
          if (s.mport c k).accepted.isEmpty then free s
          else if s.mayDeliver d (s.mport c k) = false then s
          else
            let s := free (s.deliver d k)
            if whole then
              (List.range (s.mport c k).accepted.length).foldl (fun s _ => match s.design d.tag with
                | some d => if s.mayDeliver d (s.mport c k) then s.deliver d k else s
                | none => s) s
            else s
      | .outlet k => match (s.mport c k).design.bind s.design with
        | none => free s
        | some d =>
          if (s.mport c k).released.isEmpty then free s
          else if s.outletGoes d (k, s.mport c k) = false then s
          else
            let s := free (s.outletOne d k)
            let s := if whole then s.outletAll d k (s.mport c k).released.length else s
            if d.runs then s else s.writeCons d.tag
      | .item r t first n => match s.cmd r t with
        | none => free s
        | some m =>
          if ((s.ch c).sched.engine e).lost then (s.modEngine c e fun x => { x with lost := false }).endItem c m .memoryError
          else (s.engineTraffic c e).runItem c m first n buf1 buf2 ecc macOk)

/-! ### Engines (R343) -/

/-- Put the unit that an engine runs back at the front of the queue. -/
def State.requeue (s : State) (c : Ch) (e : Nat) : State :=
  match ((s.ch c).sched.engine e).busy with
  | none => s
  | some u => (s.modEngine c e fun x => { x with busy := none }).modSched c fun q => { q with waiting := u :: q.waiting }

/-- ENGINE_REPLACED (R343): the pair of an engine disagrees, its unit is dispatched again; when the known-answer check fails too, the engine
is marked failed and a spare takes its place. -/
def execEngineReplaced (c : Ch) (e : Nat) (failed : Bool) (s : State) : Host.Outcome State Fault Refusal :=
  .next (if 18 ≤ e ∨ ((s.ch c).sched.engine e).spare ∨ ((s.ch c).sched.engine e).failed then s
    else
      let s := s.requeue c e
      if failed = false then s
      else
        let s := s.modEngine c e fun x => { x with failed := true }
        match (List.range 18).find? (fun k => ((s.ch c).sched.engine k).spare && !((s.ch c).sched.engine k).failed) with
        | none => s
        | some k => (s.modEngine c k fun x => { x with spare := false }).hubEvent c 0x5003 [e, k])

/-- SPARE_ENGINE_CHECK (R343): the known-answer check of a spare; one that fails is marked in the spare map. -/
def execSpareEngineCheck (c : Ch) (e : Nat) (passed : Bool) (s : State) : Host.Outcome State Fault Refusal :=
  .next (if e < 18 ∧ ((s.ch c).sched.engine e).spare ∧ passed = false then s.modEngine c e fun x => { x with failed := true } else s)

end Sys2Proof.Machine
end

