-- ==== Sys2Proof/Machine/TimeBus.lean ====
section
/-! DEFINITION. Time and the trigger bus (17_time.md): the views of a hub and their servo (R380-R388), timed launches (R389-R391),
SYSCLK and the oscillators (R392, R393), and the TRIG lines (R394-R396). A view is kept in 2^-32 ns, a CORRECTION and a turnaround in
2^-16 ns. -/

namespace Sys2Proof.Machine

open Sys2Proof

/-! ### Views (R380, R382-R386) -/

/-- Change the RATE of a view at a raw value: OFFSET takes up the difference, so that the view never jumps (R380). -/
def View.setRate (x : View) (raw : Nat) (r : Int) : View :=
  { x with rate := r, offset := x.offset + (raw : Int) * x.rate / 2 ^ 40 - (raw : Int) * r / 2 ^ 40 }

/-- The raw value at which a view reads a time (R389: T converted to view 0). -/
def rawOf (v : Nat) (x : View) (raw : Nat) (t : Int) : Int :=
  if v < 6 then (t - x.offset) * 2 ^ 40 / (2 ^ 40 + x.rate)
  else if x.inc = 0 then raw else x.r0 + (t - x.v0) * 2 ^ 32 / x.inc

/-- A time or a difference of a view in whole ns, saturated to 32 signed bits (TIME_STEPPED, TIME_JUMP_REFUSED). -/
def nsField (x : Int) : Nat := satSigned (x / 2 ^ 32) 32

/-- SOURCE of a view; 5-7 act as 0. -/
def State.viewSource (s : State) (c : Ch) (v : Nat) : Nat :=
  let n := s.regField .timViewCfg c [v] 0 3
  if 5 ≤ n then 0 else n

/-- Whether a view of 0-5 is enabled with a given SOURCE. -/
def State.viewIs (s : State) (c : Ch) (v src : Nat) : Bool :=
  decide (v < 6) && (s.view c v).state != .disabled && s.viewSource c v == src

/-- TIM_JUMP.THRESH_NS, from 1 to 1,000,000,000. -/
def State.jumpNs (s : State) (c : Ch) : Int := max 1 (min 1000000000 (s.regField .timJump c [] 0 30))

/-! ### Launch entries (R389, R390) -/

/-- A launch entry. -/
def State.launch (s : State) (c : Ch) (e : Nat) : Option Launch := KV.get none e (s.ch c).time.launches

/-- Whether the view of a launch entry has reached its time. -/
def State.launchDue (s : State) (c : Ch) (l : Launch) : Bool := decide ((l.time : Int) * 2 ^ 32 ≤ s.viewNow c l.view)

/-- The time of a launch entry in view 0 of its hub, in ns (R389). -/
def State.launchTime0 (s : State) (c : Ch) (l : Launch) : BitVec 64 :=
  let r := rawOf l.view (s.view c l.view) (s.rawNow c) ((l.time : Int) * 2 ^ 32)
  BitVec.ofInt 64 (viewAt 0 (s.view c 0) r.toNat / 2 ^ 32)

/-- Send something to every module that the link slots of a design bind, to both members of a pair (R221, R389). -/
def State.sendBound (s : State) (c : Ch) (d : Design) (x : Nat → Sent) : State :=
  ((d.slots.map (·.remote)).eraseDups).foldl (fun s m => s.sendTo c m (x m)) s

/-- Let a design that waits for its launch begin (R236, R389, R391). -/
def State.beginLaunch (s : State) (tag : Nat) : State :=
  s.modDesign tag fun d => { d with run := d.run.map (fun (r : RunRec) => { r with waitLaunch := false }) }

/-- Whether a design has a RUN with WAIT_LAUNCH outstanding. -/
def Design.awaitsLaunch (d : Design) : Bool := (d.run.map (·.waitLaunch)).getD false

/-- What a launch entry does as it fires; whether a local design started. -/
def State.launchEffect (s : State) (c : Ch) (e : Nat) (l : Launch) : State × Bool :=
  let d := if l.tenant then s.designAt l.partition else none
  if l.kind = 1 then
    match d with
    | none => (s, false)
    | some d => ((s.beginLaunch d.tag).sendBound c d fun m => .runStart m (BitVec.ofNat 48 d.frame) e, d.awaitsLaunch)
  else
    let s1 := ((List.range 4).filter (fun k => bitAt l.lines k)).foldl (fun s k => s.drivePulse c k) s
    match d with
    | some d => if l.message then (s1.sendBound c d fun m => .trig m e (BitVec.ofNat 48 d.frame) (s.launchTime0 c l), false) else (s1, false)
    | none => (s1, false)

/-- Fire a launch entry: its effect, then its command completes OK with what happened (R389). -/
def State.fireLaunch (s : State) (c : Ch) (e : Nat) (late : Bool) : State :=
  match s.launch c e with
  | none => s
  | some l =>
    let (s, started) := s.launchEffect c e l
    let s := s.modTime c fun t => { t with launches := KV.put none e none t.launches }
    s.completeTag l.ring l.tag .ok (detail [BitVec.ofNat 8 (bit01 started + 2 * bit01 late)])

/-- A step of a view fires at once, as late, every entry whose time it carried the view past (R390). -/
def State.fireDue (s : State) (c : Ch) (v : Nat) : State :=
  (List.range 16).foldl (fun s e => match s.launch c e with
    | some l => if l.view = v ∧ s.launchDue c l then s.fireLaunch c e true else s
    | none => s) s

/-- Step a view by a difference: TIME_STEPPED, and late launches (R383, R384, R390). -/
def State.stepView (s : State) (c : Ch) (v : Nat) (d : Int) (cause : Nat) : State :=
  let s := s.modView c v fun x => { x with offset := x.offset + d, stepped := true, state := .locked, reqAt := none }
  (s.hubEvent c 0xB001 [v, cause, nsField d]).fireDue c v

/-- LAUNCH of either ring (R389): the checks, in this order: the view and the lines, the time, a free entry. -/
def State.placeLaunch (s : State) (m : Cmd) (tenant : Bool) : State :=
  let c := chOf (m.desc.par 12 1)
  let l : Launch :=
    { tenant := tenant, kind := m.desc.par 8 1, view := m.desc.par 9 1, lines := m.desc.par 10 1,
      message := tenant && bitAt (m.desc.par 11 1) 0, time := m.desc.par 16 8, partition := m.desc.partition.toNat,
      ring := m.ring, tag := m.desc.tag, armed := true }
  let barred := tenant && l.kind == 2 && (List.range 4).any (fun k => bitAt l.lines k && !bitAt (s.reg .timTrigCfg c [k]).toNat 14)
  if (s.pw c).state.hubOn = false ∨ s.channels.contains c = false ∨ (l.view < 6 ∧ (s.view c l.view).state = .disabled) ∨ barred
      ∨ (s.mode.mode = .mirrored ∧ s.mode.partner) then s.complete m .refusedState 0
  else if s.launchDue c l then s.complete m .timeout 0
  else match (List.range 16).find? (fun e => (s.launch c e).isNone) with
    | none => s.complete m .resource 0
    | some e => (s.start m).modTime c fun t => { t with launches := KV.put none e (some l) t.launches }

/-- LAUNCH on the operator ring (R389): lines only. -/
def execOperatorLaunch (r : RingNo) (t : Tag) (s : State) : Host.Outcome State Fault Refusal :=
  .next (s.withCmd r t 0x28 fun s m => s.placeLaunch m false)

/-- LAUNCH on a tenant ring (R389): RUN_START or TRIG. -/
def execTenantLaunch (r : RingNo) (t : Tag) (s : State) : Host.Outcome State Fault Refusal :=
  .next (s.withCmd r t 0x78 fun s m => s.placeLaunch m true)

/-- LAUNCH_FIRE (R389, R390): entry `e` fires once its view reads its time or later. -/
def execLaunchFire (c : Ch) (e : Nat) (s : State) : Host.Outcome State Fault Refusal :=
  .next (match s.launch c e with
    | some l => if s.launchDue c l then s.fireLaunch c e false else s
    | none => s)

/-- RUN_START (R391): every design that waits for its launch, binds the sender and stands at FRAME starts; if none does, the message is
logged. -/
def execRunStart (c : Ch) (src : Nat) (frame : BitVec 48) (launch : Nat) (s : State) : Host.Outcome State Fault Refusal :=
  .next (
    s.withMsgOn c (s.carrying c) (some src) (.runStart 0 frame launch) fun s _ _ =>
    let ds := s.designs.filter fun d => d.awaitsLaunch && d.slots.any (fun b => b.remote == src) && BitVec.ofNat 48 d.frame == frame
    if ds.isEmpty then s.hubEvent c 0xB005 [src, frame.toNat % 2 ^ 32]
    else ds.foldl (fun s d => s.beginLaunch d.tag) s)

/-! ### Commands of the operator and registers (R379, R382, R384, R386) -/

/-- PERMIT_STEP (R384): a view in REFUSED steps to its latest measurement. -/
def execPermitStep (r : RingNo) (t : Tag) (s : State) : Host.Outcome State Fault Refusal :=
  .next (s.withCmd r t 0x29 fun s m =>
    let c := chOf (m.desc.par 8 1)
    let v := m.desc.par 9 1
    let x := s.view c v
    if v < 6 ∧ x.state = .refused then (s.stepView c v (-x.lastOffset) 2).complete m .ok 0
    else s.complete m .nothingToAbort 0)

/-- VIEW_WRITE (R386): INC of view 6 or 7, and its value with SET_VALUE, in each channel of the mask. -/
def execViewWrite (r : RingNo) (t : Tag) (s : State) : Host.Outcome State Fault Refusal :=
  .next (s.withCmd r t 0x2A fun s m =>
    let v := m.desc.par 9 1
    if v < 6 then s.complete m .refusedState 0
    else
      let cs := s.channels.filter (fun c => bitAt (m.desc.par 8 1) (chNum c) && (s.pw c).state.hubOn)
      let s := cs.foldl (fun s c =>
        let now := s.viewNow c v
        let raw := s.rawNow c
        let s := s.modView c v fun x =>
          { x with v0 := if bitAt (m.desc.par 10 1) 0 then (m.desc.par 16 8 : Int) * 2 ^ 32 else now, r0 := raw, inc := m.desc.par 24 8 }
        s.fireDue c v) s
      s.complete m .ok 0)

/-- A write of TIM_SNAP (R379): GO captures all eight views at one raw value. -/
def execTimSnap (c : Ch) (value : Word32) (s : State) : Host.Outcome State Fault Refusal :=
  .next (if s.portAnswers = false then s else if value.getLsbD 0 = false ∨ (s.pw c).state.hubOn = false then s
    else
      let at' := fun (v : Nat) => BitVec.ofInt 96 (s.viewNow c v)
      let s := (List.range 8).foldl (fun s v =>
        (s.setReg .timSnapLo c [v] ((at' v >>> 32).setWidth 32)).setReg .timSnapHi c [v] ((at' v >>> 64).setWidth 32)) s
      s.modTime c fun t => { t with frac := (List.range 8).foldl (fun k v => KV.put 0 v ((at' v).setWidth 32) k) t.frac })

/-- The RATE of a view locked to SYSCLK: how that clock runs against the raw counter is a free value (R392; log entry 4). -/
def State.sysclkRate (s : State) : Int := (s.free.setWidth 32).toInt

/-- Apply the start rule of a view's SOURCE (R382). -/
def State.startView (s : State) (c : Ch) (v : Nat) : State :=
  let raw := s.rawNow c
  let now := s.viewNow c 0
  match s.viewSource c v with
  | 1 | 3 => s.modView c v fun _ => { state := .acquiring }
  | 2 => s.modView c v fun _ => { state := .running, offset := now - raw }
  | 4 =>
    let locked := (s.ch c).time.sysclk
    (s.modView c v fun _ =>
      { state := if locked then .locked else .holdover, offset := (now - raw),
        stepped := false : View }.setRate raw (if locked then s.sysclkRate else 0)).freeNext
  | _ => s.modView c v fun _ => { state := .running }

/-- A write of TIM_VIEW_CFG_v: EN = 1 applies the start rule of the source (R382); EN = 0 disables the view, whose launch entries complete
ABORTED (R390). -/
def execViewEnable (c : Ch) (v : Nat) (value : Word32) (s : State) : Host.Outcome State Fault Refusal :=
  .next (if s.portAnswers = false then s else if 6 ≤ v ∨ (s.pw c).state.hubOn = false then s
    else
      let s := s.setReg .timViewCfg c [v] (value &&& 0xFFFFFF0F#32)
      if value.getLsbD 3 then (s.startView c v).fireDue c v
      else (s.modView c v fun _ => {}).abortLaunches c (fun l => l.view == v))

/-! ### Timing messages (R215, R387, R388) -/

/-- The time that a message carries, with its corrections, in 2^-32 ns. -/
def timeOf (m : TimeMsg) : Int := ((m.seconds : Int) * 1000000000 + m.ns) * 2 ^ 32 + m.correction * 2 ^ 16

/-- A message that carries a view's reading (R215). -/
def timeMsg (src domain : Nat) (seq : BitVec 16) (corr : Int) (t : Int) : TimeMsg :=
  let ns := (t / 2 ^ 32).toNat
  { src := src, domain := domain, seq := seq, correction := corr, seconds := ns / 1000000000 % 2 ^ 48, ns := ns % 1000000000 }

/-- Whether a slave view takes a message that arrived on a port: its domain a view of SOURCE 1, the port in its mask (R387). -/
def State.takesTime (s : State) (c : Ch) (p : Nat) (m : TimeMsg) : Bool :=
  s.viewIs c m.domain 1 && bitAt (s.reg .timViewCfg c [m.domain]).toNat (8 + p)

/-- Take up a TIME message of a port that carries traffic; one that arrived in a resent flit is discarded (R215). `f` is given the raw value at
the arrival of its head flit. -/
def State.withTime (s : State) (c : Ch) (p : Nat) (src : Nat) (m : Sent) (f : State → Nat → State) : State :=
  if s.carries c p then s.withMsg c p (some src) m fun s h => if h.resent then s else f s (h.arrived + s.sixteenths) else s

/-- Mean of the last path delays; none before the first. -/
def View.pathDelay (x : View) : Option Int := if x.delays.isEmpty then none else some (x.delays.sum / x.delays.length)

/-- The master's rate against the raw counter over the last eight Sync intervals, in 2^-40; the view's own before the first. -/
def View.masterRate (x : View) : Int :=
  match x.syncs.head?, x.syncs.getLast? with
  | some a, some b => if a.2 = b.2 then x.rate else ((a.1 - b.1) - (a.2 - b.2)) * 2 ^ 40 / (a.2 - b.2)
  | _, _ => x.rate

/-- 500 ppm in units of RATE. -/
def rateLimit : Int := 549755813

/-- The RATE that the servo sets for an offset (R387). -/
def View.servoRate (x : View) (o : Int) : Int :=
  max (-rateLimit) (min rateLimit (x.masterRate - o * 2 ^ 40 / (8 * 62500000 * 2 ^ 32)))

/-- SYNC (R383-R385, R387): a Sync of the master measures the offset. The first measurement steps the view; later ones slew it within the
jump threshold, and beyond the threshold the view is REFUSED. -/
def execSync (c : Ch) (p : Nat) (m : TimeMsg) (s : State) : Host.Outcome State Fault Refusal :=
  .next (s.withTime c p m.src (.time 0 0 m) fun s raw =>
    let v := m.domain
    let x := s.view c v
    if s.takesTime c p m = false ∨ x.hasMaster = false ∨ x.master ≠ m.src then s
    else
      let x := { x with syncs := ((timeOf m, (raw : Int)) :: x.syncs).take 9 }
      let s := s.freeNext.modView c v fun _ => x
      match x.pathDelay with
      | none => s
      | some pd =>
        let o := viewAt v x raw - timeOf m - pd
        let s := s.modView c v fun y => { y with lastOffset := o }
        if x.stepped = false then s.stepView c v (-o) 1
        else if s.jumpNs c * 2 ^ 32 < o.natAbs then
          let s := s.modView c v fun y => { y with state := .refused }
          if x.state = .refused then s else s.hubEvent c 0xB002 [v, nsField o]
        else s.modView c v fun y => { y.setRate raw (x.servoRate o) with state := .locked })

/-- SYNC_TIMEOUT (R385): no Sync for three intervals; the view runs on in HOLDOVER. -/
def execSyncTimeout (c : Ch) (v : Nat) (s : State) : Host.Outcome State Fault Refusal :=
  .next (
    let x := s.view c v
    if s.viewIs c v 1 && (x.state == .locked || x.state == .refused) then
      (s.modView c v fun y => { y with state := .holdover }).hubEvent c 0xB004 [v]
    else s)

/-- Lexicographic comparison of lists. -/
def lexLess : List Nat → List Nat → Bool
  | a :: as, b :: bs => decide (a < b) || (a == b && lexLess as bs)
  | _, _ => false

/-- Whether one dataset compares better than another (the dataset comparison of IEEE 1588-2019; log entry 16). -/
def betterMaster (a b : Dataset) : Bool :=
  if a.grandmaster = b.grandmaster then decide (a.stepsRemoved < b.stepsRemoved)
  else
    let key := fun (d : Dataset) => [d.priority1, d.clockClass, d.clockAccuracy, d.variance, d.priority2, d.grandmaster.toNat]
    lexLess (key a) (key b)

/-- ANNOUNCE (R387): the first Announce, or a better one of another module, makes its sender the master. -/
def execAnnounce (c : Ch) (p : Nat) (m : TimeMsg) (ds : Dataset) (s : State) : Host.Outcome State Fault Refusal :=
  .next (s.withTime c p m.src (.announce 0 m ds) fun s _ =>
    let v := m.domain
    let x := s.view c v
    if s.takesTime c p m = false then s
    else if x.hasMaster && x.master == m.src then s.modView c v fun y => { y with best := some ds, port := p }
    else
      let better := match x.best with
        | some b => x.hasMaster = false || betterMaster ds b
        | none => true
      if better then
        (s.modView c v fun y => { y with hasMaster := true, master := m.src, port := p, best := some ds, delays := [], syncs := [], reqAt := none }).hubEvent
          c 0xB003 [v, p, m.src]
      else s)

/-- MASTER_TIMEOUT (R387): no Announce for three intervals; the present master is dropped. -/
def execMasterTimeout (c : Ch) (v : Nat) (s : State) : Host.Outcome State Fault Refusal :=
  .next (if s.viewIs c v 1 && (s.view c v).hasMaster then
      s.modView c v fun y => { y with hasMaster := false, master := 0, port := 0, best := none, delays := [], syncs := [], reqAt := none }
    else s)

/-- PDELAY_TIMER (R387): every 1 s a slave view sends Pdelay_Req to its master's module. -/
def execPdelayTimer (c : Ch) (v : Nat) (s : State) : Host.Outcome State Fault Refusal :=
  .next (
    let x := s.view c v
    if s.viewIs c v 1 && x.hasMaster then
      let t := viewAt v x (s.rawStamp c)
      let s := s.freeNext.modView c v fun y => { y with seq := y.seq + 1, reqAt := some (x.seq.toNat, t) }
      s.sendTo c x.master (.time x.master 2 (timeMsg s.ownAddress v x.seq 0 t))
    else s)

/-- PDELAY_REQ (R388): a view of SOURCE 2 answers, its answer carrying the corrections of the request. -/
def execPdelayReq (c : Ch) (p : Nat) (m : TimeMsg) (s : State) : Host.Outcome State Fault Refusal :=
  .next (s.withTime c p m.src (.time 0 2 m) fun s _ => if s.viewIs c m.domain 2 then
      let t := viewAt m.domain (s.view c m.domain) (s.rawStamp c)
      s.freeNext.sendTo c m.src (.time m.src 3 (timeMsg s.ownAddress m.domain m.seq m.correction t))
    else s)

/-- PDELAY_RESP (R387): the answer to the request outstanding gives a path delay, kept unless it lies more than 100 ns from the mean.
`turnaround` is t3 - t2. -/
def execPdelayResp (c : Ch) (p : Nat) (m : TimeMsg) (turnaround : Int) (s : State) : Host.Outcome State Fault Refusal :=
  .next (s.withTime c p m.src (.time 0 3 m) fun s raw =>
    let v := m.domain
    let x := s.view c v
    match x.reqAt with
    | none => s
    | some (seq, t1) =>
      if s.takesTime c p m = false ∨ x.master ≠ m.src ∨ m.seq.toNat ≠ seq then s
      else
        let t4 := viewAt v x raw
        let pd := ((t4 - t1) - (turnaround + m.correction) * 2 ^ 16) / 2
        let far := match x.pathDelay with
          | some mean => decide (100 * 2 ^ 32 < (pd - mean).natAbs)
          | none => false
        s.freeNext.modView c v fun y => { y with reqAt := none, delays := if far then y.delays else (pd :: y.delays).take 8 })

/-- The modules of the topology table that a channel reaches, but this one (R388). -/
def State.reachable (s : State) (c : Ch) : List Nat :=
  match s.topo with
  | some t => (List.range 64).filter (fun m => t.kind m != 0 && t.kind m != 4 && m != t.identity && s.reaches c m)
  | none => []

/-- ANNOUNCE_SEND (R388): a master view announces its dataset to every module that its channel reaches. -/
def execAnnounceSend (c : Ch) (v : Nat) (s : State) : Host.Outcome State Fault Refusal :=
  .next (if s.viewIs c v 2 then
      let x := s.view c v
      let ds : Dataset :=
        { priority1 := s.regField .timViewCfg c [v] 16 8, clockClass := 248, clockAccuracy := 0xFE, variance := 0xFFFF,
          priority2 := s.regField .timViewCfg c [v] 24 8, grandmaster := s.id.serial, stepsRemoved := 0 }
      let msg := timeMsg s.ownAddress v x.seq 0 (s.viewNow c v)
      (s.reachable c).foldl (fun s m => s.sendTo c m (.announce m msg ds)) (s.modView c v fun y => { y with seq := y.seq + 1 })
    else s)

/-- SYNC_SEND (R388): a master view sends Sync to every module that its channel reaches; TIMESTAMP is written at the departure of each
(R215). -/
def execSyncSend (c : Ch) (v : Nat) (s : State) : Host.Outcome State Fault Refusal :=
  .next (if s.viewIs c v 2 then
      let x := s.view c v
      (s.reachable c).foldl (fun s m =>
        (s.sendTo c m (.time m 0 (timeMsg s.ownAddress v x.seq 0 (viewAt v x (s.rawStamp c))))).freeNext)
        (s.modView c v fun y => { y with seq := y.seq + 1 })
    else s)

/-- VIEW_EXCHANGE (R382, R383, R385): a view of SOURCE 3 follows view `v` of the other hub: it takes its RATE, and steps at its first
acquisition and after a step of the source view, which shows as a difference above 4 ns (log entry 17). -/
def execViewExchange (c : Ch) (v : Nat) (s : State) : Host.Outcome State Fault Refusal :=
  .next (if s.viewIs c v 3 = false then s
    else
      let o := otherCh c
      let x := s.view c v
      let y := s.view o v
      if (s.pw o).state.hubOn = false ∨ s.channels.contains o = false ∨ y.state = .disabled then
        if x.state = .locked then (s.modView c v fun z => { z with state := .holdover }).hubEvent c 0xB004 [v] else s
      else
        let d := s.viewNow o v - s.viewNow c v
        let s := s.modView c v fun z => { z.setRate (s.rawNow c) y.rate with lastOffset := -d, state := .locked }
        if x.stepped = false then s.stepView c v d 1
        else if 4 * 2 ^ 32 < d.natAbs then (s.modView c v fun z => { z with offset := z.offset + d }).fireDue c v
        else s)

/-! ### SYSCLK and the oscillators (R392, R393) -/

/-- Change every enabled view of SOURCE 4 of a hub. -/
def State.modSysViews (s : State) (c : Ch) (f : View → View) : State :=
  (List.range 6).foldl (fun s v => if s.viewIs c v 4 then s.modView c v f else s) s

/-- SYSCLK_LOST (R392): written once; the views of SOURCE 4 hold over. -/
def execSysclkLost (c : Ch) (s : State) : Host.Outcome State Fault Refusal :=
  .next (if (s.ch c).time.sysclk = false ∨ (s.pw c).state.hubOn = false then s
    else ((s.modTime c fun t => { t with sysclk := false }).hubEvent c 0xB007 []).modSysViews c fun x => { x with state := .holdover })

/-- SYSCLK_RETURN (R392): the lock returns without a step. -/
def execSysclkReturn (c : Ch) (s : State) : Host.Outcome State Fault Refusal :=
  .next (if (s.ch c).time.sysclk ∨ (s.pw c).state.hubOn = false then s
    else
      let raw := s.rawNow c
      let r := s.sysclkRate
      ((s.modTime c fun t => { t with sysclk := true }).freeNext).modSysViews c fun x => { x.setRate raw r with state := .locked })

/-- OSC_CHECK (R393): the 1 ms comparison on a die (0 host, 1 HUB-A, 2 HUB-B). `differs` names an oscillator that differs from both others, true for
the one in use: it is stopped and marked failed, and the die runs on the other; where that is the one it ran on, nothing switches. -/
def execOscCheck (site : Nat) (differs : Option Bool) (s : State) : Host.Outcome State Fault Refusal :=
  .next (match differs with
    | none => s
    | some used => match site with
      | 0 =>
        if s.hostOsc.2 ∨ s.pwr.hostOn = false then s
        else if used then { s with hostOsc := (1 - s.hostOsc.1, true) }.event 0xB006 0 0xFF 0 false [0]
        else { s with hostOsc := (s.hostOsc.1, true) }
      | 1 | 2 =>
        let c := chOf (site - 1)
        if (s.ch c).time.oscFailed ∨ (s.pw c).state.hubOn = false then s
        else if used then (s.modTime c fun t => { t with osc := 1 - t.osc, oscFailed := true }).hubEvent c 0xB006 [site]
        else s.modTime c fun t => { t with oscFailed := true }
      | _ => s)

/-! ### The trigger bus (R365, R394-R396) -/

/-- TRIG_EDGE (R394, R395): a rising edge at the lands, high for at least 5 ns, is acted on after DELAY. A pulse of the module's own hubs is
not taken from the land. -/
def execTrigEdge (c : Ch) (line : Nat) (highNs : Nat) (s : State) : Host.Outcome State Fault Refusal :=
  .next (if 4 ≤ line ∨ highNs < 5 ∨ (s.pw c).state.hubOn = false then s
    else
      let delay := fun h => s.regField .timTrigCfg h [line] 0 12
      let own := s.channels.any fun h => match (KV.get ({} : Line) line (s.ch h).time.lines).pulseEnd with
        | some e => decide (s.clock < e + (delay h + 99) / 100)
        | none => false
      if own then s else s.freeNext.acceptEdge c line (s.rawStamp c + delay c * 2 ^ 32 / 100))

/-- TRIG_MESSAGE (R365): a mark at the next commit of each design whose link slots bind the sender. -/
def execTrigMessage (c : Ch) (src unit : Nat) (frame : BitVec 48) (eventTime : BitVec 64) (s : State) : Host.Outcome State Fault Refusal :=
  .next (s.withMsgOn c (s.carrying c) (some src) (.trig 0 unit frame eventTime) fun s _ _ => s.modTime c fun t => { t with
    marks := t.marks ++ (s.designs.filter (fun d => d.slots.any (fun b => b.remote == src))).map (fun d => (d.tag, src, unit, eventTime)) })

end Sys2Proof.Machine
end

