-- ==== Sys2Proof/Machine/Functions.lean ====
section
/-! DEFINITION. Disabling and aborting (R243-R245, R264): SET_FUNCTION and the two ABORT commands. -/

namespace Sys2Proof.Machine

open Sys2Proof

/-! ### SET_FUNCTION (R243, R264, R360) -/

/-- Write the enable bit of a Velvin Link port (R196, R243). -/
def State.linkFunction (s : State) (c : Ch) (p : Nat) (on : Bool) : State :=
  s.portCtrl c p (setBit (s.reg .vlPortCtrl c [p]) 0 on)

/-- Disable an engine (R264): the unit that it runs ends; how many operations were given ABORTED. -/
def State.engineOff (s : State) (c : Ch) (e : Nat) : State × Nat :=
  let u : Option Work := ((s.ch c).sched.engine e).busy.map (fun x => x.work)
  let off := fun (s : State) => s.modEngine c e fun x => { x with busy := none, disabled := true }
  match u with
  | some (.item r t first n) => match s.cmd r t with
    | some m => (off (s.cutItem c m first n), 1)
    | none => (off s, 0)
  | some (.intake k) => match (s.mport c k).accepted, (s.mport c k).design.bind s.design with
    | m :: rest, some d =>
      let s := s.modDesignPort d k fun q => { q with accepted := rest }
      (off (s.abortMsgs [m]), 1)
    | _, _ => (off s, 0)
  | some (.outlet _) | some (.module _ _) | some .compress => (off (s.requeue c e), 0)
  | none => (off s, 0)

/-- Abort a message that the module has read and not yet taken up: its sequence number is consumed (R254). -/
def State.abortOne (s : State) (m : Cmd) : State := (s.useMseq m.ring (BitVec.ofNat 64 (m.desc.par 24 8))).complete m .aborted 0

/-- Disable a message port (R264): every message accepted and not delivered completes ABORTED. -/
def State.mportOff (s : State) (c : Ch) (k : Nat) : State × Nat :=
  let ms := (s.mport c k).accepted
  let us := ((s.mport c k).inRing.map s.unread).getD []
  let s := us.foldl (fun s m => s.abortOne m) s
  let f := fun (q : MPort) => { q with accepted := [], disabled := true }
  let s := match (s.mport c k).design.bind s.design with
    | some d => s.modDesignPort d k f
    | none => s.modMport c k f
  (s.abortMsgs ms, ms.length + us.length)

/-- Enable a message port again. -/
def State.mportOn (s : State) (c : Ch) (k : Nat) : State :=
  let f := fun (q : MPort) => { q with disabled := false }
  match (s.mport c k).design.bind s.design with
  | some d => s.modDesignPort d k f
  | none => s.modMport c k f

/-- Whether a kind of function has an index on a channel (opcode table). -/
def State.functionOk (s : State) (kind ch index onOff : Nat) : Bool :=
  decide (ch ≤ 1) && s.channels.contains (chOf ch) && (s.pw (chOf ch)).state.hubOn && decide (onOff ≤ 1) &&
  match kind with
  | 0 => decide (index < 8)
  | 1 => decide (index < 18)
  | 2 => decide (index < 128)
  | 3 | 4 => index == 0
  | 5 => index == 0 && s.hasGuest (chOf ch)
  | _ => false

/-- Disable or enable a function; how many operations were given ABORTED. -/
def State.setFunc (s : State) (kind : Nat) (c : Ch) (index : Nat) (on : Bool) : State × Nat :=
  match kind with
  | 0 => (s.linkFunction c index on, 0)
  | 1 => if on then (s.modEngine c index fun x => { x with disabled := false }, 0) else s.engineOff c index
  | 2 => if on then (s.mportOn c index, 0) else s.mportOff c index
  | 3 => (s.modAcq c fun a => { a with disabled := !on }, 0)
  | 4 => (s.modTrc c fun t => { t with disabled := !on }, 0)
  | _ => (s.modGuest c fun g => { g with disabled := !on }, 0)

/-- SET_FUNCTION (R243, R264): detail byte 16 is the number of operations given ABORTED. -/
def execSetFunction (r : RingNo) (t : Tag) (s : State) : Host.Outcome State Fault Refusal :=
  .next (s.withCmd r t 0x09 fun s m =>
    let kind := m.desc.par 8 1
    let index := m.desc.par 10 2
    if s.functionOk kind (m.desc.par 9 1) index (m.desc.par 12 1) = false then s.complete m .refusedState 0
    else
      let x := s.setFunc kind (chOf (m.desc.par 9 1)) index (m.desc.par 12 1 == 1)
      x.1.complete m .ok (detail [BitVec.ofNat 8 (min 255 x.2)]))

/-! ### ABORT (R245) -/

/-- Commands that always run to their natural end, and ABORT itself (R245). -/
def neverAborted : List Nat := [0x02, 0x03, 0x04, 0x05, 0x06, 0x07, 0x08, 0x0A, 0x42, 0x44, 0x47]

/-- Stop the design of an aborted RUN or STEP at its last commit: the frame in progress is not re-run. -/
def State.abortRun (s : State) (m : Cmd) : State :=
  match s.designs.find? (fun d => (d.run.map (fun r => r.ring == m.ring && r.tag == m.desc.tag)).getD false) with
  | some d => ((s.tellStop d).stopAt d.tag .aborted 3).finishStops d.tag
  | none => s.complete m .aborted 0

/-- End an aborted work item (R264): a unit that runs stops at its next 256-byte boundary, queued ones do nothing. -/
def State.abortItem (s : State) (m : Cmd) : State :=
  let mine := fun (u : WorkUnit) => match u.work with
    | .item r t first n => if r = m.ring ∧ t = m.desc.tag then some (first, n) else none
    | _ => none
  match [Ch.a, Ch.b].find? (fun c => (s.ch c).sched.holds m.ring m.desc.tag) with
  | none => s.complete m .aborted 0
  | some c => match (s.ch c).sched.engines.findSome? (fun e => e.2.busy.bind mine) with
    | some (first, n) => s.cutItem c m first n
    | none => s.endItem c m .aborted

/-- Drop an aborted message from its port. -/
def State.abortMessage (s : State) (m : Cmd) : State :=
  let drop := fun (h : Channel) => { h with mports := h.mports.map (fun e =>
    (e.1, { e.2 with accepted := e.2.accepted.filter (fun i => !(i.ring == m.ring && i.tag == m.desc.tag)) })) }
  ((s.modCh .a drop).modCh .b drop).complete m .aborted 0

/-- Take an aborted launch from its hub. -/
def State.abortLaunch (s : State) (m : Cmd) : State :=
  let drop := fun (t : TimeSt) => { t with launches := t.launches.filter (fun e => match e.2 with
    | some l => !(l.ring == m.ring && l.tag == m.desc.tag)
    | none => true) }
  ((s.modTime .a drop).modTime .b drop).complete m .aborted 0

/-- An aborted range command answers no more; the clear that it began goes on (R280). -/
def State.abortRange (s : State) (m : Cmd) : State :=
  let quiet := fun (h : Channel) => { h with ranges := h.ranges.map (fun e =>
    (e.1, { e.2 with job := e.2.job.map (fun j => if j.ring = m.ring ∧ j.tag = m.desc.tag then { j with answer := false } else j) })) }
  ((s.modCh .a quiet).modCh .b quiet).complete m .aborted 0

/-- The effect of an ABORT on an outstanding command (R245, R264, R390): it completes ABORTED, once. -/
def State.abortCmd (s : State) (m : Cmd) : State :=
  if m.started = false then (if isMsgRing m.ring then s.abortOne m else s.complete m .aborted 0)
  else
    let op := m.desc.opcode.toNat
    if op = 0x40 then
      match s.loads.find? (fun l => l.ring == m.ring && l.tag == m.desc.tag) with
      | some l => s.cancelLoad l .aborted
      | none => s.complete m .aborted 0
    else if op = 0x41 ∨ op = 0x43 then s.abortRun m
    else if 0x62 ≤ op ∧ op ≤ 0x68 then s.abortItem m
    else if op = 0x60 then s.abortMessage m
    else if op = 0x28 ∨ op = 0x78 then s.abortLaunch m
    else if op = 0x12 ∨ op = 0x13 ∨ op = 0x50 then s.abortRange m
    else s.complete m .aborted 0

/-- Carry out an ABORT; a tenant reaches only commands of its own rings. -/
def State.doAbort (s : State) (m : Cmd) : State :=
  let r := m.desc.par 8 2
  if s.ringOwner m.ring ≠ 0 ∧ s.ringOwner r ≠ s.ringOwner m.ring then s.complete m .refusedState 0
  else match s.cmd r (BitVec.ofNat 32 (m.desc.par 12 4)) with
    | none => s.complete m .nothingToAbort 0
    | some q =>
      if neverAborted.contains q.desc.opcode.toNat then s.complete m .nothingToAbort 0
      else (s.abortCmd q).complete m .ok 0

/-- ABORT of the operator (R245). -/
def execOperatorAbort (r : RingNo) (t : Tag) (s : State) : Host.Outcome State Fault Refusal :=
  .next (s.withCmd r t 0x0A State.doAbort)

/-- ABORT of a tenant (R245). -/
def execTenantAbort (r : RingNo) (t : Tag) (s : State) : Host.Outcome State Fault Refusal :=
  .next (s.withCmd r t 0x47 State.doAbort)

end Sys2Proof.Machine
end

