-- ==== Sys2Proof/Machine/PowerReset.lean ====
section
/-! DEFINITION. Supply, power states, resets of the host port, tampering and EMERGENCY_OFF (R226, R288-R290, R398-R410), with what loses its
contents when its power goes and what comes up when it returns. -/

namespace Sys2Proof.Machine

open Sys2Proof

/-! ### What a part without power keeps (R141, R344, R347, R405) -/

/-- The registers from offset `lo` up to, not including, `hi` return to their reset values. -/
def State.resetRegs (s : State) (lo hi : Nat) : State :=
  s.modRegs fun g => { g with rw := KV.clear lo hi g.rw, stage := KV.clear lo hi g.stage, shadow := KV.clear lo hi g.shadow }

/-- A physical Cabinet without power keeps what the spare map holds. -/
def PhysCab.unpowered (p : PhysCab) : PhysCab :=
  { p with march := none, marchFailed := false, failBank := 0, failWord := 0, corrected := [], configBad := false }

/-- An array die without power: tests end, the maps stay; a Cabinet in test stays a spare. -/
def DieSt.unpowered (d : DieSt) : DieSt :=
  let back := d.standing.toList ++ d.rotating.toList ++ d.freed.toList
  let x : DieSt :=
    { d with cabs := (d.cabs.map (fun e => (e.1, e.2.unpowered))).filter (fun e => e.2 ≠ {}), slice := .idle, chosen := none,
             standing := back.head?, rotating := back[1]?, freed := none, freedFrame := 0, freedOwner := 0, disagreeAt := [],
             patrolStopped := false }
  x.settle

/-- HBM below READY (R405): its contents are gone; the layout in force and the pseudo-channel map stay. A sparing copy and the requests that
wait for it end (DESIGN CHOICE, log entry 26). -/
def HbmSt.unpowered (h : HbmSt) : HbmSt :=
  { h with mem := [], poison := [], hot := false, sparing := none, sparePos := 0, waitSparing := [], wbuf := [], reads := [], macs := [],
           tree := [], lost := [], fails := [], images := [], staging := [] }

/-- The array dies and the HBM stack of a channel without power. -/
def Channel.arrayOff (h : Channel) : Channel :=
  { h with dies := (h.dies.map (fun e => (e.1, e.2.unpowered))).filter (fun e => e.2 ≠ {}), hbm := h.hbm.unpowered }

/-- The engine map of a hub without power. -/
def SchedSt.keptEngines (q : SchedSt) : KV Engine :=
  let l := q.engines.map (fun (e : Nat × Engine) => (e.1, ({ spare := e.2.spare, failed := e.2.failed } : Engine)))
  l.filter (fun e => e.2 ≠ { spare := decide (16 ≤ e.1) })

/-- The partitions after a loss of power: EMPTY, still assigned (R405, R408). -/
def State.keptParts (s : State) : KV Part :=
  let l := s.parts.map (fun (e : Nat × Part) => (e.1, ({ owner := e.2.owner, retired := e.2.retired } : Part)))
  l.filter (fun e => e.2 ≠ ({} : Part))

/-- A hub without power: its Hutch, its persistent store and the maps stay (R344, R347), and the ranges, which the host die keeps (R405). -/
def Channel.hubOff (h : Channel) : Channel :=
  let h := h.arrayOff
  { fenced := h.fenced, seq := if h.fenced then 7 else 0, health := h.health, hutch := h.hutch, ranges := h.ranges,
    hbm := { h.hbm with uncorr := [], panic := false },
    fab := { links := (h.fab.links.map (fun e => (e.1, e.2.unpowered))).filter (fun e => e.2 ≠ {}) },
    ports := (h.ports.map (fun (e : Nat × VPort) => (e.1, ({ sent := e.2.sent } : VPort)))).filter (fun e => e.2 ≠ {}),
    lanes := (h.lanes.map (fun (e : Nat × Lane) => (e.1, ({ failed := e.2.failed, sent := e.2.sent } : Lane)))).filter (fun e => e.2 ≠ {}),
    rxMap := h.rxMap, txMap := h.txMap,
    sched := { engines := h.sched.keptEngines },
    dies := h.dies, store := h.store, firmware := h.firmware, mapLost := h.mapLost }

/-- First offset of the window of a hub. -/
def hubBase (c : Ch) : Nat := 0x400000 + 0x400000 * chNum c

/-- What a hub carried for the host ends ABORTED when the hub loses its power (R243, R390), and its arbiter's commands move to the other hub
(R404, R408). -/
def State.leaveHub (s : State) (c : Ch) : State :=
  let s := s.abortLaunches c (fun _ => true)
  let q := (s.ch c).sched
  let s := (q.waiting ++ q.engines.filterMap (fun e => e.2.busy)).foldl (fun s u => match u.work with
    | .item r t _ _ => s.completeTag r t .aborted 0
    | _ => s) s
  let s := (s.ch c).mports.foldl (fun s e => (s.abortMsgs e.2.accepted).abortUnread e.2) s
  let s := (s.ch c).link.mem.foldl (fun s m => s.completeTag m.ring m.cmd .aborted 0) s
  if (s.pw (otherCh c)).state.hubOn && s.channels.contains (otherCh c) then
    s.modHost fun h => { h with cmds := h.cmds.map (fun m => if m.arb = c then { m with arb := otherCh c } else m),
                                retention := h.retention.map (fun e => if e.arb = c then { e with arb := otherCh c } else e) }
  else s

/-- The hub of a channel loses its power. -/
def State.hubOff (s : State) (c : Ch) : State :=
  ((s.leaveHub c).withRoutes fun s => s.modCh c Channel.hubOff).resetRegs (hubBase c) (hubBase c + 0x400000)

/-- The rail of a Hutch goes (R141, R400): every key that it holds is lost; HUTCH_WIPED is written when power returns. Sessions live in the
Hutches (R139), so they go with the last of them; a debug token lapses at any wipe (R270). -/
def State.railLost (s : State) (c : Ch) : State :=
  let s := ((s.wipeHutch c).modHutch c fun h => { h with powered := false, lostRail := true }).modSec fun x => { x with token := none }
  if s.channels.any (fun x => (s.ch x).hutch.powered) then s else s.modSec fun x => { x with sessions := [], handshake := none }

/-- The rail of a Hutch returns: HUTCH_WIPED with cause 3, once the host die can write it (R141). -/
def State.railBack (s : State) (c : Ch) : State :=
  let s := s.modHutch c fun h => { h with powered := true }
  if s.pwr.hostOn && (s.ch c).hutch.lostRail then
    (s.hubEvent c 0x2007 [chNum c, 3]).modHutch c fun h => { h with lostRail := false }
  else s

/-! ### Coming up (R290, R344, R379, R404, R413) -/

/-- The time views of a hub that powers up: all at their reset configuration, the raw counter at 0 (R379). -/
def bootTime : Ch → TimeSt
  | .a => { views := [(0, { state := .running })] }
  | .b => { views := [(0, { state := .acquiring })] }

/-- A Hutch that was wiped takes the keys that the other hub passes it (R413). -/
def State.passKeys (s : State) (c : Ch) : State :=
  let o := (s.ch (otherCh c)).hutch
  if (s.ch c).hutch.wiped && (s.ch c).hutch.powered && !o.wiped && s.channels.contains (otherCh c) then
    s.modHutch c fun h => { h with keys := o.keys, slotKeys := o.slotKeys, wiped := false }
  else s

/-- The hub of a channel powers up into STANDBY. -/
def State.hubBoot (s : State) (c : Ch) : State :=
  let s := (s.modTime c fun _ => bootTime c).resetRegs (hubBase c) (hubBase c + 0x400000)
  let s := s.linkUpAgain c [10, 534]
  s.passKeys c

/-- What a hub finds when it returns to STANDBY (R344, R404): both copies of its spare map bad, and firmware that does not match the
measurements, which ends the walk there. -/
def State.hubChecks (s : State) (c : Ch) (fwMatches mapValid : Bool) : State :=
  let s := if mapValid then s else (s.modCh c fun h => { h with mapLost := true }).hubEvent c 0x9009 [chNum c]
  if s.base.inForce.isNone then s
  else if fwMatches then s.modCh c fun h => { h with firmware := true }
  else
    let w := (s.pw c).walk
    let s := (s.modCh c fun h => { h with firmware := false }).modPw c fun p => { p with walk := none }
    let s := s.hostEvent 0xC005 [chNum c, PState.standby.code, 2]
    match w with
    | some w => s.completeTag w.ring w.tag .aborted (detail [BitVec.ofNat 8 PState.standby.code])
    | none => s

/-! ### Entry into READY (R135, R159, R177, R280, R309, R401, R405) -/

/-- Why the staged layout cannot be applied (R159): 1 a placed range outside its tenant design memory, 2 a range in ENC+INT without
integrity. -/
def Channel.layoutKept (h : Channel) (new : HbmSt) : Option Nat :=
  let placed := (h.ranges.map (fun e => e.2)).filter (fun g => g.len != 0)
  if placed.any (fun g => !(decide (new.tenantLo ≤ 4096 * g.base) && decide (4096 * (g.base + g.len) ≤ new.tenantHi))) then some 1
  else if !new.integrity && placed.any (fun g => g.mode == 2) then some 2
  else none

/-- Apply the staged layout, or keep the one in force (R159). -/
def State.applyLayout (s : State) (c : Ch) : State :=
  let new : HbmSt := { (s.ch c).hbm with integrity := bitAt (s.reg .hbmLayout c []).toNat 0, ring := s.regField .hbmLayout c [] 4 4 }
  match (s.ch c).layoutKept new with
  | some n => s.hubEvent c 0x2106 [chNum c, n]
  | none => s.modHbm c fun _ => new

/-- Fresh hub keys and, with integrity on, a fresh tree key (R280). -/
def State.freshKeys (s : State) (c : Ch) : State :=
  let k := s.free
  let s := s.freeNext
  let t := s.free
  (s.modHutch c fun h => { h with hubKey := some k, treeKey := if (s.ch c).hbm.integrity then some t else none }).freeNext

/-- The capture ring starts empty (R280): in PULL both of its counts start again. -/
def State.emptyRing (s : State) (c : Ch) : State :=
  let s := s.modAcq c fun a => { a with ringBlocks := [], ringPos := 0, full := false, produced := if a.active then 0 else a.produced }
  if (s.ch c).acq.active then s.setReg .acqConsumed c [] 0 else s

/-- Every owned range that is not LOCKED is cleared under a fresh key, keeping owner, placement and mode (R405); a command that waits for an
earlier clear of it waits on. -/
def State.rekeyRanges (s : State) (c : Ch) : State :=
  (s.ch c).ranges.foldl (fun s e =>
    if e.2.owner = 0 ∨ e.2.len = 0 ∨ e.2.state = 3 then s
    else s.clearRange c e.1 e.2.owner e.2.mode (e.2.job.getD { remove := false, ring := 0, tag := 0, answer := false })) s

/-- DESTRUCTIVE begins on every Cabinet of the channel that nobody owns, spares included (R135 item 1). -/
def State.marchUnowned (s : State) (c : Ch) : State :=
  [0, 1].foldl (fun s d => (List.range 34).foldl (fun s i =>
    if s.cabOwned c d i then s else s.modCab c d i fun p => { p with march := some { run := 0, design := none } }) s) s

/-- A fence ends (R309); with neither channel fenced the referee of TWINNED is armed again. -/
def State.endFence (s : State) (c : Ch) : State :=
  let s := s.modCh c fun h => { h with fenced := false, seq := 0, seqCab := 0x7F }
  if s.mode.mode = .twinned ∧ s.chA.fenced = false ∧ s.chB.fenced = false then
    s.modMode fun x => { x with referee := .armed, rejoin := none, rejoinTested := false }
  else s

/-- The ports of the array dies come up with a lane check of both receivers (R177). -/
def State.portsUp (s : State) (c : Ch) : State :=
  s.linkUpAgain c ((List.range 10).flatMap fun p => [p, 524 + p])

/-- Entry of a channel into READY from STANDBY (R401, R405). -/
def State.enterReady (s : State) (c : Ch) : State :=
  let s := (s.applyLayout c).freshKeys c
  let s := ((s.emptyRing c).rekeyRanges c).resetRegs (hubBase c + 0x300000) (hubBase c + 0x400000)
  let s := ((s.marchUnowned c).portsUp c).endFence c
  s.modCh c fun h => { h with mapLost := false }

/-! ### Walks (R402, R403) -/

/-- The next state of a walk, one at a time in the order of the table of R400. -/
def PState.toward (p t : PState) : PState :=
  (PState.ofCode (if p.code < t.code then p.code + 1 else if t.code < p.code then p.code - 1 else p.code)).getD p

/-- What a change of state does beside the state itself. -/
def State.powerStep (s : State) (c : Ch) (old new : PState) (spChanged : Bool) (fwMatches mapValid : Bool) : State :=
  match old, new with
  | .off, .aux => s.railBack c
  | .aux, .standby => (s.hubBoot c).hubChecks c fwMatches mapValid
  | .standby, .ready => s.enterReady c
  | .ready, .standby => s.modCh c Channel.arrayOff
  | .standby, .aux => s.hubOff c
  | .aux, .off => s.railLost c
  | .run, .run => if spChanged then s.traceRate c (s.pw c).sp else s
  | _, _ => s

/-- POWER_STATE_REACHED (R402-R406): the walk of a channel takes its next state. A lowering from RUN waits until every design of the channel
has stopped at its commit. -/
def execPowerStateReached (c : Ch) (fwMatches mapValid : Bool) (s : State) : Host.Outcome State Fault Refusal :=
  .next (match (s.pw c).walk with
    | none => s
    | some w =>
      let p := s.pw c
      if p.state = .run ∧ w.target ≠ .run ∧ s.designs.any (fun d => d.chans.contains c && (d.state == .running || d.state == .stopping)) then s
      else
        let new := PState.toward p.state w.target
        let s := s.modPw c fun x => { x with state := new, sp := if new = .run then w.sp else 0 }
        let s := s.powerStep c p.state new (p.sp != w.sp) fwMatches mapValid
        if (s.pw c).walk.isSome ∧ new = w.target then s.powerReached c w.ring w.tag else s)

/-! ### Tampering (R288, R289) -/

/-- A design under a tamper trigger (R289): its frame aborts, it stops with TAMPER, its commands complete with TAMPER, and it is unloaded. -/
def State.tamperDesign (s : State) (d : Design) : State :=
  let s := s.stopAt d.tag .tamper 1
  let s := (s.host.cmds.filter (fun m => d.allParts.contains m.desc.partition.toNat)).foldl (fun s m => s.complete m .tamper 0) s
  match s.design d.tag with
  | some d => s.removeDesign d
  | none => s

/-- The rest of the scratchpad of a powered hub is cleared within 100 µs of a tamper trigger (R141); how long it takes is a free value (log
entry 4). -/
def State.clearScratch (s : State) (c : Ch) : State :=
  if (s.pw c).state.hubOn then (s.modHutch c fun h => { h with clearEnd := s.clock + 1 + s.free.toNat % 100000 }).freeNext else s

/-- The tamper response (R141, R289). -/
def State.tamperAct (s : State) (cause : BitVec 5) : State :=
  let s := s.designs.foldl (fun s d => if d.runs then s.tellAlarm d else s) s
  let s := s.channels.foldl (fun s c => if (s.ch c).hutch.powered then s.hutchWiped c 1 else s) s
  let s := s.channels.foldl (fun s c => s.clearScratch c) s
  let s := s.loads.foldl (fun s l => s.cancelLoad l .tamper) s
  let s := s.designs.foldl (fun s d => s.tamperDesign d) s
  let s := (s.endSessions.clearTenants).modSec fun x => { x with latched := true, cause := x.cause ||| cause, handshake := none }
  s.hostEvent 0x6004 [s.sec.cause.toNat]

/-- TAMPER (R289): a trigger fires; `cause` holds the bits of SEC_TAMPER_CAUSE. Triggers are watched while 3V3_AUX is present (R288), and a SCRAPPED part
acts on none (R269). -/
def execTamper (cause : BitVec 5) (s : State) : Host.Outcome State Fault Refusal :=
  .next (if s.pwr.aux = false ∨ s.sec.lifecycle = .scrapped then s else s.tamperAct cause)

/-! ### The host port (R224, R226) -/

/-- FLR state of the host port (R226): HP_ registers, rings, doorbells, MSI-X and IDE streams return to their reset values. -/
def State.hostPortReset (s : State) : State :=
  (s.modHost fun h => { h with rings := [], msixPending := 0, msixMask := BitVec.allOnes 256, ideKeys := [], ideOn := [] }).resetRegs 0x100000 0x200000

/-- HOST_RESET (R226): FLR, or CXL Reset, which acts alike. -/
def execHostReset (_cxl : Bool) (s : State) : Host.Outcome State Fault Refusal :=
  .next (if s.pwr.hostOn = false ∨ s.host.perst then s else s.hostPortReset)

/-- LINK_DOWN (R226): the CXL link has been down for 1 ms. -/
def execLinkDown (s : State) : Host.Outcome State Fault Refusal :=
  .next (if s.pwr.hostOn = false ∨ s.host.perst then s
    else (s.modHost fun h => { h with linkUp := false, width := 0, speed := 0 }).hostPortReset)

/-- LINK_UP (R224): x16, x8 or x4 at 32, 16 or 8 GT/s, coded as HP_STATUS codes them. -/
def execLinkUp (width speed : BitVec 2) (s : State) : Host.Outcome State Fault Refusal :=
  .next (if s.pwr.hostOn = false ∨ s.host.perst ∨ width = 3 ∨ speed = 3 then s
    else s.modHost fun h => { h with linkUp := true, width := width, speed := speed })

/-- IDE_KM (R224): the key of stream 0 to 3 (CXL.io) or 4 (CXL.cache and CXL.mem) is programmed, or a stream with a key starts. -/
def execIdeKm (stream : Nat) (start : Bool) (s : State) : Host.Outcome State Fault Refusal :=
  .next (if s.pwr.hostOn = false ∨ s.host.perst ∨ 4 < stream then s
    else s.modHost fun h =>
      if start then { h with ideOn := if h.ideKeys.contains stream then insKey stream h.ideOn else h.ideOn }
      else { h with ideKeys := insKey stream h.ideKeys })

/-- PERST_ASSERT (R20, R226, R328): the host die is held in reset, its registers with it; designs hold at their next commit. -/
def execPerstAssert (s : State) : Host.Outcome State Fault Refusal :=
  .next (if s.pwr.hostOn = false ∨ s.host.perst then s
    else
      let s := (s.modHost fun h => { h with perst := true, linkUp := false, width := 0, speed := 0 }).hostPortReset
      let s := (s.resetRegs 0 0x400000).resetRegs 0x1000000 0x1001000
      let s := s.modSec fun x => { x with handshake := none, spdm := 0, rsp := none }
      { s.modBase fun b => { b with delivery := none, forwarding := none, reason := 0 } with pins := [] })

/-- The ROM boots the valid copy of the host-die firmware with the higher SVN, if that is not below MOD_BASE_SVN.MIN; without one CFG_ERR_N is
asserted at once (R291). -/
def BaseSt.boot (b : BaseSt) : BaseSt :=
  match [b.hfCopies.1, b.hfCopies.2].filter (fun x => x.1 && decide (b.svnMin.toNat ≤ x.2.toNat)) with
  | [] => { b with fwValid := false, fwSvn := 0, cfgErr := true }
  | x :: l => { b with fwValid := true, fwSvn := l.foldl (fun m y => if m.toNat < y.2.toNat then y.2 else m) x.2 }

/-- PERST_RELEASE (R226, R291): the host die boots; what it alone carried completes ABORTED. No Base Load Deadline applies. -/
def execPerstRelease (s : State) : Host.Outcome State Fault Refusal :=
  .next (if s.host.perst = false then s
    else
      let s := (s.modHost fun h => { h with perst := false }).modBase BaseSt.boot
      (s.host.cmds.filter (fun m => hostDieOps.contains m.desc.opcode.toNat)).foldl (fun s m => s.complete m .aborted 0) s)

/-! ### The whole module without power (R290, R400, R408) -/

/-- The module loses its 48 V rails (R408): every design and its memories are lost, no completion follows, both channels lie in AUX; the
persistent stores and the Hutches keep what they hold. -/
def State.moduleOff (s : State) : State :=
  let st := fun (twoCh : Bool) => if twoCh then PState.aux else PState.off
  let s :=
    { s with
      designs := [], loads := [], pins := [], mode := {}, regs := {},
      host := { gens := s.host.gens, out := s.host.out, signals := s.host.signals },
      parts := s.keptParts,
      base := { svnMin := s.base.svnMin, revoked := s.base.revoked, hfCopies := s.base.hfCopies, fwValid := s.base.fwValid, fwSvn := s.base.fwSvn } }
  let s := s.modSec fun x => { x with handshake := none, spdm := 0, rsp := none, meas := [] }
  let off := fun (h : Channel) =>
    { h.hubOff with fenced := false, seq := 0, firmware := false, hutch := { h.hutch with slotKeys := [] } }
  let s := (s.modCh .a off).modCh .b off
  s.modPwr fun p => { p with hostOn := false, a := { state := .aux }, b := { state := st s.id.twoCh }, dieTemp := [], warned := none }

/-- The module powers up from step 2 of R290: the host die and the hubs come up, both channels in STANDBY. -/
def State.powerUp (s : State) : State :=
  let s := s.modPwr fun p => { p with hostOn := true, input := true, pwrEn := true }
  let s := s.modBase BaseSt.boot
  s.channels.foldl (fun s c => ((s.modPw c fun _ => { state := .standby }).railBack c).hubBoot c) s

/-- AUX_PRESENT (R288, R290 step 1): 3V3_AUX appears; the Hutch rails come up, and the mesh is tested. -/
def execAuxPresent (meshFault : Bool) (s : State) : Host.Outcome State Fault Refusal :=
  .next (if s.pwr.aux then s
    else
      let s := s.modPwr fun p => { p with aux := true }
      let s := s.channels.foldl (fun s c => (s.modPw c fun _ => { state := .aux }).railBack c) s
      if meshFault then s.tamperAct 2 else s)

/-- AUX_LOST (R141, R288, R400): without 3V3_AUX the whole module is off, and the Hutches hold nothing. -/
def execAuxLost (s : State) : Host.Outcome State Fault Refusal :=
  .next (if s.pwr.aux = false then s
    else
      let s := s.channels.foldl (fun s c => s.railLost c) s.moduleOff
      s.modPwr fun p => { p with aux := false, a := { state := .off }, b := { state := .off } })

/-- POWER_ENABLE (R290, R291, R408): PWR_EN is high and 48V_IN in range; `fwA` and `fwB` say which copies of the host-die firmware the ROM finds
valid. After a loss of input INPUT_LOST is written. A latched EMERGENCY_OFF needs EMERGENCY_OFF_RESTART. -/
def execPowerEnable (fwA fwB : Bool) (s : State) : Host.Outcome State Fault Refusal :=
  .next (if s.pwr.aux = false ∨ s.pwr.hostOn ∨ s.pwr.latched then s
    else
      let why := s.pwr.inputLost
      let s := s.modBase fun b => { b with hfCopies := ((fwA, b.hfCopies.1.2), (fwB, b.hfCopies.2.2)) }
      let s := s.powerUp.modPwr fun p => { p with inputLost := none }
      match why with
      | some n => s.hostEvent 0xC006 [n]
      | none => s)

/-- INPUT_LOST (R408): 48V_IN below 38 V, or PWR_EN low; not latched. -/
def execInputLost (pwrEnLow : Bool) (s : State) : Host.Outcome State Fault Refusal :=
  .next (
    let s := s.modPwr fun p => if pwrEnLow then { p with pwrEn := false } else { p with input := false }
    if s.pwr.hostOn = false then s
    else s.moduleOff.modPwr fun p => { p with inputLost := some (if pwrEnLow then 2 else 1) })

/-! ### EMERGENCY_OFF (R407, R408) -/

/-- Latch the cause of an EMERGENCY_OFF and count it (MOD_PWR_CAUSE). -/
def State.latchCause (s : State) (cause : BitVec 4) (site : Byte) (scope : Nat) : State :=
  s.modPwr fun p => { p with cause := cause, site := site, scope := scope, count := min 0xFFFF (p.count + 1) }

/-- EMERGENCY_OFF (R407, R408): a module-scope trigger. -/
def execEmergencyOff (cause : BitVec 4) (site : Byte) (s : State) : Host.Outcome State Fault Refusal :=
  .next (if s.pwr.hostOn = false then s
    else (s.moduleOff.latchCause cause site 0).modPwr fun p => { p with latched := true })

/-- EMERGENCY_OFF_RESTART (R408): every trigger has ended and PWR_EN has cycled. -/
def execEmergencyOffRestart (s : State) : Host.Outcome State Fault Refusal :=
  .next (if s.pwr.latched = false ∨ s.pwr.aux = false then s
    else
      let s := s.powerUp.modPwr fun p => { p with latched := false, inputLost := none }
      s.hostEvent 0xC001 [s.pwr.cause.toNat, s.pwr.site.toNat, 0])

/-- A design that lies wholly in a cut channel is lost (R408): nothing of it is released, its work ends, its partitions are EMPTY. -/
def State.loseDesign (s : State) (d : Design) : State :=
  let s := (s.portsOf d).foldl (fun s e => s.modMport d.home e.1 fun p => { p with released := [] }) s
  let s := (s.stopAt d.tag .fenced 1).finishStops d.tag
  match s.design d.tag with
  | some d => s.removeDesign d
  | none => s

/-- A design under a channel-scope cut (R319, R324, R408): a twin counts as fenced, one wholly in the channel is lost, one that spans both
channels stops with FENCED. -/
def State.cutDesign (s : State) (c : Ch) (d : Design) : State :=
  if d.twin then s.fenceOff c 3
  else if d.spansBoth then
    let s := if s.pairRuns then s.leavePair true else s.stopAt d.tag .fenced 1
    s.setDesignState d .fenced
  else (if s.pairRuns then s.leavePair true else s).loseDesign d

/-- CHANNEL_EMERGENCY_OFF (R407, R408): the channel falls to AUX; the rest of the module runs on. -/
def execChannelEmergencyOff (c : Ch) (cause : BitVec 4) (site : Byte) (s : State) : Host.Outcome State Fault Refusal :=
  .next (if s.pwr.hostOn = false ∨ s.channels.contains c = false ∨ (s.pw c).state.hubOn = false then s
    else
      let s := match (s.pw c).walk with
        | some w => s.completeTag w.ring w.tag .aborted (detail [BitVec.ofNat 8 PState.aux.code])
        | none => s
      let s := s.modPw c fun p => { p with walk := none }
      let s := (s.loads.filter (fun l => l.targets.any (fun p => chOfPart p == c))).foldl (fun s l => s.cancelLoad l .fenced) s
      let s := (s.designs.filter (fun d => d.chans.contains c)).foldl (fun s d => s.cutDesign c d) s
      let s := (s.hubOff c).modPw c fun _ => { state := .aux }
      let s := (s.host.cmds.filter (fun m => m.started && m.desc.opcode == 0x46#8 && decide (m.desc.partition.toNat < 8) &&
        chOfPart m.desc.partition.toNat == c)).foldl (fun s m => s.complete m .aborted 0) s
      let s := s.latchCause cause site (1 + chNum c)
      s.hostEvent 0xC001 [cause.toNat, site.toNat, 1 + chNum c])

/-! ### Phases and temperatures (R398, R410) -/

/-- The channel of a phase group, in the order of MOD_PWR_PHASES. -/
def groupCh (group : Nat) : Option Ch :=
  if group = 1 ∨ group = 3 then some .a else if group = 2 ∨ group = 4 then some .b else none

/-- PHASE_FAILURE (R398): a spare of the group takes over; with none left, the limit of the group's channel falls to `limit`, the fastest
speed point that the remaining phases carry, 4 for none. -/
def execPhaseFailure (group phase : Nat) (limit : BitVec 3) (s : State) : Host.Outcome State Fault Refusal :=
  .next (if 5 < group ∨ s.pwr.hostOn = false ∨ 4 < limit.toNat then s
    else
      let n := KV.get 2 group s.pwr.phases
      if n = 0 then
        match groupCh group with
        | some .a => s.modPwr fun p => { p with limitA := if p.limitA.toNat < limit.toNat then limit else p.limitA }
        | some .b => s.modPwr fun p => { p with limitB := if p.limitB.toNat < limit.toNat then limit else p.limitB }
        | none => s
      else
        let s := (s.modPwr fun p => { p with phases := KV.put 2 group (n - 1) p.phases }).hostEvent 0xC002 [group, phase]
        if n = 1 then s.hostEvent 0xC003 [group] else s)

/-- The hottest die sensor: its die and reading. -/
def PwrSt.hottest (p : PwrSt) : Option (Nat × BitVec 8) :=
  p.dieTemp.foldl (fun b e => match b with
    | some x => if x.2.toInt < e.2.toInt then some e else some x
    | none => some e) none

/-- TEMP_WARN (R410): the hottest sensor of a die reads `degC`. The event is written once when the hottest rises to WARN_C, and again only
after that sensor has fallen 5 °C below it. -/
def execTempWarn (die : Nat) (degC : BitVec 8) (s : State) : Host.Outcome State Fault Refusal :=
  .next (if 8 < die ∨ s.pwr.hostOn = false then s
    else
      let warn : Int := s.regField .modPwrTempWarn .a [] 0 8
      let s := s.modPwr fun p => { p with dieTemp := KV.ins die degC (KV.del die p.dieTemp) }
      let s := match s.pwr.warned with
        | some d => if (KV.get 0 d s.pwr.dieTemp).toInt + 5 ≤ warn then s.modPwr fun p => { p with warned := none } else s
        | none => s
      match s.pwr.warned, s.pwr.hottest with
      | none, some (d, t) => if warn ≤ t.toInt then (s.modPwr fun p => { p with warned := some d }).hostEvent 0xC004 [d, t.toNat] else s
      | _, _ => s)

end Sys2Proof.Machine
end

