-- ==== Sys2Proof/Machine/Registers.lean ====
section
/-! DEFINITION. Reading registers (R13, R180, R229): the fields that show live state, computed from the state, and the two register commands
LOW_WORD_READ and MOD_ARRAY_BUDGET_WRITE. What a sensor or the array's own speed decides is a free value (log entry 4). -/

namespace Sys2Proof.Machine

open Sys2Proof

/-- Bits as a number: bit `i` is element `i`. -/
def bits : List Bool → Nat
  | [] => 0
  | b :: bs => bit01 b + 2 * bits bs

/-! ### Identity, power and mode (01_module_anatomy.md, 04, 14, 18) -/

/-- Whether ALARM_N is asserted (R330). -/
def State.alarmOut (s : State) : Bool :=
  s.chA.fenced || s.chB.fenced || s.mode.seqLostA || s.mode.seqLostB || s.mode.refLost ||
  (s.mode.mode == .mirrored && (s.mode.solo || s.mode.left || s.channels.all (fun c => (s.mirrorPorts c).isEmpty)))

/-- The mirror ports of this module in table order (MOD_PAIR_STATUS). -/
def Topo.mirrors (t : Topo) : List (Ch × Nat) :=
  (t.links.filter (fun l => l.use == 2)).filterMap fun l =>
    if l.modA = t.identity then some (chOf (field l.endA 3 1), field l.endA 0 3)
    else if l.modB = t.identity then some (chOf (field l.endB 3 1), field l.endB 0 3) else none

/-- Frames by which a MIRRORED partner trails, 0 to 2 (MOD_PAIR_STATUS.LAG). -/
def State.pairLag (s : State) : Nat :=
  match s.designs.find? (fun d => d.descriptor == s.mode.descriptor) with
  | some d => if s.mode.mode = .mirrored ∧ s.mode.primary ∧ s.mode.other = .paired then min 2 (BitVec.ofNat 48 d.frame - s.mode.confirmed).toNat else 0
  | none => 0

/-- Code of a state of the twin referee (R327). -/
def RefState.code : RefState → Nat
  | .idle => 0 | .armed => 1 | .retry => 2 | .repair => 3 | .verify => 4 | .degraded => 5

/-- Code of MOD_PAIR_STATUS.OTHER. -/
def Other.code : Other → Nat
  | .paired => 0 | .lost => 1 | .left => 2 | .joining => 3

/-- Whether the hold steps of a partition are less than 1 ms old (MOD_POWER_STATUS.OVERRUN). -/
def State.overrunNow (s : State) (p : Nat) : Bool := match (s.part p).overrunAt with | some t => decide (s.clock < t + 1000000) | none => false

/-- Live fields of the identification, budget, mode and supply registers of the host die. -/
def State.liveHost1 (s : State) : Reg → Nat
  | .modIdent => s.grade + 16 * bit01 s.id.variantG + 2 ^ 8 * bit01 s.id.binF + 2 ^ 9 * bit01 s.id.ll + 2 ^ 16 * s.id.stepping.toNat + 2 ^ 24
  | .modPopulation => (if s.id.twoCh then 0xFF else 0x53) + 2 ^ 8 * bit01 (s.id.fitted .a) + 2 ^ 9 * bit01 (s.id.fitted .b) +
      2 ^ 10 * bit01 s.chA.fenced + 2 ^ 11 * bit01 s.chB.fenced
  | .modSerialLo => field s.id.serial.toNat 0 32
  | .modSerialHi => field s.id.serial.toNat 32 32
  | .modArrayPred => s.predW
  | .modPowerStatus => bit01 (decide (s.budgetW < s.predW)) + 2 * bits ((List.range 8).map s.overrunNow)
  | .modMode => s.mode.mode.code + 16 * bit01 (s.mode.mode == .twinned && s.mode.referee == .degraded) + 32 * bit01 s.mode.primary +
      64 * bit01 s.mode.solo + 128 * bit01 s.alarmOut
  | .modReferee => s.mode.referee.code + 8 * bit01 ((s.mode.unresolvedAt.map (fun t => decide (s.clock < t + 10 ^ 9))).getD false) + 16 * bit01 s.mode.seqLostA +
      32 * bit01 s.mode.seqLostB + 2 ^ 16 * s.mode.cabinet
  | .modTwinHealth => s.chA.health.score s.clock + 2 ^ 16 * s.chB.health.score s.clock
  | .modTwinCtrl => 2 * bit01 s.mode.rejoin.isSome
  | .modPairStatus => (if s.mode.primary then 1 else if s.mode.partner then 2 else 0) + 4 * s.mode.other.code + 16 * s.pairLag +
      64 * bits ((((s.topo.map Topo.mirrors).getD []).take 4).map (fun e => (s.port e.1 e.2).state == .up))
  | .modPairCtrl => 2 ^ 8 * (if s.mirrorGb = 0 then 0x40 else min 0xFF s.joinLimit)
  | .modPairResidue => s.mode.residue + 2 ^ 24 * bit01 s.mode.precopy + 2 ^ 25 * bit01 s.mode.final
  | .modStoreStatus => s.store.sparesLeft + 2 ^ 9 * bit01 s.store.noSpare + 2 ^ 16 * min 0xFFFF s.store.retired
  | .modStoreMaxwear => field s.free.toNat 0 27
  | .modProbeGroup => if bitAt (s.reg .modProbeTrace .a []).toNat 0 then 0xFFFFF else 0
  | .modPwrState => s.pwr.a.state.code + (if s.pwr.a.state = .run then 8 * s.pwr.a.sp else 0) + 32 * bit01 s.pwr.a.walk.isSome +
      (if s.id.twoCh then 2 ^ 8 * s.pwr.b.state.code + (if s.pwr.b.state = .run then 2 ^ 11 * s.pwr.b.sp else 0) +
        2 ^ 13 * bit01 s.pwr.b.walk.isSome else 0)
  | .modPwrInput => field s.free.toNat 0 24
  | .modPwrWatts => field s.free.toNat 0 32
  | .modPwrCause => s.pwr.cause.toNat + 16 * s.pwr.site.toNat + 2 ^ 12 * s.pwr.scope + 2 ^ 16 * min 0xFFFF s.pwr.count
  | .modPwrPhases => ((List.range 6).map (fun g => 4 ^ g * KV.get 2 g s.pwr.phases)).sum + 2 ^ 16 * s.pwr.limitA.toNat + 2 ^ 20 * s.pwr.limitB.toNat
  | .modPwrTempWarn => 2 ^ 8 * (match s.pwr.hottest with | some x => x.2.toNat | none => field s.free.toNat 0 8)
  | _ => 0

/-! ### Host port, sessions, base image (10, 12, 13) -/

/-- KIND of a ring (HP_RING_CTRL). -/
def ringKind (r : RingNo) : Nat :=
  if isCmdRing r then 0 else if isCplRing r then 1 else if r = 96 then 2 else if isMsgRing r then 3 else 7

/-- Whether the module writes a ring. -/
def State.moduleWrites (s : State) (r : RingNo) : Bool := isCplRing r || r == 96 || s.isOutlet r

/-- Whether a refused doorbell's entries still cannot be taken (HP_RING_STATUS.REFUSED). -/
def State.stillRefused (s : State) (r : RingNo) : Bool :=
  match (s.ring r).refused with
  | some x => s.canTake r x.1 x.2 == false
  | none => false

/-- Code of PTN_STATUS.STATE. -/
def State.partCode (s : State) (p : Nat) : Nat :=
  match (s.part p).state with
  | .empty => 0 | .loading => 1 | .stopped => 2 | .running => 3 | .stopping => 4 | .unloading => 5 | .fenced => 6

/-- PTN_OPEN of a partition (R303): the boundaries toward the other partitions of its copy of the design, and its hub ports. -/
def State.openTo (s : State) (p : Nat) : Nat :=
  match s.designAt p with
  | none => 0
  | some d =>
    let mine := d.allParts.filter (fun q => q != p && (!d.twin || chOfPart q == chOfPart p))
    bits ((List.range 8).map (fun q => mine.contains q)) + 2 ^ 8

/-- Live fields of the host port, the sessions and the base image. -/
def State.liveHost2 (s : State) (c : Ch) : Reg → List Nat → Nat
  | .cfgDevice, _ => Config.vendorId.toNat + 2 ^ 16 * s.id.deviceId.toNat
  | .cfgClass, _ => Config.revisionId.toNat + 2 ^ 8 * classCode
  | .msixControl, v :: _ => bit01 (s.host.msixMask.getLsbD v)
  | .msixPba, k :: _ => field s.host.msixPending.toNat (32 * k) 32
  | .lwBaseStatus, _ => bits [s.base.inForce.isSome, s.base.expired, s.base.verifyFailed, s.base.cfgErr, s.base.chained] + 2 ^ 8 * s.base.attempts
  | .hpStatus, _ => bit01 s.host.linkUp + 2 * s.host.width.toNat + 8 * s.host.speed.toNat +
      32 * bit01 (s.host.ideOn.any (fun x => decide (x < 4))) + 64 * bit01 (s.host.ideOn.contains 4) + 128 * bit01 (!s.host.retention.isEmpty)
  | .hpRingCtrl, r :: _ => 64 * ringKind r
  | .hpRingProduced, r :: _ => (s.ring r).produced.toNat
  | .hpRingConsumed, r :: _ => (s.ring r).consumed.toNat
  | .hpRingStatus, r :: _ => bits [s.ringOn r, s.stillRefused r, s.moduleWrites r && s.ringFull r, (s.ring r).error] +
      2 ^ 8 * (if isCmdRing r then s.outstanding r else 0)
  | .secStatus, _ => s.sec.lifecycle.code + bits [false, false, false, s.sec.bound.isSome, (s.key 0 1 0).isSome, s.sec.latched, s.sec.token.isSome] +
      2 ^ 8 * bits ((List.range 8).map (fun i => (KV.get none (i + 1) s.sec.slots).isSome)) + 2 ^ 16 * s.sec.returnsLeft
  | .secTamperCause, _ => s.sec.cause.toNat
  | .secSessions, _ => bits ((s.session .operator).isSome :: (List.range 8).map (fun i => (s.session (.tenant (i + 1))).isSome)) +
      2 ^ 9 * bit01 (s.session .unbound).isSome
  | .secRingGenLo, r :: _ => field (KV.get 0 r s.host.gens).toNat 0 32
  | .secRingGenHi, r :: _ => field (KV.get 0 r s.host.gens).toNat 32 16
  | .secRangeBase, k :: r :: _ => (s.range (chOf k) r).base
  | .secRangeLen, k :: r :: _ => (s.range (chOf k) r).len
  | .secRangeCtrl, k :: r :: _ => let x := s.range (chOf k) r
      x.mode + 4 * x.owner + 64 * x.state + 2 ^ 9 * bit01 (s.patched (chOf k) r)
  | .modBaseResult, _ => bit01 s.baseBusy + 16 * s.base.reason + 2 ^ 8 * s.base.segments
  | .modBaseSvn, _ => s.base.svnMin.toNat + 2 ^ 16 * (s.base.inForce.getD 0).toNat
  | .ptnStatus, k :: _ => let p := 4 * chNum c + k
      s.partCode p + 8 * ((s.designAt p).map (·.stage)).getD 0 + 32 * (s.part p).owner + 2 ^ 16 * (s.part p).design
  | .ptnOpen, k :: _ => s.openTo (4 * chNum c + k)
  | .ptnFrameLo, k :: _ => field (s.frameAt (4 * chNum c + k)).toNat 0 32
  | .ptnFrameHi, k :: _ => field (s.frameAt (4 * chNum c + k)).toNat 32 16
  | _, _ => 0

/-! ### Array window (02, 03, 05) -/

/-- The logical Bench that a physical Bench carries: its own while usable, for Bench 16 the one it replaces. -/
def PhysCab.logicalBench (p : PhysCab) (b : Nat) : Option Nat := if b = 16 then p.spareBench else if p.spareBench = some b then none else some b

/-- The repairs in a physical Bench (BENCH_STATUS): whether one of them requests a hold of the Trestle, whether any works, and the logical cells
it works on. A tile requests the hold of its own step, the swap of a Bench for a parity fault that of step 0 (R55, R60, R61); a repair that a
patrol asked for requests none. -/
def State.benchRepair (s : State) (c : Ch) (d i b : Nat) : Bool × Bool × List Nat :=
  match s.logicalOf c d i, (s.cab c d i).logicalBench b with
  | some l, some lb =>
    match s.designs.find? (fun x => x.allCabs.contains l) with
    | none => (false, false, [])
    | some x =>
      let y := x.cab l
      let cells := ((y.reload ++ y.later.map (fun u => (u.1, u.2.1, u.2.2.1))).filter (fun t => t.1 == lb)).map (fun t => t.2.1) ++
        (x.repairs.filter (fun r => r.1 == 5 && r.2.1 == l && r.2.2 / 64 == lb)).map (fun r => r.2.2 % 64)
      let swap := x.repairs.any (fun r => (r.1 == 1 || r.1 == 4) && r.2.1 == l && r.2.2 == lb)
      (y.reload.any (fun t => t.1 == lb && t.2.2 == x.clearedOf l / 16) || x.repairs.contains (1, l, lb), !cells.isEmpty || swap, cells)
  | _, _ => (false, false, [])

/-- The design of a physical Cabinet, and its logical Cabinet. -/
def State.cabUse (s : State) (c : Ch) (d i : Nat) : Option (Design × Nat) :=
  (s.logicalOf c d i).bind fun l => (s.designs.find? (fun x => x.allCabs.contains l)).map (fun x => (x, l))

/-- The causes for which a Cabinet withholds the clearance of the next step, while its design's frame is open (CAB_HOLD_CAUSE). -/
def State.holdBits (s : State) (x : Design) (l : Nat) : Nat :=
  if x.state = .running ∨ x.state = .stopping then
    let m := if x.clearedOf l < x.header.frameLen ∧ s.frameOpen x then s.missing x l (x.clearedOf l) else 0
    if m = 0 then 0 else m + 2 ^ 16 * x.clearedOf l
  else 0

/-- Live fields of the array window. -/
def State.liveArray (s : State) (c : Ch) : Reg → List Nat → Nat
  | .benchStatus, d :: i :: b :: _ =>
      let x := (s.cab c d i).bench b
      let r := s.benchRepair c d i b
      bits [r.1, r.2.1, x.retired] + 8 * (bit01 (x.spare0 == 0x7F) + bit01 (x.spare1 == 0x7F)) + 2 ^ 8 * r.2.2.headD 0x7F
  | .benchSpare, d :: i :: b :: _ => let x := (s.cab c d i).bench b
      x.spare0 + 2 ^ 8 * x.spare1
  | .benchFailedLo, d :: i :: b :: _ => bits ((List.range 32).map (fun k => ((s.cab c d i).bench b).failed.contains k))
  | .benchFailedHi, d :: i :: b :: _ => bits ((List.range 32).map (fun k => ((s.cab c d i).bench b).failed.contains (k + 32)))
  | .cabStatus, d :: i :: _ =>
      match s.cabUse c d i with
      | none => 16 * bit01 ((s.logicalOf c d i).isNone && !(s.cab c d i).failed)
      | some (x, l) =>
        let go := x.state == .running || x.state == .stopping
        let gap := go && x.errs.isEmpty && (!x.begun || x.stepsDone)
        bits [true, go && !gap && x.errs.isEmpty && (x.cab l).next == x.clearedOf l, gap, !x.errs.isEmpty] + 2 ^ 16 * (x.cab l).lastStep
  | .cabHoldCause, d :: i :: _ => match s.cabUse c d i with | some (x, l) => s.holdBits x l | none => 0
  | .cabStepTime, _ => field s.free.toNat 0 32
  | .cmemStatus, d :: i :: _ =>
      bits [match s.cabUse c d i with | some (x, _) => !x.errs.isEmpty | none => false, (s.cab c d i).march.isSome, (s.cab c d i).repairDue]
  | .marchStatus, d :: i :: _ => bits [(s.cab c d i).march.isSome, (s.cab c d i).marchFailed]
  | .marchFail, d :: i :: _ => (s.cab c d i).failWord + 2 ^ 16 * (s.cab c d i).failBank
  | _, _ => 0

/-! ### Hub: memory, fabric, guest (04, 05, 06, 07) -/

/-- Whether a fabric link carries traffic. -/
def State.linkUp (s : State) (c : Ch) (k : Nat) : Bool := !(s.flink c k).failed && (s.flink c k).check == 0 && (k == 11 || (s.flink c (524 + k)).check == 0)

/-- The counters that VF_STAT_SEL selects (R179): those of a Cabinet of a loaded design read 0 (R180). -/
def State.statWord (s : State) (c : Ch) (f : InitStat → Bool → Nat) : Nat :=
  let sel := (s.reg .vfStatSel c []).toNat
  let node := field sel 0 6
  let die := field sel 6 1
  if field sel 7 2 = 0 then
    let i := if node % 9 = 8 then 32 + node / 9 - 1 else 8 * (node / 9) + node % 9
    if (s.designOfPhys c die i).isSome then 0 else f (KV.get {} (64 * die + node) (s.ch c).fab.stats) (bitAt sel 9)
  else if field sel 7 2 = 1 ∧ hubInitiator node then f (KV.get {} (128 + node) (s.ch c).fab.stats) (bitAt sel 9)
  else 0

/-- Live fields of the memory, fabric and guest registers of a hub. -/
def State.liveHub1 (s : State) (c : Ch) : Reg → List Nat → Nat
  | .pwrPclass, _ => ((List.range 4).map (fun k => 16 ^ k * (match s.designAt (4 * chNum c + k) with
      | some d => field (d.classOf (4 * chNum c + k)) 0 4
      | none => match s.loadAt (4 * chNum c + k) with
        | some y => field (y.header.classOf y.x (4 * chNum c + k)) 0 4
        | none => 0xF))).sum
  | .hubHutchStatus, _ => bits [(s.ch c).hutch.powered, (s.ch c).hutch.wiped, decide (s.clock < (s.ch c).hutch.clearEnd)]
  | .hubHutchWipes, _ => (s.ch c).hutch.wipes.toNat
  | .hbmStatus, _ => let h := (s.ch c).hbm
      bits [(s.pw c).state.arrayOn, h.hot, h.panic, h.sparing.isSome, h.replaced.isSome, h.noSpare]
  | .hbmLayoutActive, _ => bit01 (s.ch c).hbm.integrity + 16 * (s.ch c).hbm.ring
  | .hbmCaptureFill, _ => (s.ch c).acq.fill / 1024
  | .hbmWbufUsed, k :: _ => (s.ch c).hbm.quota (4 * chNum c + k)
  | .hbmSpareStatus, _ => (s.ch c).hbm.replaced.getD 0x1F + 2 ^ 8 * ((s.ch c).hbm.sparePos * 256 / pcBlocks)
  | .vfStatus, _ => bits ((List.range 10).map (fun k => (s.pw c).state.arrayOn && s.linkUp c k)) + 2 ^ 10 * bit01 (s.linkUp c 10) +
      2 ^ 11 * bit01 (s.hasGuest c && (s.ch c).guest.rails && !(s.ch c).guest.disabled && !(s.ch c).guest.failed && s.linkUp c 11) +
      2 ^ 12 * bit01 ((s.ch c).fab.links.any (fun e => e.2.check != 0))
  | .vfPortRepair, k :: _ => let x := s.flink c k
      x.lanes.length + 2 ^ 5 * x.outSpares + 2 ^ 10 * bit01 (!x.sbLanes.isEmpty) + 2 ^ 11 * bit01 x.outSb + 2 ^ 12 * bit01 x.failed
  | .vfStatBin, k :: _ => s.statWord c fun x hist => KV.get 0 k (if hist then x.value else x.mem)
  | .vfStatBytesLo, _ => s.statWord c fun x _ => field x.bytes 0 32
  | .vfStatBytesHi, _ => s.statWord c fun x _ => field x.bytes 32 32
  | .vfGuestStatus, _ => let g := (s.ch c).guest
      bits [g.rails && !g.fault, g.fault, g.rstLow, g.late, g.owner.isSome]
  | _, _ => 0

/-! ### Hub: Velvin Link (08, 09) -/

/-- Code of a port state (VL_PORT_STATUS.STATE). -/
def PortState.code : PortState → Nat
  | .disabled => 0 | .acquire => 1 | .deskew => 2 | .waitRemote => 3 | .up => 4 | .failed => 5

/-- USE of a port (VL_LINK_STATUS). -/
def State.useOf (s : State) (c : Ch) (p : Nat) : Nat := ((List.range 4).find? (fun u => decide (u ≠ 0) && s.portUse c p u)).getD 0

/-- VL_ROUTE for the destination that VL_ROUTE_SEL names. -/
def State.routeWord (s : State) (c : Ch) : Nat :=
  let sel := (s.reg .vlRouteSel c []).toNat
  let dest := 2 * field sel 0 6 + field sel 6 1
  match s.topo, s.nextHop c dest with
  | some t, some p => p + 8 * (hops (s.edges t) (2 * t.identity + chNum c) 128 [dest]).getD 0
  | _, _ => 2 ^ 9

/-- Live fields of the Velvin Link registers. -/
def State.liveLink (s : State) (c : Ch) : Reg → List Nat → Nat
  | .vlPortStatus, p :: _ => let x := s.port c p
      x.state.code + 8 * bit01 x.width4.isSome + 16 * bit01 (x.rxReq.isSome || x.txReq.isSome || x.rotating.isSome) +
        2 ^ 8 * bits ((List.range 8).map (fun i => (s.lane c (s.rxLane c p i)).state == .locked)) + 2 ^ 16 * x.remoteModule + 2 ^ 24 * x.remotePort
  | .vlLaneStatus, l :: _ => let x := s.lane c l
      let by' := s.servedBy c l
      bits [x.state != .acquire, x.state == .locked, x.noSignal, by'.isNone, x.testing, x.failed] +
        2 ^ 8 * (by'.map (·.2)).getD 0 + 2 ^ 11 * (by'.map (·.1)).getD 0xF
  | .vlScanResult, _ => (s.ch c).scan.h.toNat + 2 ^ 8 * (s.ch c).scan.v.toNat + 2 ^ 16 * bit01 (s.ch c).scan.busy
  | .vlLinkStatus, p :: _ => let x := s.port c p
      bits [x.helloOk, x.keys.isSome, s.carries c p, x.nak || !x.health.isEmpty] + 16 * s.useOf c p + 64 * bit01 x.chain + 2 ^ 8 * min 1024 x.inFlight
  | .vlTopoStatus, _ => match s.topo with
      | none => 0
      | some t => 1 + 2 * t.identity + 2 ^ 7 * t.kind t.identity + 2 ^ 10 * ((t.mods[t.identity]?).map (·.pair)).getD 0
  | .vlTopoHash, k :: _ => field s.topoHash.toNat (32 * k) 32
  | .vlRoute, _ => s.routeWord c
  | _, _ => 0

/-! ### Hub: messages, recovery, self-test, capture, time, temperature (11, 14-18) -/

/-- Code of a view state (TIM_VIEW_STATUS.STATE). -/
def ViewState.code : ViewState → Nat
  | .disabled => 0 | .running => 1 | .acquiring => 2 | .locked => 3 | .holdover => 4 | .refused => 5

/-- A die's temperature: its last reading, or a free value. -/
def State.tempOf (s : State) (die : Nat) : Nat :=
  match s.pwr.dieTemp.find? (fun e => e.1 == die) with
  | some e => e.2.toNat
  | none => field s.free.toNat (8 * (die % 4)) 8

/-- Live fields of the scheduler and of recovery, self-test and stores of a hub. -/
def State.liveHub2 (s : State) (c : Ch) : Reg → List Nat → Nat
  | .schEngine, e :: _ => let x := (s.ch c).sched.engine e
      bits [!x.spare && !x.failed, x.busy.isSome, x.disabled, x.failed] + 16 * (x.busy.map (·.group)).getD 0
  | .schPort, k :: _ => let x := s.mport c k
      bits [x.inRing.isSome, x.outRing.isSome, x.disabled, x.holding, (x.inRing.map s.stillRefused).getD false] + 32 * x.group + 2 ^ 8 * (x.inRing.getD 128 - 128) +
        2 ^ 16 * (x.outRing.getD 128 - 128) + 2 ^ 24 * (((x.design.bind s.design).map (·.low)).getD 0xF)
  | .hubSeqStatus, _ => let h := s.ch c
      h.seq + 8 * bit01 h.refLost + 16 * bit01 h.holding + 2 ^ 8 * h.seqCab
  | .bstDieStatus, d :: _ => let x := s.die c d
      let ps := s.pauses c d
      let st : Nat := match x.slice with
        | .idle => if ps.contains true then 5 else 0
        | .preload => 1 | .waitBoundary => 2 | .swap => 3 | .test => 4
      st + 16 * x.standing.getD 0x3F + 2 ^ 10 * x.rotating.getD 0x3F + 2 ^ 16 * min 2 (s.spares c d).length + 2 ^ 18 * x.next +
        2 ^ 23 * bit01 x.reported + 2 ^ 24 * bit01 x.retired0 + 2 ^ 25 * bit01 x.retired1 + 2 ^ 26 * bits ps
  | .bstLastHold, _ => (s.ch c).lastHold
  | .bstPatrolStatus, _ => let stop := (s.die c 0).patrolStopped || (s.die c 1).patrolStopped
      bit01 (!stop && bitAt (s.reg .bstCtrl c []).toNat 2 && s.free.getLsbD 0) + 2 * bit01 stop
  | .bstAge, _ => let sel := (s.reg .bstAgeSel c []).toNat
      let p := s.cab c (field sel 6 1) (field sel 0 6)
      p.drift.toNat + 2 ^ 16 * bit01 p.measured + 2 ^ 17 * bit01 p.ageWarn
  | .bstStoreStatus, _ => (s.ch c).store.sparesLeft + 2 ^ 9 * bit01 (s.ch c).store.noSpare + 2 ^ 10 * bit01 (s.free.getLsbD 0)
  | .bstStoreMaxwear, _ => field s.free.toNat 0 27
  | .bstStoreRetired, _ => (s.ch c).store.retired
  | _, _ => 0

/-- Live fields of capture, trace, time and temperature of a hub. -/
def State.liveHub3 (s : State) (c : Ch) : Reg → List Nat → Nat
  | .acqStatus, _ => let a := (s.ch c).acq
      bits [a.full, a.holding, a.disabled] + 8 * (s.designs.filter (fun d => d.cap.on && d.capChans.contains c)).length + 2 ^ 11 * bit01 a.active
  | .acqProduced, _ => (s.ch c).acq.produced.toNat
  | .trcProduced, _ => (s.ch c).trc.produced.toNat
  | .acqTrigout, _ => 2 ^ 16 * bits ((List.range 16).map (fun k => (KV.get ({} : TrigUnit) k (s.ch c).units).design.isSome))
  | .timRawLo, _ => field (s.ch c).time.raw.toNat 32 32
  | .timRawHi, _ => field (s.ch c).time.raw.toNat 64 32
  | .timSnapFrac, v :: _ => (KV.get 0 v (s.ch c).time.frac).toNat
  | .timViewStatus, v :: _ => let x := s.view c v
      if 6 ≤ v then 1
      else x.state.code + 8 * bit01 x.stepped + 16 * x.master + 2 ^ 10 * x.port + 2 ^ 16 * satSigned (x.lastOffset / 2 ^ 32) 16
  | .timRate, v :: _ => let x := s.view c v
      if 6 ≤ v then satSigned (((x.inc : Int) - 2 ^ 32) * 256) 32 else satSigned x.rate 32
  | .timClkStatus, _ => let t := (s.ch c).time
      bits [t.sysclk, true, t.osc == 1, t.oscFailed]
  | .timLaunchStatus, _ => bits ((List.range 16).map (fun e => (s.launch c e).isSome))
  | .pwrDieTemp, _ => s.tempOf (1 + 2 * chNum c) + 2 ^ 8 * s.tempOf (2 + 2 * chNum c) + 2 ^ 16 * s.tempOf (5 + chNum c) + 2 ^ 24 * s.tempOf (7 + chNum c)
  | .pwrTemp, _ => field s.free.toNat 0 16 + 2 ^ 16 * bit01 (decide (20 < field s.free.toNat 8 8))
  | .pwrRail, _ => let a := field s.free.toNat 0 12
      let b := field s.free.toNat 12 12
      a + 2 ^ 12 * b + 2 ^ 24 * bit01 (decide (60 < max a b - min a b))
  | _, _ => 0

/-! ### The read -/

/-- Whether a register reads 0 now: the conflict counters and undo peak of a loaded Cabinet (R180). -/
def State.hidden (s : State) (r : Reg) (c : Ch) (idx : List Nat) : Bool :=
  match r with
  | .cmemConflictLo | .cmemConflictHi | .cmemUndoPeak => s.locked r c idx
  | _ => false

/-- The 32 bits that a register shows: its stored bits and its live fields. -/
def State.shown (s : State) (r : Reg) (c : Ch) (idx : List Nat) : Word32 :=
  if s.hidden r c idx then 0
  else (s.reg r c idx &&& BitVec.ofNat 32 r.row.rw) |||
    BitVec.ofNat 32 (s.liveHost1 r ||| s.liveHost2 c r idx ||| s.liveArray c r idx ||| s.liveHub1 c r idx ||| s.liveLink c r idx ||| s.liveHub2 c r idx |||
      s.liveHub3 c r idx)

/-- Whether a read crosses into an array domain that is unpowered: also that of the fabric counters of a Cabinet (R179: "stalling for KIND 0"). -/
def State.readStalls (s : State) (r : Reg) (c : Ch) : Bool :=
  !s.domOn r.row.dom c || ((r == .vfStatBin || r == .vfStatBytesLo) && field (s.reg .vfStatSel c []).toNat 7 2 == 0 && !(s.pw c).state.arrayOn)

/-- Read a register: the low word of a pair latches the high word into its shadow; a high word shows the shadow. The reply holds the low word
in [31:0] and what was latched in [63:32], as a 64-bit access returns it (R229). -/
def State.readReg (s : State) (off : Nat) : State :=
  match s.findReg off with
  | none => s.badAccess.modRegs fun g => { g with reply := 0, poison := false }
  | some (r, c, idx) =>
    if s.readStalls r c then (s.timedOut off).modRegs fun g => { g with reply := 0xFFFFFFFF#64, poison := false }
    else
      let v := s.shown r c idx
      let hi := s.shown r.high c idx
      s.freeNext.modRegs fun g => match r.row.pair with
        | .one => { g with reply := v.setWidth 64, poison := false }
        | .hi => { g with reply := (KV.get 0 (off - 4) g.shadow).setWidth 64, poison := false }
        | .lo => { g with reply := (hi ++ v : BitVec 64), poison := false, shadow := KV.put 0 off hi g.shadow }

/-- LOW_WORD_READ (R13, R229): a read of the low word of a pair latches the high word into its shadow. A SCRAPPED module answers only its
identification (R269), and a host die in reset no read. -/
def execLowWordRead (offset : Nat) (s : State) : Host.Outcome State Fault Refusal :=
  .next (if s.hostUp = false ∨ (s.sec.lifecycle = .scrapped ∧ offset ≠ 0 ∧ offset ≠ 8 ∧ offset ≠ 12) then s
    else if offset % 4 ≠ 0 then s.badAccess.modRegs fun g => { g with reply := 0, poison := false }
    else s.readReg offset)

/-- MOD_ARRAY_BUDGET_WRITE (R103): the budget takes effect at once; below the prediction it is reported, and MOD_POWER_STATUS.OVER shows it. -/
def execModArrayBudgetWrite (value : Word32) (s : State) : Host.Outcome State Fault Refusal :=
  .next (if s.portAnswers = false then s
    else
      let s := s.setReg .modArrayBudget .a [] (value &&& 0xFFFF#32)
      if s.budgetW < s.predW then s.hostEvent 0x1204 [s.predW, s.budgetW] else s)

end Sys2Proof.Machine
end

