-- ==== Sys2Proof/Machine/Dispatch.lean ====
section
/-! DEFINITION. The dispatch: one arm per command, each one direct call of its meaning. -/

namespace Sys2Proof.Machine

open Sys2Proof

/-- The effect of a command on everything but the queue. -/
def exec (i : Instr) (s : State) : Host.Outcome State Fault Refusal :=
  match i with
  | .nop r t => Sys2Proof.Machine.execNop r t s
  | .setMode r t => Sys2Proof.Machine.execSetMode r t s
  | .setPower r t => Sys2Proof.Machine.execSetPower r t s
  | .assign r t => Sys2Proof.Machine.execAssign r t s
  | .reclaim r t => Sys2Proof.Machine.execReclaim r t s
  | .operatorStop r t => Sys2Proof.Machine.execOperatorStop r t s
  | .operatorUnload r t => Sys2Proof.Machine.execOperatorUnload r t s
  | .setTopology r t table => Sys2Proof.Machine.execSetTopology r t table s
  | .setFunction r t => Sys2Proof.Machine.execSetFunction r t s
  | .operatorAbort r t => Sys2Proof.Machine.execOperatorAbort r t s
  | .openSlot r t => Sys2Proof.Machine.execOpenSlot r t s
  | .closeSlot r t => Sys2Proof.Machine.execCloseSlot r t s
  | .assignRange r t => Sys2Proof.Machine.execAssignRange r t s
  | .releaseRange r t => Sys2Proof.Machine.execReleaseRange r t s
  | .operatorLaunch r t => Sys2Proof.Machine.execOperatorLaunch r t s
  | .permitStep r t => Sys2Proof.Machine.execPermitStep r t s
  | .viewWrite r t => Sys2Proof.Machine.execViewWrite r t s
  | .load r t image => Sys2Proof.Machine.execLoad r t image s
  | .loadComplete load => Sys2Proof.Machine.execLoadComplete load s
  | .run r t => Sys2Proof.Machine.execRun r t s
  | .tenantStop r t => Sys2Proof.Machine.execTenantStop r t s
  | .step r t => Sys2Proof.Machine.execStep r t s
  | .tenantUnload r t => Sys2Proof.Machine.execTenantUnload r t s
  | .stats r t => Sys2Proof.Machine.execStats r t s
  | .marchOk r t => Sys2Proof.Machine.execMarchOk r t s
  | .tenantAbort r t => Sys2Proof.Machine.execTenantAbort r t s
  | .setRangeMode r t => Sys2Proof.Machine.execSetRangeMode r t s
  | .msgIn r t cipher => Sys2Proof.Machine.execMsgIn r t cipher s
  | .copyIn r t => Sys2Proof.Machine.execCopyIn r t s
  | .copyOut r t => Sys2Proof.Machine.execCopyOut r t s
  | .copy r t => Sys2Proof.Machine.execCopy r t s
  | .fill r t => Sys2Proof.Machine.execFill r t s
  | .gather r t => Sys2Proof.Machine.execGather r t s
  | .scatter r t => Sys2Proof.Machine.execScatter r t s
  | .checksum r t => Sys2Proof.Machine.execChecksum r t s
  | .captureStart r t => Sys2Proof.Machine.execCaptureStart r t s
  | .captureStop r t => Sys2Proof.Machine.execCaptureStop r t s
  | .trigSet r t sealedBuf => Sys2Proof.Machine.execTrigSet r t sealedBuf s
  | .trigClear r t => Sys2Proof.Machine.execTrigClear r t s
  | .probeSet r t sealedBuf => Sys2Proof.Machine.execProbeSet r t sealedBuf s
  | .traceSet r t sealedBuf => Sys2Proof.Machine.execTraceSet r t sealedBuf s
  | .traceStop r t => Sys2Proof.Machine.execTraceStop r t s
  | .tenantLaunch r t => Sys2Proof.Machine.execTenantLaunch r t s
  | .getVersion => Sys2Proof.Machine.execGetVersion s
  | .getCapabilities => Sys2Proof.Machine.execGetCapabilities s
  | .negotiateAlgorithms offer => Sys2Proof.Machine.execNegotiateAlgorithms offer s
  | .getDigests => Sys2Proof.Machine.execGetDigests s
  | .getCertificate slot offset length => Sys2Proof.Machine.execGetCertificate slot offset length s
  | .challenge slot nonce => Sys2Proof.Machine.execChallenge slot nonce s
  | .getMeasurements sess index nonce => Sys2Proof.Machine.execGetMeasurements sess index nonce s
  | .keyExchange eph nonce => Sys2Proof.Machine.execKeyExchange eph nonce s
  | .finish leafKey sig => Sys2Proof.Machine.execFinish leafKey sig s
  | .spdmHeartbeat sess => Sys2Proof.Machine.execSpdmHeartbeat sess s
  | .keyUpdate sess => Sys2Proof.Machine.execKeyUpdate sess s
  | .claim sess transfer => Sys2Proof.Machine.execClaim sess transfer s
  | .keySet sess kind index material => Sys2Proof.Machine.execKeySet sess kind index material s
  | .keyDrop sess kind index => Sys2Proof.Machine.execKeyDrop sess kind index s
  | .keyList sess => Sys2Proof.Machine.execKeyList sess s
  | .debugToken sess token => Sys2Proof.Machine.execDebugToken sess token s
  | .lifecycle sess target serial auth byOperator => Sys2Proof.Machine.execLifecycle sess target serial auth byOperator s
  | .debugTokenExpiry => Sys2Proof.Machine.execDebugTokenExpiry s
  | .registerWrite offset value wide => Sys2Proof.Machine.execRegisterWrite offset value wide s
  | .lowWordRead offset => Sys2Proof.Machine.execLowWordRead offset s
  | .badAccess offset bytes write => Sys2Proof.Machine.execBadAccess offset bytes write s
  | .busTimeout offset write => Sys2Proof.Machine.execBusTimeout offset write s
  | .modArrayBudgetWrite value => Sys2Proof.Machine.execModArrayBudgetWrite value s
  | .marchStart c die cab value => Sys2Proof.Machine.execMarchStart c die cab value s
  | .marchDone c die cab fail => Sys2Proof.Machine.execMarchDone c die cab fail s
  | .hbmSpareStart c value => Sys2Proof.Machine.execHbmSpareStart c value s
  | .pcSparingDone c unreadable => Sys2Proof.Machine.execPcSparingDone c unreadable s
  | .guestRailsWrite c value => Sys2Proof.Machine.execGuestRailsWrite c value s
  | .guestRailFault c current => Sys2Proof.Machine.execGuestRailFault c current s
  | .portEnable c p value => Sys2Proof.Machine.execPortEnable c p value s
  | .portDisable c p value => Sys2Proof.Machine.execPortDisable c p value s
  | .portRateChange c p value => Sys2Proof.Machine.execPortRateChange c p value s
  | .spareAssignWrite c value => Sys2Proof.Machine.execSpareAssignWrite c value s
  | .eyeScanStart c value => Sys2Proof.Machine.execEyeScanStart c value s
  | .eyeScanDone c h v => Sys2Proof.Machine.execEyeScanDone c h v s
  | .ringEnable r value => Sys2Proof.Machine.execRingEnable r value s
  | .ringDisable r value => Sys2Proof.Machine.execRingDisable r value s
  | .doorbell page offset value wide entries => Sys2Proof.Machine.execDoorbell page offset value wide entries s
  | .interruptTimer r => Sys2Proof.Machine.execInterruptTimer r s
  | .hdmRead c addr ecc macOk => Sys2Proof.Machine.execHdmRead c addr ecc macOk s
  | .hdmWrite c addr value => Sys2Proof.Machine.execHdmWrite c addr value s
  | .baseDeadlineWrite value => Sys2Proof.Machine.execBaseDeadlineWrite value s
  | .baseGo value => Sys2Proof.Machine.execBaseGo value s
  | .chainStart value => Sys2Proof.Machine.execChainStart value s
  | .baseVerifyDone image readOk => Sys2Proof.Machine.execBaseVerifyDone image readOk s
  | .deadlineExpired => Sys2Proof.Machine.execDeadlineExpired s
  | .configRequest => Sys2Proof.Machine.execConfigRequest s
  | .configWaitTimeout => Sys2Proof.Machine.execConfigWaitTimeout s
  | .modTwinRejoin value => Sys2Proof.Machine.execModTwinRejoin value s
  | .modPairReplace value => Sys2Proof.Machine.execModPairReplace value s
  | .recoveryContinue c => Sys2Proof.Machine.execRecoveryContinue c s
  | .recoveryFence c => Sys2Proof.Machine.execRecoveryFence c s
  | .recoveryStop c => Sys2Proof.Machine.execRecoveryStop c s
  | .sliceNow c value => Sys2Proof.Machine.execSliceNow c value s
  | .patrolRestart c value => Sys2Proof.Machine.execPatrolRestart c value s
  | .timSnap c value => Sys2Proof.Machine.execTimSnap c value s
  | .viewEnable c v value => Sys2Proof.Machine.execViewEnable c v value s
  | .deliveryChange c value => Sys2Proof.Machine.execDeliveryChange c value s
  | .deliveryModeApplied c => Sys2Proof.Machine.execDeliveryModeApplied c s
  | .acqConsumedWrite c value => Sys2Proof.Machine.execAcqConsumedWrite c value s
  | .trcConsumedWrite c value => Sys2Proof.Machine.execTrcConsumedWrite c value s
  | .modProbeGroupWrite value => Sys2Proof.Machine.execModProbeGroupWrite value s
  | .modProbeTraceWrite value => Sys2Proof.Machine.execModProbeTraceWrite value s
  | .auxPresent meshFault => Sys2Proof.Machine.execAuxPresent meshFault s
  | .auxLost => Sys2Proof.Machine.execAuxLost s
  | .powerEnable fwA fwB => Sys2Proof.Machine.execPowerEnable fwA fwB s
  | .inputLost pwrEnLow => Sys2Proof.Machine.execInputLost pwrEnLow s
  | .perstAssert => Sys2Proof.Machine.execPerstAssert s
  | .perstRelease => Sys2Proof.Machine.execPerstRelease s
  | .hostReset cxl => Sys2Proof.Machine.execHostReset cxl s
  | .linkDown => Sys2Proof.Machine.execLinkDown s
  | .tamper cause => Sys2Proof.Machine.execTamper cause s
  | .emergencyOff cause site => Sys2Proof.Machine.execEmergencyOff cause site s
  | .channelEmergencyOff c cause site => Sys2Proof.Machine.execChannelEmergencyOff c cause site s
  | .emergencyOffRestart => Sys2Proof.Machine.execEmergencyOffRestart s
  | .phaseFailure group phase limit => Sys2Proof.Machine.execPhaseFailure group phase limit s
  | .powerStateReached c fwMatches mapValid => Sys2Proof.Machine.execPowerStateReached c fwMatches mapValid s
  | .tempWarn die degC => Sys2Proof.Machine.execTempWarn die degC s
  | .sysclkLost c => Sys2Proof.Machine.execSysclkLost c s
  | .sysclkReturn c => Sys2Proof.Machine.execSysclkReturn c s
  | .oscCheck site differs => Sys2Proof.Machine.execOscCheck site differs s
  | .trigEdge c line highNs => Sys2Proof.Machine.execTrigEdge c line highNs s
  | .hbmHot c degC => Sys2Proof.Machine.execHbmHot c degC s
  | .refresh c => Sys2Proof.Machine.execRefresh c s
  | .stepBegin cab obs => Sys2Proof.Machine.execStepBegin cab obs s
  | .clearanceGrant p => Sys2Proof.Machine.execClearanceGrant p s
  | .holdLong p => Sys2Proof.Machine.execHoldLong p s
  | .valuePacketArrival p k => Sys2Proof.Machine.execValuePacketArrival p k s
  | .memoryReturn p k ecc => Sys2Proof.Machine.execMemoryReturn p k ecc s
  | .hbmReadReturn c k ecc lostNode => Sys2Proof.Machine.execHbmReadReturn c k ecc lostNode s
  | .macVerdict c k pass => Sys2Proof.Machine.execMacVerdict c k pass s
  | .wbufDrain c met => Sys2Proof.Machine.execWbufDrain c met s
  | .frameCommit p => Sys2Proof.Machine.execFrameCommit p s
  | .frameAborted p undo => Sys2Proof.Machine.execFrameAborted p undo s
  | .tileReloaded cab bench cell image tileOk => Sys2Proof.Machine.execTileReloaded cab bench cell image tileOk s
  | .cellSwapped cab bench cell image => Sys2Proof.Machine.execCellSwapped cab bench cell image s
  | .benchSwapped cab bench image => Sys2Proof.Machine.execBenchSwapped cab bench image s
  | .cabinetRepaired cab image => Sys2Proof.Machine.execCabinetRepaired cab image s
  | .flitReceive c link flit side => Sys2Proof.Machine.execFlitReceive c link flit side s
  | .laneCheckDone c link failed side => Sys2Proof.Machine.execLaneCheckDone c link failed side s
  | .guestPulses c => Sys2Proof.Machine.execGuestPulses c s
  | .goutReceive c payload => Sys2Proof.Machine.execGoutReceive c payload s
  | .guestResetOutputs c payload => Sys2Proof.Machine.execGuestResetOutputs c payload s
  | .guestLate c => Sys2Proof.Machine.execGuestLate c s
  | .laneCdrLock c lane => Sys2Proof.Machine.execLaneCdrLock c lane s
  | .laneBlockLock c lane => Sys2Proof.Machine.execLaneBlockLock c lane s
  | .laneLockLost c lane cdr => Sys2Proof.Machine.execLaneLockLost c lane cdr s
  | .laneNoSignal c lane => Sys2Proof.Machine.execLaneNoSignal c lane s
  | .amReceive c p ams => Sys2Proof.Machine.execAmReceive c p ams s
  | .amSend c p => Sys2Proof.Machine.execAmSend c p s
  | .fillSend c column => Sys2Proof.Machine.execFillSend c column s
  | .spareSwitch c p agree => Sys2Proof.Machine.execSpareSwitch c p agree s
  | .laneRotation c p => Sys2Proof.Machine.execLaneRotation c p s
  | .rotationTestDone c p mismatches h mv => Sys2Proof.Machine.execRotationTestDone c p mismatches h mv s
  | .linkFlitReceive c p arrived => Sys2Proof.Machine.execLinkFlitReceive c p arrived s
  | .linkctlReceive c p arrived => Sys2Proof.Machine.execLinkctlReceive c p arrived s
  | .ackTimer c p => Sys2Proof.Machine.execAckTimer c p s
  | .nakRepeat c p => Sys2Proof.Machine.execNakRepeat c p s
  | .groupClose c p => Sys2Proof.Machine.execGroupClose c p s
  | .valueMessageReceive c p src frame recs => Sys2Proof.Machine.execValueMessageReceive c p src frame recs s
  | .memMessageReceive c p m => Sys2Proof.Machine.execMemMessageReceive c p m s
  | .msgMessageReceive c p m => Sys2Proof.Machine.execMsgMessageReceive c p m s
  | .messageForward c p dst src type ttl flits => Sys2Proof.Machine.execMessageForward c p dst src type ttl flits s
  | .hello c p remotePort remoteCh remoteModule hash => Sys2Proof.Machine.execHello c p remotePort remoteCh remoteModule hash s
  | .runStart c src frame launch => Sys2Proof.Machine.execRunStart c src frame launch s
  | .stopAt c src frame => Sys2Proof.Machine.execStopAt c src frame s
  | .slotHome c src map => Sys2Proof.Machine.execSlotHome c src map s
  | .slotHomeTimer c => Sys2Proof.Machine.execSlotHomeTimer c s
  | .pairPrimary src member => Sys2Proof.Machine.execPairPrimary src member s
  | .memTimeout c tag => Sys2Proof.Machine.execMemTimeout c tag s
  | .offer c p m => Sys2Proof.Machine.execOffer c p m s
  | .accept c p m => Sys2Proof.Machine.execAccept c p m s
  | .authFinish c p m => Sys2Proof.Machine.execAuthFinish c p m s
  | .update c p epoch => Sys2Proof.Machine.execUpdate c p epoch s
  | .updateAck c p epoch => Sys2Proof.Machine.execUpdateAck c p epoch s
  | .reject c p reason => Sys2Proof.Machine.execReject c p reason s
  | .linkAuthTimeout c p => Sys2Proof.Machine.execLinkAuthTimeout c p s
  | .linkAuthRetry c p => Sys2Proof.Machine.execLinkAuthRetry c p s
  | .epochRollover c p => Sys2Proof.Machine.execEpochRollover c p s
  | .chainData offset data => Sys2Proof.Machine.execChainData offset data s
  | .chainEnd length => Sys2Proof.Machine.execChainEnd length s
  | .chainStatus index status => Sys2Proof.Machine.execChainStatus index status s
  | .sync c p m => Sys2Proof.Machine.execSync c p m s
  | .pdelayReq c p m => Sys2Proof.Machine.execPdelayReq c p m s
  | .pdelayResp c p m turnaround => Sys2Proof.Machine.execPdelayResp c p m turnaround s
  | .announce c p m ds => Sys2Proof.Machine.execAnnounce c p m ds s
  | .pdelayTimer c v => Sys2Proof.Machine.execPdelayTimer c v s
  | .syncTimeout c v => Sys2Proof.Machine.execSyncTimeout c v s
  | .masterTimeout c v => Sys2Proof.Machine.execMasterTimeout c v s
  | .announceSend c v => Sys2Proof.Machine.execAnnounceSend c v s
  | .syncSend c v => Sys2Proof.Machine.execSyncSend c v s
  | .viewExchange c v => Sys2Proof.Machine.execViewExchange c v s
  | .launchFire c e => Sys2Proof.Machine.execLaunchFire c e s
  | .trigMessage c src unit frame eventTime => Sys2Proof.Machine.execTrigMessage c src unit frame eventTime s
  | .twinVerdict p => Sys2Proof.Machine.execTwinVerdict p s
  | .quickSliceTestDone p fails => Sys2Proof.Machine.execQuickSliceTestDone p fails s
  | .twinStateCopyDone p => Sys2Proof.Machine.execTwinStateCopyDone p s
  | .rejoinPrecopyPass residue => Sys2Proof.Machine.execRejoinPrecopyPass residue s
  | .refereeLost => Sys2Proof.Machine.execRefereeLost s
  | .sequencerLost c => Sys2Proof.Machine.execSequencerLost c s
  | .controllerHeartbeat who => Sys2Proof.Machine.execControllerHeartbeat who s
  | .twinHeartbeatSend c p => Sys2Proof.Machine.execTwinHeartbeatSend c p s
  | .twinHeartbeat c p => Sys2Proof.Machine.execTwinHeartbeat c p s
  | .twinSignature c frame first sigs => Sys2Proof.Machine.execTwinSignature c frame first sigs s
  | .twinInput c frame port kind writes => Sys2Proof.Machine.execTwinInput c frame port kind writes s
  | .confirm c frame mask => Sys2Proof.Machine.execConfirm c frame mask s
  | .twinFault c => Sys2Proof.Machine.execTwinFault c s
  | .twinState c frame offset data => Sys2Proof.Machine.execTwinState c frame offset data s
  | .partnerLost => Sys2Proof.Machine.execPartnerLost s
  | .joinPrecopyPass residue => Sys2Proof.Machine.execJoinPrecopyPass residue s
  | .configParityFail c die cab => Sys2Proof.Machine.execConfigParityFail c die cab s
  | .sliceStart c die => Sys2Proof.Machine.execSliceStart c die s
  | .slicePreloadDone c spare => Sys2Proof.Machine.execSlicePreloadDone c spare s
  | .sliceSwap c die holdNs => Sys2Proof.Machine.execSliceSwap c die holdNs s
  | .cabinetTestDone c die obs => Sys2Proof.Machine.execCabinetTestDone c die obs s
  | .wireRotation c link => Sys2Proof.Machine.execWireRotation c link s
  | .wireTestDone c link passed => Sys2Proof.Machine.execWireTestDone c link passed s
  | .patrolPass c die bad disagreements => Sys2Proof.Machine.execPatrolPass c die bad disagreements s
  | .engineDispatch c => Sys2Proof.Machine.execEngineDispatch c s
  | .unitComplete c e buf1 buf2 ecc macOk => Sys2Proof.Machine.execUnitComplete c e buf1 buf2 ecc macOk s
  | .engineReplaced c e failed => Sys2Proof.Machine.execEngineReplaced c e failed s
  | .spareEngineCheck c e passed => Sys2Proof.Machine.execSpareEngineCheck c e passed s
  | .intakeDelivery p => Sys2Proof.Machine.execIntakeDelivery p s
  | .outletWriteOut c port => Sys2Proof.Machine.execOutletWriteOut c port s
  | .rangeClearDone c r => Sys2Proof.Machine.execRangeClearDone c r s
  | .storeBlockRetired store block => Sys2Proof.Machine.execStoreBlockRetired store block s
  | .captureBlockClose c design => Sys2Proof.Machine.execCaptureBlockClose c design s
  | .captureDelivery c read => Sys2Proof.Machine.execCaptureDelivery c read s
  | .traceOverflow c packets => Sys2Proof.Machine.execTraceOverflow c packets s
  | .traceBlockDelivery c => Sys2Proof.Machine.execTraceBlockDelivery c s
  | .linkUp width speed => Sys2Proof.Machine.execLinkUp width speed s
  | .ideKm stream start => Sys2Proof.Machine.execIdeKm stream start s

end Sys2Proof.Machine
end

