-- ==== Sys2Proof/Machine/Tick.lean ====
section
/-! DEFINITION. The passing of one nanosecond: what step does when no command waits (R379; log entry 3). -/

namespace Sys2Proof.Machine

open Sys2Proof

/-- The raw counter of a powered hub advances by exactly 1 ns (R379); that of an unpowered hub stands. -/
def State.tickHub (s : State) (c : Ch) : State :=
  if (s.pw c).state.hubOn then s.modTime c fun t => { t with raw := t.raw + BitVec.ofNat 96 (2 ^ 32) } else s

/-- What follows of itself in a powered hub: PANIC follows the FIFO's fill (R152), and MEM writes whose designs have stopped are served
(R149); a sparing copy moves on while the stack is powered (R156). -/
def State.settle (s : State) (c : Ch) : State :=
  let s := if (s.pw c).state.arrayOn then s.spareTick c else s
  if (s.pw c).state.hubOn then (s.panicCheck c).serveMem c else s

/-- One nanosecond passes. -/
def State.tick (s : State) : State :=
  let s := (s.tickHub .a).tickHub .b
  let s := (s.settle .a).settle .b
  { s with clock := s.clock + 1 }

end Sys2Proof.Machine
end

