-- ==== Sys2Proof/Safety.lean ====
section
/-! DEFINITION. The terms in which statements speak: a command that is due, its one completion, an event, what stays unchanged, and the
invariants that every step keeps. -/

namespace Sys2Proof.Machine

open Sys2Proof

/-- `m` is the accepted command of ring `r` and TAG `t`, of opcode `op`, not yet started, and nothing holds it: its FENCE is open (R235),
a command of the host die alone finds the host die out of reset (R226), and the part is not SCRAPPED (R269). -/
structure Due (s : State) (r : RingNo) (t : Tag) (op : Nat) (m : Cmd) : Prop where
  found : s.cmd r t = some m
  opcode : m.desc.opcode.toNat = op
  waiting : m.started = false
  fence : s.fenceOpen m = true
  hostUp : s.host.perst = false ∨ hostDieOps.contains op = false
  live : s.sec.lifecycle ≠ .scrapped

/-- `Due`, with the tamper latch clear (R289): the command has its own effect. -/
structure Ready (s : State) (r : RingNo) (t : Tag) (op : Nat) (m : Cmd) : Prop extends Due s r t op m where
  unlatched : s.sec.latched = false

/-- Whether a command is the accepted command `m`, by its ring and TAG. -/
def Cmd.is (m x : Cmd) : Bool := x.ring == m.ring && x.desc.tag == m.desc.tag

/-- `u` is `s` with the command `m` answered once (R227, R237, R238, R244): it is outstanding no longer, one completion with this status,
frame number and detail stands at the end of its completion ring, its bytes written at the entry's place in host memory after the receipt
that the command asks for, or it waits with that receipt in its arbiter's retention store; and nothing but the host port has changed: no other
ring, no generation, no event. -/
def Done (m : Cmd) (st : Status) (fr : BitVec 48) (dt : BitVec 128) (s u : State) : Prop :=
  u = { s with
    host := { s.host with
      rings := u.host.rings, cmds := u.host.cmds, retention := u.host.retention, msixPending := u.host.msixPending,
      signals := u.host.signals, out := u.host.out } } ∧
  u.host.cmds = s.host.cmds.filter (fun x => !m.is x) ∧
  (∀ q, q ≠ m.desc.cring → u.ring q = s.ring q) ∧
  ∃ c : Completion, c.tag = m.desc.tag ∧ c.status = st ∧ c.ring = m.ring ∧ c.frame = fr ∧ c.detail = dt ∧
    ((c.retained = false ∧ u.host.retention = s.host.retention ∧
        ∃ ph, (u.ring m.desc.cring).entries = (s.ring m.desc.cring).entries ++ [.cpl c ph] ∧
          u.host.out = s.host.out ++ (s.receiptOf m).toList.map (fun x => { addr := x.addr, data := x.bytes c ph }) ++
            [{ addr := s.entryAddr m.desc.cring (s.ring m.desc.cring).produced, data := c.bytes ph }]) ∨
     (c.retained = true ∧ u.ring m.desc.cring = s.ring m.desc.cring ∧ u.host.out = s.host.out ∧
        u.host.retention = s.host.retention ++
          [{ arb := m.arb, cring := m.desc.cring, cpl := c, accepted := true, receipt := s.receiptOf m }]))

/-- `u` is `s` but for the event ring, what is written into it in host memory, its signals and the count of lost events (R242): what writing
events changes. -/
def Quiet (s u : State) : Prop :=
  u = { s with
    host := { s.host with
      rings := u.host.rings, evSeq := u.host.evSeq, evLost := u.host.evLost, msixPending := u.host.msixPending,
      signals := u.host.signals, out := u.host.out },
    regs := { s.regs with rw := u.regs.rw } } ∧
  (∀ q, q ≠ 96 → u.ring q = s.ring q) ∧
  (∃ l, (u.ring 96).entries = (s.ring 96).entries ++ l) ∧
  (∃ l, u.host.out = s.host.out ++ l) ∧
  ∀ (k : Nat) (d : Word32), k ≠ regOff .hpEventLost .a [] → KV.get d k u.regs.rw = KV.get d k s.regs.rw

/-- An event with these fields stands in the event ring of `u`, its detail in plaintext or, where it is sealed, under the session key of its
owner when that is installed (R239), or `u` counts events as lost since the last one written (R242). -/
def Wrote (code source part owner : Nat) (sealed : Bool) (args : List Nat) (u : State) : Prop :=
  (∃ (e : Event) (ph : Bool), Entry.ev e ph ∈ (u.ring 96).entries ∧ e.code = code ∧ e.source = source ∧ e.partition = part ∧ e.owner = owner ∧
    e.sealed = sealed ∧
    if sealed then e.args = [] ∧ ∀ k, u.key owner 0x0A 0 = some k → e.body = some (e.seal k.material args ph)
    else e.args = args ∧ e.body = none) ∨ 0 < u.host.evLost

/-- One event has been written, and nothing else has happened. -/
def Told (code source part owner : Nat) (sealed : Bool) (args : List Nat) (s u : State) : Prop :=
  Quiet s u ∧ (s.pwr.hostOn = true → Wrote code source part owner sealed args u)

/-- The command `m` takes `s` to `v` by its own effect and is then answered with this status and detail (R236: with the frame number of
the design that its PARTITION names). With `v = s` it is answered and changes nothing. -/
def Carried (i : Instr) (s v : State) (m : Cmd) (st : Status) (dt : BitVec 128) : Prop :=
  ∃ u, exec i s = .next u ∧ Done m st (s.frameAt m.desc.partition.toNat) dt v u

/-- Message `m` from `src` (none: any sender) is the first of its kind for this module that waits on a port, as `h` (R212, R213); `t` is the
state once a command has taken it up: the buffer that it held is free, and nothing else has changed. -/
structure Arrived (s : State) (c : Ch) (p : Nat) (src : Option Nat) (m : Sent) (h : Heard) (t : State) : Prop where
  first : s.heard c p (kindOf m.parts.1 m.parts.2.1) = some h
  form : h.is src m = true
  taken : t = s.takeOut c p h

/-- `Arrived`, on the first port `p` that carries traffic where that message waits (R219). -/
structure ArrivedOn (s : State) (c : Ch) (src : Option Nat) (m : Sent) (p : Nat) (h : Heard) (t : State) : Prop extends
    Arrived s c p src m h t where
  port : (s.carrying c).find? (fun q => ((s.heard c q (kindOf m.parts.1 m.parts.2.1)).map (fun x => x.is src m)).getD false) = some p

/-- `Arrived`, of a TWIN message on the first mirror port `p` where it waits (R213, R322). -/
structure ArrivedTwin (s : State) (c : Ch) (m : Sent) (p : Nat) (h : Heard) (t : State) : Prop extends Arrived s c p none m h t where
  port : (s.mirrorPorts c).find? (fun q => ((s.heard c q (kindOf m.parts.1 m.parts.2.1)).map (fun x => x.is none m)).getD false) = some p

/-- The memories of both channels have their canonical form. -/
def State.memWf (s : State) : Prop := Memory.wf s.chA.hbm.mem ∧ Memory.wf s.chB.hbm.mem

/-- The command of a ring that a row carries out: its ring, its TAG and its opcode (the opcode tables of R236 and of the chapters it
names). MSG_IN is not among them: it takes the messages of its ring in order. -/
def ringForm : Instr → Option (RingNo × Tag × Nat)
  | .nop r t => some (r, t, 0x01)
  | .setMode r t => some (r, t, 0x02)
  | .setPower r t => some (r, t, 0x03)
  | .assign r t => some (r, t, 0x04)
  | .reclaim r t => some (r, t, 0x05)
  | .operatorStop r t => some (r, t, 0x06)
  | .operatorUnload r t => some (r, t, 0x07)
  | .setTopology r t _ => some (r, t, 0x08)
  | .setFunction r t => some (r, t, 0x09)
  | .operatorAbort r t => some (r, t, 0x0A)
  | .openSlot r t => some (r, t, 0x10)
  | .closeSlot r t => some (r, t, 0x11)
  | .assignRange r t => some (r, t, 0x12)
  | .releaseRange r t => some (r, t, 0x13)
  | .operatorLaunch r t => some (r, t, 0x28)
  | .permitStep r t => some (r, t, 0x29)
  | .viewWrite r t => some (r, t, 0x2A)
  | .load r t _ => some (r, t, 0x40)
  | .run r t => some (r, t, 0x41)
  | .tenantStop r t => some (r, t, 0x42)
  | .step r t => some (r, t, 0x43)
  | .tenantUnload r t => some (r, t, 0x44)
  | .stats r t => some (r, t, 0x45)
  | .marchOk r t => some (r, t, 0x46)
  | .tenantAbort r t => some (r, t, 0x47)
  | .setRangeMode r t => some (r, t, 0x50)
  | .copyIn r t => some (r, t, 0x62)
  | .copyOut r t => some (r, t, 0x63)
  | .copy r t => some (r, t, 0x64)
  | .fill r t => some (r, t, 0x65)
  | .gather r t => some (r, t, 0x66)
  | .scatter r t => some (r, t, 0x67)
  | .checksum r t => some (r, t, 0x68)
  | .captureStart r t => some (r, t, 0x70)
  | .captureStop r t => some (r, t, 0x71)
  | .trigSet r t _ => some (r, t, 0x72)
  | .trigClear r t => some (r, t, 0x73)
  | .probeSet r t _ => some (r, t, 0x74)
  | .traceSet r t _ => some (r, t, 0x75)
  | .traceStop r t => some (r, t, 0x76)
  | .tenantLaunch r t => some (r, t, 0x78)
  | _ => none

end Sys2Proof.Machine
end

