-- ==== Sys2Proof/Certificates/Slice0/Obligations.lean ====
section
/-! DEFINITION. The statements for the provers. Each says what commands of one family do: the state they leave, the completion they post
and the events they write, under conditions on the state and the operands alone; the state that a clause names explicitly leaves
everything else as it was. -/

open Sys2Proof Sys2Proof.Machine

/-! ### The step and the whole machine -/

/-- A step runs the command at the front of the queue on the state with the queue's rest. -/
def Obligations.StepRunsFront : Prop :=
  ∀ (c : Instr) (s : State), step { s with pending := c :: s.pending } = exec c s

/-- No command touches the queue or the model's clock, whichever it is and in whatever state (log entry 3: only a step on an empty queue
lets time pass). -/
def Obligations.ExecKeepsQueue : Prop :=
  ∀ (c : Instr) (s u : State), exec c s = .next u → u.pending = s.pending ∧ u.clock = s.clock

/-- Every step keeps the canonical form of both HBM memories. -/
def Obligations.StepKeepsMemory : Prop :=
  ∀ s u : State, s.memWf → step s = .next u → u.memWf

/-- The memories have their canonical form at reset. -/
def Clauses.ResetMemory : Prop := State.reset.memWf

/-- What the rules give for reset (R309, R379, R381, R290, R400): the mode is SPLIT, no base image is in force, both channels stand in STANDBY
and hold no design, the raw counters stand at 0, view 0 of HUB-A runs free and that of HUB-B acquires it, no command waits or is
outstanding, no tamper latch and no fence is set, and every ring is disabled. -/
def Clauses.ResetState : Prop :=
  State.reset.mode.mode = .split ∧ State.reset.base.inForce = none ∧ State.reset.pwr.a.state = .standby ∧ State.reset.pwr.b.state = .standby ∧
  State.reset.designs = [] ∧ State.reset.loads = [] ∧ (∀ p, (State.reset.part p).state = .empty) ∧ State.reset.chA.time.raw = 0 ∧
  State.reset.chB.time.raw = 0 ∧ (State.reset.view .a 0).state = .running ∧ (State.reset.view .b 0).state = .acquiring ∧
  State.reset.viewSource .b 0 = 3 ∧ State.reset.pending = [] ∧ State.reset.sec.latched = false ∧ State.reset.chA.fenced = false ∧
  State.reset.chB.fenced = false ∧ State.reset.host.cmds = [] ∧ ∀ r, State.reset.ringOn r = false

/-! ### Commands of the rings (R235, R289) -/

/-- While the tamper latch is set, every command of a ring but NOP completes TAMPER and has no other effect (R289). -/
def Clauses.LatchCompletesTamper : Prop :=
  ∀ (i : Instr) (r : RingNo) (t : Tag) (op : Nat) (s : State) (m : Cmd),
    ringForm i = some (r, t, op) → op ≠ 0x01 → Due s r t op m → s.sec.latched = true → Carried i s s m .tamper 0

/-- A command whose FENCE is not open has no effect yet (R235). -/
def Clauses.FenceHolds : Prop :=
  ∀ (i : Instr) (r : RingNo) (t : Tag) (op : Nat) (s : State) (m : Cmd),
    ringForm i = some (r, t, op) → s.cmd r t = some m → s.fenceOpen m = false → exec i s = .next s

/-- NOP completes OK, with the tamper latch set too (R236, R289). -/
def Clauses.NopCompletes : Prop :=
  ∀ (s : State) (r : RingNo) (t : Tag) (m : Cmd), Due s r t 0x01 m → Carried (.nop r t) s s m .ok 0

/-! ### Modes, power, partitions (R308, R402, R236) -/

/-- SET_MODE completes: it puts the mode in force when no row of the table of R308 stands against it, and is refused with the previous mode
and the first row otherwise. -/
def Clauses.SetMode : Prop :=
  ∀ (s : State) (r : RingNo) (t : Tag) (m : Cmd), Ready s r t 0x02 m →
    (∀ md, Mode.ofCode (m.desc.par 8 1) = some md →
      (s.modeReasons md = [] → ∃ (mo : ModeSt) (v : State), mo.mode = md ∧ mo.referee = (if md = .twinned then .armed else .idle) ∧
        mo.primary = (md == .mirrored && s.topoKind == 2) ∧ mo.partner = (md == .mirrored && s.topoKind == 3) ∧
        mo.seqLostA = s.mode.seqLostA ∧ mo.seqLostB = s.mode.seqLostB ∧ mo.refLost = s.mode.refLost ∧
        Told 0x8001 0 0xFF 0 false [s.mode.mode.code, md.code] { s with mode := mo } v ∧
        Carried (.setMode r t) s v m .ok (detail [BitVec.ofNat 8 s.mode.mode.code, 0])) ∧
      (∀ q qs, s.modeReasons md = q :: qs →
        Carried (.setMode r t) s s m .refusedState (detail [BitVec.ofNat 8 s.mode.mode.code, BitVec.ofNat 8 q])) ∧
      (∀ p, p < 8 → (s.part p).state ≠ .empty → ∃ qs, s.modeReasons md = 1 :: qs)) ∧
    (Mode.ofCode (m.desc.par 8 1) = none → Carried (.setMode r t) s s m .refusedState 0)

/-- SET_POWER for one channel (R402): a channel that stands elsewhere begins its walk, one that stands at the target completes at once, and
the refusals of R402 and R103 change nothing. -/
def Clauses.SetPower : Prop :=
  ∀ (s : State) (r : RingNo) (t : Tag) (m : Cmd), Ready s r t 0x03 m →
    (PState.ofCode (m.desc.par 9 1) = none → Carried (.setPower r t) s s m .refusedState 0) ∧
    ∀ st, PState.ofCode (m.desc.par 9 1) = some st → (∀ c ∈ maskChs (m.desc.par 8 1), (s.pw c).walk = none) →
      (s.powerRefused (m.desc.par 8 1) st = true → Carried (.setPower r t) s s m .refusedState 0) ∧
      (s.powerRefused (m.desc.par 8 1) st = false → st = .run → s.powerTooMuch (m.desc.par 8 1) (m.desc.par 10 1) = true →
        Carried (.setPower r t) s s m .powerClass 0) ∧
      (s.powerRefused (m.desc.par 8 1) st = false → (st ≠ .run ∨ s.powerTooMuch (m.desc.par 8 1) (m.desc.par 10 1) = false) →
        (∀ c ∈ maskChs (m.desc.par 8 1), (s.pw c).state ≠ st ∧ (s.pw c).state ≠ .run) →
        exec (.setPower r t) s = .next ((maskChs (m.desc.par 8 1)).foldl (fun (u : State) c => u.modPw c fun p =>
          { p with walk := some { target := st, sp := m.desc.par 10 1, ring := r, tag := t } }) (s.start m))) ∧
      ∀ c, maskChs (m.desc.par 8 1) = [c] → s.powerRefused (m.desc.par 8 1) st = false → (s.pw c).state = st → st ≠ .run →
        (s.pw (otherCh c)).walk = none → ∃ v u, Told 0xC005 0 0xFF 0 false [chNum c, st.code, 1] (s.start m) v ∧
          exec (.setPower r t) s = .next u ∧
          Done { m with started := true } .ok (s.frameAt m.desc.partition.toNat) (detail [BitVec.ofNat 8 st.code]) v u

/-- ASSIGN and RECLAIM complete: ASSIGN gives EMPTY partitions that nobody else holds to an open slot, and RECLAIM takes EMPTY partitions
back (R236). -/
def Clauses.AssignReclaim : Prop :=
  ∀ (s : State) (r : RingNo) (t : Tag) (m : Cmd),
    (Ready s r t 0x04 m →
      ((KV.get none (m.desc.par 8 1) s.sec.slots).isSome → s.partsExist (m.desc.par 9 1) = true →
        (∀ p ∈ maskParts (m.desc.par 9 1), (s.part p).state = .empty ∧ ((s.part p).owner = 0 ∨ (s.part p).owner = m.desc.par 8 1)) →
        ∃ ps, Carried (.assign r t) s { s with parts := ps } m .ok 0 ∧
          ∀ p, KV.get {} p ps = if p ∈ maskParts (m.desc.par 9 1) then { s.part p with owner := m.desc.par 8 1 } else s.part p) ∧
      ((KV.get none (m.desc.par 8 1) s.sec.slots = none ∨ ∃ p ∈ maskParts (m.desc.par 9 1), (s.part p).state ≠ .empty ∨
          ((s.part p).owner ≠ 0 ∧ (s.part p).owner ≠ m.desc.par 8 1)) →
        Carried (.assign r t) s s m .refusedState 0)) ∧
    (Ready s r t 0x05 m →
      (s.partsExist (m.desc.par 9 1) = true → (∀ p ∈ maskParts (m.desc.par 9 1), (s.part p).state = .empty) →
        ∃ ps, Carried (.reclaim r t) s { s with parts := ps } m .ok 0 ∧
          ∀ p, KV.get {} p ps = if p ∈ maskParts (m.desc.par 9 1) then { s.part p with owner := 0 } else s.part p) ∧
      ((∃ p ∈ maskParts (m.desc.par 9 1), (s.part p).state ≠ .empty) → Carried (.reclaim r t) s s m .refusedState 0))

/-! ### Running, stopping, unloading (R236, R307, R80) -/

/-- RUN and STEP complete: RUN starts a STOPPED design whose channels are in RUN; STEP does so in DEBUG for one frame. Otherwise both are
refused, and a STEP that finds the partition LOADING has nothing to abort (R236, R307, R311). -/
def Clauses.RunStep : Prop :=
  ∀ (s : State) (r : RingNo) (t : Tag) (m : Cmd),
    (Ready s r t 0x41 m →
      (∀ d, s.designAt m.desc.partition.toNat = some d → s.canRun d = true → s.pairMayRun d = true →
        ∃ ps ds, exec (.run r t) s = .next { s.start m with parts := ps, designs := ds } ∧
          (∀ p, KV.get {} p ps = if p ∈ d.allParts ∧ some (chOfPart p) ≠ d.fencedSide then { s.part p with state := .running } else s.part p) ∧
          ds = s.designs.map (fun x => if x.tag = d.tag then
            { x with state := .running, run := some { ring := m.ring, tag := m.desc.tag,
                                                      left := if m.desc.par 8 6 = 0 then none else some (m.desc.par 8 6),
                                                      waitLaunch := bitAt (m.desc.par 16 1) 0 } } else x)) ∧
      (∀ d, s.designAt m.desc.partition.toNat = some d → (s.canRun d && s.pairMayRun d) = false → Carried (.run r t) s s m .refusedState 0) ∧
      (s.designAt m.desc.partition.toNat = none → Carried (.run r t) s s m .refusedState 0)) ∧
    (Ready s r t 0x43 m →
      (s.loadAt m.desc.partition.toNat = none → ∀ d, s.designAt m.desc.partition.toNat = some d → s.mode.mode.isDebug = true →
        s.canRun d = true →
        ∃ ps ds, exec (.step r t) s = .next { s.start m with parts := ps, designs := ds } ∧
          (∀ p, KV.get {} p ps = if p ∈ d.allParts ∧ some (chOfPart p) ≠ d.fencedSide then { s.part p with state := .running } else s.part p) ∧
          ds = s.designs.map (fun x => if x.tag = d.tag then
            { x with state := .running, run := some { ring := m.ring, tag := m.desc.tag, left := some 1, waitLaunch := false } } else x)) ∧
      (s.loadAt m.desc.partition.toNat = none → (∀ d, s.designAt m.desc.partition.toNat = some d → (s.mode.mode.isDebug && s.canRun d) = false) →
        Carried (.step r t) s s m .refusedState 0) ∧
      ((s.loadAt m.desc.partition.toNat).isSome → Carried (.step r t) s s m .nothingToAbort 0))

/-- STOP completes, on either ring (R236, R307, R80): with nothing running it has nothing to abort; a running design that is not held
becomes STOPPING and remembers who asked. -/
def Clauses.StopRequests : Prop :=
  ∀ (i : Instr) (op : Nat) (s : State) (r : RingNo) (t : Tag) (m : Cmd),
    (i = .operatorStop r t ∧ op = 0x06 ∨ i = .tenantStop r t ∧ op = 0x42) → Ready s r t op m →
    (s.designAt m.desc.partition.toNat = none → Carried i s s m .nothingToAbort 0) ∧
    (∀ d, s.designAt m.desc.partition.toNat = some d → d.state ≠ .running → d.state ≠ .stopping → Carried i s s m .nothingToAbort 0) ∧
    (∀ d, s.designAt m.desc.partition.toNat = some d → d.state = .running → d.held = false → d.disabled = false → d.waitPartner = false →
      (∀ x, d.run = some x → x.waitLaunch = false) →
      ∃ ps ds, exec i s = .next { s.start m with parts := ps, designs := ds } ∧
        (∀ p, KV.get {} p ps = if p ∈ d.allParts ∧ some (chOfPart p) ≠ d.fencedSide then { s.part p with state := .stopping } else s.part p) ∧
        ds = s.designs.map (fun x => if x.tag = d.tag then
          { x with state := .stopping, stops := x.stops ++ [{ ring := m.ring, tag := m.desc.tag, unload := false, answer := true }] } else x))

/-- UNLOAD completes, on either ring (R236, R307): an EMPTY partition has nothing to abort; a stopped design is removed, its partitions
become EMPTY and stay with their tenant, and tenant memory keeps every byte; a running design that is not held unloads at its next commit. -/
def Clauses.UnloadEmpties : Prop :=
  ∀ (i : Instr) (op : Nat) (s : State) (r : RingNo) (t : Tag) (m : Cmd),
    (i = .operatorUnload r t ∧ op = 0x07 ∨ i = .tenantUnload r t ∧ op = 0x44) → Ready s r t op m →
    s.loadAt m.desc.partition.toNat = none →
    (s.designAt m.desc.partition.toNat = none → ∃ u, exec i s = .next u ∧ Done m .nothingToAbort 0 0 s u) ∧
    (∀ d, s.designAt m.desc.partition.toNat = some d → d.state ≠ .running → d.state ≠ .stopping →
      ∃ u v, exec i s = .next u ∧ Done m .ok (BitVec.ofNat 48 d.frame) 0 v u ∧
        v.designs = s.designs.filter (fun x => x.tag != d.tag) ∧
        (∀ p ∈ d.allParts, (v.part p).state = .empty ∧ (v.part p).owner = (s.part p).owner) ∧
        (∀ p, p ∉ d.allParts → v.part p = s.part p) ∧
        v.chA.hbm.mem = s.chA.hbm.mem ∧ v.chB.hbm.mem = s.chB.hbm.mem ∧ v.chA.ranges = s.chA.ranges ∧ v.chB.ranges = s.chB.ranges) ∧
    (∀ d, s.designAt m.desc.partition.toNat = some d → d.state = .running → d.held = false → d.disabled = false → d.waitPartner = false →
      (∀ x, d.run = some x → x.waitLaunch = false) →
      ∃ ps ds, exec i s = .next { s.start m with parts := ps, designs := ds } ∧
        (∀ p, KV.get {} p ps = if p ∈ d.allParts ∧ some (chOfPart p) ≠ d.fencedSide then { s.part p with state := .stopping } else s.part p) ∧
        ds = s.designs.map (fun x => if x.tag = d.tag then
          { x with state := .stopping, stops := x.stops ++ [{ ring := m.ring, tag := m.desc.tag, unload := true, answer := true }] } else x))

/-- STATS and MARCH_OK complete: STATS seals the counters that it selects under the session key and writes their 4,080 bytes with the tag to
the address it names: of a Cabinet of the tenant's own design the bytes injected, the histogram selected, the conflict counters and the
undo-log peak, of a hub initiator the first two; a selection that names neither is refused. Their layout is free (log entry 4). MARCH_OK
starts a PRESERVING run on every Cabinet of a stopped design; otherwise both are refused (R179, R180, R236, R135, R270). -/
def Clauses.StatsMarch : Prop :=
  ∀ (s : State) (r : RingNo) (t : Tag) (m : Cmd),
    (Ready s r t 0x45 m →
      (∀ d k l, s.designAt m.desc.partition.toNat = some d → m.key 0x0A 0 = some k →
        s.statsOf d (chOfPart m.desc.partition.toNat) (m.desc.par 16 2) = some l →
        ∀ ct, ct = gcmSeal k.material (m.iv 0x84) ((Config.statsLayout l ++ List.replicate 4080 0).take 4080) →
          Carried (.stats r t) s
            { s with host := { s.host with out := s.host.out ++
              [{ addr := m.desc.par 8 8, data := ct ++ leBytes 16 (Config.gcmTag k.material (m.iv 0x84) [] ct).toNat }] } } m .ok 0) ∧
      (∀ d l c die n, l ∈ d.span → s.physOf l = some (c, die, n) → nodeOfPhys n < 64 → die < 2 → ∃ i, nodeOfPhys i = nodeOfPhys n ∧
        ∀ h : Bool, s.statsOf d c (64 * die + nodeOfPhys n + 512 * bit01 h) =
          some ((KV.get {} (64 * die + nodeOfPhys n) (s.ch c).fab.stats).counters h ++ s.bankCounters c die i)) ∧
      (∀ d c n (h : Bool), 1 ≤ n ∧ n ≤ 19 ∨ n = 22 →
        s.statsOf d c (128 + n + 512 * bit01 h) = some ((KV.get {} (128 + n) (s.ch c).fab.stats).counters h)) ∧
      (∀ d, s.designAt m.desc.partition.toNat = some d → s.statsOf d (chOfPart m.desc.partition.toNat) (m.desc.par 16 2) = none →
        Carried (.stats r t) s s m .refusedState 0) ∧
      (s.designAt m.desc.partition.toNat = none → Carried (.stats r t) s s m .refusedState 0)) ∧
    (Ready s r t 0x46 m →
      (∀ d, s.designAt m.desc.partition.toNat = some d → d.state = .stopped → (s.sec.lifecycle = .field ∨ s.sec.lifecycle = .returned) →
        (∀ c ∈ d.chans, (s.pw c).state.arrayOn = true) →
        (∀ l ∈ d.span, ∃ c die n, s.physOf l = some (c, die, n) ∧ (s.cab c die n).march = none) →
        ∃ u, exec (.marchOk r t) s = .next u ∧ u.host = (s.start m).host ∧ u.parts = s.parts ∧
          ∀ l ∈ d.span, ∃ c die n, s.physOf l = some (c, die, n) ∧ (u.cab c die n).march = some { run := 1, design := some d.tag }) ∧
      (∀ d, s.designAt m.desc.partition.toNat = some d → d.state ≠ .stopped → Carried (.marchOk r t) s s m .refusedState 0) ∧
      (s.designAt m.desc.partition.toNat = none → Carried (.marchOk r t) s s m .refusedState 0))

/-! ### Functions, ABORT, topology (R243, R245, R218) -/

/-- SET_FUNCTION completes: it turns capture, trace and the guest port of a channel off and on, an idle engine and a message port with no
message accepted likewise, and is refused for a function that the channel does not have (R243, R264). -/
def Clauses.SetFunction : Prop :=
  ∀ (s : State) (r : RingNo) (t : Tag) (m : Cmd), Ready s r t 0x09 m → ∀ (c : Ch) (on : Bool), m.desc.par 9 1 = chNum c →
    m.desc.par 12 1 = bit01 on →
    (s.functionOk (m.desc.par 8 1) (chNum c) (m.desc.par 10 2) (bit01 on) = false → Carried (.setFunction r t) s s m .refusedState 0) ∧
    (s.functionOk (m.desc.par 8 1) (chNum c) (m.desc.par 10 2) (bit01 on) = true →
      (m.desc.par 8 1 = 0 → ∃ fr u, exec (.setFunction r t) s = .next u ∧ Done m .ok fr 0 (s.linkFunction c (m.desc.par 10 2) on) u) ∧
      (m.desc.par 8 1 = 1 → ((s.ch c).sched.engine (m.desc.par 10 2)).busy = none →
        Carried (.setFunction r t) s (s.modEngine c (m.desc.par 10 2) fun x => { x with disabled := !on }) m .ok 0) ∧
      (m.desc.par 8 1 = 2 → (s.mport c (m.desc.par 10 2)).design = none → (s.mport c (m.desc.par 10 2)).inRing = none →
        (s.mport c (m.desc.par 10 2)).accepted = [] →
        Carried (.setFunction r t) s (s.modMport c (m.desc.par 10 2) fun q => { q with disabled := !on }) m .ok 0) ∧
      (m.desc.par 8 1 = 3 → Carried (.setFunction r t) s (s.modAcq c fun a => { a with disabled := !on }) m .ok 0) ∧
      (m.desc.par 8 1 = 4 → Carried (.setFunction r t) s (s.modTrc c fun a => { a with disabled := !on }) m .ok 0) ∧
      (m.desc.par 8 1 = 5 → Carried (.setFunction r t) s (s.modGuest c fun g => { g with disabled := !on }) m .ok 0))

/-- ABORT of either ring (R245): an outstanding command that has not begun completes ABORTED and the ABORT completes OK, and a message so aborted
consumes its sequence number (R254); a command that is not outstanding, or that always runs to its natural end, leaves nothing to abort; a tenant reaches only its own rings. -/
def Clauses.AbortCommands : Prop :=
  ∀ (i : Instr) (op : Nat) (s : State) (r : RingNo) (t : Tag) (m : Cmd),
    (i = .operatorAbort r t ∧ op = 0x0A ∨ i = .tenantAbort r t ∧ op = 0x47) → Ready s r t op m →
    (s.ringOwner m.ring ≠ 0 → s.ringOwner (m.desc.par 8 2) ≠ s.ringOwner m.ring → Carried i s s m .refusedState 0) ∧
    (s.ringOwner m.ring = 0 ∨ s.ringOwner (m.desc.par 8 2) = s.ringOwner m.ring →
      (s.cmd (m.desc.par 8 2) (BitVec.ofNat 32 (m.desc.par 12 4)) = none → Carried i s s m .nothingToAbort 0) ∧
      (∀ q, s.cmd (m.desc.par 8 2) (BitVec.ofNat 32 (m.desc.par 12 4)) = some q →
        (q.desc.opcode.toNat ∈ neverAborted → Carried i s s m .nothingToAbort 0) ∧
        (q.desc.opcode.toNat ∉ neverAborted → q.started = false →
          ∀ w, w = (if isMsgRing q.ring then s.useMseq q.ring (BitVec.ofNat 64 (q.desc.par 24 8)) else s) →
          ∃ v, Done q .aborted (s.frameAt q.desc.partition.toNat) 0 w v ∧ Carried i s v m .ok 0)))

/-- SET_TOPOLOGY completes: it refuses a table that is not well formed with CONTRACT_MISMATCH and a change under a design that names its
table with REFUSED_STATE; otherwise the table is in force and the traffic layer of every port starts afresh (R218, R219). -/
def Clauses.SetTopology : Prop :=
  ∀ (s : State) (r : RingNo) (t : Tag) (table : List Byte) (m : Cmd), Ready s r t 0x08 m →
    (s.readTopo table (m.desc.par 16 4) = none → Carried (.setTopology r t table) s s m .contractMismatch 0) ∧
    ∀ tp, s.readTopo table (m.desc.par 16 4) = some tp →
      ((∃ d ∈ s.designs, d.header.topoHash ≠ 0) → Carried (.setTopology r t table) s s m .refusedState 0) ∧
      ((∀ d ∈ s.designs, d.header.topoHash = 0) →
        ∃ u, exec (.setTopology r t table) s = .next u ∧ u.topo = some tp ∧ u.cmd r t = none ∧
          u.parts = s.parts ∧ u.chA.hbm = s.chA.hbm ∧ u.chB.hbm = s.chB.hbm ∧
          ∀ c ∈ s.channels, ∀ p, p < 8 → (u.port c p).helloOk = false ∧ (u.port c p).traffic = false)

/-! ### Slots and ranges (R273, R279, R280) -/

/-- OPEN_SLOT and CLOSE_SLOT complete: OPEN_SLOT opens a slot that is not open; CLOSE_SLOT closes one that holds no partition, with its keys
and its session (R273, R268). -/
def Clauses.Slots : Prop :=
  ∀ (s : State) (r : RingNo) (t : Tag) (m : Cmd),
    (Ready s r t 0x10 m →
      (KV.get none (m.desc.par 8 1) s.sec.slots = none →
        Carried (.openSlot r t) s
          (s.modSec fun x => { x with slots := KV.put none (m.desc.par 8 1) (some (BitVec.ofNat 256 (m.desc.par 16 32))) x.slots }) m .ok 0) ∧
      ((KV.get none (m.desc.par 8 1) s.sec.slots).isSome → Carried (.openSlot r t) s s m .refusedState 0)) ∧
    (Ready s r t 0x11 m →
      ((KV.get none (m.desc.par 8 1) s.sec.slots).isSome → (∀ p, p < 8 → (s.part p).owner ≠ m.desc.par 8 1) →
        (∀ c, ∀ e ∈ (s.ch c).ranges, e.2.owner = m.desc.par 8 1 → e.2.state ≠ 1) →
        ∃ u, exec (.closeSlot r t) s = .next u ∧ u.parts = s.parts ∧ u.cmd r t = none ∧
          KV.get none (m.desc.par 8 1) u.sec.slots = none ∧ (∀ k, k ≠ m.desc.par 8 1 → KV.get none k u.sec.slots = KV.get none k s.sec.slots) ∧
          (∀ x ∈ u.sec.sessions, x.who ≠ .tenant (m.desc.par 8 1)) ∧
          (∀ k ∈ u.chA.hutch.keys ++ u.chB.hutch.keys, k.holder ≠ m.desc.par 8 1)) ∧
      (KV.get none (m.desc.par 8 1) s.sec.slots = none ∨ (∃ p, p < 8 ∧ (s.part p).owner = m.desc.par 8 1) →
        Carried (.closeSlot r t) s s m .refusedState 0))

/-- ASSIGN_RANGE, RELEASE_RANGE, SET_RANGE_MODE and RANGE_CLEAR_DONE complete: the first three begin to clear the range under the owner and
mode that follow, with a fresh key where the mode encrypts, and stay outstanding; RANGE_CLEAR_DONE writes zero to every byte of the range
and to no other (R279, R280). -/
def Clauses.RangeCommands : Prop :=
  ∀ (s : State) (r : RingNo) (t : Tag) (m : Cmd) (c : Ch), s.rangeCh m = some c →
    (Ready s r t 0x12 m → (KV.get none (m.desc.par 10 1) s.sec.slots).isSome → s.patched c (m.desc.par 9 1) = false →
      (s.range c (m.desc.par 9 1)).state ≠ 1 →
      (s.placeOk c (m.desc.par 9 1) (m.desc.par 12 4) (m.desc.par 16 4) = true →
        exec (.assignRange r t) s = .next (((s.start m).modRange c (m.desc.par 9 1) fun _ =>
          { base := m.desc.par 12 4, len := m.desc.par 16 4, mode := 1, owner := m.desc.par 10 1, state := 1, key := some s.free,
            job := some { remove := false, ring := r, tag := t, answer := true } }).freeNext)) ∧
      (s.placeOk c (m.desc.par 9 1) (m.desc.par 12 4) (m.desc.par 16 4) = false → Carried (.assignRange r t) s s m .regionViolation 0)) ∧
    (Ready s r t 0x13 m →
      ((s.range c (m.desc.par 9 1)).len = 0 → Carried (.releaseRange r t) s s m .nothingToAbort 0) ∧
      ((s.range c (m.desc.par 9 1)).len ≠ 0 → s.patched c (m.desc.par 9 1) = true → Carried (.releaseRange r t) s s m .refusedState 0) ∧
      ((s.range c (m.desc.par 9 1)).len ≠ 0 → s.patched c (m.desc.par 9 1) = false → (s.range c (m.desc.par 9 1)).state ≠ 1 →
        exec (.releaseRange r t) s = .next (((s.start m).modRange c (m.desc.par 9 1) fun g =>
          { g with mode := 0, owner := 0, state := 1, key := none, job := some { remove := true, ring := r, tag := t, answer := true } }).freeNext))) ∧
    (Ready s r t 0x50 m → (s.range c (m.desc.par 9 1)).len ≠ 0 →
      ((s.range c (m.desc.par 9 1)).owner ≠ s.ringOwner m.ring → Carried (.setRangeMode r t) s s m .refusedState 0) ∧
      ((s.range c (m.desc.par 9 1)).owner = s.ringOwner m.ring → s.patched c (m.desc.par 9 1) = false →
        (m.desc.par 10 1 = 2 → (s.ch c).hbm.integrity = false → Carried (.setRangeMode r t) s s m .resource 0) ∧
        ((m.desc.par 10 1 ≠ 2 ∨ (s.ch c).hbm.integrity = true) → (s.range c (m.desc.par 9 1)).state ≠ 1 →
          exec (.setRangeMode r t) s = .next (((s.start m).modRange c (m.desc.par 9 1) fun g =>
            { g with mode := m.desc.par 10 1, owner := s.ringOwner m.ring, state := 1,
                     key := if m.desc.par 10 1 = 0 then none else some s.free,
                     job := some { remove := false, ring := r, tag := t, answer := true } }).freeNext))))

/-- RANGE_CLEAR_DONE (R280): the bytes of the range read zero, every other byte reads as before, and the range is owned again or has lost
its placement; the command that asked completes OK. -/
def Clauses.RangeCleared : Prop :=
  ∀ (s : State) (c : Ch) (n : Nat) (j : ClearJob), (s.range c n).job = some j → (s.range c n).state = 1 → (s.pw c).state.arrayOn = true →
    ∃ u v, exec (.rangeClearDone c n) s = .next u ∧ v.host = s.host ∧
      (∀ a, Memory.read (u.ch c).hbm.mem a =
        if 4096 * (s.range c n).base ≤ a ∧ a < 4096 * ((s.range c n).base + (s.range c n).len) then 0 else Memory.read (s.ch c).hbm.mem a) ∧
      (u.ch (otherCh c)).hbm.mem = (s.ch (otherCh c)).hbm.mem ∧
      u.range c n = (if j.remove then {} else { s.range c n with state := 2, job := none }) ∧
      (∀ k, k ≠ n → u.range c k = s.range c k) ∧
      (j.answer = false → u = v) ∧
      (∀ m, j.answer = true → s.cmd j.ring j.tag = some m → Done m .ok (s.frameAt m.desc.partition.toNat) 0 v u)

/-! ### Launches and views (R384, R386, R389) -/

/-- LAUNCH of either ring places an entry in the lowest free place of the hub it names; a time that has passed completes TIMEOUT, and with
no free entry the command completes RESOURCE (R389). -/
def Clauses.Launches : Prop :=
  ∀ (i : Instr) (op : Nat) (tenant : Bool) (s : State) (r : RingNo) (t : Tag) (m : Cmd),
    (i = .operatorLaunch r t ∧ op = 0x28 ∧ tenant = false ∨ i = .tenantLaunch r t ∧ op = 0x78 ∧ tenant = true) → Ready s r t op m →
    ∀ (c : Ch) (l : Launch), m.desc.par 12 1 = chNum c →
      l = { tenant := tenant, kind := m.desc.par 8 1, view := m.desc.par 9 1, lines := m.desc.par 10 1,
            message := tenant && bitAt (m.desc.par 11 1) 0, time := m.desc.par 16 8, partition := m.desc.partition.toNat,
            ring := m.ring, tag := m.desc.tag, armed := true } →
      ((s.pw c).state.hubOn = false ∨ (s.view c l.view).state = .disabled ∧ l.view < 6 → Carried i s s m .refusedState 0) ∧
      ((s.pw c).state.hubOn = true → c ∈ s.channels → (6 ≤ l.view ∨ (s.view c l.view).state ≠ .disabled) →
        (tenant = false ∨ l.kind ≠ 2 ∨ ∀ k, k < 4 → bitAt l.lines k = true → bitAt (s.reg .timTrigCfg c [k]).toNat 14 = true) →
        s.mode.mode ≠ .mirrored →
        (s.launchDue c l = true → Carried i s s m .timeout 0) ∧
        (s.launchDue c l = false → (∀ e, e < 16 → (s.launch c e).isSome) → Carried i s s m .resource 0) ∧
        (s.launchDue c l = false → ∀ e, e < 16 → s.launch c e = none → (∀ k, k < e → (s.launch c k).isSome) →
          exec i s = .next ((s.start m).modTime c fun x => { x with launches := KV.put none e (some l) x.launches })))

/-- PERMIT_STEP and VIEW_WRITE complete: PERMIT_STEP steps a view that stands in REFUSED by its last offset and has nothing to abort
otherwise; VIEW_WRITE sets the increment, and with SET_VALUE the value, of view 6 or 7 (R384, R386). -/
def Clauses.ViewCommands : Prop :=
  ∀ (s : State) (r : RingNo) (t : Tag) (m : Cmd) (c : Ch),
    (Ready s r t 0x29 m → m.desc.par 8 1 = chNum c →
      ((m.desc.par 9 1 < 6 ∧ (s.view c (m.desc.par 9 1)).state = .refused) → (∀ e, e < 16 → s.launch c e = none) →
        ∃ v, Told 0xB001 (1 + chNum c) 0xFF 0 false [m.desc.par 9 1, 2, nsField (-(s.view c (m.desc.par 9 1)).lastOffset)]
            (s.modView c (m.desc.par 9 1) fun x =>
              { x with offset := x.offset - x.lastOffset, stepped := true, state := .locked, reqAt := none }) v ∧
          Carried (.permitStep r t) s v m .ok 0) ∧
      ((6 ≤ m.desc.par 9 1 ∨ (s.view c (m.desc.par 9 1)).state ≠ .refused) → Carried (.permitStep r t) s s m .nothingToAbort 0)) ∧
    (Ready s r t 0x2A m →
      (m.desc.par 9 1 < 6 → Carried (.viewWrite r t) s s m .refusedState 0) ∧
      (6 ≤ m.desc.par 9 1 → s.channels.filter (fun x => bitAt (m.desc.par 8 1) (chNum x) && (s.pw x).state.hubOn) = [c] →
        (∀ e, e < 16 → s.launch c e = none) →
        Carried (.viewWrite r t) s (s.modView c (m.desc.par 9 1) fun x =>
          { x with v0 := if bitAt (m.desc.par 10 1) 0 then (m.desc.par 16 8 : Int) * 2 ^ 32 else s.viewNow c (m.desc.par 9 1),
                   r0 := s.rawNow c, inc := m.desc.par 24 8 }) m .ok 0))

/-! ### Capture, triggers, probes and trace (R354-R378) -/

/-- CAPTURE_START and CAPTURE_STOP (R378): a start is kept for the design's next commit with the options of the command, refused while
capture runs and without a capture key; a stop is kept likewise, withdraws a start that has not taken effect, and otherwise has nothing to
abort. That the commands complete at once is the model's reading (log entry 18). -/
def Clauses.CaptureCommands : Prop :=
  ∀ (s : State) (r : RingNo) (t : Tag) (m : Cmd) (d : Design), s.designAt m.desc.partition.toNat = some d →
    (Ready s r t 0x70 m →
      (d.cap.on = false → d.capReq = none → (s.key d.slot 6 0).isSome →
        ∀ opts : Capture, opts =
            { on := true, drop := m.desc.par 8 1 == 1, compress := bitAt (m.desc.par 9 1) 0, activity := bitAt (m.desc.par 9 1) 1,
              interval := max 1 (m.desc.par 12 2) } →
          Carried (.captureStart r t) s (s.modDesign d.tag fun x => { x with capReq := some { start := some opts } }) m .ok 0) ∧
      (d.cap.on = false → d.capReq = none → s.key d.slot 6 0 = none → Carried (.captureStart r t) s s m .resource 0) ∧
      (d.cap.on = true → Carried (.captureStart r t) s s m .refusedState 0)) ∧
    (Ready s r t 0x71 m →
      (d.cap.on = true → Carried (.captureStop r t) s (s.modDesign d.tag fun x => { x with capReq := some { start := none } }) m .ok 0) ∧
      (d.cap.on = false → d.capReq.isSome →
        Carried (.captureStop r t) s (s.modDesign d.tag fun x => { x with capReq := none }) m .ok 0) ∧
      (d.cap.on = false → d.capReq = none → Carried (.captureStop r t) s s m .nothingToAbort 0))

/-- TRIG_SET loads a unit with the program of its sealed buffer, in state 0 with its counter 0; a buffer that does not verify completes
AUTH_FAIL, a program out of its format REFUSED_STATE. TRIG_CLEAR frees a unit of the design alone (R362, R378). -/
def Clauses.TriggerUnits : Prop :=
  ∀ (s : State) (r : RingNo) (t : Tag) (m : Cmd) (d : Design) (c : Ch), s.designAt m.desc.partition.toNat = some d →
    m.desc.par 17 1 = chNum c →
    (∀ buf, Ready s r t 0x72 m →
      (m.openBuf 1 buf = none → Carried (.trigSet r t buf) s s m .authFail 0) ∧
      (∀ p, m.openBuf 1 buf = some p → c ∈ s.channels →
        (trigOk p = false → Carried (.trigSet r t buf) s s m .refusedState 0) ∧
        (trigOk p = true → (∀ g ∈ trigSignals p, ∃ q ∈ d.probes, q.signal = g) →
          (∀ q ∈ d.probes, q.signal ∈ trigSignals p → chOfCab (d.liveCab q.cab) = c) → ∀ k, s.freeUnit c (m.desc.par 16 1) = some k →
          ∃ v prev, Carried (.trigSet r t buf) s v m .ok (detail [BitVec.ofNat 8 k]) ∧ v.host = s.host ∧ v.parts = s.parts ∧
            KV.get {} k (v.ch c).units = { trigUnit d.tag p with prev := prev } ∧
            (∀ j, j ≠ k → KV.get {} j (v.ch c).units = KV.get {} j (s.ch c).units) ∧
            (v.ch (otherCh c)).units = (s.ch (otherCh c)).units))) ∧
    (Ready s r t 0x73 m →
      ((KV.get ({} : TrigUnit) (m.desc.par 16 1) (s.ch c).units).design = some d.tag →
        Carried (.trigClear r t) s (s.modCh c fun h => { h with units := KV.put {} (m.desc.par 16 1) {} h.units }) m .ok 0) ∧
      ((KV.get ({} : TrigUnit) (m.desc.par 16 1) (s.ch c).units).design ≠ some d.tag →
        Carried (.trigClear r t) s s m .nothingToAbort 0))

/-- PROBE_SET, MOD_PROBE_GROUP and MOD_PROBE_TRACE complete: PROBE_SET gives each pin that its buffer names the selection named last, and no
other pin anything; MOD_PROBE_GROUP and MOD_PROBE_TRACE take effect at once: pins whose group changes its owner lose their selections, and
the trace port takes groups 0 to 4 (R369-R371). -/
def Clauses.ProbePins : Prop :=
  (∀ (s : State) (r : RingNo) (t : Tag) (m : Cmd) (d : Design) (buf p : List Byte), s.designAt m.desc.partition.toNat = some d →
    Ready s r t 0x74 m → m.openBuf 1 buf = some p →
    ((p.length = 8 * m.desc.par 16 1 ∧ ∀ i, i < m.desc.par 16 1 → s.probeOk d p i = true) →
      ∃ pins, Carried (.probeSet r t buf) s { s with pins := pins } m .ok 0 ∧
        (∀ q, (∀ i, i < m.desc.par 16 1 → rd p (8 * i) 1 ≠ q) → KV.get {} q pins = KV.get {} q s.pins) ∧
        ∀ i, i < m.desc.par 16 1 → (∀ j, i < j → j < m.desc.par 16 1 → rd p (8 * j) 1 ≠ rd p (8 * i) 1) →
          (KV.get {} (rd p (8 * i) 1) pins).mode = rd p (8 * i + 1) 1 ∧ (KV.get {} (rd p (8 * i) 1) pins).design = d.tag ∧
          (KV.get {} (rd p (8 * i) 1) pins).signal = rd p (8 * i + 4) 4) ∧
    ((p.length ≠ 8 * m.desc.par 16 1 ∨ ∃ i, i < m.desc.par 16 1 ∧ s.probeOk d p i = false) →
      Carried (.probeSet r t buf) s s m .refusedState 0)) ∧
  (∀ (s : State) (value : Word32), s.portAnswers = true → ∃ u, exec (.modProbeGroupWrite value) s = .next u ∧
    u = { s with regs := u.regs, pins := u.pins } ∧
    u.reg .modProbeGroup .a [] = (if s.tracePort then value &&& 0xFFF00000#32 else value) ∧
    ∀ e, e ∈ u.pins ↔ e ∈ s.pins ∧ s.pinOwner (e.1 / 8) = u.pinOwner (e.1 / 8)) ∧
  (∀ (s : State) (value : Word32), s.portAnswers = true → ∃ u, exec (.modProbeTraceWrite value) s = .next u ∧
    u = { s with regs := u.regs, pins := u.pins } ∧ u.reg .modProbeTrace .a [] = value &&& 3 ∧
    (value.getLsbD 0 = true → u.reg .modProbeGroup .a [] = s.reg .modProbeGroup .a [] &&& 0xFFF00000#32 ∧
      ∀ e, e ∈ u.pins ↔ e ∈ s.pins ∧ 5 ≤ e.1 / 8) ∧
    (value.getLsbD 0 = false → u.reg .modProbeGroup .a [] = s.reg .modProbeGroup .a [] ∧ u.pins = s.pins))

/-- TRACE_SET and TRACE_STOP complete: TRACE_SET gives the design the lowest free ranges of the channel; TRACE_STOP leaves it none there
(R374, R378). -/
def Clauses.TraceRanges : Prop :=
  ∀ (s : State) (r : RingNo) (t : Tag) (m : Cmd) (d : Design) (c : Ch), s.designAt m.desc.partition.toNat = some d →
    m.desc.par 18 1 = chNum c → c ∈ d.chans →
    (∀ buf p, Ready s r t 0x75 m → (bitAt (m.desc.par 17 1) 0 = false ∨ s.mode.mode.isDebug = true) → (s.key d.slot 7 0).isSome →
      m.openBuf 1 buf = some p → p.length = 24 * m.desc.par 16 1 → (List.range (m.desc.par 16 1)).all (traceRangeOk p) = true →
      ∀ free, free = (List.range 8).filter (fun k => (KV.get ({} : TraceRange) k (s.ch c).tranges).design.isNone) →
        (free.length < m.desc.par 16 1 → Carried (.traceSet r t buf) s s m .resource 0) ∧
        (m.desc.par 16 1 ≤ free.length →
          ∃ v, Carried (.traceSet r t buf) s v m .ok 0 ∧ v.host = s.host ∧ v.parts = s.parts ∧
            (∀ i k, i < m.desc.par 16 1 → free[i]? = some k → KV.get {} k (v.ch c).tranges = traceRange d.tag p i) ∧
            (∀ k, k ∉ free.take (m.desc.par 16 1) → KV.get {} k (v.ch c).tranges = KV.get {} k (s.ch c).tranges) ∧
            (v.ch (otherCh c)).tranges = (s.ch (otherCh c)).tranges)) ∧
    (Ready s r t 0x76 m →
      (s.traced c d = true → ∃ v, Carried (.traceStop r t) s v m .ok 0 ∧ v.host = s.host ∧ v.parts = s.parts ∧
        (∀ e ∈ (v.ch c).tranges, e.2.design ≠ some d.tag) ∧ (v.ch (otherCh c)).tranges = (s.ch (otherCh c)).tranges) ∧
      (s.traced c d = false → Carried (.traceStop r t) s s m .nothingToAbort 0))

/-- CAPTURE_DELIVERY, CAPTURE_BLOCK_CLOSE and ACQ_CONSUMED_WRITE complete: the delivery of capture blocks (R356, R357, R161): a
block that fits is written into the capture ring, which in PULL the produced count shows, and one that does not fit makes it full with one
event; in PUSH the oldest block goes to the host buffer where it fits and the hub key is there, and without that key a block without payload
takes its place; a mode change applies once the ring is empty and the counts are equal; a consumed count that moves backwards or passes the
produced count is ignored and logged. -/
def Clauses.CaptureDelivery : Prop :=
  (∀ (s : State) (c : Ch) (id : Nat) (q : StreamRec) (recs : List StreamRec) (b : Block) (bytes : List Byte), (s.pw c).state.arrayOn = true →
    (s.ch c).acq.disabled = false → s.captureServed c = true → (s.ch c).acq.fifo.find? (fun x => x.id == id) = some q →
    recs = takeRecs 65536 ((s.ch c).acq.fifo.filter (fun x => x.key == q.key)) → recs ≠ [] →
    s.closeBlock c q (KV.get 0 q.key (s.ch c).acq.bseq) (recs.flatMap (·.bytes)) = some (b, bytes) →
    ((s.ch c).hbm.ringBytes / 64 < s.ringUsed c + bytes.length / 64 → (s.ch c).acq.full = false →
      ∃ u, exec (.captureBlockClose c id) s = .next u ∧
        Told 0xA004 (1 + chNum c) 0xFF 0 false [chNum c] (s.modAcq c fun a => { a with full := true }) u) ∧
    ((s.ch c).hbm.ringBytes / 64 < s.ringUsed c + bytes.length / 64 → (s.ch c).acq.full = true →
      exec (.captureBlockClose c id) s = .next s) ∧
    (s.ringUsed c + bytes.length / 64 ≤ (s.ch c).hbm.ringBytes / 64 → 64 * (s.ch c).acq.ringPos + bytes.length ≤ (s.ch c).hbm.ringBytes →
      ∃ u, exec (.captureBlockClose c id) s = .next u ∧
        (∀ i (hi : i < bytes.length), Memory.read (u.ch c).hbm.mem (captureBase + 64 * (s.ch c).acq.ringPos + i) = bytes[i]) ∧
        (∀ a, (a < captureBase + 64 * (s.ch c).acq.ringPos ∨ captureBase + 64 * (s.ch c).acq.ringPos + bytes.length ≤ a) →
          Memory.read (u.ch c).hbm.mem a = Memory.read (s.ch c).hbm.mem a) ∧
        (u.ch c).acq.ringBlocks = (s.ch c).acq.ringBlocks ++ [{ b with pos := (s.ch c).acq.ringPos }] ∧
        (u.ch c).acq.fifo = dropRecs q.key recs.length (s.ch c).acq.fifo ∧
        (u.ch c).acq.produced = (if (s.ch c).acq.active then (s.ch c).acq.produced + BitVec.ofNat 32 (bytes.length / 64)
          else (s.ch c).acq.produced) ∧
        KV.get 0 q.key (u.ch c).acq.bseq = KV.get 0 q.key (s.ch c).acq.bseq + 1)) ∧
  (∀ (s : State) (c : Ch) (b : Block) (bs : List Block) (data : List Byte), (s.ch c).acq.active = false → s.host.perst = false →
    (s.pw c).state.arrayOn = true → (s.ch c).acq.ringBlocks = b :: bs → b.lost = false → 64 * b.pos + 64 * b.units ≤ (s.ch c).hbm.ringBytes →
    (s.ch c).hbm.unreadable (captureBase + 64 * b.pos) (64 * b.units) = false →
    ((s.ch c).hbm.integrity = true → (s.ch c).hutch.hubKey.isSome) →
    data = (s.ch c).hbm.mem.readBytes (captureBase + 64 * b.pos) (64 * b.units) →
    ((s.ch c).acq.produced - s.reg .acqConsumed c []).toNat + b.units ≤ s.hostUnits .acqHostSize c →
    64 * ((s.ch c).acq.produced.toNat % s.hostUnits .acqHostSize c) + 64 * b.units ≤ 64 * s.hostUnits .acqHostSize c →
    ∀ a, a = s.bufBase .acqHostBaseLo .acqHostBaseHi c + 64 * ((s.ch c).acq.produced.toNat % s.hostUnits .acqHostSize c) →
    ∃ u, exec (.captureDelivery c ⟨.ok, true⟩) s = .next u ∧ u.host = { s.host with out := s.host.out ++ [{ addr := a, data := data }] } ∧
      (u.ch c).acq.ringBlocks = bs ∧ (u.ch c).acq.produced = (s.ch c).acq.produced + BitVec.ofNat 32 b.units ∧
      (u.ch c).hbm = (s.ch c).hbm ∧ u.regs = s.regs) ∧
  (∀ (s : State) (c : Ch) (b : Block) (bs : List Block), (s.ch c).acq.active = false → s.host.perst = false →
    (s.pw c).state.arrayOn = true → (s.ch c).acq.ringBlocks = b :: bs → (s.ch c).hbm.integrity = true → (s.ch c).hutch.hubKey = none →
    (s.ch c).hbm.unreadable (captureBase + 64 * b.pos) (64 * b.units) = false → 64 * b.pos + 64 * b.units ≤ (s.ch c).hbm.ringBytes →
    ((s.ch c).acq.produced - s.reg .acqConsumed c []).toNat + 1 ≤ s.hostUnits .acqHostSize c →
    ∃ u, exec (.captureDelivery c ⟨.ok, true⟩) s = .next u ∧ (u.ch c).acq.ringBlocks.length = bs.length ∧
      (u.ch c).acq.produced = (s.ch c).acq.produced + 1) ∧
  (∀ (s : State) (c : Ch) (value : Word32), s.portAnswers = true → (s.pw c).state.hubOn = true → ∃ u, exec (.deliveryChange c value) s = .next u ∧
    u = { s with regs := u.regs } ∧ u.reg .acqCtrl c [] = value &&& 1) ∧
  (∀ (s : State) (c : Ch), bitAt (s.reg .acqCtrl c []).toNat 0 ≠ (s.ch c).acq.active → (s.ch c).acq.ringBlocks = [] →
    (s.ch c).acq.produced = s.reg .acqConsumed c [] → ∃ u, exec (.deliveryModeApplied c) s = .next u ∧
      u = { (s.modAcq c fun a => { a with active := !a.active, produced := 0, ringPos := 0 }) with regs := u.regs } ∧
      u.reg .acqConsumed c [] = 0) ∧
  (∀ (s : State) (c : Ch) (value : Word32), s.portAnswers = true → (s.pw c).state.hubOn = true →
    (countOk (s.ch c).acq.produced (s.reg .acqConsumed c []) value = true → (s.ch c).acq.active = false →
      ∃ u, exec (.acqConsumedWrite c value) s = .next u ∧ u = { s with regs := u.regs } ∧ u.reg .acqConsumed c [] = value) ∧
    (countOk (s.ch c).acq.produced (s.reg .acqConsumed c []) value = true → (s.ch c).acq.active = true →
      ∃ u, exec (.acqConsumedWrite c value) s = .next u ∧ u.reg .acqConsumed c [] = value ∧ (u.ch c).hbm = (s.ch c).hbm ∧
        (u.ch c).acq.ringBlocks =
          consumeBlocks value ((s.ch c).acq.produced - BitVec.ofNat 32 (s.ch c).acq.held) (s.ch c).acq.ringBlocks) ∧
    (countOk (s.ch c).acq.produced (s.reg .acqConsumed c []) value = false →
      ∃ u, exec (.acqConsumedWrite c value) s = .next u ∧ Told 0x0004 (1 + chNum c) 0xFF 0 false [0xFFFF, 4] s u))

/-- TRACE_BLOCK_DELIVERY, TRACE_OVERFLOW and TRC_CONSUMED_WRITE complete: the delivery of trace blocks (R372, R377): a stream of one staged
packet goes to the host buffer as one block; packets that find no room are the newest and are counted, and once in a millisecond
TRACE_OVERFLOW tells of all since the last one; a consumed count that moves backwards is ignored and logged. -/
def Clauses.TraceDelivery : Prop :=
  (∀ (s : State) (c : Ch) (q : StreamRec) (b : Block) (bytes : List Byte), (s.pw c).state.hubOn = true → (s.ch c).trc.disabled = false →
    (s.ch c).trc.staged = [q] → s.traceDest c = 0 → s.host.perst = false →
    (s.packetBytes c (KV.get q.tick q.key (s.ch c).trc.lastTick) (0, 0) true [q]).length ≤ 65536 →
    s.closeBlock c q (KV.get 0 q.key (s.ch c).trc.bseq) (s.packetBytes c (KV.get q.tick q.key (s.ch c).trc.lastTick) (0, 0) true [q]) =
      some (b, bytes) →
    ((s.ch c).trc.produced - s.reg .trcConsumed c []).toNat + bytes.length / 64 ≤ s.hostUnits .trcHostSize c →
    ∃ u, exec (.traceBlockDelivery c) s = .next u ∧ (u.ch c).trc.staged = [] ∧
      (u.ch c).trc.produced = (s.ch c).trc.produced + BitVec.ofNat 32 (bytes.length / 64) ∧
      KV.get 0 q.key (u.ch c).trc.bseq = KV.get 0 q.key (s.ch c).trc.bseq + 1 ∧
      u.host = { s.host with out := u.host.out } ∧ u.regs = s.regs ∧ (u.ch c).hbm = (s.ch c).hbm) ∧
  (∀ (s : State) (c : Ch) (n : Nat), ∃ u, exec (.traceOverflow c n) s = .next u ∧
    (u.ch c).trc.staged = (s.ch c).trc.staged.take ((s.ch c).trc.staged.length - n) ∧
    (1 ≤ n → (s.ch c).trc.staged ≠ [] →
      u.reg .trcOverflows c [] = satAdd (s.reg .trcOverflows c []) (min n (s.ch c).trc.staged.length) ∧
      ((s.ch c).trc.overflowMs = some (s.clock / 1000000) → u.host = s.host) ∧
      ((s.ch c).trc.overflowMs ≠ some (s.clock / 1000000) → s.pwr.hostOn = true →
        Wrote 0xA005 (1 + chNum c) 0xFF 0 false [chNum c, (s.ch c).trc.unreported + min n (s.ch c).trc.staged.length] u))) ∧
  (∀ (s : State) (c : Ch) (value : Word32), s.portAnswers = true → (s.pw c).state.hubOn = true →
    (countOk (s.ch c).trc.produced (s.reg .trcConsumed c []) value = true →
      ∃ u, exec (.trcConsumedWrite c value) s = .next u ∧ u = { s with regs := u.regs } ∧ u.reg .trcConsumed c [] = value) ∧
    (countOk (s.ch c).trc.produced (s.reg .trcConsumed c []) value = false →
      ∃ u, exec (.trcConsumedWrite c value) s = .next u ∧ Told 0x0004 (1 + chNum c) 0xFF 0 false [0xFFFF, 5] s u))

/-! ### Messages and work items (R250-R261, R343) -/

/-- MSG_IN (R254): an entry whose MSEQ is not the next one is refused with AUTH_FAIL and an event and leaves the window where it stands; a
tag that fails refuses it too and takes its MSEQ; a message that verifies waits for its delivery, numbered in the order of acceptance. At a
proxy a message goes on and completes OK (log entry 19), and on a ring that serves no port it completes ABORTED. -/
def Clauses.MessageAccepted : Prop :=
  ∀ (s : State) (r : RingNo) (t : Tag) (cipher : List Byte) (m : Cmd) (c : Ch) (k : Nat) (d : Design),
    (s.unread r).head? = some m → m.desc.tag = t → s.sec.latched = false →
    (s.intakeOf r = none → s.proxyFor r = none → Carried (.msgIn r t cipher) s s m .aborted 0) ∧
    (s.intakeOf r = none → (s.proxyFor r).isSome → ∃ v, Carried (.msgIn r t cipher) s v m .ok 0) ∧
    (s.intakeOf r = some (c, k, s.mport c k) → (s.mport c k).design.bind s.design = some d → d.home = c →
    (BitVec.ofNat 64 (m.desc.par 24 8) ≠ (s.mport c k).mseqIn →
      ∃ v, Told 0x5001 (1 + chNum d.ch) d.low d.slot true [128 * chNum c + k, (s.mport c k).mseqIn.toNat, m.desc.par 24 8 % 2 ^ 64] s v ∧
        Carried (.msgIn r t cipher) s v m .authFail 0) ∧
    (BitVec.ofNat 64 (m.desc.par 24 8) = (s.mport c k).mseqIn → d.twin = false →
      (s.openMsg d k m cipher = none →
        Carried (.msgIn r t cipher) s (s.modMport c k fun q => q.useMseq q.mseqIn) m .authFail 0) ∧
      (∀ data, s.openMsg d k m cipher = some data → (s.mport c k).disabled = false →
        ∃ u, exec (.msgIn r t cipher) s = .next u ∧ u.host = (s.start m).host ∧ u.regs = s.regs ∧ u.parts = s.parts ∧
          (∀ i : InMsg, i = { ring := r, tag := t, cring := m.desc.cring, fence := m.desc.fence, data := data, order := d.msgSeq } →
            u.mport c k = { (s.mport c k).useMseq (s.mport c k).mseqIn with accepted := (s.mport c k).accepted ++ [i] }) ∧
          (∀ j, j ≠ k → u.mport c j = s.mport c j) ∧
          u.designs = s.designs.map (fun x => if x.tag = d.tag then { x with msgSeq := x.msgSeq + 1 } else x) ∧
          (u.ch c).sched = { (s.ch c).sched with
            waiting := (s.ch c).sched.waiting ++ [{ group := (s.mport c k).group, work := .intake k }] } ∧
          u.ch (otherCh c) = s.ch (otherCh c)))) ∧
    ((s.mport c k).gone = [] → (s.mport c k).useMseq (s.mport c k).mseqIn = { s.mport c k with mseqIn := (s.mport c k).mseqIn + 1 })

/-- The message that a design's only port holds is delivered when it may go: its words follow PROD in the data area, PROD is written, no
other word of the Cabinet changes, and the message completes OK with the frame at which it is visible (R250-R252). -/
def Clauses.MessageDelivered : Prop :=
  ∀ (s : State) (p k : Nat) (d : Design) (q : MPort) (w : Window) (i : InMsg) (m : Cmd), s.designAt p = some d → d.gapOpen = true →
    s.portsOf d = [(k, q)] → s.mport d.home k = q → q.accepted = [i] → q.inWin = some w → q.outWin = none → s.mayDeliver d q = true →
    d.twin = false → d.span.contains w.cab = true → s.pairRuns = false → s.cmd i.ring i.tag = some m →
    (s.ch d.home).fab.flows = [] → (s.ch d.home).fab.landed = [] →
    ∃ v u, exec (.intakeDelivery p) s = .next u ∧ Done m .ok (BitVec.ofNat 48 d.frame) 0 v u ∧ v.host = s.host ∧ v.regs = s.regs ∧
      v.parts = s.parts ∧ v.mport d.home k = { q with accepted := [], written := (q.written + i.words.length) % 2 ^ 32 } ∧
      ∃ d', v.design d.tag = some d' ∧ d'.cells = d.cells ∧
        (∀ l, l ≠ w.cab → d'.cab l = d.cab l) ∧
        KV.get 0 w.word (d'.cab w.cab).mem = BitVec.ofNat 64 ((q.written + i.words.length) % 2 ^ 32) ∧
        (∀ j (hj : j < i.words.length), KV.get 0 (w.word + 2 + (q.written + j) % w.size) (d'.cab w.cab).mem = i.words[j]) ∧
        ∀ a, a ≠ w.word → (∀ j, j < i.words.length → a ≠ w.word + 2 + (q.written + j) % w.size) →
          KV.get 0 a (d'.cab w.cab).mem = KV.get 0 a (d.cab w.cab).mem

/-- OUTLET_WRITE_OUT completes: the released record of a port that is ready leaves as one MSG_OUT of its ring: sealed under the message key,
with the next MSEQ, its ciphertext in the data area behind the ring and its entry at its place in the ring (R231, R252-R254). -/
def Clauses.OutletWritten : Prop :=
  ∀ (s : State) (c : Ch) (k g : Nat) (d : Design) (o : OutRec) (key iv : List Byte), (s.mport c k).design.bind s.design = some d →
    d.home = c → d.runs = true → d.twin = false → s.host.perst = false → s.proxy = none → (s.mport c k).released = [o] →
    s.outletReady d (k, s.mport c k) = true → (s.mport c k).outRing = some g → s.msgKey d = some key →
    iv = msgIv 0xA1 (128 * chNum c + k) (s.mport c k).mseqOut →
    ∃ u, exec (.outletWriteOut c k) s = .next u ∧
      (∃ (e : OutMsg) (ph : Bool), (u.ring g).entries = (s.ring g).entries ++ [.msg e ph] ∧ e.partition = d.low ∧ e.fence = o.fence ∧
        e.mseq = (s.mport c k).mseqOut ∧ e.cipher = gcmSeal key iv o.data ∧
        e.addr = s.ringBase g + 64 * s.ringSize g + 4096 * ((s.ring g).produced.toNat % s.ringSize g) ∧
        e.tag = Config.gcmTag key iv e.head e.cipher ∧
        u.host.out = s.host.out ++ [{ addr := e.addr, data := e.cipher },
          { addr := s.entryAddr g (s.ring g).produced, data := (Entry.msg e ph).bytes }]) ∧
      (∀ q, q ≠ g → u.ring q = s.ring q) ∧
      (u.mport c k).released = [] ∧ (u.mport c k).mseqOut = (s.mport c k).mseqOut + 1 ∧ (u.mport c k).readTo = (s.mport c k).readTo ∧
      u.host.cmds = s.host.cmds ∧ u.designs = s.designs ∧ u.parts = s.parts ∧ u.regs = s.regs ∧ (∀ j, j ≠ k → u.mport c j = s.mport c j)

/-- MSG_MESSAGE_RECEIVE completes: a MSG message towards a design of this module joins the accepted messages of its port, where the port
carries traffic and is enabled; one towards a host is written to the ring of its port, or waits while that has no room (R213, R246, and log
entry 19). -/
def Clauses.MessageFromLink : Prop :=
  ∀ (s : State) (c h : Ch) (p k : Nat) (m : PortMsg) (d : Design),
    (∀ g, g = 128 + Config.proxyRing m.src m.port % 256 → s.carries c p = true → m.toHost = true →
      ((s.ringOn g && !s.ringFull g && !s.host.perst) = false → exec (.msgMessageReceive c p m) s = .next s) ∧
      ((s.ringOn g && !s.ringFull g && !s.host.perst) = true → ∀ w t, Arrived s c p (some m.src) (.msg 0 m) w t →
        ∃ u e ph, exec (.msgMessageReceive c p m) s = .next u ∧ (u.ring g).entries = (s.ring g).entries ++ [.msg e ph] ∧
          e.fence = m.fence ∧ e.cipher.length = m.data.length ∧ (∀ q, q ≠ g → u.ring q = s.ring q) ∧ u.chA = t.chA ∧ u.chB = t.chB ∧
          u.designs = s.designs ∧ u.parts = s.parts)) ∧
    (∀ w t, Arrived s c p (some m.src) (.msg 0 m) w t → s.carries c p = true → m.toHost = false → h = chOf (m.port / 128) → k = m.port % 128 → (s.mport h k).design.bind s.design = some d →
      d.home = h → d.twin = false → (s.mport h k).inWin.isSome → (s.mport h k).disabled = false → m.data ≠ [] → m.data.length ≤ 4096 →
      ∃ u, exec (.msgMessageReceive c p m) s = .next u ∧ u.host = s.host ∧ u.regs = s.regs ∧ u.parts = s.parts ∧
        (∀ i : InMsg, i = { ring := 512, tag := 0, cring := 0, fence := m.fence, data := m.data, order := d.msgSeq } →
          u.mport h k = { (s.mport h k).useMseq (s.mport h k).mseqIn with accepted := (s.mport h k).accepted ++ [i] }) ∧
        (∀ j, j ≠ k → u.mport h j = s.mport h j) ∧ u.port c p = t.port c p ∧
        (u.ch h).sched.waiting = (s.ch h).sched.waiting ++ [{ group := (s.mport h k).group, work := .intake k }])

/-- COPY_IN, COPY_OUT, COPY, FILL, GATHER, SCATTER and CHECKSUM complete (R257, R258, R262): one whose group is open to its tenant, whose
areas lie inside its design and that has the data key which its result needs waits for engines; a group of another tenant refuses it, and an
area that leaves its region or Cabinet ends it. -/
def Clauses.WorkItems : Prop :=
  ∀ (i : Instr) (op : Nat) (s : State) (r : RingNo) (t : Tag) (m : Cmd),
    (i, op) ∈ [(Instr.copyIn r t, 0x62), (.copyOut r t, 0x63), (.copy r t, 0x64), (.fill r t, 0x65), (.gather r t, 0x66),
      (.scatter r t, 0x67), (.checksum r t, 0x68)] → Ready s r t op m →
    (s.designAt m.desc.partition.toNat = none → Carried i s s m .refusedState 0) ∧
    ∀ d, s.designAt m.desc.partition.toNat = some d → (s.base.delivery = none ∨ d.home = .b) →
      (s.groupOpen d.home m.desc.group d.slot = false → Carried i s s m .refusedState 0) ∧
      (s.groupOpen d.home m.desc.group d.slot = true →
        (op ≠ 0x66 → op ≠ 0x67 → d.areaOk m.desc.area m.desc.area.offset m.desc.workBytes = false →
          Carried i s s m .regionViolation 0) ∧
        (op = 0x64 → d.areaOk m.desc.target m.desc.target.offset m.desc.workBytes = false → Carried i s s m .regionViolation 0) ∧
        ((op = 0x66 ∨ op = 0x67 → d.areaOk m.desc.area 0 0 = true) →
          (op ≠ 0x66 → op ≠ 0x67 → d.areaOk m.desc.area m.desc.area.offset m.desc.workBytes = true) →
          (op = 0x64 → d.areaOk m.desc.target m.desc.target.offset m.desc.workBytes = true) →
          (op = 0x63 ∨ op = 0x66 ∨ op = 0x68 → (m.key 5 0).isSome) →
          exec i s = .next ((s.start m).modSched d.home fun q =>
            { q with waiting := q.waiting ++ [{ group := m.desc.group, work := .item m.ring m.desc.tag 0 m.desc.packets }] })))

/-- ENGINE_DISPATCH completes (R260, R261, R267): the lowest free engine takes the oldest eligible unit of the first group after the last
one that has both a credit and such a unit; with no free engine nothing happens. When nothing waits any more, the owners of the groups are
those of their registers (R262). Where the group is not traced, nothing but the scheduler changes. -/
def Clauses.EngineTakesUnit : Prop :=
  ∀ (s : State) (c : Ch) (q : SchedSt), q = (s.ch c).sched → (∀ u ∈ q.waiting, s.unitAlive c u = true) →
    ((∀ e, e < 18 → (q.engine e).isFree = false) → exec (.engineDispatch c) s = .next s) ∧
    ∀ (e i g : Nat) (u : WorkUnit) (whole : Bool), e < 18 → (q.engine e).isFree = true → (∀ j, j < e → (q.engine j).isFree = false) →
      i < 8 → g = (q.last + 1 + i) % 8 → whole = bitAt (s.reg .schCtrl c []).toNat 0 →
      KV.get 0 g q.credits ≠ 0 → q.waiting.find? (fun x => x.group == g && s.eligible c x) = some u →
      (∀ j, j < i → KV.get 0 ((q.last + 1 + j) % 8) q.credits = 0 ∨
        ∀ x ∈ q.waiting, x.group = (q.last + 1 + j) % 8 → s.eligible c x = false) →
      ∃ t, exec (.engineDispatch c) s = .next t ∧
        (t.ch c).sched = { q with
          owners := (t.ch c).sched.owners,
          engines := KV.upd { spare := decide (16 ≤ e) } e (fun x => { x with busy := some (u.head whole) }) q.engines,
          waiting := takeUnit whole u q.waiting, credits := KV.put 0 g (KV.get 0 g q.credits - 1) q.credits, last := g } ∧
        (takeUnit whole u q.waiting ≠ [] → (t.ch c).sched.owners = q.owners) ∧
        (takeUnit whole u q.waiting = [] → ∀ j, j < 8 → KV.get 0 j (t.ch c).sched.owners = s.groupReg c j) ∧
        t.designs = s.designs ∧ t.parts = s.parts ∧
        ((s.ch c).trc.disabled = false → (((s.ch c).trc.staged.map (fun x => x.bytes.length)).sum + 28 ≤ stagingBytes) → t.host = s.host) ∧
        (bitAt (s.reg .schTraceCtrl c []).toNat g = false → t = s.modSched c fun _ => (t.ch c).sched)

/-- The last unit of a work item runs to its end (R257, R258): COPY_IN, COPY and FILL write their bytes to the design, COPY_OUT and CHECKSUM
write their result sealed to the host; the item completes OK. An access whose check bits cannot be corrected ends it with MEMORY_ERROR, and so
does a packet lost with its link (R173) and an uncorrectable word of the engine's buffer (R141). -/
def Clauses.UnitRuns : Prop :=
  ∀ (s : State) (c : Ch) (e : Nat) (buf1 buf2 : List Byte) (g : Nat) (r : RingNo) (t : Tag) (first n lo hi : Nat) (m : Cmd) (d : Design)
      (v : State), ((s.ch c).sched.engine e).busy = some { group := g, work := .item r t first n } → s.cmd r t = some m →
    s.designAt m.desc.partition.toNat = some d → lo = 4096 * first → hi = min m.desc.workBytes (4096 * (first + n)) →
    v = s.unitDone c (.item m.ring m.desc.tag first n) → (v.ch c).sched.holds m.ring m.desc.tag = false →
    s.itemMarched d m = false → (∀ b, s.itemPoison d m b lo hi = none) → (∀ b, s.itemUnkeyed d m.desc.area (itemReads m b lo hi) = false) →
    (((s.ch c).sched.engine e).lost = true → ∃ w u, exec (.unitComplete c e buf1 buf2 .ok true) s = .next u ∧ w.host = s.host ∧
      w.designs = s.designs ∧ Done m .memoryError (s.frameAt m.desc.partition.toNat) 0 w u) ∧
    (((s.ch c).sched.engine e).lost = false →
    (∀ (a : Area) (off : Nat) (data b1 : List Byte), d.runs = false → a = m.desc.writeArea →
      (m.desc.opcode = 0x62#8 ∧ m.openBuf 1 buf1 = some b1 ∧ off = m.desc.area.offset + lo ∧ data = (b1.drop lo).take (hi - lo) ∨
       m.desc.opcode = 0x64#8 ∧ off = m.desc.target.offset + lo ∧ data = s.areaRead d m.desc.area (m.desc.area.offset + lo) (hi - lo) ∨
       m.desc.opcode = 0x65#8 ∧ off = m.desc.area.offset + lo ∧
         data = (List.range ((hi - lo) / 8)).flatMap (fun _ => leBytes 8 (m.desc.par 32 8))) →
      off % 8 = 0 → d.areaOk a off data.length = true → s.itemUnkeyed d a [(off, data.length)] = false →
      ∃ w u, exec (.unitComplete c e buf1 buf2 .ok true) s = .next u ∧
        w = (((s.engineTraffic c e).itemBanks d m [(off, data.length)] .ok).areaWriteAll d.tag a off data).unitDone c
          (.item m.ring m.desc.tag first n) ∧
        Done m .ok (w.frameAt m.desc.partition.toNat) 0 w u) ∧
    (∀ data, (m.desc.opcode = 0x63#8 ∧ data = s.areaRead d m.desc.area m.desc.area.offset m.desc.workBytes ∨
       m.desc.opcode = 0x68#8 ∧ m.desc.par 26 1 = 0 ∧
         data = leBytes 4 (crc32c (s.areaRead d m.desc.area m.desc.area.offset m.desc.workBytes)).toNat) →
      ∃ w u, exec (.unitComplete c e buf1 buf2 .ok true) s = .next u ∧
        w = ((s.engineTraffic c e).itemBanks d m [(m.desc.area.offset + lo, hi - lo)] .ok).unitDone c (.item m.ring m.desc.tag first n) ∧
        Done m .ok (s.frameAt m.desc.partition.toNat) 0 (w.hostWrite m.desc.resultAddr (m.sealResult data)) u) ∧
    (m.desc.opcode = 0x63#8 → ∃ w u, exec (.unitComplete c e buf1 buf2 .scratch true) s = .next u ∧
      (s.pwr.hostOn = true → Wrote 0x2006 (1 + chNum c) 0xFF 0 false [chNum c, 2] w) ∧ w.designs = s.designs ∧
      Done m .memoryError (s.frameAt m.desc.partition.toNat) 0 w u) ∧
    (m.desc.opcode = 0x63#8 → m.desc.area.space = 0 →
      ∃ w u, exec (.unitComplete c e buf1 buf2 .uncorrectable true) s = .next u ∧ w.host = s.host ∧ w.designs = s.designs ∧
        Done m .memoryError (s.frameAt m.desc.partition.toNat) 0 w u))

/-- What a work item writes to a Cabinet of a stopped design stands there word by word, and no other word changes (R131, R258). -/
def Clauses.AreaWritten : Prop :=
  ∀ (s : State) (d : Design) (a : Area) (off l : Nat) (data : List Byte), s.design d.tag = some d → a.space = 0 →
    l = a.place ^^^ (16 * d.x) → d.span.contains l = true → d.twin = false → s.pairRuns = false → data.length % 8 = 0 →
    data.length ≤ 4096 → ∃ d', (s.areaWriteAll d.tag a off data).design d.tag = some d' ∧
      s.areaWriteAll d.tag a off data = { s with designs := (s.areaWriteAll d.tag a off data).designs } ∧
      (∀ j, j ≠ l → d'.cab j = d.cab j) ∧
      (∀ i, i < data.length / 8 → KV.get 0 (off / 8 + i) (d'.cab l).mem = BitVec.ofNat 64 (rd data (8 * i) 8)) ∧
      (∀ w, (w < off / 8 ∨ off / 8 + data.length / 8 ≤ w) → KV.get 0 w (d'.cab l).mem = KV.get 0 w (d.cab l).mem)

/-- ENGINE_REPLACED and SPARE_ENGINE_CHECK complete: an engine whose pair disagrees gives its unit back to the front of the queue; when the
known-answer check fails too, it is marked failed and a spare takes its place, with one event; a spare that fails its own check is marked
failed (R343). -/
def Clauses.EngineSpares : Prop :=
  ∀ (s : State) (c : Ch) (e : Nat) (x : Engine), x = (s.ch c).sched.engine e → e < 18 →
    (x.spare = false → x.failed = false →
      (∀ u, x.busy = some u → exec (.engineReplaced c e false) s = .next (s.modSched c fun q =>
        { q with engines := KV.upd { spare := decide (16 ≤ e) } e (fun y => { y with busy := none }) q.engines, waiting := u :: q.waiting })) ∧
      (x.busy = none → ∀ k, k < 18 → k ≠ e → ((s.ch c).sched.engine k).spare = true → ((s.ch c).sched.engine k).failed = false →
        (∀ j, j < k → ((s.ch c).sched.engine j).spare = false ∨ ((s.ch c).sched.engine j).failed = true) →
        ∃ u, exec (.engineReplaced c e true) s = .next u ∧
          Told 0x5003 (1 + chNum c) 0xFF 0 false [e, k]
            ((s.modEngine c e fun y => { y with failed := true }).modEngine c k fun y => { y with spare := false }) u)) ∧
    (x.spare = true → exec (.spareEngineCheck c e false) s = .next (s.modEngine c e fun y => { y with failed := true })) ∧
    (exec (.spareEngineCheck c e true) s = .next s)

/-! ### Loading (R119-R122, R305) -/

/-- LOAD completes (R119-R121): an image that passes every check leaves its partitions LOADING and waits for an engine; one that fails a
check is refused with LOAD_REFUSED, the status of that check, and the check and the item in its detail, and changes no partition. Checks 2
to 5 stand here with their own conditions, and an image that meets all fourteen passes. A load that goes on holds its body in the image-copy
slots of its partitions under one fresh slot key (R120, R160). -/
def Clauses.LoadChecked : Prop :=
  ∀ (s : State) (r : RingNo) (t : Tag) (image : List Byte) (m : Cmd), Ready s r t 0x40 m → s.base.delivery = none →
    (∀ l c, s.loadChecks m image = .ok l → c = chOfPart (l.targets.headD 0) →
      ∃ u, exec (.load r t image) s = .next u ∧ u.host = (s.start m).host ∧ u.designs = s.designs ∧ u.loads = s.loads ++ [l] ∧
        u.regs = s.regs ∧ u.chA.hbm.mem = s.chA.hbm.mem ∧ u.chB.hbm.mem = s.chB.hbm.mem ∧
        (∀ p, u.part p = if p ∈ s.loadParts l.targets then { s.part p with state := .loading } else s.part p) ∧
        (∀ p ∈ s.loadParts l.targets, KV.get {} (p % 4) (u.ch (chOfPart p)).hbm.images =
          { key := s.free, design := 256 + l.targets.headD 0, body := l.body }) ∧
        (u.ch c).sched.waiting = (s.ch c).sched.waiting ++ [{ group := s.regField .schCtrl c [] 1 3, work := .module r t }]) ∧
    (∀ f, s.loadChecks m image = .error f →
      ∃ v u, exec (.load r t image) s = .next u ∧
        Done m f.status 0 (BitVec.ofNat 128 (f.check + 2 ^ 8 * f.item + 2 ^ 16 * (f.index % 2 ^ 16))) v u ∧
        v.parts = s.parts ∧ v.designs = s.designs ∧ v.loads = s.loads ∧ v.host.cmds = s.host.cmds ∧
        (s.pwr.hostOn = true → ∃ src part, Wrote 0x7006 src part (s.ringOwner m.ring) false [f.check] v)) ∧
    (∀ targets, targets = maskParts (m.desc.par 24 1) → s.check1 (s.ringOwner m.ring) (m.desc.par 24 1) = none →
      (outerOk image (m.desc.par 16 8) = false → s.loadChecks m image = .error (.plain 2 .contractMismatch)) ∧
      (outerOk image (m.desc.par 16 8) = true → s.keyField image targets = none →
        (m.key 3 (rd image 48 4) = none → s.loadChecks m image = .error (.plain 4 .authFail)) ∧
        (∀ ik, m.key 3 (rd image 48 4) = some ik →
          (tagOk ik.material image = false → s.loadChecks m image = .error (.plain 5 .authFail)) ∧
          (∀ b k v, tagOk ik.material image = true → b = imageBody ik.material image →
            k = ({ slot := s.ringOwner m.ring, targets := targets, x := (s.placement (rd image 18 1) targets).getD 0,
                   header := imageHeader image b, body := b } : LoadCtx) →
            bodyChecks k ((m.key 8 0).map (·.material)) = none → s.check13 k = .ok v →
            (s.check14 k = true → s.loadChecks m image = .ok
              { ring := m.ring, tag := m.desc.tag, slot := s.ringOwner m.ring, targets := targets, x := k.x, header := k.header,
                digest := imageDigest b, body := b, regions := v.regions, slots := v.slots, binds := v.binds }) ∧
            (s.check14 k = false → s.loadChecks m image = .error (.plain 14 .powerClass))))))

/-- LOAD_COMPLETE (R122, R35, R305): the load becomes a STOPPED design at stage 0 and frame 0 with a fresh nonce, its reset values in state
bank 0; its partitions hold it, with their image copy; the command completes OK with the nonce; tenant memory and the other designs stay. A
load whose staged words are lost in the scratchpad ends with MEMORY_ERROR and leaves its partitions EMPTY (R141). -/
def Clauses.LoadCompletes : Prop :=
  ∀ (s : State) (p tag : Nat) (l : Load) (m : Cmd) (d : Design), s.loadAt p = some l → s.freeTag = some tag → s.cmd l.ring l.tag = some m →
    (∃ v u, exec (.loadComplete ⟨p, .scratch⟩) s = .next u ∧ Done m .memoryError (v.frameAt m.desc.partition.toNat) 0 v u ∧
      v.designs = s.designs ∧ (∀ q ∈ s.loadParts l.targets, (v.part q).state = .empty) ∧
      v.loads = s.loads.filter (fun x => !(x.ring == l.ring && x.tag == l.tag)) ∧
      v.chA.hbm.mem = s.chA.hbm.mem ∧ v.chB.hbm.mem = s.chB.hbm.mem) ∧
    (s.mode.mode ≠ .mirrored → d = s.makeDesign l tag →
    ∃ v u, exec (.loadComplete ⟨p, .ok⟩) s = .next u ∧ Done m .ok 0 (BitVec.ofNat 128 (2 ^ 32 * s.free.toNat)) v u ∧
      v.designs = s.designs ++ [d] ∧ d.tag = tag ∧ d.slot = l.slot ∧ d.state = .stopped ∧ d.stage = 0 ∧ d.frame = 0 ∧ d.nonce = s.free ∧
      d.digest = l.digest ∧
      (∀ x, initResets l.body l.x (s.mode.mode == .twinned) = [x] → x.sti < 512 →
        (KV.get {} (cellKey x.cab x.bench x.cell) d.cells).bank0.getLsbD x.sti = x.value) ∧
      (∀ q, v.part q = if q ∈ d.allParts then { s.part q with state := .stopped, design := tag } else s.part q) ∧
      v.loads = s.loads.filter (fun x => !(x.ring == l.ring && x.tag == l.tag)) ∧
      (∀ c, (v.ch c).hbm.mem = (s.ch c).hbm.mem ∧ (v.ch c).hbm.wbuf = (s.ch c).hbm.wbuf ∧ (v.ch c).ranges = (s.ch c).ranges) ∧
      ((∀ q ∈ d.allParts, q < 8) → ∀ q ∈ d.allParts, KV.get {} (q % 4) (v.ch (chOfPart q)).hbm.images =
        { KV.get {} (q % 4) (s.ch (chOfPart q)).hbm.images with
          design := tag, tiles := d.code.filter (fun e => partOfCab (e.1 / 131072) == q),
          ports := d.ports.filter (fun e => partOfCab (e.1 / 2048) == q),
          memops := d.memops.filter (fun e => partOfCab (e.1 / 2048) == q) }))

/-! ### The security mailbox (R268-R275, R413) -/

/-- GET_VERSION, GET_CAPABILITIES, NEGOTIATE_ALGORITHMS, GET_DIGESTS, GET_CERTIFICATE, CHALLENGE and GET_MEASUREMENTS complete (R271, R272):
each gives its response and changes nothing else; NEGOTIATE_ALGORITHMS takes the one choice of each kind and refuses any other offer; the
digests, the portion of the chain and the signatures are those of the attestation key in force. A SCRAPPED part answers GET_VERSION,
GET_CAPABILITIES, GET_DIGESTS and GET_CERTIFICATE alone (R269). The responder runs while the host die is up with valid firmware (log entry
40). -/
def Clauses.SpdmRequests : Prop :=
  ∀ (s : State),
    (s.rspUp = true → exec .getVersion s = .next (s.modSec fun x => { x with spdm := 0, rsp := some .version })) ∧
    (s.rspUp = true → exec .getCapabilities s = .next (s.modSec fun x => { x with rsp := some .capabilities })) ∧
    (∀ offer : AlgOffer, s.spdmUp = true →
      (offer.ecdsaP384 = true → offer.sha384 = true → offer.ecdhe384 = true → offer.aes256gcm = true →
        exec (.negotiateAlgorithms offer) s = .next (s.modSec fun x => { x with spdm := 1, rsp := some .algorithms })) ∧
      (offer.ecdsaP384 = false ∨ offer.sha384 = false ∨ offer.ecdhe384 = false ∨ offer.aes256gcm = false →
        exec (.negotiateAlgorithms offer) s = .next (s.modSec fun x => { x with spdm := 0, rsp := some .error }))) ∧
    (s.rspUp = true → exec .getDigests s =
      .next (s.modSec fun x => { x with rsp := some (.digests (Config.sha384 (Config.certChain s.attKey s.id.serial))) })) ∧
    (∀ off len, s.rspUp = true → exec (.getCertificate 0 off len) s =
      .next (s.modSec fun x => { x with rsp := some (.certificate (((Config.certChain s.attKey s.id.serial).drop off).take len)) })) ∧
    (∀ nonce, s.spdmUp = true → s.sec.spdm ≠ 0 →
      exec (.challenge 0 nonce) s = .next (s.modSec fun x => { x with rsp := some (.challengeAuth (Config.ecdsaSign s.attKey
        (Config.sha384 (Config.certChain s.attKey s.id.serial ++ leBytes 32 nonce.toNat)))) })) ∧
    (∀ nonce i, s.spdmUp = true → s.sec.spdm ≠ 0 → 1 ≤ i → i ≤ 4 → ∃ sig,
      exec (.getMeasurements none i nonce) s =
        .next (s.modSec fun x => { x with rsp := some (.measurements [(i, leBytes 48 (s.measured i).toNat)] sig) })) ∧
    (∀ nonce p d w, s.spdmUp = true → s.sec.spdm ≠ 0 → p < 8 → s.designAt p = some d → (s.session w).isSome →
      ∃ sig, exec (.getMeasurements (some w) (0x10 + p) nonce) s =
        .next (s.modSec fun x => { x with rsp := some (.measurements
          [(0x10 + p, if w = .tenant (s.part p).owner then leBytes 48 d.digest.toNat else [])] sig) })) ∧
    (s.sec.lifecycle = .scrapped → ∀ offer nonce, exec (.negotiateAlgorithms offer) s = .next s ∧ exec (.challenge 0 nonce) s = .next s)

/-- KEY_EXCHANGE, FINISH, HEARTBEAT and KEY_UPDATE complete: KEY_EXCHANGE keeps the secret of the handshake and asks for mutual
authentication; FINISH with a signature that verifies binds the session to the principal of the requester's key, and one that fails opens
none; HEARTBEAT and KEY_UPDATE answer for an open session (R272, R273). -/
def Clauses.Sessions : Prop :=
  ∀ (s : State), s.spdmUp = true →
    (∀ eph nonce, s.sec.spdm ≠ 0 → ∃ ems sig, ems = Config.hkdf (Config.ecdh eph s.free) (leBytes 32 nonce.toNat) (strBytes "exp master") ∧
      exec (.keyExchange eph nonce) s =
        .next (s.freeNext.modSec fun x => { x with handshake := some ems, rsp := some (.keyExchange true 60 sig) })) ∧
    (∀ leaf sig ems w, s.sec.handshake = some ems → Config.ecdsaVerify leaf (Config.sha384 ems) sig = true →
      w = s.principal (Config.sha384 leaf) → s.session w = none →
      ∃ v, Told 0x6006 0 0xFF 0 false [w.num, 1]
          (s.modSec fun x =>
            { x with handshake := none, sessions := x.sessions ++ [{ who := w, ems := ems, leaf := Config.sha384 leaf }] }) v ∧
        exec (.finish leaf sig) s = .next (v.modSec fun x => { x with rsp := some (.finished w) })) ∧
    (∀ leaf sig ems, s.sec.handshake = some ems → Config.ecdsaVerify leaf (Config.sha384 ems) sig = false →
      ∃ v, Told 0x6006 0 0xFF 0 false [0xFF, 3] (s.modSec fun x => { x with handshake := none }) v ∧
        exec (.finish leaf sig) s = .next (v.modSec fun x => { x with rsp := some .error })) ∧
    (∀ w, (s.session w).isSome → exec (.spdmHeartbeat w) s = .next (s.modSec fun x => { x with rsp := some .heartbeatAck }) ∧
      exec (.keyUpdate w) s = .next (s.modSec fun x => { x with rsp := some .keyUpdateAck })) ∧
    (∀ leaf, s.sec.bound = some leaf → s.principal leaf = .operator)

/-- CLAIM completes (R274, R289): an unclaimed module is bound to the session's key; a latched one is released by the bound operator and
keeps its owner; an unlatched one refuses. -/
def Clauses.Claims : Prop :=
  ∀ (s : State) (w : Sess) (x : SessRec) (tr : Option (List Byte)), s.spdmUp = true → s.session w = some x →
    (w = .operator ∨ w = .unbound) →
    (s.sec.bound = none → (w = .operator ∨ s.session .operator = none) →
      ∃ v, exec (.claim w tr) s = .next v ∧ v.sec.bound = some x.leaf ∧ v.sec.latched = s.sec.latched ∧ v.sec.rsp = some (.status .ok) ∧
        v.parts = s.parts ∧ v.sec.slots = s.sec.slots ∧ v.sec.lifecycle = s.sec.lifecycle ∧
        (s.pwr.hostOn = true → Wrote 0x6008 0 0xFF 0 false [1] v)) ∧
    (s.sec.bound = some x.leaf → s.sec.latched = true → (w = .operator ∨ s.session .operator = none) →
      ∃ v, exec (.claim w tr) s = .next v ∧ v.sec.bound = some x.leaf ∧ v.sec.latched = false ∧ v.sec.cause = 0 ∧
        v.sec.rsp = some (.status .ok) ∧ (s.pwr.hostOn = true → Wrote 0x6008 0 0xFF 0 false [2] v)) ∧
    (s.sec.bound.isSome → s.sec.latched = false →
      exec (.claim w tr) s = .next (s.modSec fun y => { y with rsp := some (.status .refusedState) }))

/-- The keys of a principal (R274, R275, R413): KEY_SET stores a key of a KIND that its table allows this principal in every Hutch whose
rail is present, in place of one of the same name; KEY_DROP removes it from both; KEY_LIST names them without material. While the tamper
latch is set each completes TAMPER, and an unbound session is refused. -/
def Clauses.Keys : Prop :=
  ∀ (s : State) (w : Sess) (x : SessRec), s.spdmUp = true → s.session w = some x →
    (∀ kind index material, s.sec.latched = true →
      exec (.keySet w kind index material) s = .next (s.modSec fun y => { y with rsp := some (.status .tamper) }) ∧
      exec (.keyDrop w kind index) s = .next (s.modSec fun y => { y with rsp := some (.status .tamper) }) ∧
      exec (.keyList w) s = .next (s.modSec fun y => { y with rsp := some (.status .tamper) })) ∧
    (∀ kind index material, s.sec.latched = false → w = .unbound →
      exec (.keySet w kind index material) s = .next (s.modSec fun y => { y with rsp := some (.status .refusedState) })) ∧
    (∀ kind index material, s.sec.latched = false → w ≠ .unbound →
      (kindOk kind index = false → exec (.keySet w kind index material) s =
        .next (s.modSec fun y => { y with rsp := some (.status .resource) })) ∧
      (kindOk kind index = true → kindAllowed w kind = false → exec (.keySet w kind index material) s =
        .next (s.modSec fun y => { y with rsp := some (.status .refusedState) })) ∧
      (kindOk kind index = true → kindAllowed w kind = true →
        ∃ v mat, exec (.keySet w kind index material) s = .next v ∧ (kind ≠ 0x0A → mat = material) ∧
          v.sec = { s.sec with rsp := some (.status .ok) } ∧ v.host = s.host ∧ v.parts = s.parts ∧
          ∀ c ∈ s.channels, (s.ch c).hutch.powered = true →
            (v.ch c).hutch.keys = (s.ch c).hutch.keys.filter (fun k => !(k.holder == w.holder && k.kind == kind && k.index == index)) ++
              [{ holder := w.holder, kind := kind, index := index, material := mat }] ∧ (v.ch c).hutch.wiped = false) ∧
      (kindOk kind index = true → (s.key w.holder kind index).isSome →
        ∃ v, exec (.keyDrop w kind index) s = .next v ∧ v.sec = { s.sec with rsp := some (.status .ok) } ∧ v.key w.holder kind index = none ∧
          ∀ h k i, (h, k, i) ≠ (w.holder, kind, index) → v.key h k i = s.key h k i) ∧
      (kindOk kind index = true → s.key w.holder kind index = none → exec (.keyDrop w kind index) s =
        .next (s.modSec fun y => { y with rsp := some (.status .nothingToAbort) }))) ∧
    (s.sec.latched = false → w ≠ .unbound → ∃ l, exec (.keyList w) s = .next (s.modSec fun y => { y with rsp := some (.keys l) }) ∧
      (s.chA.hutch.keys ≠ [] → ∀ q, q ∈ l ↔ ∃ k ∈ s.chA.hutch.keys, k.holder = w.holder ∧ q = (k.kind, k.index)))

/-- DEBUG_TOKEN and the expiry of a token complete: DEBUG_TOKEN stores a token that names this module and verifies, in the operator's
session; it lapses at its not-after time (R270). -/
def Clauses.DebugTokens : Prop :=
  ∀ (s : State) (tok : Token),
    (s.spdmUp = true → (s.session .operator).isSome → s.sec.latched = false →
      (tok.serial = s.id.serial → Config.lumwellVerify
          (leBytes 8 tok.serial.toNat ++ leBytes 1 tok.features.toNat ++ leBytes 8 tok.notAfter.toNat) tok.sig = true →
        (s.now0 0).toNat < tok.notAfter.toNat →
        exec (.debugToken .operator tok) s = .next (s.modSec fun x =>
          { x with token := some (tok.features, tok.notAfter), rsp := some (.status .ok) })) ∧
      (tok.serial ≠ s.id.serial → exec (.debugToken .operator tok) s =
        .next (s.modSec fun x => { x with rsp := some (.status .authFail) }))) ∧
    (∀ f n, s.sec.token = some (f, n) →
      (n.toNat ≤ (s.now0 0).toNat → exec .debugTokenExpiry s = .next (s.modSec fun x => { x with token := none })) ∧
      ((s.now0 0).toNat < n.toNat → exec .debugTokenExpiry s = .next s))

/-- LIFECYCLE completes (R268, R269): a change outside the table, outside SERVICE or with a partition that is not EMPTY is refused; a change
that its authorisation permits takes effect with an event, ends every session and wipes both Hutches; SCRAPPED destroys the identity key and
nothing leaves it. -/
def Clauses.LifecycleChanges : Prop :=
  ∀ (s : State) (target : Lifecycle) (serial : BitVec 64) (auth : List Byte) (byOp : Bool), s.sec.latched = false →
    (s.sec.lifecycle = .scrapped → ∀ w, exec (.lifecycle w target serial auth byOp) s = .next s) ∧
    (s.spdmUp = true → s.sec.lifecycle ≠ .blank → (s.session .operator).isSome →
      ((s.mode.mode ≠ .service ∨ (∃ p, p < 8 ∧ (s.part p).state ≠ .empty) ∨ lifecycleStep s.sec.lifecycle target = false ∨
          (target = .returned ∧ s.sec.returnsLeft = 0)) →
        exec (.lifecycle (some .operator) target serial auth byOp) s =
          .next (s.modSec fun x => { x with rsp := some (.status .refusedState) })) ∧
      (s.mode.mode = .service → (∀ p, p < 8 → (s.part p).state = .empty) → lifecycleStep s.sec.lifecycle target = true →
        (target = .returned → s.sec.returnsLeft ≠ 0) →
        (s.lifecycleAuth target serial auth byOp = false →
          exec (.lifecycle (some .operator) target serial auth byOp) s =
            .next (s.modSec fun x => { x with rsp := some (.status .authFail) })) ∧
        (s.lifecycleAuth target serial auth byOp = true →
          ∃ u, exec (.lifecycle (some .operator) target serial auth byOp) s = .next u ∧ u.sec.lifecycle = target ∧ u.sec.sessions = [] ∧
            u.sec.rsp = some (.status .ok) ∧ (∀ c ∈ s.channels, (s.ch c).hutch.powered = true → (u.ch c).hutch.keys = []) ∧
            (target = .scrapped → u.sec.identityKey = false) ∧
            (target = .returned → u.chA.hbm.mem = [] ∧ u.chB.hbm.mem = [] ∧ u.sec.slots = [] ∧ u.sec.returnsLeft = s.sec.returnsLeft - 1) ∧
            (target = .field → s.sec.lifecycle = .vendor → u.sec.bound = none) ∧
            (target = .field → s.sec.lifecycle = .returned → u.sec.latched = true) ∧
            (s.pwr.hostOn = true → Wrote 0x6005 0 0xFF 0 false [s.sec.lifecycle.code, target.code] u))))

/-! ### Registers (R11-R13, R228-R230, R103) -/

/-- REGISTER_WRITE (R13, R229, R230) completes: an aligned write of a powered register stores its writable bits and no other register's; a 64-bit write
of a pair writes both words; one that is not aligned is counted and has no effect, and one of an unpowered domain is counted likewise. -/
def Clauses.RegisterWrites : Prop :=
  ∀ (s : State) (off : Nat) (v : Word64), s.portAnswers = true →
    (∀ r c idx keep, off % 4 = 0 → s.findReg off = some (r, c, idx) → s.domOn r.row.dom c = true → s.locked r c idx = false →
      r.row.pair = .one → r ≠ .schTraceCtrl → r ≠ .schGroup → r ≠ .hpRingCtrl → r ≠ .msixControl → keep = BitVec.ofNat 32 (0xFFFFFFFF - (r.row.rw &&& (0xFFFFFFFF - r.acting))) →
      ∃ u, exec (.registerWrite off v false) s = .next u ∧ u = { s with regs := { s.regs with rw := u.regs.rw } } ∧
        u.reg r c idx = (s.reg r c idx &&& keep) ||| (v.setWidth 32 &&& ~~~keep) ∧
        ∀ d k, k ≠ regOff r c idx → KV.get d k u.regs.rw = KV.get d k s.regs.rw) ∧
    (∀ r c idx keep keepH, off % 8 = 0 → s.findReg off = some (r, c, idx) →
      s.findReg (off + 4) = some (r.high, c, idx) → s.domOn r.row.dom c = true → s.domOn r.high.row.dom c = true →
      s.locked r c idx = false → s.locked r.high c idx = false → r.row.pair = .lo → r.high.row.pair = .hi →
      regOff r.high c idx ≠ regOff r c idx → keep = BitVec.ofNat 32 (0xFFFFFFFF - (r.row.rw &&& (0xFFFFFFFF - r.acting))) →
      keepH = BitVec.ofNat 32 (0xFFFFFFFF - (r.high.row.rw &&& (0xFFFFFFFF - r.high.acting))) →
      ∃ u, exec (.registerWrite off v true) s = .next u ∧
        u = { s with regs := { s.regs with rw := u.regs.rw, stage := u.regs.stage } } ∧
        u.reg r c idx = (s.reg r c idx &&& keep) ||| (v.setWidth 32 &&& ~~~keep) ∧
        u.reg r.high c idx = (s.reg r.high c idx &&& keepH) ||| ((v >>> 32).setWidth 32 &&& ~~~keepH)) ∧
    (∀ wide, off % (if wide then 8 else 4) ≠ 0 → exec (.registerWrite off v wide) s = .next (s.count .hpBadAccess .a [])) ∧
    (∀ v idx k, off % 4 = 0 → s.findReg off = some (.msixControl, .a, k :: idx) → s.domOn Reg.msixControl.row.dom .a = true →
      ∃ u, exec (.registerWrite off v false) s = .next u ∧ u.host.msixMask = setBit s.host.msixMask k (v.getLsbD 0) ∧
        (v.getLsbD 0 = false → s.host.msixPending.getLsbD k = true → u.host.signals = s.host.signals ++ [k])) ∧
    (∀ r c idx, off % 4 = 0 → s.findReg off = some (r, c, idx) → s.domOn r.row.dom c = false →
      s.host.busTimeoutMs ≠ some (s.clock / 1000000) →
      ∃ u, exec (.registerWrite off v false) s = .next u ∧ Told 0x0002 0 0xFF 0 false [off]
        ((s.count .hpBusTimeouts .a []).modHost fun h => { h with busTimeoutMs := some (s.clock / 1000000) }) u)

/-- LOW_WORD_READ, BAD_ACCESS and BUS_TIMEOUT complete (R13, R228-R230). A read of a register: the low word of a pair comes with its high word, which its shadow keeps; a single register shows its
bits; neither changes a stored bit. An access that is not whole and aligned reads as 0 and is counted, and one where no register stands is
counted for each of its words; one that cannot cross reads all ones and is counted (R228-R230). -/
def Clauses.RegisterReads : Prop :=
  ∀ (s : State) (off : Nat),
    (s.portAnswers = true → off % 4 = 0 → ∀ r c idx, s.findReg off = some (r, c, idx) → s.readStalls r c = false →
      (r.row.pair = .lo → exec (.lowWordRead off) s = .next (s.freeNext.modRegs fun g =>
        { g with reply := s.shown r.high c idx ++ s.shown r c idx, poison := false,
                 shadow := KV.put 0 off (s.shown r.high c idx) g.shadow })) ∧
      (r.row.pair = .hi → exec (.lowWordRead off) s = .next (s.freeNext.modRegs fun g =>
        { g with reply := (KV.get 0 (off - 4) g.shadow).setWidth 64, poison := false })) ∧
      (r.row.pair = .one → exec (.lowWordRead off) s = .next (s.freeNext.modRegs fun g =>
        { g with reply := (s.shown r c idx).setWidth 64, poison := false }))) ∧
    (∀ n k, s.portAnswers = true → k = s.badWords off n → k ≠ 0 →
      exec (.badAccess off n false) s = .next ((s.countBy .hpBadAccess .a [] k).modRegs fun g => { g with reply := 0, poison := false }) ∧
      exec (.badAccess off n true) s = .next (s.countBy .hpBadAccess .a [] k)) ∧
    (s.badWords off 3 = 1 ∧ (off % 4 = 0 → s.findReg off = none → s.badWords off 4 = 1) ∧
      (off % 8 = 0 → s.findReg off = none → s.findReg (off + 4) = none → s.badWords off 8 = 2)) ∧
    (s.portAnswers = true → s.crosses off = true → s.host.busTimeoutMs = some (s.clock / 1000000) →
      exec (.busTimeout off false) s = .next ((s.count .hpBusTimeouts .a []).modRegs fun g =>
        { g with reply := 0xFFFFFFFF#64, poison := false }) ∧
      exec (.busTimeout off true) s = .next (s.count .hpBusTimeouts .a []))

/-- MOD_ARRAY_BUDGET_WRITE completes: the budget takes effect at once; a budget below the prediction is reported, and nothing stops (R103). -/
def Clauses.BudgetWrite : Prop :=
  ∀ (s v : State) (value : Word32), s.portAnswers = true →
    v = s.setReg .modArrayBudget .a [] (value &&& 0xFFFF#32) →
    (v.predW ≤ v.budgetW → exec (.modArrayBudgetWrite value) s = .next v) ∧
    (v.budgetW < v.predW → ∃ u, exec (.modArrayBudgetWrite value) s = .next u ∧ Told 0x1204 0 0xFF 0 false [v.predW, v.budgetW] v u)

/-! ### Rings (R231-R235, R241, R227, R276) -/

/-- RING_ENABLE and RING_DISABLE complete. Enabling a ring zeroes both counts and raises its generation, and on a completion ring posts what its
arbiters retain; enabling an enabled ring changes its fields alone, and retained completions take the room it gains; disabling stops it and takes nothing away (R231, R227). -/
def Clauses.RingSwitch : Prop :=
  ∀ (s : State) (r : RingNo) (value v : Word32), isReservedRing r = false → r ≤ 511 → s.portAnswers = true →
    s.base.fwValid = true →
    v = (if r = 0 ∨ r = 96 then value &&& ~~~0x1E00#32 else value) &&& 0x1FFFFE3E#32 →
    (s.ringOn r = true → (isCplRing r = false ∨ s.host.retention = []) →
      exec (.ringEnable r value) s = .next (s.setReg .hpRingCtrl .a [r] (v ||| 1#32))) ∧
    (∀ e w, s.ringOn r = true → isCplRing r = true → s.host.retention = [e] → e.cring = r → w = s.setReg .hpRingCtrl .a [r] (v ||| 1#32) →
      w.ringFull r = false → ∃ u ph, exec (.ringEnable r value) s = .next u ∧
        (u.ring r).entries = (s.ring r).entries ++ [.cpl e.cpl ph] ∧ u.host.retention = []) ∧
    (s.ringOn r = false → ∃ u, exec (.ringEnable r value) s = .next u ∧ u.ringOn r = true ∧ u.reg .hpRingCtrl .a [r] = v ||| 1#32 ∧
      KV.get 0 r u.host.gens = KV.get 0 r s.host.gens + 1 ∧ (∀ q, q ≠ r → KV.get 0 q u.host.gens = KV.get 0 q s.host.gens) ∧
      u.host.cmds = s.host.cmds ∧ (∀ q, q ≠ r → q ≠ 96 → u.ring q = s.ring q) ∧ u.parts = s.parts ∧ u.designs = s.designs ∧
      (isCplRing r = false → u.ring r = {} ∧ u.host.retention = s.host.retention) ∧
      (∀ e, isCplRing r = true → s.host.retention = [e] → e.cring = r →
        (u.ring r).entries = [.cpl e.cpl true] ∧ (u.ring r).produced = 1 ∧ (u.ring r).consumed = 0 ∧ u.host.retention = [] ∧
        (s.pwr.hostOn = true → Wrote 0x0006 (1 + chNum e.arb) 0xFF 0 false [r, 1] u))) ∧
    exec (.ringDisable r value) s = .next (s.setReg .hpRingCtrl .a [r] v)

/-- DOORBELL completes. A produced count on a command ring (R232, R233): a count that the ring can take is taken whole, and its descriptors are read in order;
one that it cannot take is refused whole with an event and shown in REFUSED; one that moves backwards is a RING_ERROR. A doorbell of a
disabled ring or on another page is a bad access. -/
def Clauses.Doorbells : Prop :=
  ∀ (s : State) (page r : Nat) (value : Word64) (wide : Bool) (entries : List Desc) (old count : Word32) (words : Nat),
    s.portAnswers = true → s.base.fwValid = true → words = entryWords (count.toNat - (s.ring r).produced.toNat) entries → count = value.setWidth 32 → old = (s.ring r).produced →
    (s.ringOn r = false ∨ s.regField .hpRingCtrl .a [r] 13 8 ≠ page ∨ isReservedRing r = true ∨ 511 < r →
      exec (.doorbell page (8 * r) value wide entries) s = .next (s.count .hpBadAccess .a [])) ∧
    (isCmdRing r = true → s.ringOn r = true → s.regField .hpRingCtrl .a [r] 13 8 = page → s.intakeOf r = none →
      (old.toNat ≤ count.toNat → s.canTake r count words = true → exec (.doorbell page (8 * r) value wide entries) s =
        .next ((s.modRing r fun g => { g with produced := count, consumed := count, refused := none, error := false }).takeDescs r old
          (entries.take (count.toNat - old.toNat)))) ∧
      (old.toNat ≤ count.toNat → s.canTake r count words = false →
        ∃ u, exec (.doorbell page (8 * r) value wide entries) s = .next u ∧ Told 0x0003 0 0xFF 0 false [r, count.toNat]
          ((s.modRing r fun g => { g with refused := some (count, words), error := false }).count .hpDoorbellRefused .a []) u) ∧
      (count.toNat < old.toNat → s.ringSize r < (count - old).toNat →
        ∃ u, exec (.doorbell page (8 * r) value wide entries) s = .next u ∧ Told 0x0004 0 0xFF 0 false [r, 1]
          (s.modRing r fun g => { g with error := true }) u))

/-- DOORBELL completes with the checks of what it brings: a descriptor is accepted, or refused by the first check of R235 that it fails:
AUTH first, then the opcode and its parameters, the completion ring, the TAG, the partition; a refusal posts one completion on CRING, with
the receipt a tenant command asks for (R238), and accepts nothing. -/
def Clauses.DescriptorChecked : Prop :=
  ∀ (s : State) (r : RingNo) (n : Word32) (d : Desc),
    (s.checkDesc r n d = none → s.takeDescs r n [d] = s.modHost fun h => { h with cmds := h.cmds ++
      [{ ring := r, count := n, desc := d, arb := s.arbiterOf d, started := false, keys := s.ownerKeys (s.ringOwner r),
         gen := KV.get 0 r s.host.gens }] }) ∧
    (∀ st x, s.checkDesc r n d = some st → s.cringOk d.cring r = true → s.ringFull d.cring = false → s.host.perst = false →
      s.host.retention.any (fun e => e.cring == d.cring) = false →
      x = ({ tag := d.tag, status := st, retained := false, ring := r, frame := s.frameAt d.partition.toNat, detail := 0 } : Completion) →
      ∃ ph, s.takeDescs r n [d] = s.takeDesc r n d ∧ (s.takeDesc r n d).host.cmds = s.host.cmds ∧
        (∀ q, q ≠ d.cring → (s.takeDesc r n d).ring q = s.ring q) ∧
        ((s.takeDesc r n d).ring d.cring).entries = (s.ring d.cring).entries ++ [.cpl x ph] ∧
        (s.takeDesc r n d).host.out = s.host.out ++
          (s.refusedReceipt r n d).toList.map (fun y => { addr := y.addr, data := y.bytes x ph }) ++
          [{ addr := s.entryAddr d.cring (s.ring d.cring).produced, data := x.bytes ph }]) ∧
    (s.ringKey r = none → s.checkDesc r n d = some .authFail) ∧
    (∀ k, s.ringKey r = some k → d.auth ≠ Config.cmac k.material (s.authBytes r n d) → s.checkDesc r n d = some .authFail) ∧
    (s.authOk r n d = true → s.opDefined r d = false → s.checkDesc r n d = some .refusedState) ∧
    (s.authOk r n d = true → (s.cmd r d.tag).isSome → s.checkDesc r n d = some .refusedState) ∧
    (∀ e ∈ s.host.retention, s.authOk r n d = true → e.accepted = true → e.cpl.ring = r → e.cpl.tag = d.tag →
      s.checkDesc r n d = some .refusedState) ∧
    (s.authOk r n d = true → s.ringOwner r ≠ 0 → usesPart d.opcode.toNat = true → (s.part d.partition.toNat).owner ≠ s.ringOwner r →
      s.checkDesc r n d = some .refusedState)

/-- DOORBELL and INTERRUPT_TIMER complete: a consumed count frees the entries it passes (R232); the moderation timer signals a ring that has entries no signal covers (R241), into
the pending bit of a masked vector. -/
def Clauses.ConsumedAndTimer : Prop :=
  (∀ (s : State) (page : Nat) (value : Word64) (wide : Bool) (count : Word32), s.portAnswers = true → s.base.fwValid = true →
    count = value.setWidth 32 → s.ringOn 96 = true → s.regField .hpRingCtrl .a [96] 13 8 = page →
    (count - (s.ring 96).consumed).toNat ≤ ((s.ring 96).produced - (s.ring 96).consumed).toNat →
    exec (.doorbell page 768 value wide []) s = .next (s.modRing 96 fun g =>
      { g with consumed := count, error := false, entries := g.entries.drop (count - (s.ring 96).consumed).toNat })) ∧
  (∀ (s : State) (r : RingNo) (v : Nat), s.regField .hpRingMod .a [r] 8 16 ≠ 0 → (s.ring r).unsignalled ≠ 0 →
    v = s.regField .hpRingCtrl .a [r] 21 8 →
    ∃ u, exec (.interruptTimer r) s = .next u ∧ u = { s with host := u.host } ∧ u.ring r = { s.ring r with unsignalled := 0 } ∧
      (s.host.msixMask.getLsbD v = false → u.host.signals = s.host.signals ++ [v] ∧ u.host.msixPending = s.host.msixPending) ∧
      (s.host.msixMask.getLsbD v = true → u.host.signals = s.host.signals ∧ u.host.msixPending = setBit s.host.msixPending v true))

/-- A step on an empty queue lets one nanosecond pass (the model's choice, log entry 3): the raw counter of each powered hub advances by
exactly 1 ns, and that of an unpowered hub stands (R379). Designs and partitions stay, unless a MEM write waits for its design (R149). -/
def Obligations.IdleStep : Prop :=
  ∀ s : State, s.pending = [] →
    ∃ u, step s = .next u ∧ u.clock = s.clock + 1 ∧ u.pending = [] ∧
      (s.chA.link.memWait = [] → s.chB.link.memWait = [] → u.designs = s.designs ∧ u.parts = s.parts) ∧
      ∀ c, (u.ch c).time = (if (s.pw c).state.hubOn then { (s.ch c).time with raw := (s.ch c).time.raw + BitVec.ofNat 96 (2 ^ 32) }
        else (s.ch c).time)

/-! ### HBM (R145, R146, R151-R157, R225, R135-R137) -/

/-- HBM_READ_RETURN completes: a read of HBM that returns sound, with no request of a higher rank before it (R150), lands its words, clears their flags and leaves HBM as it is; under ENC+INT its MAC is still to be
checked; one that cannot be corrected is counted (R73, R145, R147, R154). -/
def Clauses.ReadReturns : Prop :=
  ∀ (s : State) (c : Ch) (k : Nat) (r : HRead) (d : Design), (s.ch c).hbm.reads[k]? = some r →
    s.hbmServes c r.addr (agedRank 3 r.issuedAt s.clock) r.issuedAt = true →
    (∀ bytes, (s.ch c).fab.flows = [] → (s.ch c).fab.landed = [] → s.design r.design = some d → d.tag = r.design → r.attempt = d.attempt → r.frame = d.frame → r.attempt ≠ 0 →
      (s.ch c).hbm.unreadable r.addr r.size = false →
      (∀ e, s.rangeAt c r.addr = some e → e.2.unkeyed = false) → bytes = (s.ch c).hbm.overlay r →
      ∃ u d', exec (.hbmReadReturn c k .ok none) s = .next u ∧ u.host = s.host ∧ u.parts = s.parts ∧ u.regs = s.regs ∧
        (u.ch c).hbm = { (s.ch c).hbm with
          reads := (s.ch c).hbm.reads.eraseIdx k,
          macs := if (s.rangeAt c r.addr).map (fun e => e.2.mode) = some 2 then
            (s.ch c).hbm.macs.filter (fun m => !(m.failed && m.design == r.design && m.cab == r.cab && decide (r.lbo ≤ m.lbo) &&
              decide (m.lbo < r.lbo + r.size / 8))) ++
            [{ design := r.design, cab := r.cab, attempt := r.attempt, frame := r.frame, addr := r.addr, link := none, lbo := r.lbo,
               words := r.size / 8 }] else (s.ch c).hbm.macs } ∧
        u.design r.design = some d' ∧ d'.cells = d.cells ∧
        (∀ i, i < r.size / 8 → KV.get 0 (r.lbo + i) (d'.cab r.cab).landing = BitVec.ofNat 64 (rd bytes (8 * i) 8)) ∧
        (∀ w, (w < r.lbo ∨ r.lbo + r.size / 8 ≤ w) → KV.get 0 w (d'.cab r.cab).landing = KV.get 0 w (d.cab r.cab).landing) ∧
        ∀ w, w ∈ (d'.cab r.cab).invalid ↔ w ∈ (d.cab r.cab).invalid ∧ ¬(r.lbo ≤ w ∧ w < r.lbo + r.size / 8)) ∧
    (s.design r.design = none → s.regField .hbmSpareCtrl c [] 16 8 = 0 →
      ∃ u, exec (.hbmReadReturn c k .uncorrectable none) s = .next u ∧
        u.reg .hbmUncorrected c [] = satAdd (s.reg .hbmUncorrected c []) 1 ∧ (u.ch c).hbm.mem = (s.ch c).hbm.mem ∧
        (u.ch c).hbm.reads = (s.ch c).hbm.reads.eraseIdx k ∧ u.designs = s.designs ∧
        (s.pwr.hostOn = true → ∃ part owner, Wrote 0x2102 (1 + chNum c) part owner false
          [chNum c, 0, (s.ch c).hbm.kindAt r.addr r.size] u))

/-- WBUF_DRAIN completes: with no request of a higher rank before it (R150), the drain writes the first committed entry of the frame write buffer to the stack: its bytes stand at their addresses and no other byte
changes; a line written whole is poisoned no longer; a merge whose line cannot be read writes the new bytes and poisons their lines (R146,
R154, R155). -/
def Clauses.DrainWrites : Prop :=
  ∀ (s : State) (c : Ch) (pre post : List WEntry) (e : WEntry) (ecc : Ecc) (integ : Bool), (s.ch c).hbm.wbuf = pre ++ e :: post →
    (∀ x ∈ pre, x.committed = false) → e.committed = true → (∀ l, ecc ≠ .node l) →
    s.hbmServes c e.addr (agedRank 4 e.since s.clock) e.since = true →
    integ = ((s.rangeAt c e.addr).map (fun x => x.2.mode == 2)).getD false →
    ∃ u, exec (.wbufDrain c ⟨ecc, 0⟩) s = .next u ∧ (u.ch c).hbm.wbuf = pre ++ post ∧ (u.ch (otherCh c)).hbm = (s.ch (otherCh c)).hbm ∧
      u.designs = s.designs ∧ u.parts = s.parts ∧
      (∀ i (hi : i < e.data.length), Memory.read (u.ch c).hbm.mem (e.addr + i) = e.data[i]) ∧
      (∀ a, (a < e.addr ∨ e.addr + e.data.length ≤ a) → Memory.read (u.ch c).hbm.mem a = Memory.read (s.ch c).hbm.mem a) ∧
      ((needsMerge e.addr e.data.length integ = false ∨ (ecc ≠ .uncorrectable ∧ (s.ch c).hbm.unreadable e.addr e.data.length = false)) →
        ∀ a, a ∈ (u.ch c).hbm.poison ↔
          a ∈ (s.ch c).hbm.poison ∧ ¬(a % 64 = 0 ∧ e.addr ≤ a ∧ a + 64 ≤ e.addr + e.data.length)) ∧
      (needsMerge e.addr e.data.length integ = true → (ecc = .uncorrectable ∨ (s.ch c).hbm.unreadable e.addr e.data.length = true) →
        (∀ a ∈ linesOf e.addr e.data.length, a ∈ (u.ch c).hbm.poison) ∧
        u.reg .hbmUncorrected c [] = satAdd (s.reg .hbmUncorrected c []) 1)

/-- HBM_SPARE_START and PC_SPARING_DONE complete (R156): START begins the copy with an event; once the spare is used it is ignored with one; the end of the copy
puts the spare in the place of the pseudo-channel and poisons what could not be read. -/
def Clauses.PseudoChannelSpare : Prop :=
  ∀ (s : State) (c : Ch),
    (∀ value, s.portAnswers = true → s.domOn .hub c = true → bitAt value.toNat 0 = true → field value.toNat 1 5 ≤ 30 →
      ((s.ch c).hbm.replaced = none → (s.ch c).hbm.sparing = none →
        ∃ u, exec (.hbmSpareStart c value) s = .next u ∧ Told 0x2103 (1 + chNum c) 0xFF 0 false [chNum c, field value.toNat 1 5, 1]
          ((s.storeBits .hbmSpareCtrl c [] value).modHbm c fun h => { h with sparing := some (field value.toNat 1 5), sparePos := 0 })
            u) ∧
      ((s.ch c).hbm.replaced.isSome →
        ∃ u, exec (.hbmSpareStart c value) s = .next u ∧ Told 0x2105 (1 + chNum c) 0xFF 0 false [chNum c]
          (s.storeBits .hbmSpareCtrl c [] value) u)) ∧
    (∀ bad pc, (s.ch c).hbm.sparing = some pc → (s.ch c).hbm.waitSparing = [] →
      ∃ u v, exec (.pcSparingDone c bad) s = .next u ∧ Told 0x2103 (1 + chNum c) 0xFF 0 false [chNum c, pc, 2] v u ∧
        v = s.modHbm c (fun h => { h with sparing := none, sparePos := 0, replaced := some pc, poison := (v.ch c).hbm.poison }) ∧
        (∀ a ∈ (s.ch c).hbm.poison, a ∈ (v.ch c).hbm.poison) ∧
        ∀ b ∈ bad, ∀ a ∈ linesOf ((b * 31 + pc) * 256) 256, a ∈ (v.ch c).hbm.poison)

/-- REFRESH and HBM_HOT complete: refresh stalls what is in flight in a serving stack, and the refresh rate doubles above 85 °C until the stack is below 80 °C (R151). -/
def Clauses.RefreshAndHeat : Prop :=
  ∀ (s : State) (c : Ch) (t : Int), (s.pw c).state.arrayOn = true →
    exec (.refresh c) s = .next (s.modHbm c fun h => { h with reads := h.reads.map (fun r => { r with refreshed := true }) }) ∧
    (85 < t → exec (.hbmHot c t) s = .next (s.modHbm c fun h => { h with hot := true })) ∧
    (t < 80 → exec (.hbmHot c t) s = .next (s.modHbm c fun h => { h with hot := false })) ∧
    (80 ≤ t → t ≤ 85 → exec (.hbmHot c t) s = .next s)

/-- HDM_READ and HDM_WRITE complete inside the HDM window (R225): an address outside it does not exist; a read answers the aligned word of the capture ring, or poison where its
line cannot be corrected, and a write is discarded with an event. -/
def Clauses.HdmWindow : Prop :=
  ∀ (s : State) (c : Ch) (addr a : Nat), s.portAnswers = true → a = captureBase + addr / 8 * 8 →
    (s.hdmIn c addr = false → (∀ ecc ok, exec (.hdmRead c addr ecc ok) s = .fault (.hdmOutside addr)) ∧
      ∀ v, exec (.hdmWrite c addr v) s = .fault (.hdmOutside addr)) ∧
    (s.hdmIn c addr = true → (s.pw c).state.arrayOn = true → (s.ch c).hbm.unreadable a 8 = false → (s.ch c).hutch.hubKey.isSome →
      (s.ch c).fab.flows = [] → (s.ch c).fab.landed = [] →
      ∃ u, exec (.hdmRead c addr .ok true) s = .next u ∧
        u.regs = { s.regs with reply := BitVec.ofNat 64 (leNat ((s.ch c).hbm.mem.readBytes a 8)), poison := false } ∧
        u.host = s.host ∧ u.designs = s.designs ∧ (u.ch c).hbm.mem = (s.ch c).hbm.mem) ∧
    (s.hdmIn c addr = true → (s.pw c).state.arrayOn = false →
      ∃ u, exec (.hdmRead c addr .ok true) s = .next u ∧ u.regs.poison = true ∧ u.host = s.host) ∧
    (s.hdmIn c addr = true → ∀ v, ∃ u, exec (.hdmWrite c addr v) s = .next u ∧
      Told 0x0004 (1 + chNum c) 0xFF 0 false [0xFFFF, 3] s u)

/-- MARCH_START and MARCH_DONE complete (R135-R137): START begins a run on a Cabinet that no tenant owns, and on an owned one outside SERVICE has no effect but its event;
a run that ends sound leaves the Cabinet as it was, and one that fails marks it failed with its first bank and word, and due for the spare
where it carries a logical Cabinet. -/
def Clauses.Marches : Prop :=
  ∀ (s : State) (c : Ch) (die cab : Nat), s.channels.contains c = true → die < 2 → cab < 34 →
    (∀ value, s.portAnswers = true → s.domOn .array c = true → bitAt value.toNat 0 = true → s.sec.lifecycle = .field →
      (s.cabOwned c die cab = true →
        ∃ u, exec (.marchStart c die cab value) s = .next u ∧
          Told 0x2004 (1 + chNum c) 0xFF 0 false [die, cab] (s.storeBits .marchCtrl c [die, cab] value) u) ∧
      (s.cabOwned c die cab = false → (s.cab c die cab).march = none → exec (.marchStart c die cab value) s =
        .next ((s.storeBits .marchCtrl c [die, cab] value).modCab c die cab fun p =>
          { p with march := some { run := field value.toNat 1 1, design := none } }))) ∧
    (∀ run, (s.cab c die cab).march = some { run := run, design := none } →
      exec (.marchDone c die cab none) s = .next (s.modCab c die cab fun p => { p with march := none }) ∧
      ∀ bank word,
        ((s.logicalOf c die cab).isSome → ∃ u, exec (.marchDone c die cab (some (bank, word))) s = .next u ∧
          Told 0x2005 (1 + chNum c) 0xFF 0 false [die, cab, bank % 16, word % 8192]
            (s.modCab c die cab fun p => { p with
              march := none, failed := true, marchFailed := true, failBank := bank % 16, failWord := word % 8192, repairDue := true }) u) ∧
        (s.logicalOf c die cab = none → ∃ u, exec (.marchDone c die cab (some (bank, word))) s = .next u ∧
          u.cab c die cab = { s.cab c die cab with
            march := none, failed := true, marchFailed := true, failBank := bank % 16, failWord := word % 8192 } ∧
          u.designs = s.designs ∧ (s.pwr.hostOn = true → Wrote 0x2005 (1 + chNum c) 0xFF 0 false [die, cab, bank % 16, word % 8192] u)))

/-! ### The base image (R290-R301, R223) -/

/-- CONFIG_REQUEST, CONFIG_WAIT_TIMEOUT, BASE_DEADLINE_WRITE and DEADLINE_EXPIRED complete. The Base Load Deadline (R290, R297) starts at the first configuration request, or by itself with its reset value; its register has
no effect after expiry or with a base image in force; expiry sets CFG_ERR and EXPIRED with one event, and waits for a delivery under way. -/
def Clauses.BaseDeadline : Prop :=
  ∀ s : State,
    (s.portAnswers = true → exec .configRequest s = .next (s.modBase fun b => { b with started := true })) ∧
    (s.base.started = false → ∃ u, exec .configWaitTimeout s = .next u ∧ u.base = { s.base with started := true } ∧
      u.reg .lwBaseDeadline .a [] = resetBits .lwBaseDeadline .a []) ∧
    (s.base.started = true → exec .configWaitTimeout s = .next s) ∧
    (∀ value, s.portAnswers = true → (s.base.expired = false → s.base.inForce = none →
        exec (.baseDeadlineWrite value) s = .next (s.setReg .lwBaseDeadline .a [] (value &&& 0xFFF#32))) ∧
      (s.base.expired = true ∨ s.base.inForce.isSome → exec (.baseDeadlineWrite value) s = .next s)) ∧
    (s.base.started = true → s.base.inForce = none → s.base.expired = false →
      (s.base.delivery = none → ∃ u, exec .deadlineExpired s = .next u ∧
        Told 0x7003 0 0xFF 0 false [] (s.modBase fun b => { b with expired := true, cfgErr := true }) u) ∧
      (∀ d, s.base.delivery = some d → exec .deadlineExpired s = .next (s.modBase fun b => { b with delivery := some d.late })))

/-- BASE_GO and CHAIN_START complete: GO begins a delivery from the host, with CHAIN that of a chain stream; neither has an effect while a delivery is busy, and without valid
host-die firmware each is refused with REASON 0xA (R291, R294, R300). -/
def Clauses.DeliveryBegins : Prop :=
  ∀ (i : Instr) (chain : Bool) (s v : State) (value : Word32),
    (i = .baseGo value ∧ chain = false ∨ i = .chainStart value ∧ chain = true) → s.portAnswers = true → bitAt value.toNat 0 = true →
    bitAt value.toNat 1 = chain → v = s.setReg .modBaseCtrl .a [] (value &&& 6#32) →
    (s.baseBusy = true → exec i s = .next v) ∧
    (s.baseBusy = false → s.base.fwValid = true → exec i s = .next (v.modBase fun b =>
      { b with attempts := min 255 (b.attempts + 1),
               delivery := some (if chain then .stream (!s.base.expired) else .host (!s.base.expired)) })) ∧
    (s.baseBusy = false → s.base.fwValid = false → s.base.expired = false →
      ∃ u, exec i s = .next u ∧ Told 0x7002 0 0xFF 0 false [0xA] (v.modBase fun b =>
        { b with attempts := min 255 (b.attempts + 1), reason := 0xA, verifyFailed := true, delivery := none }) u)

/-- BASE_VERIFY_DONE completes (R296-R299): an image that passes every check is in force, with its measurements and one event, wakes
the ports that their registers enable (R292), and leaves the loaded designs alone; one that fails is refused with the number of the first check that fails. The first three checks stand here with their
own conditions. -/
def Clauses.BaseVerified : Prop :=
  ∀ (s : State) (image : List Byte) (readOk timely : Bool) (given : Nat), s.base.delivery = some (.host timely) →
    given = s.regField .modBaseLen .a [] 0 27 →
    (s.imgFail image given readOk = none → s.base.inForce = none →
      ∃ u v, exec (.baseVerifyDone image readOk) s = .next u ∧ Told 0x7001 0 0xFF 0 false [rd image 12 2, 1] v u ∧
        v = { s with base := v.base, sec := v.sec, chA := v.chA, chB := v.chB } ∧
        v.base.inForce = some (BitVec.ofNat 16 (rd image 12 2)) ∧ v.base.delivery = none ∧ v.base.expired = false ∧
        v.base.verifyFailed = false ∧ v.base.cfgErr = false ∧ v.chA.firmware = true ∧ v.chB.firmware = s.id.twoCh ∧
        (∀ c, (v.ch c).hbm = (s.ch c).hbm ∧ (v.ch c).hutch = (s.ch c).hutch ∧ (v.ch c).ranges = (s.ch c).ranges) ∧
        (∀ c ∈ s.channels, (s.pw c).state.hubOn = true → ∀ p, p < 8 → (v.port c p).state =
          if bitAt (s.reg .vlPortCtrl c [p]).toNat 0 ∧ (s.port c p).state = .disabled then .acquire else (s.port c p).state) ∧
        KV.get 0 3 v.sec.meas = Config.sha384 (sectBytes image (imgSb image)) ∧
        KV.get 0 4 v.sec.meas = Config.sha384 (sectBytes image (imgFc image))) ∧
    (∀ n, s.imgFail image given readOk = some n → timely = true →
      ∃ u, exec (.baseVerifyDone image readOk) s = .next u ∧
        Told 0x7002 0 0xFF 0 false [n] (s.modBase fun b => { b with reason := n, verifyFailed := true, delivery := none }) u) ∧
    (s.base.inForce.isSome → s.mode.mode ≠ .service → s.imgFail image given readOk = some 1) ∧
    (s.base.inForce = none → s.sec.lifecycle = .field →
      (imgLayout image given = false → s.imgFail image given readOk = some 2) ∧
      (imgLayout image given = true → s.base.revoked.getLsbD (rd image 14 1) = true → s.imgFail image given readOk = some 3))

/-- CHAIN_DATA, CHAIN_END and CHAIN_STATUS complete, each for its message as it has arrived (R223, R301): a module that takes a chain keeps the bytes of its segment in order and begins to verify when the segment is whole;
a stream that ends before that is refused; a status from further down is logged by the origin and forwarded by every other module. -/
def Clauses.ChainStream : Prop :=
  ∀ s : State,
    (∀ off data l h t, Arrived s .a 0 (some 0) (.chainData off data) h t → h.isChain = true → s.chainOpen = true →
      s.base.refused = false → s.base.inForce = none → s.regField .modBaseCtrl .a [] 2 1 = 1 → s.base.delivery = none →
      (s.base.stream ≠ [] → off = s.base.chainFrom + s.base.stream.length) → l = s.base.stream ++ data →
      (l.length < 16 ∨ l.length < 16 + rd l 0 8 →
        exec (.chainData off data) s = .next (t.modBase fun b =>
          { b with chainFrom := if s.base.stream = [] then off else b.chainFrom, stream := l })) ∧
      (16 ≤ l.length → 16 + rd l 0 8 ≤ l.length → s.base.fwValid = true →
        exec (.chainData off data) s = .next (t.modBase fun b =>
          { b with chainFrom := if s.base.stream = [] then off else b.chainFrom, stream := l, attempts := min 255 (b.attempts + 1),
                   delivery := some (.chain (!s.base.expired)) }))) ∧
    (∀ n h t, Arrived s .a 0 (some 0) (.chainEnd n) h t → h.isChain = true → s.chainOpen = true →
      s.base.refused = false → s.base.inForce = none → s.base.delivery = none → s.base.stream ≠ [] → s.base.expired = false →
      ∃ v w, exec (.chainEnd n) s = .next (w.sendOn .a 0 (.chainStatus (rd s.base.stream 8 1) Status.contractMismatch.code)) ∧
        Told 0x7002 0 0xFF 0 false [2] v w ∧ v = t.modBase fun b =>
          { b with attempts := min 255 (b.attempts + 1), reason := 2, verifyFailed := true, delivery := none, refused := true }) ∧
    (∀ c p i st h t, s.base.chainPort = some (c, p) → Arrived s c p (some 0) (.chainStatus i st) h t → h.isChain = true →
      (s.base.chained = false → ∃ u, exec (.chainStatus i st) s = .next u ∧ Told 0x7004 0 0xFF 0 false [i, st] t u) ∧
      (s.base.chained = true → exec (.chainStatus i st) s = .next (t.sendOn .a 0 (.chainStatus i st))))

/-! ### Power, resets and tampering (R226, R288-R290, R398-R410) -/

/-- POWER_STATE_REACHED completes (R400-R405): a channel walks one state at a time; from RUN it waits until its designs have stopped; entry into READY
ends a fence, gives fresh keys and clears each owned range under a fresh key; below READY the contents of HBM are gone; the last state of the
walk is reported and completes the command. -/
def Clauses.PowerWalks : Prop :=
  ∀ (s : State) (c : Ch) (w : Walk), (s.pw c).walk = some w →
    ((s.pw c).state = .run → w.target ≠ .run → (∃ d ∈ s.designs, c ∈ d.chans ∧ d.state = .running) →
      exec (.powerStateReached c true true) s = .next s) ∧
    ((s.pw c).state = .standby → w.target = .run →
      ∃ u, exec (.powerStateReached c true true) s = .next u ∧ u.pw c = { s.pw c with state := .ready, sp := 0 } ∧
        u.pw (otherCh c) = s.pw (otherCh c) ∧ (u.ch c).fenced = false ∧ (u.ch c).hutch.hubKey = some s.free ∧
        (u.ch c).hutch.keys = (s.ch c).hutch.keys ∧ u.designs = s.designs ∧ u.parts = s.parts ∧ u.host.cmds = s.host.cmds) ∧
    ((s.pw c).state = .ready → w.target = .run → ∀ m, s.cmd w.ring w.tag = some m → (s.pw (otherCh c)).walk = none →
      ∃ v u, Told 0xC005 0 0xFF 0 false [chNum c, 4, 1] (s.modPw c fun p => { p with state := .run, sp := w.sp, walk := none }) v ∧
        exec (.powerStateReached c true true) s = .next u ∧
        Done m .ok (s.frameAt m.desc.partition.toNat) (detail [4]) v u) ∧
    ((s.pw c).state = .ready → w.target = .aux →
      ∃ u, exec (.powerStateReached c true true) s = .next u ∧ u.pw c = { s.pw c with state := .standby, sp := 0 } ∧
        (u.ch c).hbm.mem = [] ∧ (u.ch c).hutch = (s.ch c).hutch ∧ u.ch (otherCh c) = s.ch (otherCh c) ∧ u.host = s.host)

/-- TAMPER completes (R289): while 3V3_AUX is present, in a part that is not SCRAPPED (R269), a trigger latches its cause, wipes every Hutch that has its rail, ends every session, closes
every slot and leaves no partition owned; with no design loaded nothing else happens but the event. -/
def Clauses.TamperResponse : Prop :=
  ∀ (s : State) (cause : BitVec 5),
    (s.pwr.aux = false ∨ s.sec.lifecycle = .scrapped → exec (.tamper cause) s = .next s) ∧
    (s.pwr.aux = true → s.sec.lifecycle ≠ .scrapped →
      ∃ u, exec (.tamper cause) s = .next u ∧ u.sec.latched = true ∧ u.sec.sessions = [] ∧ u.sec.slots = [] ∧ u.sec.handshake = none ∧
        (∀ p, p < 8 → (u.part p).owner = 0) ∧ u.chA.ranges = [] ∧ u.chB.ranges = [] ∧
        (s.designs = [] → s.loads = [] → u.sec.cause = s.sec.cause ||| cause ∧
          (∀ c ∈ s.channels, (s.ch c).hutch.powered = true → (u.ch c).hutch.keys = [] ∧ (u.ch c).hutch.wiped = true) ∧
          u.host.cmds = s.host.cmds ∧
          (s.pwr.hostOn = true → Wrote 0x6004 0 0xFF 0 false [(s.sec.cause ||| cause).toNat] u)))

/-- HOST_RESET, LINK_DOWN, LINK_UP and IDE_KM complete. Resets of the host port (R226): FLR, CXL Reset and the loss of the link return the rings, MSI-X, IDE and the HP_ registers to their reset
values and leave accepted commands and every other register alone; LINK_UP records width and speed; IDE_KM keeps which streams have a key. -/
def Clauses.HostPortResets : Prop :=
  ∀ s : State, s.pwr.hostOn = true → s.host.perst = false →
    (∀ (i : Instr) (down : Bool), (i = .hostReset true ∧ down = false ∨ i = .hostReset false ∧ down = false ∨ i = .linkDown ∧ down = true) →
      ∃ u, exec i s = .next u ∧
        u.host = { s.host with
          rings := [], msixPending := 0, msixMask := BitVec.allOnes 256, ideKeys := [], ideOn := [], linkUp := s.host.linkUp && !down,
          width := if down then 0 else s.host.width, speed := if down then 0 else s.host.speed } ∧
        u = { s with host := u.host, regs := u.regs } ∧
        (∀ d k, 0x100000 ≤ k → k < 0x200000 → KV.get d k u.regs.rw = d) ∧
        ∀ d k, (k < 0x100000 ∨ 0x200000 ≤ k) → KV.get d k u.regs.rw = KV.get d k s.regs.rw) ∧
    (∀ width speed, width ≠ 3 → speed ≠ 3 → exec (.linkUp width speed) s =
      .next (s.modHost fun h => { h with linkUp := true, width := width, speed := speed })) ∧
    (∀ n, n ≤ 4 → exec (.ideKm n false) s = .next (s.modHost fun h => { h with ideKeys := insKey n h.ideKeys }) ∧
      (n ∈ s.host.ideKeys → exec (.ideKm n true) s = .next (s.modHost fun h => { h with ideOn := insKey n h.ideOn })) ∧
      (n ∉ s.host.ideKeys → exec (.ideKm n true) s = .next s))

/-- PERST_ASSERT and PERST_RELEASE complete (R226): while PERST_N is asserted the host die is held in reset with its registers and nothing of
the hubs changes; at its release the host die boots (R291), what it alone carried completes ABORTED, and every other command goes on. -/
def Clauses.Perst : Prop :=
  ∀ s : State,
    (s.pwr.hostOn = true → s.host.perst = false →
      ∃ u, exec .perstAssert s = .next u ∧ u.host.perst = true ∧ u.host.linkUp = false ∧ u.host.rings = [] ∧ u.host.cmds = s.host.cmds ∧
        u.host.gens = s.host.gens ∧ u.chA = s.chA ∧ u.chB = s.chB ∧ u.designs = s.designs ∧ u.parts = s.parts ∧
        u.sec.sessions = s.sec.sessions ∧ u.base.inForce = s.base.inForce ∧
        (∀ d k, k < 0x400000 → KV.get d k u.regs.rw = d) ∧
        ∀ d k, 0x400000 ≤ k → k < 0x1000000 → KV.get d k u.regs.rw = KV.get d k s.regs.rw) ∧
    (s.host.perst = true →
      ((∀ m ∈ s.host.cmds, m.desc.opcode.toNat ∉ hostDieOps) →
        exec .perstRelease s = .next ((s.modHost fun h => { h with perst := false }).modBase BaseSt.boot)) ∧
      (∀ m, s.host.cmds = [m] → m.desc.opcode.toNat ∈ hostDieOps →
        ∃ u, exec .perstRelease s = .next u ∧
          Done m .aborted (s.frameAt m.desc.partition.toNat) 0
            ((s.modHost fun h => { h with perst := false }).modBase BaseSt.boot) u))

/-- INPUT_LOST, EMERGENCY_OFF, AUX_LOST, AUX_PRESENT, POWER_ENABLE and EMERGENCY_OFF_RESTART complete (R288, R290, R400, R408): a loss of input and an EMERGENCY_OFF leave no design and no memory and put the
channels into AUX, partitions keep their owners and the Hutches their keys; without 3V3_AUX the Hutches too are empty; POWER_ENABLE and,
after a latched EMERGENCY_OFF, the restart bring the channels up in STANDBY; the ROM boots the valid copy of the host-die firmware with the
higher SVN that is not below the least, and without one CFG_ERR_N is asserted (R291). -/
def Clauses.ModulePower : Prop :=
  ∀ s : State,
    (∀ (i : Instr) (low : Bool) (cause : BitVec 4) (site : Byte), s.pwr.hostOn = true → (i = .inputLost low ∨ i = .emergencyOff cause site) →
      ∃ u, exec i s = .next u ∧ u.designs = [] ∧ u.loads = [] ∧ u.host.cmds = [] ∧ u.pwr.hostOn = false ∧ u.pwr.a.state = .aux ∧
        u.pwr.b.state = (if s.id.twoCh then .aux else .off) ∧ u.chA.hbm.mem = [] ∧ u.chB.hbm.mem = [] ∧
        u.chA.hutch.keys = s.chA.hutch.keys ∧ u.chB.hutch.keys = s.chB.hutch.keys ∧
        (∀ e ∈ u.parts, ∃ p, (e.1, p) ∈ s.parts ∧ e.2.owner = p.owner ∧ e.2.state = .empty ∧ e.2.design = 0) ∧
        (i = .inputLost low → u.pwr.inputLost = some (if low then 2 else 1) ∧ u.pwr.latched = s.pwr.latched) ∧
        (i = .emergencyOff cause site → u.pwr.latched = true ∧ u.pwr.cause = cause ∧ u.pwr.site = site ∧ u.pwr.scope = 0 ∧
          u.pwr.count = min 0xFFFF (s.pwr.count + 1))) ∧
    (s.pwr.aux = true → ∃ u, exec .auxLost s = .next u ∧ u.pwr.aux = false ∧ u.pwr.a.state = .off ∧ u.pwr.b.state = .off ∧
      u.designs = [] ∧ u.chA.hbm.mem = [] ∧ ∀ c ∈ s.channels, (u.ch c).hutch.keys = [] ∧ (u.ch c).hutch.powered = false) ∧
    (s.pwr.aux = false → ∃ u, exec (.auxPresent false) s = .next u ∧ u.pwr.aux = true ∧ u.designs = s.designs ∧
      ∀ c ∈ s.channels, (u.pw c).state = .aux ∧ (u.ch c).hutch.powered = true) ∧
    (∀ fwA fwB svnA svnB, s.pwr.aux = true → s.pwr.hostOn = false → s.pwr.latched = false →
      svnA = s.base.hfCopies.1.2 → svnB = s.base.hfCopies.2.2 →
      ∃ u, exec (.powerEnable fwA fwB) s = .next u ∧ u.pwr.hostOn = true ∧ u.pwr.inputLost = none ∧
        u.base.hfCopies = ((fwA, svnA), (fwB, svnB)) ∧ (∀ c ∈ s.channels, (u.pw c).state = .standby) ∧
        (fwA = true → s.base.svnMin.toNat ≤ svnA.toNat → (fwB = false ∨ svnB.toNat ≤ svnA.toNat) →
          u.base.fwValid = true ∧ u.base.fwSvn = svnA) ∧
        (fwB = true → s.base.svnMin.toNat ≤ svnB.toNat → (fwA = false ∨ svnA.toNat < svnB.toNat) →
          u.base.fwValid = true ∧ u.base.fwSvn = svnB) ∧
        ((fwA = false ∨ svnA.toNat < s.base.svnMin.toNat) → (fwB = false ∨ svnB.toNat < s.base.svnMin.toNat) →
          u.base.fwValid = false ∧ u.base.cfgErr = true) ∧
        ∀ n, s.pwr.inputLost = some n → Wrote 0xC006 0 0xFF 0 false [n] u) ∧
    (∀ fwA fwB, s.pwr.latched = true → exec (.powerEnable fwA fwB) s = .next s) ∧
    (s.pwr.aux = true → s.pwr.latched = true → s.pwr.hostOn = false →
      ∃ u, exec .emergencyOffRestart s = .next u ∧ u.pwr.latched = false ∧ u.pwr.hostOn = true ∧ (∀ c ∈ s.channels, (u.pw c).state = .standby) ∧
        Wrote 0xC001 0 0xFF 0 false [s.pwr.cause.toNat, s.pwr.site.toNat, 0] u)

/-- CHANNEL_EMERGENCY_OFF completes (R407, R408): the channel falls to AUX, loses its memories and latches its cause with one event; the other channel
runs on. With designs of the channel loaded they are cut off as well. -/
def Clauses.ChannelOff : Prop :=
  ∀ (s : State) (c : Ch) (cause : BitVec 4) (site : Byte), s.pwr.hostOn = true → c ∈ s.channels → (s.pw c).state.hubOn = true →
    (s.pw c).walk = none → s.loads = [] → (∀ d ∈ s.designs, c ∉ d.chans) →
    ∃ u, exec (.channelEmergencyOff c cause site) s = .next u ∧ u.pw c = { state := .aux } ∧ u.pw (otherCh c) = s.pw (otherCh c) ∧
      (u.ch c).hbm.mem = [] ∧ (u.ch c).hutch.keys = (s.ch c).hutch.keys ∧ (u.ch (otherCh c)).hbm = (s.ch (otherCh c)).hbm ∧
      u.pwr.cause = cause ∧ u.pwr.site = site ∧ u.pwr.scope = 1 + chNum c ∧ u.pwr.latched = s.pwr.latched ∧
      Wrote 0xC001 0 0xFF 0 false [cause.toNat, site.toNat, 1 + chNum c] u

/-- PHASE_FAILURE and TEMP_WARN complete. PHASE_FAILURE (R398): a spare phase of the group takes over with one event, and the last spare with a second; with none left the limit
of the group's channel falls. TEMP_WARN (R410): the rise of the hottest sensor to the threshold is reported once. -/
def Clauses.PhasesAndTemperature : Prop :=
  ∀ s : State, s.pwr.hostOn = true →
    (∀ g phase limit, g ≤ 5 → limit.toNat ≤ 4 →
      (KV.get 2 g s.pwr.phases = 2 → ∃ u, exec (.phaseFailure g phase limit) s = .next u ∧
        Told 0xC002 0 0xFF 0 false [g, phase] (s.modPwr fun p => { p with phases := KV.put 2 g 1 p.phases }) u) ∧
      (KV.get 2 g s.pwr.phases = 1 → ∃ v u, exec (.phaseFailure g phase limit) s = .next u ∧
        Told 0xC002 0 0xFF 0 false [g, phase] (s.modPwr fun p => { p with phases := KV.put 2 g 0 p.phases }) v ∧
        Told 0xC003 0 0xFF 0 false [g] v u) ∧
      (KV.get 2 g s.pwr.phases = 0 → g = 1 ∨ g = 3 → s.pwr.limitA.toNat < limit.toNat →
        exec (.phaseFailure g phase limit) s = .next (s.modPwr fun p => { p with limitA := limit })) ∧
      (KV.get 2 g s.pwr.phases = 0 → g = 2 ∨ g = 4 → s.pwr.limitB.toNat < limit.toNat →
        exec (.phaseFailure g phase limit) s = .next (s.modPwr fun p => { p with limitB := limit }))) ∧
    (∀ die degC warn d t, die ≤ 8 → s.pwr.warned = none → warn = s.regField .modPwrTempWarn .a [] 0 8 →
      ∀ v, v = s.modPwr (fun p => { p with dieTemp := KV.ins die degC (KV.del die p.dieTemp) }) → v.pwr.hottest = some (d, t) →
      ((warn : Int) ≤ t.toInt → ∃ u, exec (.tempWarn die degC) s = .next u ∧
        Told 0xC004 0 0xFF 0 false [d, t.toNat] (v.modPwr fun p => { p with warned := some d }) u) ∧
      (t.toInt < (warn : Int) → exec (.tempWarn die degC) s = .next v))

/-! ### The array: steps (R31-R50, R66-R80, R124-R131) -/

/-- A cell in one step (R31, R33-R37, R39): its result slot of this step takes the truth-table bit that its four operands select, the state
slot that it names takes the result in the next bank alone, the landing slot takes the captured bit, and no other bit of the cell changes. -/
def Clauses.CellComputes : Prop :=
  ∀ (d : Design) (cab step : Nat) (lanes : BitVec 192) (key w : Nat) (c n : Cell) (r : Bool), c = d.cellAt key → w = d.insn key step →
    n = (d.cellStep cab step lanes [] key).next → step < 2048 →
    r = bitAt w (bit01 (d.operand key c (field w 16 12)) + 2 * bit01 (d.operand key c (field w 28 12)) +
      4 * bit01 (d.operand key c (field w 40 12)) + 8 * bit01 (d.operand key c (field w 52 12))) →
    (∀ i, i < 2048 → n.res.getLsbD i = if i = step then r else c.res.getLsbD i) ∧
    (∀ i, i < 1024 → n.land.getLsbD i = if bitAt w 72 = true ∧ i = step % 1024 then
      d.capBit cab (benchOf key) step lanes (field w 64 8) else c.land.getLsbD i) ∧
    n.curBank = c.curBank ∧ n.cur = c.cur ∧
    (∀ i, i < 512 → n.nextBank.getLsbD i = if bitAt w 74 = true ∧ i = field w 75 9 then (d.forced key i).getD r else c.nextBank.getLsbD i) ∧
    (∀ i, i < 512 → n.mask.getLsbD i = (c.mask.getLsbD i || (bitAt w 74 && i == field w 75 9)))

/-- The operands of a cell (R33, R34): a result slot, a landing slot, a state slot of the current bank unless its reset is forced, and 0 at
every address above. -/
def Clauses.Operands : Prop :=
  ∀ (d : Design) (key : Nat) (c : Cell) (a : Nat),
    (a < 0x800 → d.operand key c a = c.res.getLsbD a) ∧
    (0x800 ≤ a → a < 0xC00 → d.operand key c a = c.land.getLsbD (a - 0x800)) ∧
    (0xC00 ≤ a → a < 0xE00 → d.forced key (a - 0xC00) = none → d.operand key c a = c.curBank.getLsbD (a - 0xC00)) ∧
    (∀ b, 0xC00 ≤ a → a < 0xE00 → d.forced key (a - 0xC00) = some b → d.operand key c a = b) ∧
    (0xE00 ≤ a → d.operand key c a = false)

/-- STEP_BEGIN completes (R36, R72, R76, R124-R129, R144): a Cabinet that may begin, and has the tags for its HBM reads, executes its next step: each of its cells takes its step, no other cell
changes, and a memory operation on cabinet memory logs the old word, writes at once and returns what it should; one that may not begin does
nothing. Packets that already stand in the fabric of its channel may move with those it sends, so the second clause has none there. -/
def Clauses.StepRuns : Prop :=
  ∀ (s : State) (cab : Nat) (obs : StepObs),
    ((∀ d ∈ s.designs, d.span.contains cab = false ∨ d.mayBegin cab = false ∨ s.tagsFree d cab = false) → exec (.stepBegin cab obs) s = .next s) ∧
    ∀ (d : Design) (n : Nat) (lanes : BitVec 192), s.designs.find? (fun x => x.span.contains cab && x.mayBegin cab && s.tagsFree x cab) = some d →
      (∀ c, (s.ch c).fab.flows = [] ∧ (s.ch c).fab.landed = []) → s.design d.tag = some d → obs.tiles = [] → obs.parityBench = none → obs.wrong = [] → n = (d.cab cab).next →
      lanes = s.lanesIn d cab n →
      (opFields (d.memEntry cab n) = [] →
        ∃ u d', exec (.stepBegin cab obs) s = .next u ∧ u.design d.tag = some d' ∧ u.parts = s.parts ∧
          (destFields (d.portEntry cab n) = [] → u.host = s.host) ∧ u.chA.hbm = s.chA.hbm ∧ u.chB.hbm = s.chB.hbm ∧ (d'.cab cab).next = n + 1 ∧ (d'.cab cab).mem = (d.cab cab).mem ∧
          d'.frame = d.frame ∧ d'.rets = d.rets ∧ (∀ l, l ≠ cab → d'.cab l = d.cab l) ∧
          (∀ k ∈ d.cellKeys cab [], d'.cellAt k = (d.cellStep cab n lanes [] k).next) ∧
          ∀ k, k ∉ d.cellKeys cab [] → d'.cellAt k = d.cellAt k) ∧
      (∀ k f addr old data, opFields (d.memEntry cab n) = [(k, f)] → d.opActs f = true → field f 0 3 ∈ [1, 2, 3, 4] → 2 ≤ d.stage →
        addr = (KV.get 0 (field f 3 4) (d.cab cab).addrG).toNat % 2 ^ 17 → old = KV.get 0 addr (d.cab cab).mem →
        data = KV.get 0 (field f 7 4) (d.cab cab).dataG →
        ∃ u d', exec (.stepBegin cab obs) s = .next u ∧ u.design d.tag = some d' ∧ u.parts = s.parts ∧
          KV.get 0 addr (d'.cab cab).mem = (if field f 0 3 = 1 then old else if field f 0 3 = 3 then old + data else data) ∧
          (∀ a, a ≠ addr → KV.get 0 a (d'.cab cab).mem = KV.get 0 a (d.cab cab).mem) ∧
          (d'.cab cab).undo = (if field f 0 3 = 1 then (d.cab cab).undo else (addr / 8192, addr, old) :: (d.cab cab).undo) ∧
          ∃ x : MemRet, d'.rets = d.rets ++ [x] ∧ x.cab = cab ∧ x.addr = addr ∧ x.port = k ∧
            x.ret = if field f 0 3 = 2 then none else some { step := n + field f 30 11, slot := field f 11 1, word := old })

/-- CLEARANCE_GRANT and HOLD_LONG complete (R76-R80, R312): the Trestle grants the next step once no Cabinet that it joins misses anything,
withholds it otherwise, and a withheld step holds the span without touching its cells or memory; HOLD_LONG reports a hold once. In TWINNED each
copy has a Trestle of its own. -/
def Clauses.Clearance : Prop :=
  ∀ (s : State) (p : Nat) (d : Design) (b : Bool), s.designAt p = some d → b = d.sideOf (chOfPart p) →
    ((d.state = .running ∨ d.state = .stopping) → d.errs = [] → (d.tr b).cleared < d.header.frameLen → d.lock b ≠ [] →
      (∀ l ∈ d.lock b, (d.tr b).cleared < d.lookahead ∨ (d.tr b).cleared < (d.cab l).next + d.lookahead) →
      ((d.tr b).cleared ≠ 0 ∨ s.frameOpen d = true) →
      (s.causes d b = 0 → (d.tr b).held = false → exec (.clearanceGrant p) s =
        .next (s.modDesign d.tag fun x => ({ x with begun := true }).setTr b { cleared := (x.tr b).cleared + 1 })) ∧
      (s.causes d b = 0 → (d.tr b).held = true →
        ∃ u d', exec (.clearanceGrant p) s = .next u ∧ u.design d.tag = some d' ∧ d'.tr b = { cleared := (d.tr b).cleared + 1 } ∧
          d'.tr (!b) = d.tr (!b) ∧ d'.cells = d.cells ∧ d'.cabs = d.cabs ∧ u.host = s.host ∧ u.parts = s.parts) ∧
      (s.causes d b ≠ 0 → s.causes d b ≠ 64 → d.waiting b = true → (d.tr b).held = false → d.stops = [] →
        ∃ u d', exec (.clearanceGrant p) s = .next u ∧ u.design d.tag = some d' ∧
          d'.tr b = { cleared := (d.tr b).cleared, held := true } ∧ d'.tr (!b) = d.tr (!b) ∧ d'.cells = d.cells ∧ d'.cabs = d.cabs ∧
          d'.frame = d.frame ∧ d'.state = d.state ∧ u.host = s.host ∧ u.parts = s.parts ∧ u.chA.hbm = s.chA.hbm ∧ u.chB.hbm = s.chB.hbm) ∧
      (s.causes d b ≠ 0 → d.waiting b = false → exec (.clearanceGrant p) s = .next s)) ∧
    (d.state ≠ .running → d.state ≠ .stopping → exec (.clearanceGrant p) s = .next s) ∧
    ((d.tr b).held = true → (d.tr b).told = false → ∃ u, exec (.holdLong p) s = .next u ∧
      Told 0x1104 (1 + chNum d.ch) d.low d.slot false [s.causes d b]
        (s.modDesign d.tag fun x => x.setTr b { x.tr b with told := true }) u) ∧
    ((d.tr b).held = false ∨ (d.tr b).told = true → exec (.holdLong p) s = .next s)

/-- VALUE_PACKET_ARRIVAL and MEMORY_RETURN complete (R68, R126-R128, R165, R167, R169): a VALUE packet of the frame and attempt in progress reaches the staging of its Cabinet, a stale
one is discarded, one for a Cabinet outside the span is dropped, counted and reported, and one that was sent behind another that is
still in flight waits; the bank grants its accesses in order and returns
their words, and a word that cannot be corrected is an error within the frame. -/
def Clauses.Arrivals : Prop :=
  ∀ (s : State) (p k : Nat) (d : Design), s.designAt p = some d →
    (∀ x, d.packets[k]? = some x → d.inOrder k x = false → exec (.valuePacketArrival p k) s = .next s) ∧
    (∀ x, d.packets[k]? = some x → d.inOrder k x = true →
      ((x.attempt ≠ d.attempt ∨ x.frame ≠ d.frame) → exec (.valuePacketArrival p k) s =
        .next (s.modDesign d.tag fun y => { y with packets := y.packets.eraseIdx k })) ∧
      (x.attempt = d.attempt → x.frame = d.frame → d.span.contains x.dst = true → x.tag = d.tag →
        ∃ u d', exec (.valuePacketArrival p k) s = .next u ∧ u.design d.tag = some d' ∧ u.host = s.host ∧ u.regs = s.regs ∧
          d'.packets = d.packets.eraseIdx k ∧ d'.cells = d.cells ∧
          (d'.cab x.dst).vals = (d.cab x.dst).vals ++ [{ step := x.step, group := x.group, values := x.values }] ∧
          (d'.cab x.dst).mem = (d.cab x.dst).mem ∧ ∀ l, l ≠ x.dst → d'.cab l = d.cab l) ∧
      (∀ c, x.attempt = d.attempt → x.frame = d.frame → (d.span.contains x.dst = false ∨ x.tag ≠ d.tag) → c = chOfCab x.src →
        ∃ u v, exec (.valuePacketArrival p k) s = .next u ∧ Quiet v u ∧
          v = ((s.modDesign d.tag fun y => { y with packets := y.packets.eraseIdx k }).count .vfIsolationDrops c []) ∧
          (s.pwr.hostOn = true → ∃ node, Wrote 0x3001 (1 + chNum c) 0xFF 0 false [chNum c, dieOfCab x.dst, node] u))) ∧
    (∀ x c die i, d.rets[k]? = some x → s.physOf x.cab = some (c, die, i) → d.firstOfBank k x = true →
      (x.op ≠ 2 → x.addr < 2 ^ 17 →
        ∃ u d', exec (.memoryReturn p k .ok) s = .next u ∧ u.design d.tag = some d' ∧ u.host = s.host ∧ d'.rets = d.rets.eraseIdx k ∧
          d'.errs = d.errs ∧ (d'.cab x.cab).rets = (d.cab x.cab).rets ++ x.ret.toList ∧ (d'.cab x.cab).mem = (d.cab x.cab).mem ∧
          ∀ l, l ≠ x.cab → d'.cab l = d.cab l) ∧
      (x.op ≠ 2 → die < 2 → i < 34 → x.port < 4 → ∃ u d', exec (.memoryReturn p k .uncorrectable) s = .next u ∧ u.design d.tag = some d' ∧
        d'.errs = d.errs ++ [(.cmemWord, x.cab, x.addr / 8192)] ∧ d'.cabs = d.cabs ∧
        u.reg .cmemUncorrected c [die, i] = satAdd (s.reg .cmemUncorrected c [die, i]) 1)) ∧
    (∀ x ecc, d.rets[k]? = some x → d.firstOfBank k x = false → exec (.memoryReturn p k ecc) s = .next s)

/-! ### The end of a frame (R43, R84, R89-R91, R306) -/

/-- The state flip (R43, R46): a slot written in the frame shows its new value, every other slot carries over, and the mask is clear. -/
def Clauses.StateFlip : Prop :=
  ∀ (c : Cell), (∀ i, i < 512 → (c.flip []).curBank.getLsbD i = if c.mask.getLsbD i then c.nextBank.getLsbD i else c.curBank.getLsbD i) ∧
    (c.flip []).mask = 0 ∧ (c.flip []).res = c.res ∧ (c.flip []).land = c.land ∧
    ∀ i b, i < 512 → (c.flip [(i, b)]).curBank.getLsbD i = b

/-- FRAME_COMMIT completes (R84, R146, R88, R153, R236): with every step and every check done the frame number advances, the cells flip, nothing of the frame
is left in progress, its HBM writes are committed, and with a frame number to run to the design stops and its command is answered; with a
step or a check missing nothing happens; records that do not fit make it wait behind the flip. -/
def Clauses.FrameCommits : Prop :=
  ∀ (s : State) (p : Nat) (d : Design), s.designAt p = some d →
    (d.flipped = false → (d.stepsDone = false ∨ s.macsDone d = false) → exec (.frameCommit p) s = .next s) ∧
    (d.flipped = true → s.captureHolds d ≠ [] → exec (.frameCommit p) s = .next s) ∧
    (d.flipped = false → d.stepsDone = true → s.macsDone d = true → d.twin = false → s.mode.mode ≠ .mirrored → s.captureHolds d ≠ [] →
      ∃ u d', exec (.frameCommit p) s = .next u ∧ u.design d.tag = some d' ∧ d'.flipped = true ∧ d'.frame = d.frame ∧ d'.cells = d.commitCells ∧
        (∀ e ∈ u.chA.hbm.wbuf ++ u.chB.hbm.wbuf, e.design = d.tag → e.committed = true) ∧
        (∀ c ∈ s.captureHolds d, (u.ch c).acq.holding = true) ∧ u.host = s.host ∧ u.parts = s.parts) ∧
    (d.flipped = false → d.stepsDone = true → s.macsDone d = true → d.twin = false → s.mode.mode ≠ .mirrored → s.mode.other ≠ .joining →
      d.lastErr = none → s.captureHolds d = [] → d.hazards = [] → d.stops = [] → d.stopAfter = none → ∀ r, d.run = some r →
      (r.left ≠ some 1 →
        ∃ u d', exec (.frameCommit p) s = .next u ∧ u.design d.tag = some d' ∧ d'.frame = d.frame + 1 ∧ d'.cells = d.commitCells ∧
          d'.state = d.state ∧ d'.begun = false ∧ d'.trA = {} ∧ d'.trB = {} ∧ d'.flipped = false ∧ d'.attempt = 1 ∧ d'.errs = [] ∧
          d'.packets = [] ∧ d'.run = some { r with left := r.left.map (· - 1) } ∧
          d'.stage = (if d.lastPhase = true ∧ d.stage < 3 then min 3 (d.cycle + 1) else d.stage) ∧
          u.chA.hbm.mem = s.chA.hbm.mem ∧ u.chB.hbm.mem = s.chB.hbm.mem ∧
          (∀ e ∈ u.chA.hbm.wbuf ++ u.chB.hbm.wbuf, e.design = d.tag → e.committed = true) ∧ u.parts = s.parts) ∧
      (r.left = some 1 →
        ∃ u d', exec (.frameCommit p) s = .next u ∧ u.design d.tag = some d' ∧ d'.frame = d.frame + 1 ∧ d'.state = .stopped ∧
          d'.run = none ∧ u.cmd r.ring r.tag = none))

/-- FRAME_ABORTED completes (R89, R90): the first time that a frame meets an error, it is rolled back to its start and tried again: cabinet memory as
its undo log gives it, the masks restored, provisional HBM writes discarded, one event, the error remembered. A frame without an error is not
aborted. -/
def Clauses.FrameAborts : Prop :=
  ∀ (s : State) (p : Nat) (d : Design), s.designAt p = some d →
    ((d.errs = [] ∨ d.flipped = true) → ∀ undo, exec (.frameAborted p undo) s = .next s) ∧
    (∀ e es, d.flipped = false → d.errs = e :: es → d.attempt < 4 → d.lastErr = none → e.1 ≠ .twin → d.twinRepaired = false →
      ∃ u d', exec (.frameAborted p ⟨[], none⟩) s = .next u ∧ u.design d.tag = some d' ∧ d'.attempt = d.attempt + 1 ∧ d'.lastErr = some e ∧
        d'.errs = [] ∧ d'.begun = false ∧ d'.trA = {} ∧ d'.trB = {} ∧ d'.packets = [] ∧ d'.frame = d.frame ∧ d'.state = d.state ∧
        d'.cells = d.rollback.cells ∧ d'.cabs = d.rollback.cabs ∧
        (∀ l, (d.cab l).rollback.mem = undoMem (d.cab l).mem (d.cab l).undo ∧ (d.cab l).rollback.next = 0) ∧
        (∀ x ∈ u.chA.hbm.wbuf ++ u.chB.hbm.wbuf, x.design = d.tag → x.committed = true) ∧
        u.chA.hbm.mem = s.chA.hbm.mem ∧ u.chB.hbm.mem = s.chB.hbm.mem ∧ u.parts = s.parts ∧
        (s.pwr.hostOn = true → Wrote 0x1101 (1 + chNum d.ch) d.low d.slot true [e.1.code, d.attempt, e.2.1, d.frame % 2 ^ 32] u))

/-! ### Repair (R56-R62, R332, R338) -/

/-- TILE_RELOADED, CELL_SWAPPED and BENCH_SWAPPED complete: a tile reload that passes writes the tile of the image copy, frees it and counts;
one that fails asks for a cell swap; a cell swap gives the logical cell to the lower
free spare of its Bench with one event, and with none left the Bench must be swapped; the spare Bench takes a whole Bench (R56-R62). -/
def Clauses.TilesCellsBenches : Prop :=
  ∀ (s : State) (cab bench cell : Nat) (d : Design) (c : Ch) (die i pb : Nat), s.physOf cab = some (c, die, i) →
    pb = (s.cab c die i).physBench bench →
    (∀ t img, s.designs.find? (fun x => x.span.contains cab && ((x.cab cab).waitingTile bench cell).isSome) = some d →
      (d.cab cab).waitingTile bench cell = some t → img = KV.get {} (partOfCab cab % 4) (s.ch (chOfCab cab)).hbm.images →
      (((s.cab c die i).bench pb).reloadedLately (((s.cab c die i).bench pb).physCell cell) s.clock = false →
        ∃ u v, exec (.tileReloaded cab bench cell .good true) s = .next u ∧
          Told 0x1002 (1 + chNum d.ch) d.low d.slot true (s.cellAddr cab bench cell ++ [t]) v u ∧ v.host = s.host ∧
          (∀ x ∈ v.designs, x.tag = d.tag → (x.cab cab).tileBad bench cell t = false ∧ (img.design = d.tag →
            KV.get 0 (cellKey cab bench cell * 128 + t) x.code = KV.get 0 (cellKey cab bench cell * 128 + t) img.tiles)) ∧
          v.reg .benchTileReload c [die, i, pb] = satAdd (s.reg .benchTileReload c [die, i, pb]) 1) ∧
      (exec (.tileReloaded cab bench cell .good false) s = .next (s.askCellSwap d cab bench cell))) ∧
    (s.designs.find? (fun x => x.repairs.contains (5, cab, 64 * bench + cell)) = some d →
      (d.begun = true → d.tileRepair (5, cab, 64 * bench + cell) = true) →
      (∀ sp, ((s.cab c die i).bench pb).freeSpare = some sp →
        ∃ u v, exec (.cellSwapped cab bench cell .good) s = .next u ∧
          Told 0x1003 (1 + chNum d.ch) d.low d.slot true (s.cellAddr cab bench cell ++ [sp]) v u ∧
          (v.cab c die i).bench pb = ((s.cab c die i).bench pb).swapCell cell sp ∧ (v.cab c die i).failed = (s.cab c die i).failed ∧
          v.host = s.host ∧ ∀ x ∈ v.designs, x.tag = d.tag → (5, cab, 64 * bench + cell) ∉ x.repairs) ∧
      (((s.cab c die i).bench pb).freeSpare = none → exec (.cellSwapped cab bench cell .good) s =
        .next (s.modDesign d.tag fun x =>
          { x with repairs := x.repairs.filter (fun r => r != (5, cab, 64 * bench + cell)) ++ [(4, cab, bench)] }))) ∧
    (s.designs.find? (fun x => x.repairs.any (fun r => (r.1 == 1 || r.1 == 4) && r.2 == (cab, bench))) = some d →
      (s.cab c die i).spareBench = none → ((s.cab c die i).bench 16).usable = true →
      ∃ u v, exec (.benchSwapped cab bench .good) s = .next u ∧ v.host = s.host ∧
        Told 0x1004 (1 + chNum d.ch) d.low d.slot true
          [cab, bench, if d.repairs.any (fun r => r == (1, cab, bench)) then 2 else 1] v u ∧
        (v.cab c die i).spareBench = some bench ∧ ((v.cab c die i).bench bench).retired = true)

/-- CABINET_REPAIRED and CONFIG_PARITY_FAIL complete: a repair swap of a Cabinet that no design uses, and no load fills, puts its logical place on the standing spare and marks the old one failed, with one event;
a hard defect in the configuration cells of a Cabinet in use asks for such a swap (R26, R332, R338). -/
def Clauses.CabinetSwaps : Prop :=
  ∀ (s : State) (c : Ch) (die i cab sp rot : Nat),
    (s.physOf cab = some (c, die, i) → (∀ d ∈ s.designs, d.allCabs.contains cab = false) → (s.cab c die i).repairDue = true →
      (s.part (partOfCab cab)).state ≠ .loading → s.spares c die = [sp, rot] → sp ≠ i → rot ≠ i → rot ≠ sp →
      ∃ u v, exec (.cabinetRepaired cab .good) s = .next u ∧ Told 0x9002 (1 + chNum c) 0xFF 0 false [die, sp] v u ∧
        (v.die c die).phys (cab % 32) = some sp ∧ (v.cab c die i).failed = true ∧ (v.cab c die i).repairDue = false ∧
        (v.die c die).standing = some rot ∧ (v.die c die).rotating = none ∧ v.designs = s.designs ∧ v.parts = s.parts ∧ v.host = s.host) ∧
    (∀ l, (s.pw c).state.arrayOn = true → die < 2 → i < 34 → (s.cab c die i).configBad = false → s.logicalOf c die i = some l →
      (∀ d ∈ s.designs, d.span.contains l = false) →
      ∃ u, exec (.configParityFail c die i) s = .next u ∧ (u.cab c die i).configBad = true ∧ (u.cab c die i).repairDue = true ∧
        u.designs = s.designs ∧ u.host = s.host ∧ u.reg .cabLasting c [die, i] = satAdd (s.reg .cabLasting c [die, i]) 1)

/-! ### The fabric and the guest port (R162-R186) -/

/-- FLIT_RECEIVE completes (R166, R171, R172, R176, R177): an interval whose sideband has bad parity is ignored, an acknowledgement frees the
replay buffer, and a NAK sends what it still holds again; a flit out of sequence is not taken, and asks for a replay unless one is asked for or
the flit is an old one; an expected flit with a bad CRC or bad bytes asks for one, and the fourth in a row starts a lane check of both ends, or
after one ends the link; a good head advances the sequence and enters its router, or is dropped, counted and reported where the router may not
carry it. During a lane check no flit but a lane map is taken. What waits in the fabric moves on after each. -/
def Clauses.FlitReceived : Prop :=
  ∀ (s : State) (c : Ch) (link : Nat) (flit : BitVec 256) (side : BitVec 16) (bad : Bool) (x : FLink), x = s.flink c link →
    s.endUp c link = true →
    (sideOk side = false → exec (.flitReceive c link ⟨flit, bad⟩ side) s = .next s) ∧
    (∀ n k, sideOk side = true → side.getLsbD 7 = true → side.getLsbD 0 = false → x.check = 0 → x.queue = [] → x.owed = [] →
      (s.ch c).fab.flows = [] → (s.ch c).fab.landed = [] → n = x.acks (field side.toNat 8 6) →
      k = x.replay.length - n →
      ∃ u, exec (.flitReceive c link ⟨flit, bad⟩ side) s = .next u ∧ u.host = s.host ∧ u.designs = s.designs ∧
        (u.flink c link).replay = x.replay.drop n ∧ (u.flink c link).next = x.next ∧
        (side.getLsbD 14 = false → (u.flink c link).sent = x.sent) ∧
        (side.getLsbD 14 = true → (u.flink c link).sent.length = x.sent.length + k ∧
          ∀ i, i < k → ((u.flink c link).sent[x.sent.length + i]?).map (·.2) = (x.replay[n + i]?).map (·.flit))) ∧
    (sideOk side = true → side.getLsbD 7 = false →
      (side.getLsbD 0 = false → exec (.flitReceive c link ⟨flit, bad⟩ side) s = .next (s.fabSettle c)) ∧
      (side.getLsbD 0 = true → x.check ≠ 0 → field flit.toNat 0 3 ≠ 7 →
        exec (.flitReceive c link ⟨flit, bad⟩ side) s = .next (s.fabSettle c)) ∧
      (side.getLsbD 0 = true → x.check = 0 → field side.toNat 1 6 ≠ x.next →
        ((field side.toNat 1 6 + 64 - x.next) % 64 < linkWindow link →
          (x.nak = true → exec (.flitReceive c link ⟨flit, bad⟩ side) s = .next (s.fabSettle c)) ∧
          (x.nak = false → exec (.flitReceive c link ⟨flit, bad⟩ side) s =
            .next ((s.modFlink c link fun y => { y with nak := true }.reply).fabSettle c))) ∧
        (linkWindow link ≤ (field side.toNat 1 6 + 64 - x.next) % 64 → exec (.flitReceive c link ⟨flit, bad⟩ side) s =
          .next ((s.modFlink c link fun y => y.reply).fabSettle c))) ∧
      (side.getLsbD 0 = true → x.check = 0 → field side.toNat 1 6 = x.next →
        ((flitCrcOk flit = false ∨ bad = true) →
          (x.fails < 3 → exec (.flitReceive c link ⟨flit, bad⟩ side) s =
            .next (((s.count .vfCrcErrors c []).modFlink c link fun y => { y with fails := y.fails + 1, nak := true }.reply).fabSettle c)) ∧
          (3 ≤ x.fails → x.checked = false → (s.ch c).fab.flows = [] → (s.ch c).fab.landed = [] →
            ∃ u, exec (.flitReceive c link ⟨flit, bad⟩ side) s = .next u ∧ (u.flink c link).check = 1 ∧ (u.flink c link).failed = false ∧
              (u.flink c link).next = x.next ∧ (∀ e, peerEnd link = some e → (u.flink c e).check = 1) ∧ u.host = s.host ∧
              u.reg .vfLaneChecks c [] = satAdd (s.reg .vfLaneChecks c []) 1 ∧ u.reg .vfCrcErrors c [] = satAdd (s.reg .vfCrcErrors c []) 1) ∧
          (3 ≤ x.fails → x.checked = true → (link = 8 ∨ link = 9) → ∃ u,
            exec (.flitReceive c link ⟨flit, bad⟩ side) s = .next u ∧ (u.flink c link).failed = true ∧ (u.flink c (524 + link)).failed = true ∧
            (s.pwr.hostOn = true → Wrote 0x3002 (1 + chNum c) 0xFF 0 false [chNum c, link, 1, 0] u))) ∧
        (flitCrcOk flit = true → bad = false → link ≠ 11 → x.fails = 0 → x.checked = false → x.nak = false → x.drop = 0 →
          s.bufferFull c link flit.toNat = false → (∀ y ∈ (s.ch c).fab.flows, y.input = link → y.left = 0) →
          headBad flit.toNat = false → field flit.toNat 0 3 ≠ 7 →
          (exec (.flitReceive c link ⟨flit, bad⟩ side) s = .next
            ((((s.modFlink c link fun y => { y with next := (y.next + 1) % 64, fails := 0, checked := false, nak := false }.reply).enter c
              (endPlace link) link [flit] (field flit.toNat 3 5)).fabSettle c).fabSettle c)) ∧
          (∀ die node, s.fabTagOk c (endPlace link) flit.toNat = false → endPlace link = .router die node →
            (s.ch c).fab.flows = [] → (s.ch c).fab.landed = [] →
            ∃ u, exec (.flitReceive c link ⟨flit, bad⟩ side) s = .next u ∧ (u.flink c link).next = (x.next + 1) % 64 ∧ (u.ch c).fab.flows = [] ∧
              u.designs = s.designs ∧ u.reg .vfIsolationDrops c [] = satAdd (s.reg .vfIsolationDrops c []) 1 ∧
              (s.pwr.hostOn = true → Wrote 0x3001 (1 + chNum c) 0xFF 0 false [chNum c, die, node] u)))))

/-- Routing and arbitration (R164, R166, R170): a packet that stands alone for the free end of an idle link passes its head with its AGE and a
credit of its virtual channel is in use; of those that compete for an output the winner is overdue or has the highest urgency, and every loser
grows older; on a die the row is walked first, and the column first by a packet that entered in column 8. -/
def Clauses.FabricMoves : Prop :=
  (∀ (f : FabSt) (x : Flow) (w : BitVec 256) (y : FLink), f.flows = [x] → x.flits = [w] → x.left = 0 → x.granted = false → x.begun = false →
    x.out < 1024 → x.out ≠ x.input → y = KV.get {} x.out f.links → y.failed = false → y.check = 0 → y.queue = [] → y.replay = [] → y.owed = [] →
    y.mid = false → KV.get 0 (x.vc % 4) y.used < 32 →
    ∃ z, KV.get {} x.out (f.pump 2).links = z ∧ (f.pump 2).flows = [] ∧ z.seq = (y.seq + 1) % 64 ∧
      z.replay = [{ vc := x.vc % 4, tag := x.tag, flit := setAge w x.age, last := true }] ∧
      z.sent = y.sent ++ [(sideWord y true y.seq, setAge w x.age)] ∧ KV.get 0 (x.vc % 4) z.used = KV.get 0 (x.vc % 4) y.used + 1 ∧
      KV.get 0 x.out (f.pump 2).lastIn = x.input) ∧
  (∀ (f : FabSt) (out k : Nat) (w : Flow), winner (KV.get 0 out f.lastIn) (competing f.flows out) = some (k, w) →
    (k, w) ∈ competing f.flows out ∧ (∀ e ∈ competing f.flows out, e.2.rank ≤ w.rank) ∧
    ∀ j y, f.flows[j]? = some y → ∃ z, (f.grant out).flows[j]? = some z ∧
      z = if j = k then { y with granted := true }
        else if (j, y) ∈ competing f.flows out then { y with age := min 127 (y.age + 1) } else y) ∧
  (∀ (here there : Nat), here < 36 → there < 36 → here ≠ there →
    meshStep here there false = (if nodeCol here < nodeCol there then 0 else if nodeCol there < nodeCol here then 1
      else if nodeRow here < nodeRow there then 2 else 3) ∧
    meshStep here there true = (if nodeRow here < nodeRow there then 2 else if nodeRow there < nodeRow here then 3
      else if nodeCol here < nodeCol there then 0 else 1) ∧
    ∀ first, hasNeighbour here (meshStep here there first) = true) ∧
  (∀ e p, endOk e = true → peerEnd e = some p → endOk p = true ∧ peerEnd p = some e)

/-- LANE_CHECK_DONE completes (R177, R178): the failed lanes that a receiver finds go to their groups' spares, with one event where any is new,
and its map goes to the far side, whose acknowledgement it awaits; a lane marked once more counts once; a group or a sideband without a spare
left ends the link. -/
def Clauses.LaneCheck : Prop :=
  ∀ (s : State) (c : Ch) (link : Nat) (failed side : List Nat) (x : FLink) (lanes sb : List Nat), x = s.flink c link →
    lanes = failed.foldl (fun l w => insKey w l) x.lanes → sb = side.foldl (fun l w => insKey w l) x.sbLanes →
    (x.check ≠ 1 → exec (.laneCheckDone c link failed side) s = .next s) ∧
    (x.check = 1 → link < 12 →
      ((lanes.map (wireGroup link)).Nodup → (∀ w ∈ lanes, wireGroup link w < wireGroups link) → sb.length ≤ 1 →
        ∃ u v, exec (.laneCheckDone c link failed side) s = .next u ∧ v.host = s.host ∧ v.designs = s.designs ∧
          v.flink c link = { x with check := 2, mapAcked := false, lanes := lanes, sbLanes := sb,
                                    sent := x.sent ++ [(sideWord x true x.seq, headFlit 7 0 0 0 0 0 2 0)] } ∧
          (∀ l, l ≠ link → v.flink c l = s.flink c l) ∧
          (lanes.length + sb.length - x.lanes.length - x.sbLanes.length = 0 → u = v) ∧
          (lanes.length + sb.length - x.lanes.length - x.sbLanes.length ≠ 0 → Told 0x3003 (1 + chNum c) 0xFF 0 false
            [chNum c, endPort link, lanes.length + sb.length - x.lanes.length - x.sbLanes.length] v u)) ∧
      (link = 8 ∨ link = 9 ∨ link = 11 → (¬(lanes.map (wireGroup link)).Nodup ∨ 1 < sb.length) →
        ∃ u, exec (.laneCheckDone c link failed side) s = .next u ∧ (u.flink c link).failed = true ∧ (u.flink c link).queue = [] ∧
          (u.flink c link).replay = [] ∧ (link = 11 → (u.ch c).guest.failed = true) ∧
          (s.pwr.hostOn = true → Wrote 0x3002 (1 + chNum c) 0xFF 0 false [chNum c, link, if link = 11 then 2 else 1, 0] u)))

/-- GUEST_RAILS_WRITE and GUEST_RAIL_FAULT complete (R181): RAILS switches the guest rails, whose port comes up with a lane check (R177), and is
refused with an event while FAULT is set, RAILS = 0 ends FAULT; an overload turns the rails off, sets FAULT and is reported. -/
def Clauses.GuestRails : Prop :=
  ∀ (s : State) (c : Ch) (value : Word32) (v : State), v = s.setReg .vfGuestCtrl c [] (setBit (value &&& 0x7FFFFFFF#32) 30 true) →
    (s.portAnswers = true → s.hasGuest c = true → (s.pw c).state.hubOn = true →
      (value.getLsbD 30 = true → (s.ch c).guest.fault = false → (s.ch c).guest.rails = false → s.base.inForce.isSome →
        exec (.guestRailsWrite c value) s =
          .next ((v.modGuest c fun g => { g with rails := true, failed := false }).linkUpAgain c [11])) ∧
      (value.getLsbD 30 = true → (s.ch c).guest.fault = false → ((s.ch c).guest.rails = true ∨ s.base.inForce = none) →
        exec (.guestRailsWrite c value) s = .next v) ∧
      (value.getLsbD 30 = true → (s.ch c).guest.fault = true → ∃ u, exec (.guestRailsWrite c value) s = .next u ∧
        Told 0x3006 (1 + chNum c) 0xFF 0 false [chNum c] (s.setReg .vfGuestCtrl c [] (setBit (value &&& 0x7FFFFFFF#32) 30 false)) u) ∧
      (value.getLsbD 30 = false → exec (.guestRailsWrite c value) s =
        .next ((s.setReg .vfGuestCtrl c [] (setBit (value &&& 0x7FFFFFFF#32) 30 false)).modGuest c
          fun g => { g with rails := false, fault := false }))) ∧
    (∀ current, (s.ch c).guest.rails = true → ∃ u, exec (.guestRailFault c current) s = .next u ∧
      Told 0x3004 (1 + chNum c) 0xFF 0 false [chNum c, if current = true then 2 else 1]
        (s.modGuest c fun g => { g with rails := false, fault := true, phase := 0 }) u) ∧
    (∀ current, (s.ch c).guest.rails = false → exec (.guestRailFault c current) s = .next s)

/-- GUEST_PULSES, GOUT_RECEIVE, GUEST_RESET_OUTPUTS and GUEST_LATE complete (R183-R186): the pulses are driven once the inputs are acknowledged;
an output flit of the design cycle under way puts its groups into the output register, and ends the exchange with the last group, one of
another cycle is discarded, and a row that names another flit than the oldest received leaves the state as it is; one for the reset is taken
after GUEST_RST_N has risen and before the first exchange; late outputs are reported once. -/
def Clauses.GuestExchange : Prop :=
  ∀ (s : State) (c : Ch) (g : GuestSt), g = (s.ch c).guest →
    (g.phase = 1 → g.rails = true → g.failed = false → (s.flink c 11).queue = [] → (s.flink c 11).replay = [] →
      exec (.guestPulses c) s =
        .next (s.modGuest c fun y => { y with phase := 2, pulses := g.pulses + s.regField .vfGuestCtrl c [] 0 4 + 1 })) ∧
    (g.phase ≠ 1 ∨ (s.flink c 11).queue ≠ [] ∨ (s.flink c 11).replay ≠ [] → exec (.guestPulses c) s = .next s) ∧
    (∀ (pay : BitVec 224) (rest : List (BitVec 224)), g.rx = pay :: rest → (s.ch c).fab.flows = [] → (s.ch c).fab.landed = [] →
      (pay.getLsbD 13 = false → g.phase = 2 → field pay.toNat 16 16 = g.cycle % 65536 → g.failed = false →
        ∃ u, exec (.goutReceive c pay) s = .next u ∧ u.host = s.host ∧ u.designs = s.designs ∧ (u.ch c).guest.rx = rest ∧
          (∀ k v, (k, v) ∈ guestGroups pay → KV.get 0 k (u.ch c).guest.gout = v ∧ k ∈ (u.ch c).guest.haveOut) ∧
          (∀ k, k ∉ (guestGroups pay).map (·.1) → KV.get 0 k (u.ch c).guest.gout = KV.get 0 k g.gout) ∧
          (u.ch c).guest.phase = (if u.guestDone c = true then 0 else 2) ∧ (u.ch c).guest.cycle = g.cycle) ∧
      (pay.getLsbD 13 = false → (g.phase ≠ 2 ∨ field pay.toNat 16 16 ≠ g.cycle % 65536) →
        exec (.goutReceive c pay) s = .next (s.modGuest c fun y => { y with rx := rest })) ∧
      (pay.getLsbD 13 = true → g.rstLow = false → g.owner.isSome = true → g.exchanged = false → g.failed = false →
        ∃ u, exec (.guestResetOutputs c pay) s = .next u ∧ u.host = s.host ∧ u.designs = s.designs ∧
          (u.ch c).guest = { g.take pay with rx := rest }) ∧
      (pay.getLsbD 13 = true → (g.rstLow = true ∨ g.exchanged = true) →
        exec (.guestResetOutputs c pay) s = .next (s.modGuest c fun y => { y with rx := rest }))) ∧
    (∀ pay : BitVec 224, g.rx.head? ≠ some pay → exec (.goutReceive c pay) s = .next s ∧ exec (.guestResetOutputs c pay) s = .next s) ∧
    (g.phase = 2 → g.late = false → ∃ u, exec (.guestLate c) s = .next u ∧
      Told 0x3005 (1 + chNum c) 0xFF 0 false [chNum c] (s.modGuest c fun y => { y with late := true }) u) ∧
    (g.phase = 2 → g.late = true → exec (.guestLate c) s = .next s)

/-! ### Lanes (R190-R205) -/

/-- PORT_ENABLE, PORT_DISABLE and PORT_RATE_CHANGE complete (R194, R196): an enabled port starts over in ACQUIRE, or in DESKEW where its lanes are
all LOCKED; before a base image is in force only port 0 of HUB-A acts on its register (R292); a disabled port says so, ends a rotation test, loses
its keys and its replay buffer and keeps its lane map; another rate puts the port back to ACQUIRE and keeps its replay buffer; both put its lanes
back to ACQUIRE, assigned spares included (R193). -/
def Clauses.PortControl : Prop :=
  ∀ (s : State) (c : Ch) (p : Nat) (value old : Word32), old = s.reg .vlPortCtrl c [p] → s.portAnswers = true → s.portLive c p = true →
    s.chA.link.resend = [] → s.chB.link.resend = [] →
    (s.portAllowed c p = true →
      (value.getLsbD 0 = true → old.getLsbD 0 = false →
        ∃ u, exec (.portEnable c p value) s = .next u ∧ u.reg .vlPortCtrl c [p] = value &&& 15#32 ∧ u.host = s.host ∧
          u.port c p = { state := if (List.range 8).all (fun i => (s.lane c (s.rxLane c p i)).state == .locked) then .deskew else .acquire,
                         nextRotate := (s.port c p).nextRotate, sent := (s.port c p).sent } ∧
          ∀ q, q ≠ p → u.port c q = s.port c q) ∧
      (value.getLsbD 0 = false → old.getLsbD 0 = true → (s.port c p).unsent = [] →
        ∃ u, exec (.portDisable c p value) s = .next u ∧ u.reg .vlPortCtrl c [p] = value &&& 14#32 ∧
          u.port c p = { nextRotate := (s.port c p).nextRotate, sent := (s.port c p).sent ++ [.fault 1] } ∧
          (∀ i, i < 8 → (u.lane c (s.rxLane c p i)).state = .acquire) ∧
          (∀ k, k < 4 → s.assigned c k p = true → (u.lane c (laneOf (s.ch c).rxMap (64 + k))).state = .acquire) ∧
          (∀ l k, (s.port c p).rotating = some (l, k) → (u.lane c l).testing = false) ∧
          (u.ch c).rxMap = (s.ch c).rxMap ∧ u.designs = s.designs) ∧
      (value.getLsbD 1 ≠ old.getLsbD 1 → value.getLsbD 0 = true → old.getLsbD 0 = true →
        ∃ u, exec (.portRateChange c p value) s = .next u ∧ u.reg .vlPortCtrl c [p] = value &&& 15#32 ∧
          (u.port c p).state = .acquire ∧ (u.port c p).rxOk = false ∧ (u.port c p).unacked = (s.port c p).unacked ∧
          (u.port c p).keys = (s.port c p).keys ∧ (u.port c p).sent = (s.port c p).sent ++ [.fault 2] ∧
          (u.port c p).rxReq = none ∧ (u.port c p).rotating = none ∧ ((s.port c p).state = .up → (u.port c p).needResync = true) ∧
          (∀ i, i < 8 → (u.lane c (s.rxLane c p i)).state = .acquire) ∧
          (∀ k, k < 4 → s.assigned c k p = true → (u.lane c (laneOf (s.ch c).rxMap (64 + k))).state = .acquire) ∧
          (u.ch c).rxMap = (s.ch c).rxMap ∧ u.designs = s.designs)) ∧
    (s.portAllowed c p = false →
      (value.getLsbD 0 = true → exec (.portEnable c p value) s = .next (s.setReg .vlPortCtrl c [p] (value &&& 15#32))) ∧
      (value.getLsbD 0 = false → exec (.portDisable c p value) s = .next (s.setReg .vlPortCtrl c [p] (value &&& 15#32))) ∧
      (value.getLsbD 1 ≠ old.getLsbD 1 →
        exec (.portRateChange c p value) s = .next (s.setReg .vlPortCtrl c [p] (value &&& 15#32)))) ∧
    (value.getLsbD 0 = old.getLsbD 0 → value.getLsbD 1 = old.getLsbD 1 →
      (value.getLsbD 0 = true → exec (.portEnable c p value) s = .next (s.setReg .vlPortCtrl c [p] (value &&& 15#32))) ∧
      (value.getLsbD 0 = false → exec (.portDisable c p value) s = .next (s.setReg .vlPortCtrl c [p] (value &&& 15#32))))

/-- The lane rows complete (R188, R193-R195, R202): ACQUIRE to HUNT to LOCKED, and a port whose lanes are all LOCKED goes on to DESKEW; invalid
headers count; a lane without a lock shows NO_SIGNAL; a lane of a port in UP that loses block lock takes the port back to ACQUIRE with one event
and asks for its spare. -/
def Clauses.LaneLocks : Prop :=
  ∀ (s : State) (c : Ch) (lane n : Nat), lane < 68 →
    ((s.lane c lane).state = .acquire → s.laneEnabled c lane = true →
      exec (.laneCdrLock c lane) s = .next (s.modLane c lane fun x => { x with state := .hunt, noSignal := false })) ∧
    ((s.lane c lane).state ≠ .acquire → exec (.laneCdrLock c lane) s = .next s) ∧
    ((s.lane c lane).state = .hunt →
      (s.servedBy c lane = none → exec (.laneBlockLock c ⟨lane, n⟩) s =
        .next ((s.countBy .vlLaneErr c [lane] n).modLane c lane fun x => { x with state := .locked, noSignal := false })) ∧
      (∀ p i, s.servedBy c lane = some (p, i) → (s.port c p).state = .acquire → s.rxLane c p i = lane →
        ∃ u, exec (.laneBlockLock c ⟨lane, n⟩) s = .next u ∧ (u.lane c lane).state = .locked ∧ (u.lane c lane).noSignal = false ∧
          u.host = s.host ∧ u.reg .vlLaneErr c [lane] = satAdd (s.reg .vlLaneErr c [lane]) n ∧
          (u.port c p).state = (if (s.port c p).lanes.all
            (fun j => s.rxLane c p j == lane || (s.lane c (s.rxLane c p j)).state == .locked) then .deskew else .acquire) ∧
          ∀ l, l ≠ lane → u.lane c l = s.lane c l)) ∧
    ((s.lane c lane).state ≠ .hunt → exec (.laneBlockLock c ⟨lane, n⟩) s = .next s) ∧
    ((s.lane c lane).state ≠ .locked → s.laneEnabled c lane = true →
      exec (.laneNoSignal c lane) s = .next (s.modLane c lane fun x => { x with noSignal := true })) ∧
    ((s.lane c lane).state = .locked → exec (.laneNoSignal c lane) s = .next s) ∧
    ((s.lane c lane).state = .acquire → ∀ cdr, exec (.laneLockLost c ⟨lane, n⟩ cdr) s = .next s) ∧
    ((s.lane c lane).state = .hunt → exec (.laneLockLost c ⟨lane, n⟩ false) s = .next s ∧ exec (.laneLockLost c ⟨lane, n⟩ true) s =
      .next ((s.modLane c lane fun x => { x with state := .acquire, rxPrbs := none }).countBy .vlLaneErr c [lane] n)) ∧
    (∀ p i k ks, (s.lane c lane).state = .locked → s.servedBy c lane = some (p, i) → s.rxLane c p i = lane →
      (s.port c p).lanes.contains i = true → (s.port c p).state = .up → (s.port c p).rxReq = none → (s.port c p).farFault = 0 →
      s.sparesOf c p = k :: ks →
      ∃ u, exec (.laneLockLost c ⟨lane, n⟩ false) s = .next u ∧ (u.lane c lane).state = .hunt ∧ (u.port c p).state = .acquire ∧
        (u.port c p).rxReq = some (i, k, true) ∧ (u.port c p).needResync = true ∧
        u.reg .vlLaneErr c [lane] = satAdd (s.reg .vlLaneErr c [lane]) n ∧
        (s.pwr.hostOn = true → Wrote 0x4003 (1 + chNum c) 0xFF 0 false [chNum c, p, 1] u))

/-- AM_RECEIVE, AM_SEND and FILL_SEND complete (R191, R192, R194, R195, R205): a column of good markers of the far port takes a port in DESKEW to
WAIT_REMOTE and orders its lanes; RX_OK in the next column takes it to UP; a lane whose marker is missing twice takes it back to ACQUIRE, or at
once to DESKEW where its lanes are all LOCKED, with one event; a port that is enabled and has not failed sends a marker of its own on every active
lane, and a FILL column that falls due with the marker behind it. -/
def Clauses.Markers : Prop :=
  ∀ (s : State) (c : Ch) (p : Nat) (ams : List (Nat × BitVec 56)) (x : VPort) (a : Nat → Nat), x = s.port c p → s.portLive c p = true →
    ((∀ i ∈ x.lanes, ∀ b, amOn ams (s.rxLane c p i) = some b → bitAt b 5 = false ∨ x.width4.isSome = true) →
      (x.state = .deskew → ∀ q r, (∀ i ∈ x.lanes, amOn ams (s.rxLane c p i) = some (a i) ∧ amValid (a i) = true ∧ bitAt (a i) 3 = false ∧
          amSeqOf (a i) = q ∧ amPort (a i) = r ∧ amLane (a i) ∈ x.lanes) → (x.lanes.map (fun i => amLane (a i))).Nodup →
        (∀ e, s.farEnd c p = some e → r = field e.2 0 3) →
        ∃ u, exec (.amReceive c p ams) s = .next u ∧ u.host = s.host ∧ (u.port c p).state = .waitRemote ∧ (u.port c p).rxOk = true ∧
          (u.port c p).lastAm = BitVec.ofNat 16 q ∧ (u.port c p).expPort = r ∧ (u.port c p).remotePort = r ∧
          ∀ i ∈ x.lanes, u.rxLane c p (amLane (a i)) = s.rxLane c p i) ∧
      (x.state = .deskew → (∃ i ∈ x.lanes, amOn ams (s.rxLane c p i) = none) →
        ∃ u, exec (.amReceive c p ams) s = .next u ∧ u.host = s.host ∧ (u.port c p).state = .deskew ∧ (u.port c p).rxOk = x.rxOk ∧
          (u.ch c).rxMap = (s.ch c).rxMap ∧ (u.ch c).lanes = (s.ch c).lanes) ∧
      (x.state = .waitRemote → x.badAm = [] → (∀ i ∈ x.lanes, amOn ams (s.rxLane c p i) = some (a i) ∧ amValid (a i) = true ∧
          bitAt (a i) 3 = false ∧ amLane (a i) = i ∧ amPort (a i) = x.expPort ∧ amSeqOf (a i) = (x.lastAm + 1).toNat ∧
          bitAt (a i) 4 = true) →
        ∃ u, exec (.amReceive c p ams) s = .next u ∧ (u.port c p).state = .up ∧ (u.port c p).remoteRxOk = true ∧
          (u.port c p).lastAm = x.lastAm + 1 ∧ u.designs = s.designs) ∧
      (∀ i, x.state = .up → i ∈ x.lanes → amOn ams (s.rxLane c p i) = none → KV.get 0 i x.badAm = 1 →
        ∃ u, exec (.amReceive c p ams) s = .next u ∧ u.designs = s.designs ∧ (u.port c p).rxOk = false ∧ (u.port c p).needResync = true ∧
          (u.port c p).state = (if x.lanes.all (fun j => (s.lane c (s.rxLane c p j)).state == .locked) then .deskew else .acquire) ∧
          (s.pwr.hostOn = true → Wrote 0x4003 (1 + chNum c) 0xFF 0 false [chNum c, p, 2] u))) ∧
    (x.state = .disabled ∨ x.state = .failed ∨ x.state = .acquire → exec (.amReceive c p ams) s = .next s) ∧
    (s.transmits c p = true →
      (∃ u l, exec (.amSend c p) s = .next u ∧ (u.port c p).amSeq = x.amSeq + 1 ∧ (u.port c p).rxSwitched = false ∧
        ((x.rxSwitched = false ∨ x.health = [] ∧ x.repairs = []) → u.host = s.host ∧ u.port c p =
          { x with amSeq := x.amSeq + 1, rxReq := if x.rxSwitched then none else x.rxReq, rxSwitched := false, sent := x.sent ++ [.am l] } ∧
          ∀ i ∈ x.lanes, ∀ t, t = laneOf (s.ch c).txMap (8 * p + i) → (t, BitVec.ofNat 56 (s.amWord p x (some i))) ∈ l ∧
            wire (s.txInv c t) 1 (0x78 + 256 * s.amWord p x (some i)) ∈ (u.lane c t).sent) ∧
        ∃ v, exec (.fillSend c ⟨p, true⟩) s = .next v ∧ v.host = u.host ∧
          v.port c p = { u.port c p with sent := (u.port c p).sent ++ [.fill] }) ∧
      (∃ u, exec (.fillSend c ⟨p, false⟩) s = .next u ∧ u.host = s.host ∧ u.port c p = { x with sent := x.sent ++ [.fill] } ∧
        ∀ i ∈ x.lanes, (s.lane c (laneOf (s.ch c).txMap (8 * p + i))).sent.length <
          (u.lane c (laneOf (s.ch c).txMap (8 * p + i))).sent.length)) ∧
    (s.transmits c p = false → exec (.amSend c p) s = .next s ∧ ∀ due, exec (.fillSend c ⟨p, due⟩) s = .next s)

/-- SPARE_ASSIGN_WRITE, SPARE_SWITCH, LANE_ROTATION and ROTATION_TEST_DONE complete (R201-R204, R209): the field of a spare that carries a lane does
not change and each write while it does so is reported; a rotation switches a lane to the spare when their copies agree and tests the old lane, a
failed lane goes to its spare with one event, a health check leaves a good lane, switches a bad one, and goes on to the next; the tested lane
stays a spare only without a mismatch and with its margins. -/
def Clauses.SpareLanes : Prop :=
  ∀ (s : State) (c : Ch) (p : Nat) (x : VPort) (value old : Word32), x = s.port c p → old = s.reg .vlSpareAssign c [] →
    (s.portAnswers = true → c ∈ s.channels → (s.pw c).state.hubOn = true →
      ((∀ k, k < 4 → 64 ≤ placeOf (s.ch c).rxMap (64 + k) ∧ 64 ≤ placeOf (s.ch c).txMap (64 + k)) →
        exec (.spareAssignWrite c value) s =
          .next (s.setReg .vlSpareAssign c [] (old &&& 0xFFFF0000#32 ||| value &&& 0xFFFF#32))) ∧
      (∀ k, k < 4 → placeOf (s.ch c).rxMap (64 + k) < 64 → ∃ u, exec (.spareAssignWrite c value) s = .next u ∧
        field (u.reg .vlSpareAssign c []).toNat (4 * k) 4 = field old.toNat (4 * k) 4 ∧
        (s.pwr.hostOn = true → Wrote 0x4002 (1 + chNum c) 0xFF 0 false [chNum c, k] u))) ∧
    (∀ agree, x.rxReq = none ∨ x.rxSwitched = true → exec (.spareSwitch c p agree) s = .next s) ∧
    (∀ i k r, p < 8 → i < 8 → k < 4 → x.rxReq = some (i, k, r) → x.rxSwitched = false → x.health.head? ≠ some i →
      exec (.spareSwitch c p false) s = .next s ∧
      ∃ u, exec (.spareSwitch c p true) s = .next u ∧ u.rxLane c p i = laneOf (s.ch c).rxMap (64 + k) ∧
        laneOf (u.ch c).rxMap (64 + k) = s.rxLane c p i ∧ (u.port c p).rxSwitched = true ∧
        (r = false → u.host = s.host ∧ (u.lane c (s.rxLane c p i)).testing = true ∧ (u.lane c (s.rxLane c p i)).mismatches = 0 ∧
          u.port c p = { x with rotating := some (s.rxLane c p i, k), rxSwitched := true }) ∧
        (r = true → (u.lane c (s.rxLane c p i)).failed = true ∧
          (s.pwr.hostOn = true → Wrote 0x4001 (1 + chNum c) 0xFF 0 false [chNum c, s.rxLane c p i, 2] u))) ∧
    (∀ i k r t, x.rxReq = some (i, k, r) → x.rxSwitched = false → x.health = i :: t → x.repairs = [] →
      (t = [] → ∃ u, exec (.spareSwitch c p true) s = .next u ∧ u.host = s.host ∧ (u.ch c).rxMap = (s.ch c).rxMap ∧
        (u.ch c).lanes = (s.ch c).lanes ∧
        u.port c p = { x with rxReq := none, checked := x.checked && !x.healthSw, health := [], healthSw := false }) ∧
      (∀ j js q qs, t = j :: js → (s.modPort c p fun y => { y with rxReq := none }).sparesOf c p = q :: qs →
        ∃ u, exec (.spareSwitch c p true) s = .next u ∧ (u.ch c).rxMap = (s.ch c).rxMap ∧ (u.port c p).rxReq = some (j, q, true) ∧
          (u.port c p).health = j :: js) ∧
      (p < 8 → i < 8 → k < 4 → ∃ u, exec (.spareSwitch c p false) s = .next u ∧ u.rxLane c p i = laneOf (s.ch c).rxMap (64 + k) ∧
        (u.lane c (s.rxLane c p i)).failed = true ∧ (u.port c p).healthSw = true ∧ (u.port c p).rxSwitched = true ∧
        (s.pwr.hostOn = true → Wrote 0x4001 (1 + chNum c) 0xFF 0 false [chNum c, s.rxLane c p i, 2] u))) ∧
    (s.portLive c p = true → x.state = .up → (s.reg .vlPortCtrl c [p]).getLsbD 3 = true → x.rxReq = none → x.rotating = none →
      (∀ i k ks, s.sparesOf c p = k :: ks →
        ((List.range 8).map (fun n => (x.nextRotate + n) % 8)).find? (fun j => x.lanes.contains j) = some i →
        exec (.laneRotation c p) s = .next (s.modPort c p fun y =>
          { y with rxReq := some (i, k, false), rxSwitched := false, nextRotate := (i + 1) % 8 })) ∧
      (s.sparesOf c p = [] → exec (.laneRotation c p) s = .next s)) ∧
    (∀ lane k n h mv, x.rotating = some (lane, k) →
      ((s.lane c lane).mismatches + n = 0 → 16 ≤ h → 30 ≤ mv → ∃ u, exec (.rotationTestDone c p n h mv) s = .next u ∧ u.host = s.host ∧
        u.lane c lane = { s.lane c lane with testing := false, mismatches := 0 } ∧ u.port c p = { x with rotating := none }) ∧
      ((0 < (s.lane c lane).mismatches + n ∨ h < 16 ∨ mv < 30) → ∃ u v, exec (.rotationTestDone c p n h mv) s = .next u ∧
        Told 0x4001 (1 + chNum c) 0xFF 0 false [chNum c, lane, 1] v u ∧ v.host = s.host ∧
        v.lane c lane = { s.lane c lane with testing := false, mismatches := 0, failed := true } ∧
        v.port c p = { x with rotating := none }))

/-- EYE_SCAN_START and EYE_SCAN_DONE complete (R200): START begins a scan of a lane when none runs; its end shows the openings. -/
def Clauses.EyeScan : Prop :=
  ∀ (s : State) (c : Ch) (value : Word32),
    (s.portAnswers = true → c ∈ s.channels → (s.pw c).state.hubOn = true →
      (value.getLsbD 7 = true → value.toNat % 128 < 68 → (s.ch c).scan.busy = false → exec (.eyeScanStart c value) s =
        .next ((s.setReg .vlScanCtrl c [] (value &&& 0xFFFF7F#32)).modCh c
          fun h => { h with scan := { h.scan with busy := true, lane := value.toNat % 128 } })) ∧
      ((value.getLsbD 7 = false ∨ 68 ≤ value.toNat % 128 ∨ (s.ch c).scan.busy = true) →
        exec (.eyeScanStart c value) s = .next (s.setReg .vlScanCtrl c [] (value &&& 0xFFFF7F#32)))) ∧
    (∀ h v, (s.ch c).scan.busy = true → ∃ u, exec (.eyeScanDone c h v) s = .next u ∧ u.host = s.host ∧ u.regs = s.regs ∧
      (u.ch c).scan = { busy := false, lane := (s.ch c).scan.lane, h := h, v := v } ∧ (u.ch c).lanes = (s.ch c).lanes) ∧
    (∀ h v, (s.ch c).scan.busy = false → exec (.eyeScanDone c h v) s = .next s)

/-! ### The links (R188-R222, R285, R286) -/

/-- LINK_FLIT_RECEIVE completes (R188, R190, R201, R206-R209, R211): a LINKCTL flit is left to its own row; the expected DATA flit advances the
sequence, joins its message at once without keys and waits for its group with keys; a flit out of order, or a bad one, asks for replay from the
last flit kept, once; the fourth failure of one flit begins a lane health check, or after one takes the port out of traffic; a TEST block out
of its sequence is counted. -/
def Clauses.LinkFlits : Prop :=
  ∀ (s : State) (c : Ch) (p slot : Nat) (blocks : List (BitVec 66)) (x : VPort) (r : State × List (Option LinkBlock)), x = s.port c p →
    s.slotReady c p slot blocks = true → r = s.readBlocks c ((s.slotLanes c p slot).zip blocks) →
    (slot < 2 → flitOf r.2 = none → exec (.linkFlitReceive c p ⟨slot, blocks⟩) s = .next (r.1.hearControl c p r.2)) ∧
    (∀ y q l, 2 ≤ slot → l = (s.slotLanes c p slot).headD 0 → r.2 = [some (.control 0x33 y)] → (r.1.lane c l).rxPrbs = some q →
      (prbsNext q.toNat = y → exec (.linkFlitReceive c p ⟨slot, blocks⟩) s =
        .next (r.1.modLane c l fun k => { k with rxPrbs := some (BitVec.ofNat 31 (y >>> 25)) })) ∧
      (prbsNext q.toNat ≠ y → exec (.linkFlitReceive c p ⟨slot, blocks⟩) s =
        .next ((r.1.modLane c l fun k => { k with
          rxPrbs := some (BitVec.ofNat 31 (y >>> 25)), mismatches := if k.testing then k.mismatches + 1 else k.mismatches }).count
          .vlLaneErr c [l]))) ∧
    ∀ (flit : BitVec 256) (w : Nat), slot < 2 → flitOf r.2 = some flit → w = flit.toNat →
      (x.takes = false → exec (.linkFlitReceive c p ⟨slot, blocks⟩) s = .next r.1) ∧
      (x.takes = true → isCtl flit = true → exec (.linkFlitReceive c p ⟨slot, blocks⟩) s = .next s) ∧
      (x.takes = true → linkCrcOk flit = true → field w 12 2 = 0 → bitAt w 15 = false → field w 0 12 = x.rxNext → x.sinceAck < 31 →
        ∃ (u : State) (f : RxFlit), exec (.linkFlitReceive c p ⟨slot, blocks⟩) s = .next u ∧ u.host = s.host ∧ u.designs = s.designs ∧
          (u.port c p).rxNext = (x.rxNext + 1) % 4096 ∧ (u.port c p).sinceAck = x.sinceAck + 1 ∧ (u.port c p).nak = false ∧
          (u.port c p).sent = x.sent ∧ f.flit = flit ∧ (x.nakHigh = none → f.resent = false) ∧
          (x.keys = none → (u.port c p).groupRx = x.groupRx ∧ (u.port c p).part0 = (takeBodies x.part0 x.part1 [f]).1.1 ∧
            (u.port c p).part1 = (takeBodies x.part0 x.part1 [f]).1.2 ∧
            (u.port c p).inbox = x.inbox ++ (takeBodies x.part0 x.part1 [f]).2.filter (s.keeps c p)) ∧
          (x.keys.isSome = true → (u.port c p).groupRx = x.groupRx ++ [f] ∧ (u.port c p).inbox = x.inbox ∧
            (u.port c p).freed0 = x.freed0 ∧ (u.port c p).freed1 = x.freed1)) ∧
      (x.takes = true → isCtl flit = false → ((linkCrcOk flit = false ∨ field w 12 2 = 3 ∨ bitAt w 15 = true) ∧ (x.failSeq ≠ x.rxNext ∨ x.fails < 3) ∨
          linkCrcOk flit = true ∧ field w 12 2 < 2 ∧ bitAt w 15 = false ∧ field w 0 12 ≠ x.rxNext) → x.nak = false →
        ∃ u, exec (.linkFlitReceive c p ⟨slot, blocks⟩) s = .next u ∧ u.host = s.host ∧ (s.linkChecks p c = [] → u.designs = s.designs) ∧
          (u.port c p).nak = true ∧ (u.port c p).rxNext = (x.ackSeq + 1) % 4096 ∧ (u.port c p).groupRx = [] ∧
          (u.port c p).sent = x.sent ++ [.nak x.ackSeq x.freed0 x.freed1] ∧ u.reg .vlReplays c [p] = satAdd (s.reg .vlReplays c [p]) 1) ∧
      (x.takes = true → linkCrcOk flit = true → field w 12 2 < 2 → bitAt w 15 = false → field w 0 12 ≠ x.rxNext → x.nak = true →
        ∃ u, exec (.linkFlitReceive c p ⟨slot, blocks⟩) s = .next u ∧ u.host = s.host ∧ u.designs = s.designs ∧
          u.port c p = { x with rxHigh := (u.port c p).rxHigh }) ∧
      (x.takes = true → linkCrcOk flit = false → x.failSeq = x.rxNext → x.fails = 3 →
        (∀ k ks, x.checked = false → s.sparesOf c p = k :: ks → ∃ u, exec (.linkFlitReceive c p ⟨slot, blocks⟩) s = .next u ∧
          (u.port c p).health = (List.range 4).map (fun i => 4 * x.width4.getD slot + i) ∧
          (u.port c p).rxReq = some (4 * x.width4.getD slot, k, true) ∧ (u.port c p).checked = true) ∧
        (x.checked = true → ∃ u, exec (.linkFlitReceive c p ⟨slot, blocks⟩) s = .next u ∧ (u.port c p).out = true ∧
          (u.port c p).traffic = false ∧ (s.pwr.hostOn = true → Wrote 0x4101 (1 + chNum c) 0xFF 0 false [chNum c, p, 1] u)))

/-- Sealed groups and MAC_VERDICT complete (R83, R211, R212, R284): a SEAL flit whose tag verifies releases the records of the port and lets the
messages of its group be used; a bad tag is counted, reported, fails the frames that have used its records, drops the records of the port and
asks for replay, and the second in a row disables the port and destroys its keys; a good verdict on HBM data ends its check, a bad one is an
error of the frame that has used the data, now or later. -/
def Clauses.SealedGroups : Prop :=
  ∀ (s : State) (c : Ch) (p : Nat) (x : VPort), x = s.port c p → p < 8 →
    (∀ (slot : Nat) (blocks : List (BitVec 66)) (r : State × List (Option LinkBlock)) (flit : BitVec 256) (w : Nat),
      s.slotReady c p slot blocks = true → slot < 2 → r = s.readBlocks c ((s.slotLanes c p slot).zip blocks) → flitOf r.2 = some flit →
      w = flit.toNat → x.takes = true → linkCrcOk flit = true → field w 12 2 = 1 → bitAt w 15 = false → field w 0 12 = x.rxNext →
      x.keys.isSome = true →
      (s.groupOk c p w = true → x.sinceAck < 31 →
        ∃ u, exec (.linkFlitReceive c p ⟨slot, blocks⟩) s = .next u ∧ u.designs = s.designs ∧ u.host = s.host ∧ (u.port c p).groupRx = [] ∧
          (u.port c p).sealFails = 0 ∧ (u.port c p).early = 0 ∧
          (x.early = 0 → (u.port c p).inbox = x.inbox ++ (s.groupMsgs c p (field w 214 2)).2.filter (s.keeps c p)) ∧
          (u.ch c).hbm.macs = (s.ch c).hbm.macs.filter (fun m => m.link != some p)) ∧
      (s.groupOk c p w = false → x.sealFails = 0 →
        ∃ u, exec (.linkFlitReceive c p ⟨slot, blocks⟩) s = .next u ∧ (u.port c p).sealFails = 1 ∧ (u.port c p).nak = true ∧
          (u.port c p).groupRx = [] ∧ (u.port c p).inbox = x.inbox ∧ (∀ n ∈ (u.ch c).hbm.macs, n.link ≠ some p) ∧
          u.reg .vlSealFails c [p] = satAdd (s.reg .vlSealFails c [p]) 1 ∧
          (s.pwr.hostOn = true → Wrote 0x6001 (1 + chNum c) 0xFF 0 false [chNum c, 1, p] u))) ∧
    (∀ k (m : MacCheck), (s.ch c).hbm.macs[k]? = some m →
      (m.link = none → ∃ u, exec (.macVerdict c k true) s = .next u ∧ (u.ch c).hbm.macs = (s.ch c).hbm.macs.eraseIdx k ∧
        u.designs = s.designs ∧ u.host = s.host ∧ (∀ f ∈ (u.ch c).hbm.fails, f ≠ m.addr / 64 * 64)) ∧
      (m.link = none → m.addr / 64 * 64 ∉ (s.ch c).hbm.fails →
        ∃ u, exec (.macVerdict c k false) s = .next u ∧ u.reg .secAlarms .a [] = satAdd (s.reg .secAlarms .a []) 1 ∧
          m.addr / 64 * 64 ∈ (u.ch c).hbm.fails ∧
          (s.design m.design = none → (u.ch c).hbm.macs = (s.ch c).hbm.macs.eraseIdx k ∧ u.designs = s.designs) ∧
          ∀ d, s.design m.design = some d →
            (m.used = some d.frame → (u.ch c).hbm.macs = (s.ch c).hbm.macs.eraseIdx k ∧
              ∃ e, u.design m.design = some e ∧ e.errs = d.errs ++ [(.mac, m.cab, m.addr)]) ∧
            (m.used ≠ some d.frame → u.designs = s.designs ∧
              (u.ch c).hbm.macs = (s.ch c).hbm.macs.eraseIdx k ++ [{ m with failed := true }])) ∧
      (m.link = some p → ∃ u, exec (.macVerdict c k true) s = .next u ∧ u.designs = s.designs ∧ u.host = s.host ∧
        (u.ch c).hbm.macs = (s.ch c).hbm.macs.filter (fun m => m.link != some p) ∧ (u.port c p).sealFails = 0) ∧
      (m.link = some p → x.sealFails = 0 → x.nak = false → ∃ u, exec (.macVerdict c k false) s = .next u ∧ (u.port c p).sealFails = 1 ∧
        (u.port c p).nak = true ∧ (u.port c p).groupRx = [] ∧ (∀ n ∈ (u.ch c).hbm.macs, n.link ≠ some p) ∧
        (∀ d, s.design m.design = some d → s.usedBy m = true →
          ∃ e, u.design m.design = some e ∧ (ErrSrc.mac, m.cab, m.addr) ∈ e.errs) ∧
        u.reg .vlSealFails c [p] = satAdd (s.reg .vlSealFails c [p]) 1 ∧
        (s.pwr.hostOn = true → Wrote 0x6001 (1 + chNum c) 0xFF 0 false [chNum c, 1, p] u)) ∧
      (m.link = some p → x.sealFails = 1 → s.portEnabled c p = true → (∀ d ∈ s.designs, d.lastErr = none) →
        ∃ u, exec (.macVerdict c k false) s = .next u ∧ (u.port c p).state = .disabled ∧ (u.port c p).keys = none ∧
        (s.pwr.hostOn = true → Wrote 0x4101 (1 + chNum c) 0xFF 0 false [chNum c, p, 2] u))) ∧
    (∀ k ok, (s.ch c).hbm.macs[k]? = none → exec (.macVerdict c k ok) s = .next s)

/-- LINKCTL_RECEIVE completes (R207, R208, R210): an acknowledgement frees the replay buffer up to ACKSEQ and takes the credits; NAK and RESYNC
resend what is left; one that breaks the table says nothing. ACK_TIMER and NAK_REPEAT (R207, R208) send what is due, GROUP_CLOSE (R211) closes
the open group with one SEAL flit. -/
def Clauses.LinkControl : Prop :=
  ∀ (s : State) (c : Ch) (p : Nat) (x : VPort), x = s.port c p → p < 8 →
    (∀ (slot : Nat) (blocks : List (BitVec 66)) (r : State × List (Option LinkBlock)) (flit : BitVec 256) (w a : Nat), w = flit.toNat →
      a = field w 20 12 → s.slotReady c p slot blocks = true → slot < 2 → r = s.readBlocks c ((s.slotLanes c p slot).zip blocks) →
      flitOf r.2 = some flit → isCtl flit = true → x.state = .up → s.base.forwarding = none → x.queue = [] → x.queue1 = [] →
      (field w 0 12 = 0 → bitAt w 15 = false → field w 56 168 = 0 → 1 ≤ field w 16 4 → field w 16 4 ≤ 3 →
        (a + 4096 - x.txAcked) % 4096 ≤ x.inFlight →
        ∃ (u : State) (l : List KeptFlit), l = x.unacked.filter (fun k => decide (2048 ≤ (a + 4096 - k.seq) % 4096)) ∧
          exec (.linkctlReceive c p ⟨slot, blocks⟩) s = .next u ∧ u.host = s.host ∧ u.designs = s.designs ∧
          u.port c p = { x with txAcked := a, unacked := l, far0 := field w 32 12, far1 := field w 44 12,
                                sent := if 2 ≤ field w 16 4 ∧ l ≠ [] then x.sent ++ [.resend (l.map (·.flit))] else x.sent }) ∧
      (field w 0 12 ≠ 0 ∨ bitAt w 15 = true ∨ field w 56 168 ≠ 0 ∨ field w 16 4 = 0 ∨ 3 < field w 16 4 ∨
          x.inFlight < (a + 4096 - x.txAcked) % 4096 → exec (.linkctlReceive c p ⟨slot, blocks⟩) s = .next r.1)) ∧
    (s.portLive c p = true → x.state = .up →
      (x.sinceAck ≠ 0 ∨ x.freed0 ≠ x.told0 ∨ x.freed1 ≠ x.told1 → ∃ u, exec (.ackTimer c p) s = .next u ∧ u.host = s.host ∧
        u.port c p = { x with sinceAck := 0, told0 := x.freed0, told1 := x.freed1, sent := x.sent ++ [.ack x.ackSeq x.freed0 x.freed1] }) ∧
      (x.sinceAck = 0 → x.freed0 = x.told0 → x.freed1 = x.told1 → exec (.ackTimer c p) s = .next s) ∧
      (x.nak = true → ∃ u, exec (.nakRepeat c p) s = .next u ∧ u.host = s.host ∧
        u.port c p = { x with sinceAck := 0, told0 := x.freed0, told1 := x.freed1, nakHigh := x.rxHigh,
                              sent := x.sent ++ [.nak x.ackSeq x.freed0 x.freed1] } ∧
        u.reg .vlReplays c [p] = satAdd (s.reg .vlReplays c [p]) 1) ∧
      (x.nak = false → exec (.nakRepeat c p) s = .next s)) ∧
    (∀ k e top f, x.keys = some (k, e) → x.groupOpen ≠ [] → x.state = .up → x.inFlight < 1024 →
      top = sealTop x.groupTx x.groupOpen.length e →
      f = linkFlit x.txNext 1 0 ((groupTag (s.txKey c p) x.groupOpen x.groupTx top).toNat + 2 ^ 128 * top) → ∃ u, exec (.groupClose c p) s = .next u ∧ u.host = s.host ∧
      u.port c p = { x with groupOpen := [], groupTx := x.groupTx + 1, groupsInEpoch := x.groupsInEpoch + 1, txNext := (x.txNext + 1) % 4096,
                            unacked := x.unacked ++ [{ seq := x.txNext, flit := f, msg := none }] }) ∧
    (x.keys = none ∨ x.groupOpen = [] ∨ x.state ≠ .up ∨ 1024 ≤ x.inFlight → exec (.groupClose c p) s = .next s)

/-- MESSAGE_FORWARD completes (R214, R221): a message for another module goes on its route with one hop less, to both members of a pair; with no hop
or no route left it is discarded and counted; a TWIN message goes no further. -/
def Clauses.Forwarding : Prop :=
  ∀ (s t : State) (c : Ch) (p dst src type ttl flits : Nat) (h : Heard), s.carries c p = true →
    (s.port c p).inbox.find? (fun h => !s.forMe h) = some h → h.dst = dst → h.src = src → h.type = type → h.ttl = ttl → h.rest.length = flits →
    t = s.takeOut c p h →
    (ttl = 0 ∨ t.portsTo c dst = [] → exec (.messageForward c p dst src type ttl flits) s = .next (t.count .vlDrops c [])) ∧
    (0 < ttl → t.portsTo c dst ≠ [] → exec (.messageForward c p dst src type ttl flits) s =
      .next ((t.portsTo c dst).foldl (fun u q => u.sendOn c q
        (.forward dst h.vc1 (BitVec.ofNat 208 (h.head - 2 ^ 24) :: h.bodies.drop 1) h.arrived)) t)) ∧
    (∀ g : Heard, g.type = 7 → s.forMe g = true) ∧
    (∀ u : State, (u.port c p).inbox.find? (fun h => !u.forMe h) = none → exec (.messageForward c p dst src type ttl flits) u = .next u)

/-- VALUE_MESSAGE_RECEIVE completes (R212, R216, R217, R83): a record for the next frame of the design that binds its slot is taken, and one of a
group that has not verified waits for the verdict on it; one already held changes nothing, a stale one is counted and reported, one for no
design or for a frame too far ahead is counted. -/
def Clauses.LinkRecords : Prop :=
  ∀ (s t : State) (c : Ch) (p src : Nat) (frame : BitVec 48) (r : LinkRec) (sure : Bool), s.carries c p = true →
    ((sure = true ∧ ∃ h, Arrived s c p (some src) (.value 0 frame [r]) h t) ∨
      (sure = false ∧ s.heard c p (1, 0) = none ∧ t = s.modPort c p (fun x => { x with early := x.early + 1 }) ∧
        ∃ h, s.earlyValue c p = some h ∧ h.ok = true ∧ h.is (some src) (.value 0 frame [r]) = true)) →
    (t.designs.find? (fun d => d.slots.any (fun b => b.remote == src && b.slot == r.slot) &&
        (if d.twin then d.home == c else d.slotCh r.slot == some c)) = none →
      exec (.valueMessageReceive c p src frame [r]) s = .next (t.count .vlDrops c [])) ∧
    ∀ d, t.designs.find? (fun d => d.slots.any (fun b => b.remote == src && b.slot == r.slot) &&
        (if d.twin then d.home == c else d.slotCh r.slot == some c)) = some d →
      (laterFrame (BitVec.ofNat 48 (d.frame - 1)) frame = true → ∃ u, exec (.valueMessageReceive c p src frame [r]) s = .next u ∧
        Told 0x4102 (1 + chNum c) 0xFF 0 false [chNum c, p, src] (t.count .vlDrops c []) u) ∧
      (laterFrame (BitVec.ofNat 48 (d.frame - 1)) frame = false → laterFrame frame (BitVec.ofNat 48 (d.frame - 1) + 1) = true →
        exec (.valueMessageReceive c p src frame [r]) s = .next (t.count .vlDrops c [])) ∧
      (laterFrame (BitVec.ofNat 48 (d.frame - 1)) frame = false → laterFrame frame (BitVec.ofNat 48 (d.frame - 1) + 1) = false →
        (d.linkIn.any (fun k => k.slot == r.slot && k.frame == frame) = true → exec (.valueMessageReceive c p src frame [r]) s = .next t) ∧
        (d.linkIn.any (fun k => k.slot == r.slot && k.frame == frame) = false →
          ∀ v, v = (t.modDesign d.tag fun y => { y with linkIn := y.linkIn ++
              [{ src := src, slot := r.slot, frame := frame, active := r.active, values := r.values }] }).sendOuter d c 1 r.slot
              (if r.active then r.values else 0) →
            (sure = true → exec (.valueMessageReceive c p src frame [r]) s = .next v) ∧
            (sure = false → ∃ m : MacCheck, m.link = some p ∧ m.addr = r.slot ∧ m.design = d.tag ∧ m.frame = (frame + 1).toNat ∧
              exec (.valueMessageReceive c p src frame [r]) s = .next (v.modHbm c fun h => { h with macs := h.macs ++ [m] }))))

/-- SLOT_HOME and SLOT_HOME_TIMER complete (R217): the map is known to both hubs; the timer repeats it for the designs at home in the channel, and
does nothing where there is none. -/
def Clauses.SlotHomes : Prop :=
  ∀ (s : State) (c : Ch),
    (∀ p h t src map, ArrivedOn s c (some src) (.slotHome 0 map) p h t → (∀ g ∈ s.channels, (s.ch g).link.waiting = []) →
      ∃ u, exec (.slotHome c src map) s = .next u ∧ u.host = s.host ∧ u.designs = s.designs ∧ u.port c p = t.port c p ∧
        ∀ g ∈ s.channels, KV.get 0 src (u.ch g).link.homes = map ∧ src ∈ (u.ch g).link.haveHome ∧
          (u.ch g).link.resend = (s.ch g).link.resend) ∧
    ((∀ d ∈ s.designs, d.home ≠ c) → exec (.slotHomeTimer c) s = .next s) ∧
    (∀ d m q, s.designs = [d] → d.home = c → (d.slots.map (·.remote)).eraseDups = [m] → s.silent = false → s.portsTo c m = [q] →
      exec (.slotHomeTimer c) s = .next (s.sendOn c q (.slotHome m (s.slotHomes m))))

/-- MEM messages complete (R147, R149, R154, R213, R222): a read is answered with the committed bytes, a write into a stopped design enters the
write buffer as committed entries and is answered, one into a running design waits, and a request outside what its sender may reach is
answered with STATUS 2; a response, and a timeout, complete the work item that asked. -/
def Clauses.MemMessages : Prop :=
  (∀ (s t : State) (c : Ch) (p : Nat) (m : MemMsg) (h : Heard), s.carries c p = true → Arrived s c p (some m.src) (.mem 0 m) h t →
    (m.op < 2 → t.memTarget m = none → exec (.memMessageReceive c p m) s =
      .next (t.sendTo c m.src (.mem m.src { m with src := t.ownAddress, op := m.op + 8, status := 2, data := [] }))) ∧
    (∀ d g n v, t.memTarget m = some (d, [g]) → m.op = 0 → n = sizeBytes m.size →
      v = t.hubMem c 22 (chOf g.side) d.tag (g.base + m.offset) n [] →
      ((t.ch (chOf g.side)).hbm.unreadable (g.base + m.offset) n = false →
        ((v.rangeAt (chOf g.side) (g.base + m.offset)).map (·.2.unkeyed)).getD false = false → exec (.memMessageReceive c p m) s =
        .next (v.memAnswer c m 8 0 ((t.ch (chOf g.side)).hbm.committedBytes (g.base + m.offset) n))) ∧
      ((t.ch (chOf g.side)).hbm.unreadable (g.base + m.offset) n = false →
        ((v.rangeAt (chOf g.side) (g.base + m.offset)).map (·.2.unkeyed)).getD false = true → exec (.memMessageReceive c p m) s =
        .next (v.memAnswer c m 8 1 [])) ∧
      ((t.ch (chOf g.side)).hbm.unreadable (g.base + m.offset) n = true → exec (.memMessageReceive c p m) s =
        .next ((v.hbmUncorrected (chOf g.side) (g.base + m.offset) 2
          ((t.ch (chOf g.side)).hbm.kindAt (g.base + m.offset) n)).memAnswer c m 8 1 []))) ∧
    (∀ d g, t.memTarget m = some (d, [g]) → m.op = 1 → (d.state = .running ∨ d.state = .stopping) → exec (.memMessageReceive c p m) s =
      .next (t.modLink c fun k => { k with memWait := k.memWait ++ [m] })) ∧
    (∀ d g v, t.memTarget m = some (d, [g]) → m.op = 1 → d.state = .stopped →
      v = (t.hubMem c 22 (chOf g.side) d.tag (g.base + m.offset) (m.data.take (sizeBytes m.size)).length
        (m.data.take (sizeBytes m.size))).commitWrite (chOf g.side) d (g.base + m.offset) (m.data.take (sizeBytes m.size)) →
      (v.pairRuns = false ∨ v.mode.primary = false) → exec (.memMessageReceive c p m) s = .next (v.memAnswer c m 9 0 [])) ∧
    (m.op = 8 ∨ m.op = 9 →
      ((t.ch c).link.mem.find? (fun q => q.tag == m.tag) = none → exec (.memMessageReceive c p m) s = .next t) ∧
      (∀ q cm, (t.ch c).link.mem.find? (fun q => q.tag == m.tag) = some q → t.cmd q.ring q.cmd = some cm →
        ∃ u, exec (.memMessageReceive c p m) s = .next u ∧
          Done cm (if m.status = 0 then .ok else if m.status = 1 then .memoryError else .regionViolation) (s.frameAt cm.desc.partition.toNat) 0
            (t.modLink c fun k => { k with mem := k.mem.filter (fun q => q.tag != m.tag) }) u))) ∧
  (∀ (s : State) (c : Ch) (tag : Nat), ((s.ch c).link.mem.find? (fun q => q.tag == tag) = none → exec (.memTimeout c tag) s = .next s) ∧
    (∀ q cm, (s.ch c).link.mem.find? (fun q => q.tag == tag) = some q → s.cmd q.ring q.cmd = some cm →
      ∃ u, exec (.memTimeout c tag) s = .next u ∧ Done cm .timeout (s.frameAt cm.desc.partition.toNat) 0
        (s.modLink c fun k => { k with mem := k.mem.filter (fun q => q.tag != tag) }) u)) ∧
  (∀ (s : State) (c : Ch) (d : Design) (addr : Nat) (data : List Byte) (p : Nat), p = (d.allParts.filter (fun p => chOfPart p == c)).headD d.low →
    data ≠ [] → addr % 64 + data.length ≤ 64 → (s.ch c).hbm.quota p + data.length ≤ 2097152 →
    ∃ e : WEntry, s.commitWrite c d addr data = s.modHbm c (fun h => { h with wbuf := h.wbuf ++ [e] }) ∧ e.committed = true ∧ e.addr = addr ∧
      e.data = data ∧ e.design = d.tag ∧ e.partition = p)

/-- HELLO completes (R219): a port carries traffic only once the far end has named the same link and the same table and keys are in force; the
initiator then begins the authentication. -/
def Clauses.Hello : Prop :=
  ∀ (s : State) (c : Ch) (p rp : Nat) (rc : Ch) (rm : Nat) (hash : BitVec 192) (x : VPort) (ok : Bool), x = s.port c p →
    ok = (s.farEnd c p == some (rm, rp + 8 * chNum rc) && (s.topo.map (fun t => t.hash.toNat % 2 ^ 192)) == some hash.toNat) →
    (∀ h t, s.portLive c p = true → x.state = .up → Arrived s c p (some rm) (.hello rp (chNum rc) hash) h t →
      ∃ u, exec (.hello c p rp rc rm hash) s = .next u ∧ u.designs = s.designs ∧ (u.port c p).helloOk = ok ∧
        (u.port c p).traffic = (ok && x.keys.isSome && !x.out) ∧ (u.port c p).keys = x.keys ∧
        ((s.carries c p = false ∨ ok = true) →
          (u.port c p).auth = (if ok = true ∧ x.keys = none ∧ x.auth = none ∧ s.initiates c p = true then
            (u.port c p).auth.map (fun a => { initiator := true, accepted := false, own := a.own }) else x.auth) ∧
          (ok = true → x.keys = none → s.initiates c p = true → (u.port c p).auth.isSome = true))) ∧
    ((s.portLive c p = false ∨ x.state ≠ .up ∨ s.heard c p (4, 1) = none) → exec (.hello c p rp rc rm hash) s = .next s)

/-- Link authentication completes (R285): the responder takes an offer of the right far end and derives the keys, the initiator brings them into
force with a valid answer and the responder with a valid finish; any other far end or signature is rejected with its reason, reported, and no
keys come into force. -/
def Clauses.LinkAuth : Prop :=
  ∀ (s t : State) (c : Ch) (p k : Nat) (m : AuthMsg) (x : VPort) (h : Heard), x = s.port c p → s.heard c p (4, 0x10) = some h →
    h.bytes.take 1 = leBytes 1 k → t = s.takeOut c p h →
    (k = 1 → s.portLive c p = true → x.state = .up → x.helloOk = true → s.initiates c p = false →
      (t.farRefused c p m = none → ∃ u own, exec (.offer c p m) s = .next u ∧ u.designs = s.designs ∧ (u.port c p).keys = none ∧
        (u.port c p).traffic = false ∧ (u.port c p).auth = some { initiator := false, accepted := true, own := own } ∧
        (u.port c p).nextKeys = some (linkSecret own m, 0)) ∧
      (∀ r, t.farRefused c p m = some r → ∃ u, exec (.offer c p m) s = .next u ∧ (u.port c p).keys = x.keys ∧ (u.port c p).auth = none ∧
        (s.pwr.hostOn = true → Wrote 0x6007 (1 + chNum c) 0xFF 0 false [chNum c, p, r] u))) ∧
    (s.initiates c p = true → exec (.offer c p m) s = .next s) ∧
    (∀ own, k = 2 → x.auth = some { initiator := true, accepted := false, own := own } →
      (t.farRefused c p m = none → Config.ecdsaVerify m.chain (linkTranscript m) m.sig = true → ∃ u, exec (.accept c p m) s = .next u ∧
        (u.port c p).keys = some (linkSecret own m, 0) ∧ (u.port c p).auth = none ∧ (u.port c p).nextKeys = none ∧
        (u.port c p).traffic = (x.helloOk && !x.out) ∧ u.designs = s.designs) ∧
      (∀ r, (t.farRefused c p m = some r ∨ (t.farRefused c p m = none ∧ r = 3 ∧ Config.ecdsaVerify m.chain (linkTranscript m) m.sig = false)) →
        ∃ u, exec (.accept c p m) s = .next u ∧ (u.port c p).keys = x.keys ∧ (u.port c p).auth = none ∧
          (s.pwr.hostOn = true → Wrote 0x6007 (1 + chNum c) 0xFF 0 false [chNum c, p, r] u))) ∧
    (x.auth = none → exec (.accept c p m) s = .next s ∧ exec (.authFinish c p m) s = .next s) ∧
    (∀ secret e a, k = 3 → x.auth = some a → a.initiator = false → x.nextKeys = some (secret, e) →
      (Config.ecdsaVerify m.chain (linkTranscript m) m.sig = true → ∃ u, exec (.authFinish c p m) s = .next u ∧
        (u.port c p).keys = some (secret, 0) ∧ (u.port c p).auth = none ∧ (u.port c p).traffic = (x.helloOk && !x.out) ∧
        u.designs = s.designs) ∧
      (Config.ecdsaVerify m.chain (linkTranscript m) m.sig = false → ∃ u, exec (.authFinish c p m) s = .next u ∧
        (u.port c p).keys = x.keys ∧ (u.port c p).auth = none ∧
        (s.pwr.hostOn = true → Wrote 0x6007 (1 + chNum c) 0xFF 0 false [chNum c, p, 3] u)))

/-- REJECT, LINK_AUTH_TIMEOUT and LINK_AUTH_RETRY complete (R285): REJECT and the timeout forget the exchange with one event, and the initiator
tries again later. -/
def Clauses.LinkAuthEnds : Prop :=
  ∀ (s : State) (c : Ch) (p : Nat) (x : VPort), x = s.port c p →
    (∀ t h r, s.heard c p (4, 0x10) = some h → h.bytes.take 2 = leBytes 1 6 ++ leBytes 1 r → t = s.takeOut c p h → x.auth.isSome = true →
      ∃ u, exec (.reject c p r) s = .next u ∧ Told 0x6007 (1 + chNum c) 0xFF 0 false [chNum c, p, r]
        (t.modPort c p fun y => { y with auth := none, nextKeys := if y.keys.isNone then none else y.nextKeys }) u) ∧
    (x.auth.isSome = true → ∃ u, exec (.linkAuthTimeout c p) s = .next u ∧ Told 0x6007 (1 + chNum c) 0xFF 0 false [chNum c, p, 0]
        (s.modPort c p fun y => { y with auth := none, nextKeys := if y.keys.isNone then none else y.nextKeys }) u) ∧
    (x.auth = none → (∀ r, exec (.reject c p r) s = .next s) ∧ exec (.linkAuthTimeout c p) s = .next s) ∧
    (s.portLive c p = true → x.state = .up → x.helloOk = true → x.keys = none → x.auth = none → s.initiates c p = true →
      ∃ u own, exec (.linkAuthRetry c p) s = .next u ∧ u.host = s.host ∧
        (u.port c p).auth = some { initiator := true, accepted := false, own := own } ∧ (u.port c p).keys = none) ∧
    (x.keys.isSome = true ∨ x.auth.isSome = true ∨ x.helloOk = false → exec (.linkAuthRetry c p) s = .next s)

/-- EPOCH_ROLLOVER, UPDATE and UPDATE_ACK complete (R286): the initiator starts an epoch, the far end derives the same keys and answers, and the
keys in force change only with the acknowledgement; the receiver keeps the old ones beside them until a group of the new epoch has
verified. -/
def Clauses.KeyEpochs : Prop :=
  ∀ (s : State) (c : Ch) (p : Nat) (x : VPort) (k : BitVec 64) (e : Nat), x = s.port c p → x.keys = some (k, e) →
    (x.updating = false → s.initiates c p = true → ∃ u, exec (.epochRollover c p) s = .next u ∧ u.host = s.host ∧
      (u.port c p).updating = true ∧ (u.port c p).nextKeys = some (nextSecret k, e + 1) ∧ (u.port c p).keys = some (k, e)) ∧
    (x.updating = true ∨ s.initiates c p = false → exec (.epochRollover c p) s = .next s) ∧
    (∀ t h n, s.heard c p (4, 0x10) = some h → t = s.takeOut c p h →
      (h.bytes.take 5 = leBytes 1 4 ++ leBytes 4 n →
        (n = e + 1 → ∃ u, exec (.update c p n) s = .next u ∧ u.host = s.host ∧ (u.port c p).updating = true ∧
          (u.port c p).keys = some (k, e) ∧ (x.updating = false → (u.port c p).nextKeys = some (nextSecret k, e + 1)) ∧
          (x.updating = true → (u.port c p).nextKeys = x.nextKeys)) ∧
        (n ≠ e → n ≠ e + 1 → exec (.update c p n) s = .next t)) ∧
      (∀ k', h.bytes.take 5 = leBytes 1 5 ++ leBytes 4 n → n = e + 1 → x.updating = true → x.nextKeys = some (k', n) →
        ∃ u, exec (.updateAck c p n) s = .next u ∧ u.host = s.host ∧ (u.port c p).keys = some (k', n) ∧ (u.port c p).updating = false ∧
          (u.port c p).groupTx = 0 ∧ (u.port c p).groupOpen = [] ∧
          (u.port c p).nextKeys = (if x.rxEpoch = n % 4 then none else some (k, e)))) ∧
    (∀ n, x.updating = false → exec (.updateAck c p n) s = .next s)

/-! ### Time and the trigger bus (R379-R396) -/

/-- LAUNCH_FIRE and RUN_START complete (R389, R391). LAUNCH_FIRE: an entry whose view has not reached its time stays; one whose view has starts the design that waits for it, leaves its
entry free and completes OK with what happened. RUN_START (R391): it starts the designs that wait for it at that frame, and is reported where
none does. -/
def Clauses.LaunchesFire : Prop :=
  ∀ (s : State) (c : Ch),
    (∀ e, s.launch c e = none → exec (.launchFire c e) s = .next s) ∧
    (∀ e l, s.launch c e = some l → s.launchDue c l = false → exec (.launchFire c e) s = .next s) ∧
    (∀ e l d m, s.launch c e = some l → s.launchDue c l = true → l.kind = 1 → l.tenant = true → s.designAt l.partition = some d →
      s.cmd l.ring l.tag = some m → d.slots = [] →
      ∃ (u : State) (v : State), exec (.launchFire c e) s = .next u ∧ v.launch c e = none ∧
        (∀ k, k ≠ e → v.launch c k = s.launch c k) ∧
        v.designs = s.designs.map (fun x => if x.tag = d.tag then { x with run := x.run.map (fun r => { r with waitLaunch := false }) } else x) ∧
        v.host = s.host ∧
        Done m .ok (s.frameAt m.desc.partition.toNat) (detail [if d.run.map (·.waitLaunch) = some true then 1 else 0]) v u) ∧
    (∀ src frame k p h t, ArrivedOn s c (some src) (.runStart 0 frame k) p h t →
      ((∀ d ∈ s.designs, d.run.map (·.waitLaunch) ≠ some true ∨ d.slots.any (fun b => b.remote == src) = false ∨
          BitVec.ofNat 48 d.frame ≠ frame) →
        ∃ u, exec (.runStart c src frame k) s = .next u ∧ Told 0xB005 (1 + chNum c) 0xFF 0 false [src, frame.toNat % 2 ^ 32] t u) ∧
      (∀ d, s.designs = [d] → d.run.map (·.waitLaunch) = some true → d.slots.any (fun b => b.remote == src) = true →
        BitVec.ofNat 48 d.frame = frame →
        exec (.runStart c src frame k) s =
          .next { t with designs := [{ d with run := d.run.map (fun r => { r with waitLaunch := false }) }] }))

/-- TIM_SNAP and VIEW_ENABLE complete (R379, R380, R382): TIM_SNAP captures all eight at one instant; a view enabled with SOURCE 0 runs with the raw counter, one with
SOURCE 1 or 3 acquires its source, one with SOURCE 2 starts at view 0; a disabled view reads 0. -/
def Clauses.Views : Prop :=
  ∀ (s : State) (c : Ch) (value : Word32),
    (s.portAnswers = true → (s.pw c).state.hubOn = true → value.getLsbD 0 = true → ∃ u, exec (.timSnap c value) s = .next u ∧ u.host = s.host ∧
      (u.ch c).time.views = (s.ch c).time.views ∧ (u.ch c).time.raw = (s.ch c).time.raw ∧
      ∀ v, v < 8 →
        u.reg .timSnapLo c [v] = (BitVec.ofInt 96 (s.viewNow c v) >>> 32).setWidth 32 ∧
        u.reg .timSnapHi c [v] = (BitVec.ofInt 96 (s.viewNow c v) >>> 64).setWidth 32 ∧
        KV.get 0 v (u.ch c).time.frac = (BitVec.ofInt 96 (s.viewNow c v)).setWidth 32) ∧
    (value.getLsbD 0 = false → exec (.timSnap c value) s = .next s) ∧
    (∀ v, v < 6 → s.portAnswers = true → (s.pw c).state.hubOn = true → (s.ch c).time.launches = [] →
      ∃ u, exec (.viewEnable c v value) s = .next u ∧ u.host = s.host ∧ u.reg .timViewCfg c [v] = value &&& 0xFFFFFF0F#32 ∧
        (∀ k, k ≠ v → u.view c k = s.view c k) ∧
        (value.getLsbD 3 = false → u.view c v = {} ∧ u.viewNow c v = 0) ∧
        (value.getLsbD 3 = true → value.toNat % 8 = 0 → u.view c v = { state := .running } ∧ u.viewNow c v = (s.ch c).time.raw.toNat) ∧
        (value.getLsbD 3 = true → value.toNat % 8 = 1 ∨ value.toNat % 8 = 3 → u.view c v = { state := .acquiring }) ∧
        (value.getLsbD 3 = true → value.toNat % 8 = 2 → (u.view c v).state = .running ∧ u.viewNow c v = s.viewNow c 0))

/-- SYNC and SYNC_TIMEOUT complete, the servo of a slave view (R215, R383-R385, R387): a Sync of another sender, or one sent again, changes nothing; the first measurement of the
master's time steps the view onto it with one event; a later one slews it within 500 ppm and never steps it; one beyond the jump threshold is
refused, with one event for the row of refusals; without Sync the view holds over. -/
def Clauses.Servo : Prop :=
  ∀ (s t : State) (c : Ch) (p : Nat) (m : TimeMsg) (x : View) (h : Heard), x = s.view c m.domain → s.carries c p = true →
    Arrived s c p (some m.src) (.time 0 0 m) h t →
    ((h.resent = true ∨ s.takesTime c p m = false ∨ x.hasMaster = false ∨ x.master ≠ m.src) → exec (.sync c p m) s = .next t) ∧
    (∀ (raw : Nat) (pd o : Int), h.resent = false → s.takesTime c p m = true → x.hasMaster = true → x.master = m.src → x.pathDelay = some pd →
      raw = h.arrived + s.sixteenths → o = viewAt m.domain x raw - timeOf m - pd →
      (x.stepped = false → (s.ch c).time.launches = [] →
        ∃ u v, exec (.sync c p m) s = .next u ∧ Told 0xB001 (1 + chNum c) 0xFF 0 false [m.domain, 1, nsField (-o)] v u ∧ v.host = s.host ∧
          (v.view c m.domain).offset = x.offset - o ∧ (v.view c m.domain).stepped = true ∧ (v.view c m.domain).state = .locked ∧
          viewAt m.domain (v.view c m.domain) raw = timeOf m + pd) ∧
      (x.stepped = true → o.natAbs ≤ s.jumpNs c * 2 ^ 32 →
        ∃ u, exec (.sync c p m) s = .next u ∧ u.host = s.host ∧ (u.view c m.domain).state = .locked ∧
          viewAt m.domain (u.view c m.domain) raw = viewAt m.domain x raw ∧ (u.view c m.domain).lastOffset = o ∧
          -rateLimit ≤ (u.view c m.domain).rate ∧ (u.view c m.domain).rate ≤ rateLimit) ∧
      (x.stepped = true → s.jumpNs c * 2 ^ 32 < o.natAbs →
        (x.state = .refused → ∃ u, exec (.sync c p m) s = .next u ∧ u.host = s.host ∧ (u.view c m.domain).state = .refused ∧
          (u.view c m.domain).offset = x.offset ∧ (u.view c m.domain).rate = x.rate ∧ (u.view c m.domain).lastOffset = o) ∧
        (x.state ≠ .refused → ∃ u v, exec (.sync c p m) s = .next u ∧ Told 0xB002 (1 + chNum c) 0xFF 0 false [m.domain, nsField o] v u ∧
          (v.view c m.domain).state = .refused ∧ (v.view c m.domain).offset = x.offset ∧ (v.view c m.domain).rate = x.rate))) ∧
    (∀ v, s.viewIs c v 1 = true → (s.view c v).state = .locked ∨ (s.view c v).state = .refused →
      ∃ u, exec (.syncTimeout c v) s = .next u ∧
        Told 0xB004 (1 + chNum c) 0xFF 0 false [v] (s.modView c v fun y => { y with state := .holdover }) u) ∧
    (∀ v, s.viewIs c v 1 = false → exec (.syncTimeout c v) s = .next s)

/-- ANNOUNCE and MASTER_TIMEOUT complete, the master of a slave view (R387): the first Announce makes its sender the master with one event, one of the present master keeps it, a
better dataset replaces it and any other does not; without Announce the master is dropped. -/
def Clauses.Masters : Prop :=
  ∀ (s t : State) (c : Ch) (p : Nat) (m : TimeMsg) (ds : Dataset) (x : View) (h : Heard), x = s.view c m.domain → s.carries c p = true →
    Arrived s c p (some m.src) (.announce 0 m ds) h t → h.resent = false →
    (s.takesTime c p m = false → exec (.announce c p m ds) s = .next t) ∧
    (s.takesTime c p m = true → x.hasMaster = true → x.master = m.src →
      exec (.announce c p m ds) s = .next (t.modView c m.domain fun y => { y with best := some ds, port := p })) ∧
    (s.takesTime c p m = true →
      (x.hasMaster = false ∨ (∃ b, x.master ≠ m.src ∧ x.best = some b ∧ betterMaster ds b = true)) → ∃ u v,
      exec (.announce c p m ds) s = .next u ∧ Told 0xB003 (1 + chNum c) 0xFF 0 false [m.domain, p, m.src] v u ∧ v.host = s.host ∧
        (v.view c m.domain).master = m.src ∧ (v.view c m.domain).hasMaster = true ∧ (v.view c m.domain).best = some ds ∧
        (v.view c m.domain).delays = [] ∧ (v.view c m.domain).offset = x.offset ∧ (v.view c m.domain).rate = x.rate) ∧
    (∀ b, s.takesTime c p m = true → x.hasMaster = true → x.master ≠ m.src → x.best = some b → betterMaster ds b = false →
      exec (.announce c p m ds) s = .next t) ∧
    (∀ v, s.viewIs c v 1 = true → (s.view c v).hasMaster = true → ∃ u, exec (.masterTimeout c v) s = .next u ∧ u.host = s.host ∧
      (u.view c v).hasMaster = false ∧ (u.view c v).best = none ∧ (u.view c v).offset = (s.view c v).offset ∧
      (u.view c v).rate = (s.view c v).rate) ∧
    (∀ v, (s.view c v).hasMaster = false → exec (.masterTimeout c v) s = .next s)

/-- PDELAY_TIMER, PDELAY_REQ, PDELAY_RESP, ANNOUNCE_SEND and SYNC_SEND complete (R215, R387, R388): a slave asks its master, a master view answers with the corrections of the request, the
answer to the request outstanding gives half of what the turnaround leaves, and a view of SOURCE 2 sends Announce and Sync to every module that
its channel reaches. -/
def Clauses.PathDelays : Prop :=
  ∀ (s : State) (c : Ch),
    (∀ v x, x = s.view c v → s.viewIs c v 1 = true → x.hasMaster = true →
      ∃ u, exec (.pdelayTimer c v) s = .next u ∧ u.host = s.host ∧
        (u.view c v).reqAt.map (·.1) = some x.seq.toNat ∧ (u.view c v).seq = x.seq + 1 ∧
        (u.view c v).offset = x.offset) ∧
    (∀ v, s.viewIs c v 1 = false → exec (.pdelayTimer c v) s = .next s) ∧
    (∀ p m h t, s.carries c p = true → Arrived s c p (some m.src) (.time 0 2 m) h t →
      (h.resent = false → s.viewIs c m.domain 2 = true → exec (.pdelayReq c p m) s =
        .next (t.freeNext.sendTo c m.src (.time m.src 3 (timeMsg t.ownAddress m.domain m.seq m.correction
          (viewAt m.domain (t.view c m.domain) (t.rawStamp c)))))) ∧
      ((h.resent = true ∨ s.viewIs c m.domain 2 = false) → exec (.pdelayReq c p m) s = .next t)) ∧
    (∀ p m turn (t1 pd : Int) x h t, x = s.view c m.domain → s.carries c p = true → Arrived s c p (some m.src) (.time 0 3 m) h t →
      h.resent = false → s.takesTime c p m = true → x.master = m.src → x.reqAt = some (m.seq.toNat, t1) →
      pd = ((viewAt m.domain x (h.arrived + s.sixteenths) - t1) - (turn + m.correction) * 2 ^ 16) / 2 →
      ((∀ mean, x.pathDelay = some mean → (pd - mean).natAbs ≤ 100 * 2 ^ 32) → ∃ u, exec (.pdelayResp c p m turn) s = .next u ∧
        u.host = s.host ∧ (u.view c m.domain).delays = (pd :: x.delays).take 8 ∧ (u.view c m.domain).reqAt = none ∧
        (u.view c m.domain).offset = x.offset) ∧
      (∀ mean, x.pathDelay = some mean → 100 * 2 ^ 32 < (pd - mean).natAbs → ∃ u, exec (.pdelayResp c p m turn) s = .next u ∧
        (u.view c m.domain).delays = x.delays ∧ (u.view c m.domain).reqAt = none)) ∧
    (∀ p m turn h t, s.carries c p = true → Arrived s c p (some m.src) (.time 0 3 m) h t → (s.view c m.domain).reqAt = none →
      exec (.pdelayResp c p m turn) s = .next t) ∧
    (∀ p m turn, s.carries c p = false → exec (.pdelayReq c p m) s = .next s ∧ exec (.pdelayResp c p m turn) s = .next s ∧
      exec (.sync c p m) s = .next s) ∧
    (∀ v, s.viewIs c v 2 = true →
      (∃ u, exec (.announceSend c v) s = .next u ∧ u.host = s.host ∧ u.designs = s.designs ∧ (u.view c v).seq = (s.view c v).seq + 1 ∧
        (u.view c v).offset = (s.view c v).offset) ∧
      (∃ u, exec (.syncSend c v) s = .next u ∧ u.host = s.host ∧ u.designs = s.designs ∧ (u.view c v).seq = (s.view c v).seq + 1 ∧
        (u.view c v).offset = (s.view c v).offset) ∧
      (∀ k, s.reachable c = [k] → exec (.syncSend c v) s = .next (((s.modView c v fun y => { y with seq := y.seq + 1 }).sendTo c k
        (.time k 0 (timeMsg s.ownAddress v (s.view c v).seq 0 (viewAt v (s.view c v) (s.rawStamp c))))).freeNext))) ∧
    (∀ v, s.viewIs c v 2 = false → exec (.announceSend c v) s = .next s ∧ exec (.syncSend c v) s = .next s)

/-- VIEW_EXCHANGE, SYSCLK_LOST, SYSCLK_RETURN and OSC_CHECK complete (R382, R383, R385, R392, R393): a follower holds over when its source is gone;
at its first exchange it steps onto its source with one event, afterwards it takes the source's RATE (log entry 17: the difference above which
it steps again is the model's); the loss of SYSCLK holds its views over and is reported, its return locks them without a step; an oscillator
that differs is stopped, and the die changes to the other where it ran on it, once, with one event. -/
def Clauses.FollowersAndClocks : Prop :=
  ∀ (s : State) (c : Ch) (v : Nat) (x y : View), x = s.view c v → y = s.view (otherCh c) v →
    (s.viewIs c v 3 = false → exec (.viewExchange c v) s = .next s) ∧
    (s.viewIs c v 3 = true → ((s.pw (otherCh c)).state.hubOn = false ∨ y.state = .disabled) →
      (x.state = .locked → ∃ u, exec (.viewExchange c v) s = .next u ∧
        Told 0xB004 (1 + chNum c) 0xFF 0 false [v] (s.modView c v fun z => { z with state := .holdover }) u) ∧
      (x.state ≠ .locked → exec (.viewExchange c v) s = .next s)) ∧
    (s.viewIs c v 3 = true → (s.pw (otherCh c)).state.hubOn = true → otherCh c ∈ s.channels → y.state ≠ .disabled →
      (s.ch c).time.launches = [] →
      (x.stepped = false → ∃ u w, exec (.viewExchange c v) s = .next u ∧ w.host = s.host ∧
        Told 0xB001 (1 + chNum c) 0xFF 0 false [v, 1, nsField (s.viewNow (otherCh c) v - s.viewNow c v)] w u ∧
        (w.view c v).state = .locked ∧ (w.view c v).rate = y.rate ∧ w.viewNow c v = s.viewNow (otherCh c) v) ∧
      (x.stepped = true → (s.viewNow (otherCh c) v - s.viewNow c v).natAbs ≤ 4 * 2 ^ 32 →
        ∃ u, exec (.viewExchange c v) s = .next u ∧ u.host = s.host ∧ (u.view c v).state = .locked ∧ (u.view c v).rate = y.rate ∧
          u.viewNow c v = s.viewNow c v)) ∧
    ((s.ch c).time.sysclk = true → (s.pw c).state.hubOn = true → ∃ u w, exec (.sysclkLost c) s = .next u ∧
      Told 0xB007 (1 + chNum c) 0xFF 0 false [] (s.modTime c fun t => { t with sysclk := false }) w ∧ (u.ch c).time.sysclk = false ∧
      u.host = w.host ∧ ∀ k, k < 6 → u.view c k = (if s.viewIs c k 4 = true then { s.view c k with state := .holdover } else s.view c k)) ∧
    ((s.ch c).time.sysclk = false → exec (.sysclkLost c) s = .next s) ∧
    ((s.ch c).time.sysclk = false → (s.pw c).state.hubOn = true → ∃ u, exec (.sysclkReturn c) s = .next u ∧ (u.ch c).time.sysclk = true ∧
      u.host = s.host ∧ ∀ k, k < 6 → (s.viewIs c k 4 = true → (u.view c k).state = .locked ∧ u.viewNow c k = s.viewNow c k) ∧
        (s.viewIs c k 4 = false → u.view c k = s.view c k)) ∧
    (∀ site, exec (.oscCheck site none) s = .next s) ∧
    (s.hostOsc.2 = false → s.pwr.hostOn = true → (∃ u, exec (.oscCheck 0 (some true)) s = .next u ∧
        Told 0xB006 0 0xFF 0 false [0] { s with hostOsc := (1 - s.hostOsc.1, true) } u) ∧
      exec (.oscCheck 0 (some false)) s = .next { s with hostOsc := (s.hostOsc.1, true) }) ∧
    (s.hostOsc.2 = true → ∀ x, exec (.oscCheck 0 x) s = .next s) ∧
    ((s.ch c).time.oscFailed = true → ∀ x, exec (.oscCheck (1 + chNum c) x) s = .next s) ∧
    ((s.ch c).time.oscFailed = false → (s.pw c).state.hubOn = true →
      exec (.oscCheck (1 + chNum c) (some false)) s = .next (s.modTime c fun t => { t with oscFailed := true }) ∧
      ∃ u, exec (.oscCheck (1 + chNum c) (some true)) s = .next u ∧
      Told 0xB006 (1 + chNum c) 0xFF 0 false [1 + chNum c]
        (s.modTime c fun t => { t with osc := 1 - t.osc, oscFailed := true }) u)

/-- TRIG_EDGE and TRIG_MESSAGE complete (R365, R394-R396): a pulse shorter than 5 ns is ignored; an edge at an enabled line is accepted once within 40 ns; a TRIG
message marks every design whose link slots bind its sender. -/
def Clauses.TriggerBus : Prop :=
  ∀ (s : State) (c : Ch),
    (∀ line ns, (4 ≤ line ∨ ns < 5 ∨ (s.pw c).state.hubOn = false) → exec (.trigEdge c line ns) s = .next s) ∧
    (∀ line ns x t, line < 4 → 5 ≤ ns → (s.pw c).state.hubOn = true → x = KV.get ({} : Line) line (s.ch c).time.lines →
      (∀ h ∈ s.channels, (KV.get ({} : Line) line (s.ch h).time.lines).pulseEnd = none) →
      t = s.rawStamp c + (s.reg .timTrigCfg c [line]).toNat % 4096 * 2 ^ 32 / 100 →
      ((s.reg .timTrigCfg c [line]).getLsbD 12 = true → (∀ p, x.last = some p → p + 40 * 2 ^ 32 ≤ t) →
        ∃ u, exec (.trigEdge c line ns) s = .next u ∧ u.host = s.host ∧ u.designs = s.designs ∧
          KV.get ({} : Line) line (u.ch c).time.lines =
            { x with last := some t, stamp := some (viewAt 0 (s.view c 0) (t - s.trigSpan c)), edges := x.edges ++ [t] }) ∧
      (∀ p, x.last = some p → t < p + 40 * 2 ^ 32 → ∃ u, exec (.trigEdge c line ns) s = .next u ∧ u.host = s.host ∧
          KV.get ({} : Line) line (u.ch c).time.lines = x) ∧
      ((s.reg .timTrigCfg c [line]).getLsbD 12 = false → exec (.trigEdge c line ns) s = .next s.freeNext)) ∧
    (∀ src unit frame at' p h t, ArrivedOn s c (some src) (.trig 0 unit frame at') p h t → ∃ u,
      exec (.trigMessage c src unit frame at') s = .next u ∧ u.host = s.host ∧ u.designs = s.designs ∧ u.port c p = t.port c p ∧
      (u.ch c).time.marks = (s.ch c).time.marks ++
        (s.designs.filter (fun d => d.slots.any (fun b => b.remote == src))).map (fun d => (d.tag, src, unit, at')))

/-! ### Twins, pairs and recovery (R313-R329) -/

/-- TWIN_VERDICT completes (R314, R315): with both copies done, equal signatures let the frame commit, different ones are an error within the frame that
names the pairs; with a step missing, or the referee lost, there is no verdict. -/
def Clauses.TwinVerdicts : Prop :=
  ∀ (s : State) (p : Nat) (d : Design), s.designAt p = some d → s.design d.tag = some d →
    ((d.stepsDone = false ∨ s.macsDone d = false ∨ s.mode.refLost = true ∨ d.twinAlive = false) → exec (.twinVerdict p) s = .next s) ∧
    (d.twinAlive = true → d.stepsDone = true → s.macsDone d = true → d.verdict = none → s.mode.refLost = false → s.host.perst = false →
      ((∀ q ∈ d.targets, ∀ l ∈ cabsOfPart q, d.sig l = d.sig (l ^^^ 64)) →
        exec (.twinVerdict p) s = .next (s.modDesign d.tag fun x => { x with verdict := some true })) ∧
      (∀ q l, q ∈ d.targets → l ∈ cabsOfPart q → d.sig l ≠ d.sig (l ^^^ 64) → ∃ u d' k, exec (.twinVerdict p) s = .next u ∧
        u.design d.tag = some d' ∧ d'.verdict = some false ∧ l ∈ d'.verdictMask ∧ d'.errs = d.errs ++ [(.twin, k, 0)] ∧
        d.sig k ≠ d.sig (k ^^^ 64) ∧ d'.cells = d.cells ∧ u.host = s.host ∧ u.parts = s.parts))

/-- QUICK_SLICE_TEST_DONE completes, in TWINNED (R316, R318): a Cabinet of channel A that fails is swapped for the standing spare of its die and its state
is copied from its twin; without a healthy spare the channel is fenced and the other copy runs on; with neither Cabinet failing the mismatch
stays unresolved, which is reported. -/
def Clauses.TwinRepairs : Prop :=
  ∀ (s : State) (p l i die : Nat) (d : Design), s.designAt p = some d → s.design d.tag = some d → d.repairs = [(3, l, 0)] →
    d.twinAlive = true → d.begun = false → l < 64 → s.physOf l = some (.a, die, i) →
    (∀ sp rot, s.spares .a die = [sp, rot] → sp ≠ i → rot ≠ i → rot ≠ sp →
      ∃ u d', exec (.quickSliceTestDone p [(l, true, false)]) s = .next u ∧ u.design d.tag = some d' ∧ d'.repairs = [(6, l, 0)] ∧
        (u.die .a die).phys (l % 32) = some sp ∧ (u.cab .a die i).failed = true ∧ u.chA.fenced = s.chA.fenced ∧ u.parts = s.parts ∧
        d'.frame = d.frame ∧ d'.cells = d.cells ∧ u.chA.health.lasting = s.chA.health.lasting ++ [s.clock] ∧
        u.chA.health.spares = s.chA.health.spares + 1 ∧
        (s.pwr.hostOn = true → Wrote 0x8003 0 d.low d.slot false [l, 0] u)) ∧
    (s.spares .a die = [] → s.designs = [d] → s.loads = [] → d.slots = [] → s.chA.fenced = false →
      ∃ u d', exec (.quickSliceTestDone p [(l, true, false)]) s = .next u ∧ u.chA.fenced = true ∧ u.chB.fenced = s.chB.fenced ∧
        u.design d.tag = some d' ∧ d'.fencedSide = some .a ∧ d'.state = d.state ∧
        (s.mode.mode = .twinned → u.mode.referee = .degraded) ∧
        (s.pwr.hostOn = true → Wrote 0x8003 0 d.low d.slot false [l, 0] u ∧ Wrote 0x8005 0 0xFF 0 false [0, 2] u)) ∧
    (∃ u d', exec (.quickSliceTestDone p []) s = .next u ∧ u.design d.tag = some d' ∧ d'.repairs = [] ∧ d'.unresolvedAt = some s.clock ∧
      u.mode.unresolvedAt = some s.clock ∧ u.chA.dies = s.chA.dies ∧ u.parts = s.parts ∧
      (s.pwr.hostOn = true → Wrote 0x8003 0 d.low d.slot false [l, 3] u ∧ Wrote 0x8004 0 d.low d.slot false [l] u)) ∧
    (d.begun = true → ∀ fails, exec (.quickSliceTestDone p fails) s = .next s)

/-- TWIN_STATE_COPY_DONE completes (R316): the swapped Cabinet holds the committed state of its twin, and the referee watches the next attempt. -/
def Clauses.TwinCopies : Prop :=
  ∀ (s : State) (p l : Nat) (d : Design), s.designAt p = some d → s.design d.tag = some d →
    (d.repairs = [(6, l, 0)] → ∃ u d', exec (.twinStateCopyDone p) s = .next u ∧ u.design d.tag = some d' ∧ d'.repairs = [] ∧
      (d'.cab l).mem = (d.cab (l ^^^ 64)).mem ∧ (d'.cab l).landing = (d.cab (l ^^^ 64)).landing ∧
      (d'.cab l).addrG = (d.cab (l ^^^ 64)).addrG ∧ (∀ k, k ≠ l → d'.cab k = d.cab k) ∧
      (∀ k, k < 1024 → (d'.cellAt (l * 1024 + k)).bank0 = (d.cellAt ((l ^^^ 64) * 1024 + k)).bank0 ∧
        (d'.cellAt (l * 1024 + k)).bank1 = (d.cellAt ((l ^^^ 64) * 1024 + k)).bank1 ∧
        (d'.cellAt (l * 1024 + k)).cur = (d.cellAt ((l ^^^ 64) * 1024 + k)).cur) ∧
      (s.mode.referee = .repair → u.mode.referee = .verify) ∧ u.host = s.host ∧ u.parts = s.parts) ∧
    ((∀ r ∈ d.repairs, r.1 ≠ 6) → exec (.twinStateCopyDone p) s = .next s)

/-- MOD_TWIN_REJOIN and REJOIN_PRECOPY_PASS complete (R320): REJOIN acts only on a DEGRADED referee; a pass reports its residue; once the copy is tested, the residue small and every
twin at a boundary, the fence ends, the referee is armed again and it is reported. -/
def Clauses.Rejoins : Prop :=
  ∀ (s : State),
    (∀ (value : Word32), s.portAnswers = true → value.getLsbD 0 = true → s.mode.referee = .degraded → s.mode.rejoin = none →
      exec (.modTwinRejoin value) s = .next ((s.modMode fun x => { x with rejoin := some 0xFFFFFF, rejoinTested := false }).modCh s.rejoinCh
        fun h => { h with seq := 1 })) ∧
    (∀ (value : Word32), (value.getLsbD 0 = false ∨ s.mode.referee ≠ .degraded) → exec (.modTwinRejoin value) s = .next s) ∧
    (∀ n, s.mode.rejoin = none ∨ s.mode.rejoinTested = false → exec (.rejoinPrecopyPass n) s = .next s) ∧
    (∀ n, s.mode.rejoin.isSome = true → s.mode.rejoinTested = true → 8192 < n →
      exec (.rejoinPrecopyPass n) s = .next (s.modMode fun x => { x with rejoin := some (min n 0xFFFFFF) })) ∧
    (∀ n, s.mode.rejoin.isSome = true → s.mode.rejoinTested = true → n ≤ 8192 →
      (∀ d ∈ s.designs, d.twin = true → (d.state = .stopped ∨ d.atBoundary = true) ∧ d.repairs = []) →
      ∃ u, exec (.rejoinPrecopyPass n) s = .next u ∧ (u.ch s.rejoinCh).fenced = false ∧ u.mode.referee = .armed ∧ u.mode.rejoin = none ∧
        (∀ x ∈ u.designs, x.twin = true → x.fencedSide ≠ some s.rejoinCh) ∧ u.mode.mode = s.mode.mode ∧
        (s.pwr.hostOn = true → ∃ h, h ≤ 600 ∧ Wrote 0x800B 0 0xFF 0 false [chNum s.rejoinCh, h] u))

/-- MOD_PAIR_REPLACE and JOIN_PRECOPY_PASS complete (R326): REPLACE on a primary that runs alone with the same design on both members starts a join; a pass reports its residue; the final
hold makes the pair run as a pair again and is reported. -/
def Clauses.Joins : Prop :=
  ∀ (s : State) (d : Design), s.pairDesign = some d →
    (∀ (value : Word32), s.portAnswers = true → value.getLsbD 0 = true → s.mode.mode = .mirrored → s.mode.primary = true →
      s.mode.solo = true → s.mode.other ≠ .joining → exec (.modPairReplace value) s = .next ((s.modMode fun x =>
        { x with other := .joining, precopy := true, residue := min 0xFFFFFF d.pages }).setSeq 4 0x7F)) ∧
    (∀ (value : Word32), (value.getLsbD 0 = false ∨ s.mode.mode ≠ .mirrored ∨ s.mode.primary = false ∨ s.mode.solo = false) →
      exec (.modPairReplace value) s = .next s) ∧
    (∀ n, s.mode.other ≠ .joining → exec (.joinPrecopyPass n) s = .next s) ∧
    (∀ n, s.mode.other = .joining → 256 * s.joinLimit < min n 0xFFFFFF → exec (.joinPrecopyPass n) s =
      .next (s.modMode fun x => { x with residue := min n 0xFFFFFF, precopy := true })) ∧
    (∀ n, s.mode.other = .joining → min n 0xFFFFFF ≤ 256 * s.joinLimit → d.atBoundary = true → d.repairs = [] →
      ∃ u, exec (.joinPrecopyPass n) s = .next u ∧ u.mode.other = .paired ∧ u.mode.solo = false ∧ u.mode.precopy = false ∧
        u.mode.residue = 0 ∧ u.mode.primary = s.mode.primary ∧ u.designs = s.designs ∧
        (s.pwr.hostOn = true → ∃ h, h ≤ 1000 ∧ Wrote 0x800A 0 0xFF 0 false [h] u))

/-- REFEREE_LOST, SEQUENCER_LOST and CONTROLLER_HEARTBEAT complete (R327-R329): the loss of the referee or of a sequencer is reported once and a heartbeat ends it; in TWINNED the
hubs hold their commits without a referee, and the loss of a sequencer fences its channel; in a pair that runs the module leaves it. -/
def Clauses.Controllers : Prop :=
  ∀ (s : State) (c : Ch),
    (s.mode.refLost = false → ∃ u v, exec .refereeLost s = .next u ∧ Told 0x8006 0 0xFF 0 false [] v u ∧ v.host = s.host ∧
      v.mode = { s.mode with refLost := true } ∧ v.designs = s.designs ∧
      ∀ h ∈ s.channels, (v.ch h).refLost = true ∧ (v.ch h).holding = ((s.ch h).holding || decide (s.mode.mode = .twinned))) ∧
    (s.mode.refLost = true → exec .refereeLost s = .next s) ∧
    ((if c = .a then s.mode.seqLostA else s.mode.seqLostB) = true → exec (.sequencerLost c) s = .next s) ∧
    ((if c = .a then s.mode.seqLostA else s.mode.seqLostB) = false →
      (s.mode.mode ≠ .twinned → s.mode.mode ≠ .mirrored → ∃ u v, exec (.sequencerLost c) s = .next u ∧
        Told 0x8007 0 0xFF 0 false [chNum c] v u ∧ v.host = s.host ∧ v.designs = s.designs ∧ v.mode.mode = s.mode.mode ∧
        (if c = .a then v.mode.seqLostA else v.mode.seqLostB) = true ∧
        (if c = .a then v.mode.seqLostB else v.mode.seqLostA) = (if c = .a then s.mode.seqLostB else s.mode.seqLostA)) ∧
      (s.mode.mode = .twinned → s.loads = [] → s.designs = [] → (s.ch c).fenced = false → ∃ u, exec (.sequencerLost c) s = .next u ∧
        (u.ch c).fenced = true ∧ (u.ch (otherCh c)).fenced = (s.ch (otherCh c)).fenced ∧ u.mode.referee = .degraded ∧
        (s.pwr.hostOn = true → Wrote 0x8007 0 0xFF 0 false [chNum c] u ∧ Wrote 0x8005 0 0xFF 0 false [chNum c, 3] u)) ∧
      (s.pairRuns = true → s.designs = [] → ∃ u, exec (.sequencerLost c) s = .next u ∧ u.mode.left = true ∧ u.mode.primary = false ∧
        u.mode.partner = false ∧ (s.pwr.hostOn = true → Wrote 0x8007 0 0xFF 0 false [chNum c] u))) ∧
    (∃ u, exec (.controllerHeartbeat 0) s = .next u ∧ u.mode = { s.mode with refLost := false } ∧ u.host = s.host ∧
      ∀ h ∈ s.channels, (u.ch h).refLost = false ∧ (u.ch h).holding = false) ∧
    exec (.controllerHeartbeat 1) s = .next (s.modMode fun x => { x with seqLostA := false }) ∧
    exec (.controllerHeartbeat 2) s = .next (s.modMode fun x => { x with seqLostB := false })

/-- RECOVERY_CONTINUE, RECOVERY_FENCE and RECOVERY_STOP complete (R328): CONTINUE lets channel A run on uncompared, FENCE fences the hub's channel and the other copy runs on,
STOP stops the design at its last commit; a choice without a lost referee is ignored with an event (log entry 4: its code is open). -/
def Clauses.RecoveryChoices : Prop :=
  ∀ (s : State) (c : Ch),
    ((s.ch c).refLost = false → ∀ i, i = .recoveryContinue c ∨ i = .recoveryFence c ∨ i = .recoveryStop c →
      ∃ v, Told (s.free.toNat % 65536) (1 + chNum c) 0xFF 0 false [] s v ∧ exec i s = .next v.freeNext) ∧
    (s.chA.refLost = true → ∃ u, exec (.recoveryContinue .a) s = .next u ∧ u.chA.holding = false ∧ u.host = s.host ∧ u.parts = s.parts ∧
      u.designs = s.designs.map (fun x => if x.twinAlive = true then { x with fencedSide := some .b } else x)) ∧
    (∀ d i, s.designs = [d] → s.loads = [] → (s.ch c).refLost = true → (s.ch c).fenced = false → d.twinAlive = true → d.slots = [] →
      (i = .recoveryFence c ∨ (i = .recoveryContinue c ∧ c = .b)) →
      ∃ u d', exec i s = .next u ∧ (u.ch c).fenced = true ∧ (u.ch c).holding = false ∧
        (u.ch (otherCh c)).fenced = (s.ch (otherCh c)).fenced ∧ u.design d.tag = some d' ∧ d'.fencedSide = some c ∧ d'.state = d.state ∧
        d'.frame = d.frame ∧ (∀ q, KV.get {} q u.parts =
          if q ∈ d.allParts ∧ chOfPart q = c then { s.part q with state := .fenced } else s.part q) ∧
        (s.pwr.hostOn = true → Wrote 0x8005 0 0xFF 0 false [chNum c, 4] u)) ∧
    (∀ d, s.designs = [d] → (s.ch c).refLost = true → d.twin = true → d.fencedSide = none → d.begun = false → d.run = none →
      d.state = .running → ∃ u d', exec (.recoveryStop c) s = .next u ∧ u.design d.tag = some d' ∧ d'.state = .stopped ∧
        d'.frame = d.frame ∧ d'.cells = d.cells ∧ (u.ch c).holding = false ∧
        (s.pwr.hostOn = true → Wrote 0x1103 (1 + chNum d.ch) d.low d.slot false [Status.fenced.code, 1] u)) ∧
    ((s.ch c).refLost = true → s.designs = [] → exec (.recoveryStop c) s = .next (s.modCh c fun h => { h with holding := false }))

/-- TWIN_HEARTBEAT_SEND, TWIN_HEARTBEAT, TWIN_SIGNATURE, TWIN_INPUT and CONFIRM complete (R321, R322, R325): heartbeats go on working mirror ports and mark the time of the last message; the partner keeps
the primary's signatures, and its inputs until their frame has committed, after which an intake window's words are in memory; a primary ends a
frame's mismatch with a zero mask and tests the named Cabinets at the second non-zero one. -/
def Clauses.PairMessages : Prop :=
  ∀ (s : State) (c : Ch) (p : Nat),
    (s.mode.mode = .mirrored → (s.mirrorPorts c).contains p = true → exec (.twinHeartbeatSend c p) s = .next (s.sendOn c p .twinHeartbeat)) ∧
    (s.mode.mode ≠ .mirrored ∨ (s.mirrorPorts c).contains p = false → exec (.twinHeartbeatSend c p) s = .next s) ∧
    (∀ h t, s.mode.mode = .mirrored → (s.mirrorPorts c).contains p = true → Arrived s c p none .twinHeartbeat h t →
      exec (.twinHeartbeat c p) s = .next (t.modMode fun x => { x with twinLastAt := s.clock })) ∧
    ((s.mirrorPorts c).contains p = false → exec (.twinHeartbeat c p) s = .next s) ∧
    (∀ (frame : BitVec 48) (first : Nat) (sigs : List Word64) q h t, ArrivedTwin s c (.twinSignature frame first sigs) q h t →
      (s.pairRuns = false ∨ s.mode.partner = false → exec (.twinSignature c frame first sigs) s = .next t) ∧
      (s.pairRuns = true → s.mode.partner = true → ∃ u, exec (.twinSignature c frame first sigs) s = .next u ∧
        u.mode.sigs = s.mode.sigs.filter (fun e => !(e.1 == frame && e.2.1 == first)) ++ [(frame, first, sigs)] ∧
        u.mode.twinLastAt = s.clock ∧ u.host = s.host ∧
        (∀ d, s.pairDesign = some d → s.design d.tag = some d → s.canRun d = true → BitVec.ofNat 48 d.frame = frame →
          ∃ d', u.design d.tag = some d' ∧ d'.state = .running ∧ d'.waitPartner = true ∧ d'.frame = d.frame) ∧
        (s.pairDesign = none → u.designs = s.designs))) ∧
    (∀ (frame : BitVec 48) (port kind : Nat) (writes : List (Nat × Word64)) (d : Design) q h t,
      ArrivedTwin s c (.twinInput frame port kind writes) q h t → s.pairRuns = true → s.mode.partner = true →
      (s.mport (chOf (port / 128)) (port % 128)).design.bind s.design = some d →
      ((laterFrame (BitVec.ofNat 48 d.frame) frame = false ∨ d.begun = true) → ∃ u, exec (.twinInput c frame port kind writes) s = .next u ∧
        u.designs = s.designs ∧ u.mode.inputs = s.mode.inputs ++ [(frame, port, kind, writes)]) ∧
      (∀ w a b, laterFrame (BitVec.ofNat 48 d.frame) frame = true → d.begun = false → kind = 0 → writes = [(a, b)] →
        (s.mport (chOf (port / 128)) (port % 128)).inWin = some w →
        ∃ u d', exec (.twinInput c frame port kind writes) s = .next u ∧ u.design d.tag = some d' ∧
          KV.get 0 a (d'.cab w.cab).mem = b ∧ (∀ k, k ≠ a → KV.get 0 k (d'.cab w.cab).mem = KV.get 0 k (d.cab w.cab).mem) ∧
          d'.cells = d.cells ∧ u.mode.inputs = s.mode.inputs)) ∧
    (∀ (frame : BitVec 48) (mask : BitVec 128) q h t, ArrivedTwin s c (.confirm frame mask) q h t → s.pairRuns = true → s.mode.primary = true →
      (mask = 0 → s.pairDesign = none → exec (.confirm c frame mask) s =
        .next (t.modMode fun x => { x with twinLastAt := s.clock, confirmed := frame + 1, mismatchAt := none })) ∧
      (mask ≠ 0 → s.mode.mismatchAt ≠ some frame → exec (.confirm c frame mask) s =
        .next (t.modMode fun x => { x with twinLastAt := s.clock, mismatchAt := some frame })) ∧
      (∀ d, mask ≠ 0 → s.mode.mismatchAt = some frame → s.pairDesign = some d → s.design d.tag = some d → d.unresolvedAt = none →
        ∃ u d', exec (.confirm c frame mask) s = .next u ∧ u.design d.tag = some d' ∧ u.host = s.host ∧
          ∀ l, l < 128 → (mask.getLsbD l = true → (3, l, 0) ∈ d'.repairs) ∧ (l ∈ d'.verdictMask ↔ mask.getLsbD l = true)))

/-- TWIN_FAULT and PARTNER_LOST complete (R324, R325): TWIN FAULT, or 200 µs without a message, promotes a partner, which tells every module, and lets a primary
run alone; either is reported. -/
def Clauses.PairEnds : Prop :=
  ∀ (s : State) (c : Ch) (i : Instr) (cause : Nat),
    (i = .twinFault c ∧ cause = 3 ∧ (∃ p h t, ArrivedTwin s c .twinFault p h t) ∨ i = .partnerLost ∧ cause = 4 ∧ s.mode.twinLastAt + 200000 ≤ s.clock) → s.pairRuns = true →
    (∀ d ∈ s.designs, d.outQ = []) →
    (s.mode.partner = false → ∃ u, exec i s = .next u ∧ u.mode.solo = true ∧ u.mode.other = .lost ∧ u.mode.primary = s.mode.primary ∧
      (s.pwr.hostOn = true → Wrote 0x8009 0 0xFF 0 false [cause] u)) ∧
    (s.mode.partner = true → ∃ u, exec i s = .next u ∧ u.mode.solo = true ∧ u.mode.other = .lost ∧ u.mode.primary = true ∧
      u.mode.partner = false ∧ (s.pwr.hostOn = true → Wrote 0x8008 0 0xFF 0 false [(s.designs.map (·.frame)).foldl max 0] u)) ∧
    (s.clock < s.mode.twinLastAt + 200000 → exec .partnerLost s = .next s)

/-- TWIN_STATE, PAIR_PRIMARY and STOP_AT complete (R321, R325, R326, R214): the other member's design descriptor is kept; a byte of committed state
reaches its place in cabinet memory; the member that is primary is remembered; a design that the sender stops, stops after the frame named,
or at once where it has committed that frame. -/
def Clauses.PairState : Prop :=
  ∀ (s : State) (c : Ch) (src : Nat),
    (∀ frame data q h t, ArrivedTwin s c (.twinState frame 0xFFFFFFFFFF data) q h t → s.mode.mode = .mirrored →
      (∀ d ∈ s.designs, d.descriptor ≠ data) → exec (.twinState c frame 0xFFFFFFFFFF data) s = .next (t.modMode fun x => { x with twinLastAt := s.clock, descriptor := data })) ∧
    (∀ frame b d cab a q h t, ArrivedTwin s c (.twinState frame (2 ^ 36 + cab * 2 ^ 20 + a) [b]) q h t → s.mode.mode = .mirrored → s.mode.primary = false → s.pairDesign = some d → s.design d.tag = some d → cab < 128 →
      a < 2 ^ 20 →
      ∃ u d', exec (.twinState c frame (2 ^ 36 + cab * 2 ^ 20 + a) [b]) s = .next u ∧ u.design d.tag = some d' ∧ u.host = s.host ∧
        KV.get 0 (a / 8) (d'.cab cab).mem = putByte (KV.get 0 (a / 8) (d.cab cab).mem) (a % 8) b ∧
        (∀ k, k ≠ a / 8 → KV.get 0 k (d'.cab cab).mem = KV.get 0 k (d.cab cab).mem) ∧ (∀ l, l ≠ cab → d'.cab l = d.cab l)) ∧
    (∀ frame offset data q h t, ArrivedTwin s c (.twinState frame offset data) q h t → s.mode.mode ≠ .mirrored →
      exec (.twinState c frame offset data) s = .next t) ∧
    (∀ member p h t, ArrivedOn s c (some src) (.pairPrimary 0 member) p h t → exec (.pairPrimary ⟨c, src⟩ member) s =
      .next (t.modMode fun x => { x with pairPrimary := KV.put 64 src member s.mode.pairPrimary })) ∧
    (∀ frame d p h t, ArrivedOn s c (some src) (.stopAt 0 frame) p h t → s.designs = [d] →
      ((d.state ≠ .running ∧ d.state ≠ .stopping ∨ s.stopsFor d src = false) → exec (.stopAt c src frame) s = .next t) ∧
      ((d.state = .running ∨ d.state = .stopping) → s.stopsFor d src = true →
        (laterFrame (BitVec.ofNat 48 d.frame) frame = false → exec (.stopAt c src frame) s =
          .next { t with designs := [{ d with stopAfter := some frame }] }) ∧
        (laterFrame (BitVec.ofNat 48 d.frame) frame = true → d.begun = false → d.run = none → d.stops = [] →
          ∃ u d', exec (.stopAt c src frame) s = .next u ∧ u.design d.tag = some d' ∧ d'.state = .stopped ∧ d'.frame = d.frame ∧
            (s.pwr.hostOn = true → Wrote 0x1103 (1 + chNum d.ch) d.low d.slot false [Status.ok.code, 3] u))))

/-! ### Rolling test, wires, patrol, stores (R333-R349) -/

/-- SLICE_START, SLICE_PRELOAD_DONE and SLICE_SWAP complete (R333, R335-R338): a slice starts where none pauses it and chooses the next Cabinet in turn; one of a loaded design is preloaded
first, then waits for the frame boundary; the swap frees the Cabinet for its test and puts the rotating spare in its place; a begun frame keeps
it in place. -/
def Clauses.Slices : Prop :=
  ∀ (s : State) (c : Ch) (die : Nat) (x : DieSt) (image : ImageRead), x = s.die c die →
    ((s.sliceMay c die = false ∨ x.slice ≠ .idle) → exec (.sliceStart c die) s = .next s) ∧
    (s.sliceMay c die = true → x.slice = .idle → s.sliceSkips c die (x.next % 32) = false →
      exec (.sliceStart c die) s = .next (s.modDie c die fun y => { y with
        slice := if s.designs.any (fun d => d.span.contains (64 * chNum c + 32 * die + x.next % 32)) then .preload else .waitBoundary,
        chosen := some (x.next % 32), next := (x.next % 32 + 1) % 32 })) ∧
    (∀ i, x.slice = .preload → x.chosen = some i →
      (s.designs.any (fun d => d.span.contains (64 * chNum c + 32 * die + i)) = false →
        exec (.slicePreloadDone c ⟨die, image⟩) s = .next (s.modDie c die fun y => { y with slice := .idle, chosen := none })) ∧
      (∀ d v, s.designs.find? (fun d => d.span.contains (64 * chNum c + 32 * die + i)) = some d →
        v = s.imageRead (64 * chNum c + 32 * die + i) image →
        (image = .good → v = s) ∧
        ((image = .good ∨ d.twinAlive = true) →
          exec (.slicePreloadDone c ⟨die, image⟩) s = .next (v.modDie c die fun y => { y with slice := .waitBoundary })) ∧
        (image ≠ .good → d.twinAlive = false → exec (.slicePreloadDone c ⟨die, image⟩) s =
          .next ((v.modDie c die fun y => { y with slice := .idle, chosen := none }).imageLost d)))) ∧
    (x.slice ≠ .preload → exec (.slicePreloadDone c ⟨die, image⟩) s = .next s) ∧
    (∀ i new old ns l dd, x.slice = .waitBoundary → x.chosen = some i → x.rotating = some new → x.phys i = some old → new ≠ old →
      l = 64 * chNum c + 32 * die + i → dd = s.designs.find? (fun d => d.span.contains l) →
      ((∀ d, dd = some d → d.begun = false ∧ s.cabQuiet d l = true ∧ ∀ r ∈ d.repairs, r.2.1 ≠ l) → (s.cab c die old).repairDue = false →
        (s.part (partOfCab l)).state ≠ .loading →
        ∃ u, exec (.sliceSwap c die ns) s = .next u ∧ u.host = s.host ∧ (u.die c die).slice = .test ∧
          (u.die c die).phys i = some new ∧ (u.die c die).freed = some old ∧ (u.die c die).rotating = none ∧
          (u.die c die).standing = x.standing ∧ (∀ j, j ≠ i → (u.die c die).phys j = x.phys j) ∧
          (u.cab c die old).march = some { run := 0, design := none } ∧
          (dd = none → u.designs = s.designs ∧ (u.ch c).lastHold = (s.ch c).lastHold) ∧
          (∀ d, dd = some d → u.designs = (s.modDesign d.tag fun y => y.repaired l).designs)) ∧
      ((s.cab c die old).repairDue = true → dd = none → (s.part (partOfCab l)).state ≠ .loading → exec (.sliceSwap c die ns) s =
        .next (s.modDie c die fun y => { y with slice := .idle, chosen := none })) ∧
      ((s.part (partOfCab l)).state = .loading → exec (.sliceSwap c die ns) s = .next s) ∧
      (∀ d, dd = some d → (d.begun = true ∨ s.cabQuiet d l = false) → exec (.sliceSwap c die ns) s = .next s)) ∧
    (∀ ns, x.slice ≠ .waitBoundary → exec (.sliceSwap c die ns) s = .next s)

/-- CABINET_TEST_DONE completes (R26, R335, R337): a freed Cabinet that can still form sixteen Benches becomes the standing spare; one that cannot, or whose
test failed in a part without a spare, is marked failed with one event, sealed where a design ran on it. -/
def Clauses.CabinetTests : Prop :=
  ∀ (s : State) (c : Ch) (die i j : Nat) (obs : CabTest) (x : DieSt), x = s.die c die → x.slice = .test → x.freed = some i →
    x.rotating = none → x.standing = some j → x.healthy j = true → j ≠ i → ((s.cab c die i).tested obs).ageWarn = false →
    (obs.partFailed = false → (s.cab c die i).marchFailed = false → x.healthy i = true → ((s.cab c die i).tested obs).formsCabinet = true →
      ∃ u, exec (.cabinetTestDone c die obs) s = .next u ∧ u.host = s.host ∧ u.designs = s.designs ∧ (u.die c die).slice = .idle ∧
        (u.die c die).freed = none ∧ (u.die c die).standing = some i ∧ (u.die c die).rotating = some j ∧ (u.die c die).map = x.map ∧
        (u.cab c die i).failed = (s.cab c die i).failed ∧ (u.cab c die i).drift = obs.drift ∧ (u.cab c die i).measured = true ∧
        (∀ j, j ≠ i → u.cab c die j = s.cab c die j) ∧ u.reg .bstSlices c [] = satAdd (s.reg .bstSlices c []) 1) ∧
    ((obs.partFailed = true ∨ (s.cab c die i).marchFailed = true ∨ ((s.cab c die i).tested obs).formsCabinet = false) →
      ∃ u, exec (.cabinetTestDone c die obs) s = .next u ∧ (u.die c die).slice = .idle ∧ (u.die c die).freed = none ∧
        (u.die c die).standing = some j ∧ (u.die c die).map = x.map ∧ (u.cab c die i).failed = true ∧ u.designs = s.designs ∧
        u.reg .bstSliceFails c [] = satAdd (s.reg .bstSliceFails c []) 1 ∧
        (s.pwr.hostOn = true →
          (s.design x.freedOwner = none →
            Wrote 0x9001 (1 + chNum c) 0xFF 0 false [die, i, x.freedFrame, (s.cab c die i).lastPass] u) ∧
          (∀ d, s.design x.freedOwner = some d →
            Wrote 0x9001 (1 + chNum d.ch) d.low d.slot true [die, i, x.freedFrame, (s.cab c die i).lastPass] u)))

/-- SLICE_NOW and PATROL_RESTART complete, the writes of BST_CTRL (R333, R342): a write stores the enables; SLICE_NOW starts a slice on each die that may; PATROL_EN written 0 ends STOPPED; a write
that cannot cross is counted as a bus timeout. -/
def Clauses.SelfTestControl : Prop :=
  ∀ (s : State) (c : Ch) (value : Word32), s.portAnswers = true →
    ((s.pw c).state.hubOn = true →
      (∃ u, exec (.patrolRestart c value) s = .next u ∧ u.host = s.host ∧ u.designs = s.designs ∧
        (∀ b, b < 3 → (u.reg .bstCtrl c []).getLsbD b = value.getLsbD b) ∧
        (value.getLsbD 2 = false → (u.die c 0).patrolStopped = false ∧ (u.die c 1).patrolStopped = false ∧ (u.die c 0).disagreeAt = []) ∧
        (value.getLsbD 2 = true → (u.ch c).dies = (s.ch c).dies)) ∧
      (value.getLsbD 3 = false → exec (.sliceNow c value) s = exec (.patrolRestart c value) s) ∧
      (value.getLsbD 3 = true → value.getLsbD 2 = true → ∃ u v, exec (.patrolRestart c value) s = .next v ∧
        exec (.sliceNow c value) s = .next u ∧ u.host = s.host ∧ u.designs = s.designs ∧
        (∀ b, b < 3 → (u.reg .bstCtrl c []).getLsbD b = value.getLsbD b) ∧
        ∀ die, die < 2 → (v.sliceMay c die = true → (s.die c die).slice = .idle →
          v.sliceSkips c die ((s.die c die).next % 32) = false → (u.die c die).chosen = some ((s.die c die).next % 32) ∧
            ((u.die c die).slice = .preload ∨ (u.die c die).slice = .waitBoundary)) ∧
          (v.sliceMay c die = false → u.die c die = s.die c die))) ∧
    ((s.pw c).state.hubOn = false → ∀ i, i = .sliceNow c value ∨ i = .patrolRestart c value →
      (∃ u, exec i s = .next u ∧ u.designs = s.designs ∧ u.reg .hpBusTimeouts .a [] = satAdd (s.reg .hpBusTimeouts .a []) 1 ∧
        u.reg .bstCtrl c [] = s.reg .bstCtrl c [] ∧
        (s.pwr.hostOn = true → s.host.busTimeoutMs ≠ some (s.clock / 1000000) → Wrote 0x0002 0 0xFF 0 false [regOff .bstCtrl c []] u)))

/-- WIRE_ROTATION and WIRE_TEST_DONE complete (R340): the next wire of a group with a healthy spare moves onto it; a freed wire that passes its test leaves things as they were,
one that fails marks its group with one event. -/
def Clauses.Wires : Prop :=
  ∀ (s : State) (c : Ch) (link : Nat) (x : FLink), x = s.flink c link →
    (∀ w, w = x.nextWire % wireCount link → (s.reg .bstCtrl c []).getLsbD 1 = true → endOk link = true → x.failed = false → x.check = 0 →
      x.testing = none → (s.pw c).state.hubOn = true → (∀ y ∈ x.lanes, wireGroup link y ≠ wireGroup link w) →
      exec (.wireRotation c link) s =
        .next (s.modFlink c link fun y => { y with testing := some w, nextWire := (w + 1) % wireCount link })) ∧
    (((s.reg .bstCtrl c []).getLsbD 1 = false ∨ endOk link = false ∨ x.failed = true ∨ x.check ≠ 0 ∨ x.testing.isSome = true) →
      exec (.wireRotation c link) s = .next s) ∧
    (∀ ok, x.testing = none → exec (.wireTestDone c link ok) s = .next s) ∧
    (∀ w, x.testing = some w →
      (∃ u, exec (.wireTestDone c link true) s = .next u ∧ u.host = s.host ∧ u.designs = s.designs ∧
        u.flink c link = { x with testing := none, spareAt := KV.put 0 (wireGroup link w) (w + 1) x.spareAt }) ∧
      ((isMesh link = false ∨ (insKey w x.lanes).length < wireGroups link) → ∃ u v, exec (.wireTestDone c link false) s = .next u ∧
        Told 0x9006 (1 + chNum c) 0xFF 0 false [if isMesh link = true then meshDie link else chNum c,
          if isMesh link = true then (link - 12) % 256 else endPort link, w] v u ∧
        v.host = s.host ∧ v.flink c link = { x with testing := none, lanes := insKey w x.lanes } ∧
        v.reg .bstWireFails c [] = satAdd (s.reg .bstWireFails c []) 1))

/-- PATROL_PASS completes (R341, R342): a good pass changes nothing but its time-stamped disagreements; a tile that reads well the second time is
reported as transient; sixteen disagreements within 1 s stop the patrol of the die with one event, and a stopped patrol does nothing. -/
def Clauses.Patrol : Prop :=
  ∀ (s : State) (c : Ch) (die : Nat) (x : DieSt), x = s.die c die → c ∈ s.channels → die < 2 → (s.pw c).state.arrayOn = true →
    (∀ bad n, (x.patrolStopped = true ∨ (s.reg .bstCtrl c []).getLsbD 2 = false) → exec (.patrolPass c die bad n) s = .next s) ∧
    (x.patrolStopped = false → (s.reg .bstCtrl c []).getLsbD 2 = true →
      (∀ n, (x.disagreeAt.filter (fun t => decide (s.clock < t + 10 ^ 9))).length + min 16 n < 16 →
        ∃ u, exec (.patrolPass c die [] n) s = .next u ∧ u.host = s.host ∧ u.designs = s.designs ∧
          u.die c die = { x with disagreeAt := x.disagreeAt.filter (fun t => decide (s.clock < t + 10 ^ 9)) ++ List.replicate (min 16 n) s.clock } ∧
          u.reg .bstPatrolDisagree c [] = satAdd (s.reg .bstPatrolDisagree c []) n) ∧
      (∀ n, 16 ≤ n → ∃ u v, exec (.patrolPass c die [] n) s = .next u ∧ Told 0x9005 (1 + chNum c) 0xFF 0 false [die] v u ∧
        v.host = s.host ∧ v.designs = s.designs ∧ (v.die c die).patrolStopped = true) ∧
      (∀ o : PatrolObs, (s.cab c die o.cab).failed = false → ((s.cab c die o.cab).bench o.bench).retired = false →
        ((s.cab c die o.cab).bench o.bench).failed.contains o.cell = false → o.rereadOk = true → o.cab < 34 → o.bench < 17 → s.designOfPhys c die o.cab = none → x.disagreeAt = [] →
        ∃ u, exec (.patrolPass c die [o] 0) s = .next u ∧ u.designs = s.designs ∧ (u.die c die).cabs = x.cabs ∧
          u.reg .bstPatrolMismatch c [] = satAdd (s.reg .bstPatrolMismatch c []) 1 ∧
          u.reg .benchTileTransient c [die, o.cab, o.bench] = satAdd (s.reg .benchTileTransient c [die, o.cab, o.bench]) 1 ∧
          (s.pwr.hostOn = true → Wrote 0x1001 (1 + chNum c) 0xFF 0 false [die, o.cab, o.bench] u)))

/-- STORE_BLOCK_RETIRED completes (R348, R349): a block of a store goes to one of its spare blocks, which is reported; with none left NO_SPARE is set and
that is reported. -/
def Clauses.StoreBlocks : Prop :=
  ∀ (s v : State) (store block : Nat) (t : Store),
    (store = 0 ∧ t = s.store ∧ v = { s with store := t.retire block } ∨
      store = 1 ∧ t = s.chA.store ∧ v = s.modCh .a (fun h => { h with store := t.retire block }) ∨
      store = 2 ∧ t = s.chB.store ∧ v = s.modCh .b (fun h => { h with store := t.retire block })) →
    (t.sparesLeft ≠ 0 → t.retire block = { t with sparesLeft := t.sparesLeft - 1, retired := t.retired + 1, blocks := t.blocks ++ [block] } ∧
      ∃ u, exec (.storeBlockRetired store block) s = .next u ∧ Told 0x9007 store 0xFF 0 false [store, block] v u) ∧
    (t.sparesLeft = 0 → t.retire block = { t with noSpare := true } ∧
      ∃ u, exec (.storeBlockRetired store block) s = .next u ∧ Told 0x9008 store 0xFF 0 false [store] v u)

/-! ### The obligations made of the clauses above -/

/-- What reset leaves: ResetMemory, ResetState. -/
def Obligations.ResetLeaves : Prop := Clauses.ResetMemory ∧ Clauses.ResetState

/-- The tamper latch, FENCE and NOP over every command of the rings: LatchCompletesTamper, FenceHolds, NopCompletes. -/
def Obligations.RingCommandRules : Prop := Clauses.LatchCompletesTamper ∧ Clauses.FenceHolds ∧ Clauses.NopCompletes

/-- SET_MODE and SET_POWER: SetMode, SetPower. -/
def Obligations.ModesAndPower : Prop := Clauses.SetMode ∧ Clauses.SetPower

/-- ASSIGN, RECLAIM, OPEN_SLOT and CLOSE_SLOT: AssignReclaim, Slots. -/
def Obligations.Tenancy : Prop := Clauses.AssignReclaim ∧ Clauses.Slots

/-- RUN, STEP and STOP: RunStep, StopRequests. -/
def Obligations.RunAndStop : Prop := Clauses.RunStep ∧ Clauses.StopRequests

/-- UNLOAD and ABORT: UnloadEmpties, AbortCommands. -/
def Obligations.UnloadAndAbort : Prop := Clauses.UnloadEmpties ∧ Clauses.AbortCommands

/-- STATS, MARCH_OK, SET_FUNCTION and SET_TOPOLOGY: StatsMarch, SetFunction, SetTopology. -/
def Obligations.StatsFunctionTopology : Prop := Clauses.StatsMarch ∧ Clauses.SetFunction ∧ Clauses.SetTopology

/-- Key ranges: assigning, releasing, modes, clearing: RangeCommands, RangeCleared. -/
def Obligations.KeyRanges : Prop := Clauses.RangeCommands ∧ Clauses.RangeCleared

/-- Timed launches: placing and firing: Launches, LaunchesFire. -/
def Obligations.LaunchEntries : Prop := Clauses.Launches ∧ Clauses.LaunchesFire

/-- Time views: commands and registers: ViewCommands, Views. -/
def Obligations.TimeViews : Prop := Clauses.ViewCommands ∧ Clauses.Views

/-- CAPTURE_START, CAPTURE_STOP, TRIG_SET and TRIG_CLEAR (log entry 18: when they take effect): CaptureCommands, TriggerUnits. -/
def Obligations.CaptureAndTriggers : Prop := Clauses.CaptureCommands ∧ Clauses.TriggerUnits

/-- Probe pins and trace ranges: ProbePins, TraceRanges. -/
def Obligations.ProbesAndTrace : Prop := Clauses.ProbePins ∧ Clauses.TraceRanges

/-- Delivery of the capture and trace streams: CaptureDelivery, TraceDelivery. -/
def Obligations.StreamDelivery : Prop := Clauses.CaptureDelivery ∧ Clauses.TraceDelivery

/-- Messages into a design: MessageAccepted, MessageDelivered. -/
def Obligations.MessagesIn : Prop := Clauses.MessageAccepted ∧ Clauses.MessageDelivered

/-- Messages out of a design, and from the links (log entry 19): OutletWritten, MessageFromLink. -/
def Obligations.MessagesOut : Prop := Clauses.OutletWritten ∧ Clauses.MessageFromLink

/-- Work items of a tenant: WorkItems. -/
def Obligations.WorkItemCommands : Prop := Clauses.WorkItems

/-- Dispatch and completion of scheduler units: EngineTakesUnit, UnitRuns. -/
def Obligations.EngineUnits : Prop := Clauses.EngineTakesUnit ∧ Clauses.UnitRuns

/-- Output areas and spare engines: AreaWritten, EngineSpares. -/
def Obligations.HubMaintenance : Prop := Clauses.AreaWritten ∧ Clauses.EngineSpares

/-- LOAD: its checks and what it leaves: LoadChecked, LoadCompletes. -/
def Obligations.Loading : Prop := Clauses.LoadChecked ∧ Clauses.LoadCompletes

/-- SPDM requests and sessions: SpdmRequests, Sessions. -/
def Obligations.SpdmSessions : Prop := Clauses.SpdmRequests ∧ Clauses.Sessions

/-- CLAIM, debug tokens and the lifecycle: Claims, DebugTokens, LifecycleChanges. -/
def Obligations.OwnershipAndLifecycle : Prop := Clauses.Claims ∧ Clauses.DebugTokens ∧ Clauses.LifecycleChanges

/-- Installing, listing and removing keys: Keys. -/
def Obligations.KeyInstallation : Prop := Clauses.Keys

/-- Register reads and writes: RegisterWrites, RegisterReads, BudgetWrite. -/
def Obligations.Registers : Prop := Clauses.RegisterWrites ∧ Clauses.RegisterReads ∧ Clauses.BudgetWrite

/-- Ring control, consumed counts and signals: RingSwitch, ConsumedAndTimer. -/
def Obligations.RingRegisters : Prop := Clauses.RingSwitch ∧ Clauses.ConsumedAndTimer

/-- Doorbells and the checks of descriptors: Doorbells, DescriptorChecked. -/
def Obligations.RingDescriptors : Prop := Clauses.Doorbells ∧ Clauses.DescriptorChecked

/-- HBM reads, the write buffer and the host window: ReadReturns, DrainWrites, HdmWindow. -/
def Obligations.HbmTraffic : Prop := Clauses.ReadReturns ∧ Clauses.DrainWrites ∧ Clauses.HdmWindow

/-- Spare pseudo-channels, refresh, heat, and marches: PseudoChannelSpare, RefreshAndHeat, Marches. -/
def Obligations.HbmCareAndMarches : Prop := Clauses.PseudoChannelSpare ∧ Clauses.RefreshAndHeat ∧ Clauses.Marches

/-- The base load deadline and a delivery: BaseDeadline, DeliveryBegins. -/
def Obligations.BaseDelivery : Prop := Clauses.BaseDeadline ∧ Clauses.DeliveryBegins

/-- Verification and chaining of a base image: BaseVerified, ChainStream. -/
def Obligations.BaseImage : Prop := Clauses.BaseVerified ∧ Clauses.ChainStream

/-- Power walks of a channel and the power of the module: PowerWalks, ModulePower. -/
def Obligations.PowerStates : Prop := Clauses.PowerWalks ∧ Clauses.ModulePower

/-- A tamper trigger wipes keys and scratchpads and latches: TamperResponse. -/
def Obligations.TamperErases : Prop := Clauses.TamperResponse

/-- Resets of the host port and PERST_N: HostPortResets, Perst. -/
def Obligations.HostResets : Prop := Clauses.HostPortResets ∧ Clauses.Perst

/-- EMERGENCY_OFF of a channel, phases and temperature: ChannelOff, PhasesAndTemperature. -/
def Obligations.PowerFaults : Prop := Clauses.ChannelOff ∧ Clauses.PhasesAndTemperature

/-- What a cell computes, captures and stores in a step: CellComputes, Operands, StateFlip. -/
def Obligations.CellStep : Prop := Clauses.CellComputes ∧ Clauses.Operands ∧ Clauses.StateFlip

/-- A Cabinet's step and its memory operation: StepRuns. -/
def Obligations.CabinetStep : Prop := Clauses.StepRuns

/-- Step clearance, VALUE packets and memory returns: Clearance, Arrivals. -/
def Obligations.ClearanceAndArrivals : Prop := Clauses.Clearance ∧ Clauses.Arrivals

/-- Commit and abort of a frame: FrameCommits, FrameAborts. -/
def Obligations.FrameEnds : Prop := Clauses.FrameCommits ∧ Clauses.FrameAborts

/-- Tile reloads, cell, Bench and Cabinet swaps: TilesCellsBenches, CabinetSwaps. -/
def Obligations.ArrayRepair : Prop := Clauses.TilesCellsBenches ∧ Clauses.CabinetSwaps

/-- Fabric links: flits, routing, arbitration and lane checks: FlitReceived, FabricMoves, LaneCheck. -/
def Obligations.FabricLinks : Prop := Clauses.FlitReceived ∧ Clauses.FabricMoves ∧ Clauses.LaneCheck

/-- The guest port: GuestRails, GuestExchange. -/
def Obligations.GuestPort : Prop := Clauses.GuestRails ∧ Clauses.GuestExchange

/-- Velvin Link ports, spare lanes and the eye scan: PortControl, EyeScan, SpareLanes. -/
def Obligations.PortsAndSpares : Prop := Clauses.PortControl ∧ Clauses.EyeScan ∧ Clauses.SpareLanes

/-- Lane locks and alignment markers: LaneLocks, Markers. -/
def Obligations.LanesAndMarkers : Prop := Clauses.LaneLocks ∧ Clauses.Markers

/-- Flits, acknowledgement and replay of a link: LinkFlits, LinkControl. -/
def Obligations.LinkSequence : Prop := Clauses.LinkFlits ∧ Clauses.LinkControl

/-- Sealed groups, MAC verdicts and key epochs: SealedGroups, KeyEpochs. -/
def Obligations.LinkSealing : Prop := Clauses.SealedGroups ∧ Clauses.KeyEpochs

/-- Forwarding, VALUE messages and SLOT_HOME: Forwarding, LinkRecords, SlotHomes. -/
def Obligations.LinkMessages : Prop := Clauses.Forwarding ∧ Clauses.LinkRecords ∧ Clauses.SlotHomes

/-- MEM messages: MemMessages. -/
def Obligations.LinkMemory : Prop := Clauses.MemMessages

/-- HELLO and link authentication: Hello, LinkAuth, LinkAuthEnds. -/
def Obligations.LinkTrust : Prop := Clauses.Hello ∧ Clauses.LinkAuth ∧ Clauses.LinkAuthEnds

/-- Slave views, followers, SYSCLK and oscillators (log entry 17): Servo, FollowersAndClocks. -/
def Obligations.TimeServo : Prop := Clauses.Servo ∧ Clauses.FollowersAndClocks

/-- Masters, path delays and the trigger bus: Masters, PathDelays, TriggerBus. -/
def Obligations.TimeMessages : Prop := Clauses.Masters ∧ Clauses.PathDelays ∧ Clauses.TriggerBus

/-- Verdicts and repairs of a TWINNED design: TwinVerdicts, TwinRepairs, TwinCopies. -/
def Obligations.TwinRecovery : Prop := Clauses.TwinVerdicts ∧ Clauses.TwinRepairs ∧ Clauses.TwinCopies

/-- Rejoin of a channel and join of a pair: Rejoins, Joins. -/
def Obligations.RejoinAndJoin : Prop := Clauses.Rejoins ∧ Clauses.Joins

/-- Lost controllers and the operator's choices: Controllers, RecoveryChoices. -/
def Obligations.RecoveryControllers : Prop := Clauses.Controllers ∧ Clauses.RecoveryChoices

/-- The messages, the state and the end of a pair: PairMessages, PairEnds, PairState. -/
def Obligations.PairRecovery : Prop := Clauses.PairMessages ∧ Clauses.PairEnds ∧ Clauses.PairState

/-- Rolling self-test: Slices, CabinetTests, SelfTestControl. -/
def Obligations.RollingTest : Prop := Clauses.Slices ∧ Clauses.CabinetTests ∧ Clauses.SelfTestControl

/-- Wire rotation, tile patrol and persistent stores: Wires, Patrol, StoreBlocks. -/
def Obligations.WiresPatrolStores : Prop := Clauses.Wires ∧ Clauses.Patrol ∧ Clauses.StoreBlocks
end

