-- ==== Sys2Proof/Laws/KV.lean ====
section
/-! SUPPORT. Laws of sparse tables and of memory: what is read after a write, and that every operation keeps the canonical form. -/

namespace Sys2Proof

namespace KV

variable {α : Type}

theorem get_of_absent (d : α) {k : Nat} {m : KV α} (h : ∀ e ∈ m, e.1 ≠ k) : get d k m = d := by
  induction m with
  | nil => rfl
  | cons e m ih =>
    rw [get, if_neg (h e (by simp))]
    exact ih fun x hx => h x (by simp [hx])

theorem del_absent (k : Nat) (m : KV α) : ∀ e ∈ del k m, e.1 ≠ k := by
  intro e he
  simpa [del] using (List.mem_filter.mp he).2

@[simp] theorem get_del_same (d : α) (k : Nat) (m : KV α) : get d k (del k m) = d := get_of_absent d (del_absent k m)

theorem get_del_other (d : α) {j k : Nat} (h : j ≠ k) (m : KV α) : get d j (del k m) = get d j m := by
  induction m with
  | nil => rfl
  | cons e m ih =>
    by_cases he : e.1 = k
    · have hj : e.1 ≠ j := fun x => h (x.symm.trans he)
      simpa [del, he, get, hj, Ne.symm h] using ih
    · by_cases hj : e.1 = j
      · simp [del, get, hj, h]
      · simpa [del, he, get, hj] using ih

theorem get_ins_same (d : α) {k : Nat} (v : α) {m : KV α} (h : ∀ e ∈ m, e.1 ≠ k) : get d k (ins k v m) = v := by
  induction m with
  | nil => simp [ins, get]
  | cons e m ih =>
    rw [ins]
    split
    · simp [get]
    · rw [get, if_neg (h e (by simp))]
      exact ih fun x hx => h x (by simp [hx])

theorem get_ins_other (d : α) {j k : Nat} (h : j ≠ k) (v : α) (m : KV α) : get d j (ins k v m) = get d j m := by
  induction m with
  | nil => simp [ins, get, Ne.symm h]
  | cons e m ih =>
    rw [ins]
    split
    · rw [get, if_neg (Ne.symm h)]
    · rw [get, get, ih]

section
variable [DecidableEq α]

@[simp] theorem get_put_same (d : α) (k : Nat) (v : α) (m : KV α) : get d k (put d k v m) = v := by
  unfold put
  split
  · next h => rw [get_del_same, h]
  · exact get_ins_same d v (del_absent k m)

theorem get_put_other (d d' : α) {j k : Nat} (h : j ≠ k) (v : α) (m : KV α) : get d' j (put d k v m) = get d' j m := by
  unfold put
  split
  · exact get_del_other d' h m
  · rw [get_ins_other d' h, get_del_other d' h]

@[simp] theorem get_upd_same (d : α) (k : Nat) (f : α → α) (m : KV α) : get d k (upd d k f m) = f (get d k m) :=
  get_put_same d k _ m

theorem get_upd_other (d d' : α) {j k : Nat} (h : j ≠ k) (f : α → α) (m : KV α) : get d' j (upd d k f m) = get d' j m :=
  get_put_other d d' h _ m

end

/-! ### The canonical form -/

theorem mem_ins {k : Nat} {v : α} {m : KV α} {e : Nat × α} (h : e ∈ ins k v m) : e = (k, v) ∨ e ∈ m := by
  induction m with
  | nil => simpa [ins] using h
  | cons x m ih =>
    rw [ins] at h
    split at h
    · simpa using h
    · rcases List.mem_cons.mp h with h | h
      · exact .inr (by simp [h])
      · exact (ih h).imp id (by simp +contextual)

theorem rising_ins {k : Nat} {v : α} {m : KV α} (h : m.Pairwise (fun a b => a.1 < b.1)) (hk : ∀ e ∈ m, e.1 ≠ k) :
    (ins k v m).Pairwise (fun a b => a.1 < b.1) := by
  induction m with
  | nil => simp [ins]
  | cons x m ih =>
    rw [List.pairwise_cons] at h
    rw [ins]
    split
    · next hx =>
      refine List.pairwise_cons.mpr ⟨fun e he => ?_, List.pairwise_cons.mpr h⟩
      rcases List.mem_cons.mp he with rfl | he
      · exact hx
      · exact Nat.lt_trans hx (h.1 e he)
    · next hx =>
      refine List.pairwise_cons.mpr ⟨fun e he => ?_, ih h.2 fun e he => hk e (by simp [he])⟩
      have := hk x (by simp)
      rcases mem_ins he with rfl | he
      · simp only; omega
      · exact h.1 e he

variable [DecidableEq α]

theorem wf_filter {d : α} {m : KV α} (p : Nat × α → Bool) (h : wf d m) : wf d (m.filter p) :=
  ⟨h.1.filter _, fun e he => h.2 e (List.mem_filter.mp he).1⟩

theorem wf_del {d : α} {m : KV α} (k : Nat) (h : wf d m) : wf d (del k m) := wf_filter _ h

theorem wf_put {d : α} {m : KV α} (k : Nat) (v : α) (h : wf d m) : wf d (put d k v m) := by
  unfold put
  split
  · exact wf_del k h
  · next hv =>
    refine ⟨rising_ins (wf_del k h).1 (del_absent k m), fun e he => ?_⟩
    rcases mem_ins he with rfl | he
    · exact hv
    · exact (wf_del k h).2 e he

theorem wf_upd {d : α} {m : KV α} (k : Nat) (f : α → α) (h : wf d m) : wf d (upd d k f m) := wf_put k _ h

theorem wf_clear {d : α} {m : KV α} (lo hi : Nat) (h : wf d m) : wf d (clear lo hi m) := wf_filter _ h

end KV

namespace Memory

theorem wf_write {m : Memory} (a : Nat) (b : Byte) (h : wf m) : wf (write m a b) := KV.wf_put a b h

theorem wf_writeBytes {m : Memory} (a : Nat) (bs : List Byte) (h : wf m) : wf (writeBytes m a bs) := by
  induction bs generalizing m a with
  | nil => exact h
  | cons b bs ih => exact ih (a + 1) (wf_write a b h)

theorem wf_zero {m : Memory} (lo hi : Nat) (h : wf m) : wf (zero m lo hi) := KV.wf_clear lo hi h

@[simp] theorem read_write_same (m : Memory) (a : Nat) (b : Byte) : read (write m a b) a = b := KV.get_put_same _ a b m

theorem read_write_other (m : Memory) {a x : Nat} (h : x ≠ a) (b : Byte) : read (write m a b) x = read m x :=
  KV.get_put_other _ _ h b m

theorem read_writeBytes_other (m : Memory) {a x : Nat} (bs : List Byte) (h : x < a ∨ a + bs.length ≤ x) :
    read (writeBytes m a bs) x = read m x := by
  induction bs generalizing m a with
  | nil => rfl
  | cons b bs ih =>
    simp only [List.length_cons] at h
    rw [writeBytes, ih _ (by omega), read_write_other _ (by omega)]

theorem read_writeBytes_inside (m : Memory) (a : Nat) (bs : List Byte) (i : Nat) (h : i < bs.length) :
    read (writeBytes m a bs) (a + i) = bs[i] := by
  induction bs generalizing m a i with
  | nil => simp at h
  | cons b bs ih =>
    cases i with
    | zero => rw [writeBytes, read_writeBytes_other _ _ (.inl (by omega)), Nat.add_zero, read_write_same]; rfl
    | succ i =>
      rw [writeBytes, show a + (i + 1) = a + 1 + i by omega, ih (write m a b) (a + 1) i (by simpa using h)]
      rfl

end Memory

end Sys2Proof
end

