-- ==== Sys2Proof/Laws/State.lean ====
section
/-! SUPPORT. What each update of the state does to each of its fields: one lemma per field and update, true by computation. -/

namespace Sys2Proof.Machine

open Sys2Proof

/-! ### `State.modHost` -/

@[simp] theorem State.modHost_id (s : State) (f : HostSt → HostSt) : (s.modHost f).id = s.id := rfl
@[simp] theorem State.modHost_host (s : State) (f : HostSt → HostSt) : (s.modHost f).host = f s.host := rfl
@[simp] theorem State.modHost_regs (s : State) (f : HostSt → HostSt) : (s.modHost f).regs = s.regs := rfl
@[simp] theorem State.modHost_sec (s : State) (f : HostSt → HostSt) : (s.modHost f).sec = s.sec := rfl
@[simp] theorem State.modHost_base (s : State) (f : HostSt → HostSt) : (s.modHost f).base = s.base := rfl
@[simp] theorem State.modHost_mode (s : State) (f : HostSt → HostSt) : (s.modHost f).mode = s.mode := rfl
@[simp] theorem State.modHost_pwr (s : State) (f : HostSt → HostSt) : (s.modHost f).pwr = s.pwr := rfl
@[simp] theorem State.modHost_topo (s : State) (f : HostSt → HostSt) : (s.modHost f).topo = s.topo := rfl
@[simp] theorem State.modHost_pins (s : State) (f : HostSt → HostSt) : (s.modHost f).pins = s.pins := rfl
@[simp] theorem State.modHost_store (s : State) (f : HostSt → HostSt) : (s.modHost f).store = s.store := rfl
@[simp] theorem State.modHost_hostOsc (s : State) (f : HostSt → HostSt) : (s.modHost f).hostOsc = s.hostOsc := rfl
@[simp] theorem State.modHost_chA (s : State) (f : HostSt → HostSt) : (s.modHost f).chA = s.chA := rfl
@[simp] theorem State.modHost_chB (s : State) (f : HostSt → HostSt) : (s.modHost f).chB = s.chB := rfl
@[simp] theorem State.modHost_parts (s : State) (f : HostSt → HostSt) : (s.modHost f).parts = s.parts := rfl
@[simp] theorem State.modHost_designs (s : State) (f : HostSt → HostSt) : (s.modHost f).designs = s.designs := rfl
@[simp] theorem State.modHost_loads (s : State) (f : HostSt → HostSt) : (s.modHost f).loads = s.loads := rfl
@[simp] theorem State.modHost_clock (s : State) (f : HostSt → HostSt) : (s.modHost f).clock = s.clock := rfl
@[simp] theorem State.modHost_freeCtr (s : State) (f : HostSt → HostSt) : (s.modHost f).freeCtr = s.freeCtr := rfl
@[simp] theorem State.modHost_pending (s : State) (f : HostSt → HostSt) : (s.modHost f).pending = s.pending := rfl

/-! ### `State.modRegs` -/

@[simp] theorem State.modRegs_id (s : State) (f : RegSt → RegSt) : (s.modRegs f).id = s.id := rfl
@[simp] theorem State.modRegs_host (s : State) (f : RegSt → RegSt) : (s.modRegs f).host = s.host := rfl
@[simp] theorem State.modRegs_regs (s : State) (f : RegSt → RegSt) : (s.modRegs f).regs = f s.regs := rfl
@[simp] theorem State.modRegs_sec (s : State) (f : RegSt → RegSt) : (s.modRegs f).sec = s.sec := rfl
@[simp] theorem State.modRegs_base (s : State) (f : RegSt → RegSt) : (s.modRegs f).base = s.base := rfl
@[simp] theorem State.modRegs_mode (s : State) (f : RegSt → RegSt) : (s.modRegs f).mode = s.mode := rfl
@[simp] theorem State.modRegs_pwr (s : State) (f : RegSt → RegSt) : (s.modRegs f).pwr = s.pwr := rfl
@[simp] theorem State.modRegs_topo (s : State) (f : RegSt → RegSt) : (s.modRegs f).topo = s.topo := rfl
@[simp] theorem State.modRegs_pins (s : State) (f : RegSt → RegSt) : (s.modRegs f).pins = s.pins := rfl
@[simp] theorem State.modRegs_store (s : State) (f : RegSt → RegSt) : (s.modRegs f).store = s.store := rfl
@[simp] theorem State.modRegs_hostOsc (s : State) (f : RegSt → RegSt) : (s.modRegs f).hostOsc = s.hostOsc := rfl
@[simp] theorem State.modRegs_chA (s : State) (f : RegSt → RegSt) : (s.modRegs f).chA = s.chA := rfl
@[simp] theorem State.modRegs_chB (s : State) (f : RegSt → RegSt) : (s.modRegs f).chB = s.chB := rfl
@[simp] theorem State.modRegs_parts (s : State) (f : RegSt → RegSt) : (s.modRegs f).parts = s.parts := rfl
@[simp] theorem State.modRegs_designs (s : State) (f : RegSt → RegSt) : (s.modRegs f).designs = s.designs := rfl
@[simp] theorem State.modRegs_loads (s : State) (f : RegSt → RegSt) : (s.modRegs f).loads = s.loads := rfl
@[simp] theorem State.modRegs_clock (s : State) (f : RegSt → RegSt) : (s.modRegs f).clock = s.clock := rfl
@[simp] theorem State.modRegs_freeCtr (s : State) (f : RegSt → RegSt) : (s.modRegs f).freeCtr = s.freeCtr := rfl
@[simp] theorem State.modRegs_pending (s : State) (f : RegSt → RegSt) : (s.modRegs f).pending = s.pending := rfl

/-! ### `State.modSec` -/

@[simp] theorem State.modSec_id (s : State) (f : SecSt → SecSt) : (s.modSec f).id = s.id := rfl
@[simp] theorem State.modSec_host (s : State) (f : SecSt → SecSt) : (s.modSec f).host = s.host := rfl
@[simp] theorem State.modSec_regs (s : State) (f : SecSt → SecSt) : (s.modSec f).regs = s.regs := rfl
@[simp] theorem State.modSec_sec (s : State) (f : SecSt → SecSt) : (s.modSec f).sec = f s.sec := rfl
@[simp] theorem State.modSec_base (s : State) (f : SecSt → SecSt) : (s.modSec f).base = s.base := rfl
@[simp] theorem State.modSec_mode (s : State) (f : SecSt → SecSt) : (s.modSec f).mode = s.mode := rfl
@[simp] theorem State.modSec_pwr (s : State) (f : SecSt → SecSt) : (s.modSec f).pwr = s.pwr := rfl
@[simp] theorem State.modSec_topo (s : State) (f : SecSt → SecSt) : (s.modSec f).topo = s.topo := rfl
@[simp] theorem State.modSec_pins (s : State) (f : SecSt → SecSt) : (s.modSec f).pins = s.pins := rfl
@[simp] theorem State.modSec_store (s : State) (f : SecSt → SecSt) : (s.modSec f).store = s.store := rfl
@[simp] theorem State.modSec_hostOsc (s : State) (f : SecSt → SecSt) : (s.modSec f).hostOsc = s.hostOsc := rfl
@[simp] theorem State.modSec_chA (s : State) (f : SecSt → SecSt) : (s.modSec f).chA = s.chA := rfl
@[simp] theorem State.modSec_chB (s : State) (f : SecSt → SecSt) : (s.modSec f).chB = s.chB := rfl
@[simp] theorem State.modSec_parts (s : State) (f : SecSt → SecSt) : (s.modSec f).parts = s.parts := rfl
@[simp] theorem State.modSec_designs (s : State) (f : SecSt → SecSt) : (s.modSec f).designs = s.designs := rfl
@[simp] theorem State.modSec_loads (s : State) (f : SecSt → SecSt) : (s.modSec f).loads = s.loads := rfl
@[simp] theorem State.modSec_clock (s : State) (f : SecSt → SecSt) : (s.modSec f).clock = s.clock := rfl
@[simp] theorem State.modSec_freeCtr (s : State) (f : SecSt → SecSt) : (s.modSec f).freeCtr = s.freeCtr := rfl
@[simp] theorem State.modSec_pending (s : State) (f : SecSt → SecSt) : (s.modSec f).pending = s.pending := rfl

/-! ### `State.modBase` -/

@[simp] theorem State.modBase_id (s : State) (f : BaseSt → BaseSt) : (s.modBase f).id = s.id := rfl
@[simp] theorem State.modBase_host (s : State) (f : BaseSt → BaseSt) : (s.modBase f).host = s.host := rfl
@[simp] theorem State.modBase_regs (s : State) (f : BaseSt → BaseSt) : (s.modBase f).regs = s.regs := rfl
@[simp] theorem State.modBase_sec (s : State) (f : BaseSt → BaseSt) : (s.modBase f).sec = s.sec := rfl
@[simp] theorem State.modBase_base (s : State) (f : BaseSt → BaseSt) : (s.modBase f).base = f s.base := rfl
@[simp] theorem State.modBase_mode (s : State) (f : BaseSt → BaseSt) : (s.modBase f).mode = s.mode := rfl
@[simp] theorem State.modBase_pwr (s : State) (f : BaseSt → BaseSt) : (s.modBase f).pwr = s.pwr := rfl
@[simp] theorem State.modBase_topo (s : State) (f : BaseSt → BaseSt) : (s.modBase f).topo = s.topo := rfl
@[simp] theorem State.modBase_pins (s : State) (f : BaseSt → BaseSt) : (s.modBase f).pins = s.pins := rfl
@[simp] theorem State.modBase_store (s : State) (f : BaseSt → BaseSt) : (s.modBase f).store = s.store := rfl
@[simp] theorem State.modBase_hostOsc (s : State) (f : BaseSt → BaseSt) : (s.modBase f).hostOsc = s.hostOsc := rfl
@[simp] theorem State.modBase_chA (s : State) (f : BaseSt → BaseSt) : (s.modBase f).chA = s.chA := rfl
@[simp] theorem State.modBase_chB (s : State) (f : BaseSt → BaseSt) : (s.modBase f).chB = s.chB := rfl
@[simp] theorem State.modBase_parts (s : State) (f : BaseSt → BaseSt) : (s.modBase f).parts = s.parts := rfl
@[simp] theorem State.modBase_designs (s : State) (f : BaseSt → BaseSt) : (s.modBase f).designs = s.designs := rfl
@[simp] theorem State.modBase_loads (s : State) (f : BaseSt → BaseSt) : (s.modBase f).loads = s.loads := rfl
@[simp] theorem State.modBase_clock (s : State) (f : BaseSt → BaseSt) : (s.modBase f).clock = s.clock := rfl
@[simp] theorem State.modBase_freeCtr (s : State) (f : BaseSt → BaseSt) : (s.modBase f).freeCtr = s.freeCtr := rfl
@[simp] theorem State.modBase_pending (s : State) (f : BaseSt → BaseSt) : (s.modBase f).pending = s.pending := rfl

/-! ### `State.modMode` -/

@[simp] theorem State.modMode_id (s : State) (f : ModeSt → ModeSt) : (s.modMode f).id = s.id := rfl
@[simp] theorem State.modMode_host (s : State) (f : ModeSt → ModeSt) : (s.modMode f).host = s.host := rfl
@[simp] theorem State.modMode_regs (s : State) (f : ModeSt → ModeSt) : (s.modMode f).regs = s.regs := rfl
@[simp] theorem State.modMode_sec (s : State) (f : ModeSt → ModeSt) : (s.modMode f).sec = s.sec := rfl
@[simp] theorem State.modMode_base (s : State) (f : ModeSt → ModeSt) : (s.modMode f).base = s.base := rfl
@[simp] theorem State.modMode_mode (s : State) (f : ModeSt → ModeSt) : (s.modMode f).mode = f s.mode := rfl
@[simp] theorem State.modMode_pwr (s : State) (f : ModeSt → ModeSt) : (s.modMode f).pwr = s.pwr := rfl
@[simp] theorem State.modMode_topo (s : State) (f : ModeSt → ModeSt) : (s.modMode f).topo = s.topo := rfl
@[simp] theorem State.modMode_pins (s : State) (f : ModeSt → ModeSt) : (s.modMode f).pins = s.pins := rfl
@[simp] theorem State.modMode_store (s : State) (f : ModeSt → ModeSt) : (s.modMode f).store = s.store := rfl
@[simp] theorem State.modMode_hostOsc (s : State) (f : ModeSt → ModeSt) : (s.modMode f).hostOsc = s.hostOsc := rfl
@[simp] theorem State.modMode_chA (s : State) (f : ModeSt → ModeSt) : (s.modMode f).chA = s.chA := rfl
@[simp] theorem State.modMode_chB (s : State) (f : ModeSt → ModeSt) : (s.modMode f).chB = s.chB := rfl
@[simp] theorem State.modMode_parts (s : State) (f : ModeSt → ModeSt) : (s.modMode f).parts = s.parts := rfl
@[simp] theorem State.modMode_designs (s : State) (f : ModeSt → ModeSt) : (s.modMode f).designs = s.designs := rfl
@[simp] theorem State.modMode_loads (s : State) (f : ModeSt → ModeSt) : (s.modMode f).loads = s.loads := rfl
@[simp] theorem State.modMode_clock (s : State) (f : ModeSt → ModeSt) : (s.modMode f).clock = s.clock := rfl
@[simp] theorem State.modMode_freeCtr (s : State) (f : ModeSt → ModeSt) : (s.modMode f).freeCtr = s.freeCtr := rfl
@[simp] theorem State.modMode_pending (s : State) (f : ModeSt → ModeSt) : (s.modMode f).pending = s.pending := rfl

/-! ### `State.modPwr` -/

@[simp] theorem State.modPwr_id (s : State) (f : PwrSt → PwrSt) : (s.modPwr f).id = s.id := rfl
@[simp] theorem State.modPwr_host (s : State) (f : PwrSt → PwrSt) : (s.modPwr f).host = s.host := rfl
@[simp] theorem State.modPwr_regs (s : State) (f : PwrSt → PwrSt) : (s.modPwr f).regs = s.regs := rfl
@[simp] theorem State.modPwr_sec (s : State) (f : PwrSt → PwrSt) : (s.modPwr f).sec = s.sec := rfl
@[simp] theorem State.modPwr_base (s : State) (f : PwrSt → PwrSt) : (s.modPwr f).base = s.base := rfl
@[simp] theorem State.modPwr_mode (s : State) (f : PwrSt → PwrSt) : (s.modPwr f).mode = s.mode := rfl
@[simp] theorem State.modPwr_pwr (s : State) (f : PwrSt → PwrSt) : (s.modPwr f).pwr = f s.pwr := rfl
@[simp] theorem State.modPwr_topo (s : State) (f : PwrSt → PwrSt) : (s.modPwr f).topo = s.topo := rfl
@[simp] theorem State.modPwr_pins (s : State) (f : PwrSt → PwrSt) : (s.modPwr f).pins = s.pins := rfl
@[simp] theorem State.modPwr_store (s : State) (f : PwrSt → PwrSt) : (s.modPwr f).store = s.store := rfl
@[simp] theorem State.modPwr_hostOsc (s : State) (f : PwrSt → PwrSt) : (s.modPwr f).hostOsc = s.hostOsc := rfl
@[simp] theorem State.modPwr_chA (s : State) (f : PwrSt → PwrSt) : (s.modPwr f).chA = s.chA := rfl
@[simp] theorem State.modPwr_chB (s : State) (f : PwrSt → PwrSt) : (s.modPwr f).chB = s.chB := rfl
@[simp] theorem State.modPwr_parts (s : State) (f : PwrSt → PwrSt) : (s.modPwr f).parts = s.parts := rfl
@[simp] theorem State.modPwr_designs (s : State) (f : PwrSt → PwrSt) : (s.modPwr f).designs = s.designs := rfl
@[simp] theorem State.modPwr_loads (s : State) (f : PwrSt → PwrSt) : (s.modPwr f).loads = s.loads := rfl
@[simp] theorem State.modPwr_clock (s : State) (f : PwrSt → PwrSt) : (s.modPwr f).clock = s.clock := rfl
@[simp] theorem State.modPwr_freeCtr (s : State) (f : PwrSt → PwrSt) : (s.modPwr f).freeCtr = s.freeCtr := rfl
@[simp] theorem State.modPwr_pending (s : State) (f : PwrSt → PwrSt) : (s.modPwr f).pending = s.pending := rfl

/-! ### `State.modPart` -/

@[simp] theorem State.modPart_id (s : State) (p : Nat) (f : Part → Part) : (s.modPart p f).id = s.id := rfl
@[simp] theorem State.modPart_host (s : State) (p : Nat) (f : Part → Part) : (s.modPart p f).host = s.host := rfl
@[simp] theorem State.modPart_regs (s : State) (p : Nat) (f : Part → Part) : (s.modPart p f).regs = s.regs := rfl
@[simp] theorem State.modPart_sec (s : State) (p : Nat) (f : Part → Part) : (s.modPart p f).sec = s.sec := rfl
@[simp] theorem State.modPart_base (s : State) (p : Nat) (f : Part → Part) : (s.modPart p f).base = s.base := rfl
@[simp] theorem State.modPart_mode (s : State) (p : Nat) (f : Part → Part) : (s.modPart p f).mode = s.mode := rfl
@[simp] theorem State.modPart_pwr (s : State) (p : Nat) (f : Part → Part) : (s.modPart p f).pwr = s.pwr := rfl
@[simp] theorem State.modPart_topo (s : State) (p : Nat) (f : Part → Part) : (s.modPart p f).topo = s.topo := rfl
@[simp] theorem State.modPart_pins (s : State) (p : Nat) (f : Part → Part) : (s.modPart p f).pins = s.pins := rfl
@[simp] theorem State.modPart_store (s : State) (p : Nat) (f : Part → Part) : (s.modPart p f).store = s.store := rfl
@[simp] theorem State.modPart_hostOsc (s : State) (p : Nat) (f : Part → Part) : (s.modPart p f).hostOsc = s.hostOsc := rfl
@[simp] theorem State.modPart_chA (s : State) (p : Nat) (f : Part → Part) : (s.modPart p f).chA = s.chA := rfl
@[simp] theorem State.modPart_chB (s : State) (p : Nat) (f : Part → Part) : (s.modPart p f).chB = s.chB := rfl
@[simp] theorem State.modPart_parts (s : State) (p : Nat) (f : Part → Part) : (s.modPart p f).parts = KV.upd {} p f s.parts := rfl
@[simp] theorem State.modPart_designs (s : State) (p : Nat) (f : Part → Part) : (s.modPart p f).designs = s.designs := rfl
@[simp] theorem State.modPart_loads (s : State) (p : Nat) (f : Part → Part) : (s.modPart p f).loads = s.loads := rfl
@[simp] theorem State.modPart_clock (s : State) (p : Nat) (f : Part → Part) : (s.modPart p f).clock = s.clock := rfl
@[simp] theorem State.modPart_freeCtr (s : State) (p : Nat) (f : Part → Part) : (s.modPart p f).freeCtr = s.freeCtr := rfl
@[simp] theorem State.modPart_pending (s : State) (p : Nat) (f : Part → Part) : (s.modPart p f).pending = s.pending := rfl

/-! ### `State.modDesign` -/

@[simp] theorem State.modDesign_id (s : State) (t : Nat) (f : Design → Design) : (s.modDesign t f).id = s.id := rfl
@[simp] theorem State.modDesign_host (s : State) (t : Nat) (f : Design → Design) : (s.modDesign t f).host = s.host := rfl
@[simp] theorem State.modDesign_regs (s : State) (t : Nat) (f : Design → Design) : (s.modDesign t f).regs = s.regs := rfl
@[simp] theorem State.modDesign_sec (s : State) (t : Nat) (f : Design → Design) : (s.modDesign t f).sec = s.sec := rfl
@[simp] theorem State.modDesign_base (s : State) (t : Nat) (f : Design → Design) : (s.modDesign t f).base = s.base := rfl
@[simp] theorem State.modDesign_mode (s : State) (t : Nat) (f : Design → Design) : (s.modDesign t f).mode = s.mode := rfl
@[simp] theorem State.modDesign_pwr (s : State) (t : Nat) (f : Design → Design) : (s.modDesign t f).pwr = s.pwr := rfl
@[simp] theorem State.modDesign_topo (s : State) (t : Nat) (f : Design → Design) : (s.modDesign t f).topo = s.topo := rfl
@[simp] theorem State.modDesign_pins (s : State) (t : Nat) (f : Design → Design) : (s.modDesign t f).pins = s.pins := rfl
@[simp] theorem State.modDesign_store (s : State) (t : Nat) (f : Design → Design) : (s.modDesign t f).store = s.store := rfl
@[simp] theorem State.modDesign_hostOsc (s : State) (t : Nat) (f : Design → Design) : (s.modDesign t f).hostOsc = s.hostOsc := rfl
@[simp] theorem State.modDesign_chA (s : State) (t : Nat) (f : Design → Design) : (s.modDesign t f).chA = s.chA := rfl
@[simp] theorem State.modDesign_chB (s : State) (t : Nat) (f : Design → Design) : (s.modDesign t f).chB = s.chB := rfl
@[simp] theorem State.modDesign_parts (s : State) (t : Nat) (f : Design → Design) : (s.modDesign t f).parts = s.parts := rfl
@[simp] theorem State.modDesign_designs (s : State) (t : Nat) (f : Design → Design) : (s.modDesign t f).designs = s.designs.map (fun d => if d.tag = t then f d else d) := rfl
@[simp] theorem State.modDesign_loads (s : State) (t : Nat) (f : Design → Design) : (s.modDesign t f).loads = s.loads := rfl
@[simp] theorem State.modDesign_clock (s : State) (t : Nat) (f : Design → Design) : (s.modDesign t f).clock = s.clock := rfl
@[simp] theorem State.modDesign_freeCtr (s : State) (t : Nat) (f : Design → Design) : (s.modDesign t f).freeCtr = s.freeCtr := rfl
@[simp] theorem State.modDesign_pending (s : State) (t : Nat) (f : Design → Design) : (s.modDesign t f).pending = s.pending := rfl

/-! ### `State.freeNext` -/

@[simp] theorem State.freeNext_id (s : State) : s.freeNext.id = s.id := rfl
@[simp] theorem State.freeNext_host (s : State) : s.freeNext.host = s.host := rfl
@[simp] theorem State.freeNext_regs (s : State) : s.freeNext.regs = s.regs := rfl
@[simp] theorem State.freeNext_sec (s : State) : s.freeNext.sec = s.sec := rfl
@[simp] theorem State.freeNext_base (s : State) : s.freeNext.base = s.base := rfl
@[simp] theorem State.freeNext_mode (s : State) : s.freeNext.mode = s.mode := rfl
@[simp] theorem State.freeNext_pwr (s : State) : s.freeNext.pwr = s.pwr := rfl
@[simp] theorem State.freeNext_topo (s : State) : s.freeNext.topo = s.topo := rfl
@[simp] theorem State.freeNext_pins (s : State) : s.freeNext.pins = s.pins := rfl
@[simp] theorem State.freeNext_store (s : State) : s.freeNext.store = s.store := rfl
@[simp] theorem State.freeNext_hostOsc (s : State) : s.freeNext.hostOsc = s.hostOsc := rfl
@[simp] theorem State.freeNext_chA (s : State) : s.freeNext.chA = s.chA := rfl
@[simp] theorem State.freeNext_chB (s : State) : s.freeNext.chB = s.chB := rfl
@[simp] theorem State.freeNext_parts (s : State) : s.freeNext.parts = s.parts := rfl
@[simp] theorem State.freeNext_designs (s : State) : s.freeNext.designs = s.designs := rfl
@[simp] theorem State.freeNext_loads (s : State) : s.freeNext.loads = s.loads := rfl
@[simp] theorem State.freeNext_clock (s : State) : s.freeNext.clock = s.clock := rfl
@[simp] theorem State.freeNext_freeCtr (s : State) : s.freeNext.freeCtr = s.freeCtr + 1 := rfl
@[simp] theorem State.freeNext_pending (s : State) : s.freeNext.pending = s.pending := rfl

/-! ### `State.modCh` -/

@[simp] theorem State.modCh_id (s : State) (c : Ch) (f : Channel → Channel) : (s.modCh c f).id = s.id := by cases c <;> rfl
@[simp] theorem State.modCh_host (s : State) (c : Ch) (f : Channel → Channel) : (s.modCh c f).host = s.host := by cases c <;> rfl
@[simp] theorem State.modCh_regs (s : State) (c : Ch) (f : Channel → Channel) : (s.modCh c f).regs = s.regs := by cases c <;> rfl
@[simp] theorem State.modCh_sec (s : State) (c : Ch) (f : Channel → Channel) : (s.modCh c f).sec = s.sec := by cases c <;> rfl
@[simp] theorem State.modCh_base (s : State) (c : Ch) (f : Channel → Channel) : (s.modCh c f).base = s.base := by cases c <;> rfl
@[simp] theorem State.modCh_mode (s : State) (c : Ch) (f : Channel → Channel) : (s.modCh c f).mode = s.mode := by cases c <;> rfl
@[simp] theorem State.modCh_pwr (s : State) (c : Ch) (f : Channel → Channel) : (s.modCh c f).pwr = s.pwr := by cases c <;> rfl
@[simp] theorem State.modCh_topo (s : State) (c : Ch) (f : Channel → Channel) : (s.modCh c f).topo = s.topo := by cases c <;> rfl
@[simp] theorem State.modCh_pins (s : State) (c : Ch) (f : Channel → Channel) : (s.modCh c f).pins = s.pins := by cases c <;> rfl
@[simp] theorem State.modCh_store (s : State) (c : Ch) (f : Channel → Channel) : (s.modCh c f).store = s.store := by cases c <;> rfl
@[simp] theorem State.modCh_hostOsc (s : State) (c : Ch) (f : Channel → Channel) : (s.modCh c f).hostOsc = s.hostOsc := by cases c <;> rfl
@[simp] theorem State.modCh_parts (s : State) (c : Ch) (f : Channel → Channel) : (s.modCh c f).parts = s.parts := by cases c <;> rfl
@[simp] theorem State.modCh_designs (s : State) (c : Ch) (f : Channel → Channel) : (s.modCh c f).designs = s.designs := by cases c <;> rfl
@[simp] theorem State.modCh_loads (s : State) (c : Ch) (f : Channel → Channel) : (s.modCh c f).loads = s.loads := by cases c <;> rfl
@[simp] theorem State.modCh_clock (s : State) (c : Ch) (f : Channel → Channel) : (s.modCh c f).clock = s.clock := by cases c <;> rfl
@[simp] theorem State.modCh_freeCtr (s : State) (c : Ch) (f : Channel → Channel) : (s.modCh c f).freeCtr = s.freeCtr := by cases c <;> rfl
@[simp] theorem State.modCh_pending (s : State) (c : Ch) (f : Channel → Channel) : (s.modCh c f).pending = s.pending := by cases c <;> rfl
@[simp] theorem State.modCh_ch (s : State) (c : Ch) (f : Channel → Channel) : (s.modCh c f).ch c = f (s.ch c) := by cases c <;> rfl
theorem State.modCh_other (s : State) {c x : Ch} (f : Channel → Channel) (h : x ≠ c) : (s.modCh c f).ch x = s.ch x := by
  cases c <;> cases x <;> first | exact absurd rfl h | rfl
@[simp] theorem State.modCh_chA (s : State) (f : Channel → Channel) : (s.modCh .a f).chA = f s.chA := rfl
@[simp] theorem State.modCh_chB (s : State) (f : Channel → Channel) : (s.modCh .b f).chB = f s.chB := rfl
@[simp] theorem State.modCh_chA_b (s : State) (f : Channel → Channel) : (s.modCh .b f).chA = s.chA := rfl
@[simp] theorem State.modCh_chB_a (s : State) (f : Channel → Channel) : (s.modCh .a f).chB = s.chB := rfl

/-! ### Parts of the state that are looked up by a number -/

@[simp] theorem State.ring_modRing_same (s : State) (r : RingNo) (f : Ring → Ring) : (s.modRing r f).ring r = f (s.ring r) :=
  KV.get_upd_same _ _ _ _
theorem State.ring_modRing_other (s : State) {q r : RingNo} (f : Ring → Ring) (h : q ≠ r) : (s.modRing r f).ring q = s.ring q :=
  KV.get_upd_other _ _ h _ _
@[simp] theorem State.part_modPart_same (s : State) (p : Nat) (f : Part → Part) : (s.modPart p f).part p = f (s.part p) :=
  KV.get_upd_same _ _ _ _
theorem State.part_modPart_other (s : State) {p q : Nat} (f : Part → Part) (h : q ≠ p) : (s.modPart p f).part q = s.part q :=
  KV.get_upd_other _ _ h _ _
@[simp] theorem State.port_modPort_same (s : State) (c : Ch) (p : Nat) (f : VPort → VPort) : (s.modPort c p f).port c p = f (s.port c p) := by
  simp [State.port, State.modPort]
@[simp] theorem State.range_modRange_same (s : State) (c : Ch) (r : Nat) (f : KRange → KRange) :
    (s.modRange c r f).range c r = f (s.range c r) := by
  simp [State.range, State.modRange]
@[simp] theorem State.reg_setReg_same (s : State) (r : Reg) (c : Ch) (i : List Nat) (v : Word32) : (s.setReg r c i v).reg r c i = v := by
  simp [State.reg, State.setReg]
theorem State.reg_setReg_other (s : State) {r q : Reg} {c x : Ch} {i j : List Nat} (v : Word32) (h : regOff q x j ≠ regOff r c i) :
    (s.setReg r c i v).reg q x j = s.reg q x j := by
  simp only [State.reg, State.setReg, State.modRegs_regs]
  exact KV.get_put_other _ _ h _ _

end Sys2Proof.Machine
end

