-- ==== Sys2Proof/Laws/Ops.lean ====
section
/-! SUPPORT. What the shared operations do, said once: carrying out the command of a ring, completing it, writing an event. -/

namespace Sys2Proof.Machine

open Sys2Proof

/-! ### Carrying out the command of a ring -/

theorem State.withCmd_due {s : State} {r : RingNo} {t : Tag} {op : Nat} {m : Cmd} (f : State → Cmd → State) (h : Due s r t op m) :
    s.withCmd r t op f = if s.sec.latched ∧ op ≠ 0x01 then s.complete m .tamper 0 else f s m := by
  have hp : ¬ (s.host.perst = true ∧ hostDieOps.contains op = true) := by
    rcases h.hostUp with h | h
    · simp [h]
    · rw [h]; simp
  have hn : ¬ (m.desc.opcode.toNat ≠ op ∨ m.started = true ∨ s.fenceOpen m = false ∨
      (s.host.perst = true ∧ hostDieOps.contains op = true) ∨ s.sec.lifecycle = .scrapped) := by
    simp only [h.opcode, h.waiting, h.fence, h.live, ne_eq, not_true_eq_false, Bool.false_eq_true, Bool.true_eq_false, false_or, or_false]
    exact hp
  rw [State.withCmd, h.found]
  simp only [if_neg hn]

theorem State.withCmd_ready {s : State} {r : RingNo} {t : Tag} {op : Nat} {m : Cmd} (f : State → Cmd → State) (h : Ready s r t op m) :
    s.withCmd r t op f = f s m := by
  rw [State.withCmd_due f h.toDue, if_neg (by simp [h.unlatched])]

theorem State.withCmd_tamper {s : State} {r : RingNo} {t : Tag} {op : Nat} {m : Cmd} (f : State → Cmd → State) (h : Due s r t op m)
    (hl : s.sec.latched = true) (ho : op ≠ 0x01) : s.withCmd r t op f = s.complete m .tamper 0 := by
  rw [State.withCmd_due f h, if_pos ⟨hl, ho⟩]

/-- A command is found by its own ring and TAG. -/
theorem State.cmd_found {s : State} {r : RingNo} {t : Tag} {m : Cmd} (h : s.cmd r t = some m) : m.ring = r ∧ m.desc.tag = t := by
  simpa using List.find?_some h

/-! ### Completions -/

/-- Signalling a vector changes the rings and the signals alone, and no entry. -/
theorem State.signal_rings (s : State) (r : RingNo) :
    s.signal r = { s with
      host := { s.host with
        rings := (s.signal r).host.rings, msixPending := (s.signal r).host.msixPending, signals := (s.signal r).host.signals } } ∧
    ((s.signal r).ring r).entries = (s.ring r).entries ∧ (∀ q, q ≠ r → (s.signal r).ring q = s.ring q) := by
  unfold State.signal
  extract_lets v s1
  have h : ∀ q, ((s1.modHost fun h => if h.msixMask.getLsbD v then { h with msixPending := setBit h.msixPending v true }
      else { h with signals := h.signals ++ [v] }).ring q) = s1.ring q := fun q => by
    simp only [State.ring, State.modHost_host]; split <;> rfl
  refine ⟨?_, ?_, fun q hq => ?_⟩
  · unfold State.modHost; dsimp only [s1]; split <;> rfl
  · rw [h]; simp [s1]
  · rw [h]; exact State.ring_modRing_other s _ hq

/-- Writing an entry into a ring: the ring gains it at its end, and its bytes go to its place in host memory; the other rings and the rest of
the state stay, but for the signals. -/
theorem State.writeEntry_spec (s : State) (r : RingNo) (e : Bool → Entry) :
    s.writeEntry r e = { s with
      host := { s.host with
        rings := (s.writeEntry r e).host.rings, msixPending := (s.writeEntry r e).host.msixPending,
        signals := (s.writeEntry r e).host.signals, out := (s.writeEntry r e).host.out } } ∧
    ((s.writeEntry r e).ring r).entries = (s.ring r).entries ++ [e (s.phaseOf r (s.ring r).produced)] ∧
    (∀ q, q ≠ r → (s.writeEntry r e).ring q = s.ring q) ∧
    (s.writeEntry r e).host.out = s.host.out ++
      [{ addr := s.entryAddr r (s.ring r).produced, data := (e (s.phaseOf r (s.ring r).produced)).bytes }] := by
  unfold State.writeEntry
  extract_lets n x s1
  have h0 : (s1.ring r).entries = (s.ring r).entries ++ [x] := by simp [s1]; rfl
  have h1 : ∀ q, q ≠ r → s1.ring q = s.ring q := fun q hq => State.ring_modRing_other _ _ hq
  split
  · obtain ⟨e0, e1, e2⟩ := s1.signal_rings r
    exact ⟨by rw [e0]; rfl, e1.trans h0, fun q hq => (e2 q hq).trans (h1 q hq), by rw [e0]; rfl⟩
  · exact ⟨rfl, h0, h1, rfl⟩

theorem State.putCpl_eq (s : State) (cring : Nat) (c : Completion) (rc : Option Receipt) :
    s.putCpl cring c rc = (s.modHost fun h => { h with out := h.out ++ rc.toList.map (fun x =>
      ({ addr := x.addr, data := x.bytes c (s.phaseOf cring (s.ring cring).produced) } : HostWrite)) }).writeEntry cring (fun ph => .cpl c ph) := by
  cases rc
  · simp [State.putCpl, State.modHost]
  · rfl

/-- Posting a completion: it goes into its ring, its receipt and its bytes to host memory, or it waits with its receipt in the retention store;
nothing changes but the host port. -/
theorem State.post_spec (s : State) (arb : Ch) (cring : Nat) (c : Completion) (rc : Option Receipt) (acc : Bool) :
    s.post arb cring c rc acc = { s with
      host := { s.host with
        rings := (s.post arb cring c rc acc).host.rings, retention := (s.post arb cring c rc acc).host.retention,
        msixPending := (s.post arb cring c rc acc).host.msixPending, signals := (s.post arb cring c rc acc).host.signals,
        out := (s.post arb cring c rc acc).host.out } } ∧
    (∀ q, q ≠ cring → (s.post arb cring c rc acc).ring q = s.ring q) ∧
    (((s.post arb cring c rc acc).host.retention = s.host.retention ∧
      ∃ ph, ((s.post arb cring c rc acc).ring cring).entries = (s.ring cring).entries ++ [.cpl c ph] ∧
        (s.post arb cring c rc acc).host.out = s.host.out ++ rc.toList.map (fun x => { addr := x.addr, data := x.bytes c ph }) ++
          [{ addr := s.entryAddr cring (s.ring cring).produced, data := c.bytes ph }]) ∨
     ((s.post arb cring c rc acc).ring cring = s.ring cring ∧ (s.post arb cring c rc acc).host.out = s.host.out ∧
      (s.post arb cring c rc acc).host.retention = s.host.retention ++
        [{ arb := arb, cring := cring, cpl := { c with retained := true }, accepted := acc, receipt := rc }])) := by
  unfold State.post
  split
  · rw [State.putCpl_eq]
    generalize hv : s.modHost (fun h => { h with out := h.out ++ rc.toList.map (fun x =>
      ({ addr := x.addr, data := x.bytes c (s.phaseOf cring (s.ring cring).produced) } : HostWrite)) }) = v
    obtain ⟨e0, e1, e2, e3⟩ := State.writeEntry_spec v cring (fun ph => .cpl c ph)
    refine ⟨by rw [e0, ← hv]; rfl, fun q hq => by rw [e2 q hq, ← hv]; rfl, .inl ⟨by rw [e0, ← hv]; rfl, s.phaseOf cring (s.ring cring).produced, ?_, ?_⟩⟩
    · rw [e1, ← hv]; rfl
    · rw [e3, ← hv]; rfl
  · exact ⟨rfl, fun _ _ => rfl, .inr ⟨rfl, rfl, rfl⟩⟩

/-- Completing a command: one completion with the given status, frame number and detail, and nothing changes but the host port. -/
theorem State.completeAt_done (s : State) (m : Cmd) (st : Status) (fr : BitVec 48) (dt : BitVec 128) :
    Done m st fr dt s (s.completeAt m st fr dt) := by
  unfold State.completeAt
  extract_lets c s1
  obtain ⟨h0, h1, h2⟩ := s1.post_spec m.arb m.desc.cring c (s1.receiptOf m) true
  refine ⟨by rw [h0]; rfl, by rw [h0]; rfl, h1, ?_⟩
  rcases h2 with ⟨hr, ph, he, ho⟩ | ⟨hr, ho, he⟩
  · exact ⟨c, rfl, rfl, rfl, rfl, rfl, .inl ⟨rfl, hr, ph, he, ho⟩⟩
  · exact ⟨{ c with retained := true }, rfl, rfl, rfl, rfl, rfl, .inr ⟨rfl, hr, ho, he⟩⟩

theorem State.complete_done (s : State) (m : Cmd) (st : Status) (dt : BitVec 128) :
    Done m st (s.frameAt m.desc.partition.toNat) dt s (s.complete m st dt) :=
  s.completeAt_done m st _ dt

/-- Completing changes the host port alone. -/
theorem State.complete_host (s : State) (m : Cmd) (st : Status) (dt : BitVec 128) :
    s.complete m st dt = { s with host := (s.complete m st dt).host } := by
  rw [(s.complete_done m st dt).1]

/-- A ready command whose meaning ends in a completion is carried out. -/
theorem Carried.of_ready {i : Instr} {s v : State} {r : RingNo} {t : Tag} {op : Nat} {m : Cmd} {st : Status} {dt : BitVec 128}
    (f : State → Cmd → State) (h : Ready s r t op m) (hx : exec i s = .next (s.withCmd r t op f)) (hf : f s m = v.complete m st dt)
    (hv : v.frameAt m.desc.partition.toNat = s.frameAt m.desc.partition.toNat) : Carried i s v m st dt :=
  ⟨_, by rw [hx, State.withCmd_ready f h, hf], hv ▸ v.complete_done m st dt⟩

/-! ### Events -/

theorem Quiet.refl (s : State) : Quiet s s := ⟨rfl, fun _ _ => rfl, ⟨[], by simp⟩, ⟨[], by simp⟩, fun _ _ _ => rfl⟩

theorem Quiet.trans {s u v : State} (h : Quiet s u) (k : Quiet u v) : Quiet s v := by
  obtain ⟨h0, h1, ⟨l, h2⟩, ⟨o, h4⟩, h3⟩ := h
  obtain ⟨k0, k1, ⟨l', k2⟩, ⟨o', k4⟩, k3⟩ := k
  refine ⟨?_, fun q hq => (k1 q hq).trans (h1 q hq), ⟨l ++ l', by rw [k2, h2, List.append_assoc]⟩, ⟨o ++ o', by rw [k4, h4, List.append_assoc]⟩,
    fun i d hi => (k3 i d hi).trans (h3 i d hi)⟩
  rw [k0, h0]

theorem State.putEvent_quiet (s : State) (code src part owner : Nat) (sealed : Bool) (args : List Nat) :
    Quiet s (s.putEvent code src part owner sealed args) := by
  unfold State.putEvent
  generalize hu : s.modHost (fun h => { h with evSeq := h.evSeq + 1 }) = u
  have hr : ∀ q, u.ring q = s.ring q := fun q => by rw [← hu]; rfl
  obtain ⟨e0, e1, e2, e3⟩ := State.writeEntry_spec u 96 (fun ph => .ev (s.mkEvent code src part owner sealed args ph) ph)
  refine ⟨?_, fun q hq => ?_, ⟨_, by rw [e1, hr]⟩, ⟨_, by rw [e3, ← hu]; rfl⟩, fun k d _ => ?_⟩
  · rw [e0, ← hu]; rfl
  · rw [e2 q hq, hr]
  · rw [e0, ← hu]; rfl

/-- What an event holds. -/
theorem State.mkEvent_spec (s : State) (code src part owner : Nat) (sealed : Bool) (args : List Nat) (ph : Bool) :
    (s.mkEvent code src part owner sealed args ph).code = code ∧ (s.mkEvent code src part owner sealed args ph).source = src ∧
    (s.mkEvent code src part owner sealed args ph).partition = part ∧ (s.mkEvent code src part owner sealed args ph).owner = owner ∧
    (s.mkEvent code src part owner sealed args ph).sealed = sealed ∧
    if sealed then (s.mkEvent code src part owner sealed args ph).args = [] ∧ ∀ k, s.key owner 0x0A 0 = some k →
      (s.mkEvent code src part owner sealed args ph).body = some ((s.mkEvent code src part owner sealed args ph).seal k.material args ph)
    else (s.mkEvent code src part owner sealed args ph).args = args ∧ (s.mkEvent code src part owner sealed args ph).body = none := by
  unfold State.mkEvent
  cases sealed
  · exact ⟨rfl, rfl, rfl, rfl, rfl, rfl, rfl⟩
  · cases h : s.key owner 0x0A 0
    · exact ⟨rfl, rfl, rfl, rfl, rfl, rfl, fun k hk => by simp at hk⟩
    · exact ⟨rfl, rfl, rfl, rfl, rfl, rfl, fun k hk => by obtain rfl := Option.some.inj hk; rfl⟩

theorem State.putEvent_wrote (s : State) (code src part owner : Nat) (sealed : Bool) (args : List Nat) :
    Wrote code src part owner sealed args (s.putEvent code src part owner sealed args) := by
  have hk : ∀ i, (s.putEvent code src part owner sealed args).key owner 0x0A i = s.key owner 0x0A i := fun i => by
    rw [(s.putEvent_quiet ..).1]; rfl
  let ph := (s.modHost fun h => { h with evSeq := h.evSeq + 1 }).phaseOf 96 ((s.modHost fun h => { h with evSeq := h.evSeq + 1 }).ring 96).produced
  refine .inl ⟨s.mkEvent code src part owner sealed args ph, ph, ?_, ?_⟩
  · unfold State.putEvent
    rw [(State.writeEntry_spec (s.modHost fun h => { h with evSeq := h.evSeq + 1 }) 96 (fun ph => .ev (s.mkEvent code src part owner sealed args ph) ph)).2.1]
    exact List.mem_append_right _ (List.mem_singleton.mpr rfl)
  · simp only [hk]; exact s.mkEvent_spec ..

theorem State.loseEvent_quiet (s : State) : Quiet s s.loseEvent := by
  refine ⟨rfl, fun _ _ => rfl, ⟨[], by simp [State.loseEvent, State.count, State.countBy, State.setReg, State.modRegs, State.modHost, State.ring]⟩,
    ⟨[], by simp [State.loseEvent, State.count, State.countBy, State.setReg, State.modRegs, State.modHost]⟩, fun k d hk => ?_⟩
  exact KV.get_put_other _ _ hk _ _

theorem State.loseEvent_lost (s : State) : 0 < s.loseEvent.host.evLost := Nat.succ_pos _

/-- Writing an event: it stands in the event ring, or it is counted as lost; nothing else happens. -/
theorem State.event_told (s : State) (code src part owner : Nat) (sealed : Bool) (args : List Nat) :
    Told code src part owner sealed args s (s.event code src part owner sealed args) := by
  unfold State.event
  split
  · next h => exact ⟨Quiet.refl s, fun hp => by simp [hp] at h⟩
  split
  · exact ⟨s.loseEvent_quiet, fun _ => .inr s.loseEvent_lost⟩
  split
  · exact ⟨s.putEvent_quiet .., fun _ => s.putEvent_wrote ..⟩
  · have q0 : Quiet s (s.modHost fun h => { h with evLost := 0 }) := ⟨rfl, fun _ _ => rfl, ⟨[], by simp [State.modHost, State.ring]⟩,
      ⟨[], by simp [State.modHost]⟩, fun _ _ _ => rfl⟩
    have q1 := q0.trans (State.putEvent_quiet _ 0x0001 0 0xFF 0 false [s.host.evLost])
    simp only
    split
    · exact ⟨q1.trans (State.putEvent_quiet ..), fun _ => State.putEvent_wrote ..⟩
    · exact ⟨q1.trans (State.loseEvent_quiet _), fun _ => .inr (State.loseEvent_lost _)⟩

/-- Writing an event changes the host port and the count of lost events alone. -/
theorem State.event_quiet (s : State) (code src part owner : Nat) (sealed : Bool) (args : List Nat) :
    Quiet s (s.event code src part owner sealed args) := (s.event_told ..).1

theorem Quiet.frameAt {s u : State} (h : Quiet s u) (p : Nat) : u.frameAt p = s.frameAt p := by
  rw [h.1]; rfl

/-! ### Several partitions at once -/

theorem State.part_modParts (s : State) (ps : List Nat) (f : Part → Part) (hf : ∀ x, f (f x) = f x) (q : Nat) :
    (s.modParts ps f).part q = if q ∈ ps then f (s.part q) else s.part q := by
  unfold State.modParts
  induction ps generalizing s with
  | nil => simp
  | cons p ps ih =>
    rw [List.foldl_cons, ih]
    by_cases hq : q = p
    · subst hq; simp [hf]
    · simp [hq, State.part_modPart_other _ _ hq]

theorem State.modParts_rest (s : State) (ps : List Nat) (f : Part → Part) :
    s.modParts ps f = { s with parts := (s.modParts ps f).parts } := by
  unfold State.modParts
  induction ps generalizing s with
  | nil => rfl
  | cons p ps ih => rw [List.foldl_cons, ih]; rfl

end Sys2Proof.Machine
end

