-- ==== Sys2Proof/WellFormed.lean ====
section
/-! DEFINITION. Well-formed commands: every operand lies in the range that the manual gives its place. A test under Tests holds one
ill-formed command for each check. -/

namespace Sys2Proof

/-- A global ring number (ring table of 10_host_port.md). -/
def ringInRange (r : RingNo) : Bool := decide (r < 512)
/-- A Velvin Link port of a hub (R190). -/
def portInRange (p : Nat) : Bool := decide (p < 8)
/-- A physical lane of a hub: 64 and four spares (R190, R201). -/
def laneInRange (l : Nat) : Bool := decide (l < 68)
/-- A partition of the module (R16). -/
def partInRange (p : Nat) : Bool := decide (p < 8)
/-- A logical Cabinet of the module (R17, R31). -/
def cabInRange (c : Nat) : Bool := decide (c < 128)
/-- An array die of a channel and a physical Cabinet on it (R24). -/
def placeInRange (die cab : Nat) : Bool := decide (die < 2) && decide (cab < 34)
/-- An array die of a channel. -/
def dieInRange (die : Nat) : Bool := decide (die < 2)
/-- A logical Bench of a Cabinet and a logical cell of a Bench (R31, R32). -/
def cellInRange (bench cell : Nat) : Bool := decide (bench < 16) && decide (cell < 64)
/-- An end of a fabric link of a channel: hub ports 0-7, sibling links 8 and 9, host-die link 10, guest port 11, mesh links from 12, far ends from
524 (R162, R164, R172). -/
def linkInRange (link : Nat) : Bool := decide (link < 535)
/-- A message engine of a hub (R257, R343). -/
def engineInRange (e : Nat) : Bool := decide (e < 18)
/-- A time view that follows a source (R380). -/
def viewInRange (v : Nat) : Bool := decide (v < 6)
/-- A module identity of the topology table (R218). -/
def moduleInRange (m : Nat) : Bool := decide (m < 64)
/-- A message port of a hub (R246). -/
def mportInRange (k : Nat) : Bool := decide (k < 128)
/-- A key range of a channel (R279). -/
def rangeInRange (r : Nat) : Bool := decide (r < 16)

/-- A level of the counter tree (R281), 4 for its roots. -/
def eccInRange : Ecc → Bool
  | .node l => decide (1 ≤ l) && decide (l ≤ 4)
  | _ => true

/-- Whether the operands of a command lie in their ranges. -/
def Instr.wf : Instr → Bool
  | .nop r _ | .setMode r _ | .setPower r _ | .assign r _ | .reclaim r _ | .operatorStop r _ | .operatorUnload r _ | .setTopology r _ _
  | .setFunction r _ | .operatorAbort r _ | .openSlot r _ | .closeSlot r _ | .assignRange r _ | .releaseRange r _ | .operatorLaunch r _
  | .permitStep r _ | .viewWrite r _ | .load r _ _ | .run r _ | .tenantStop r _ | .step r _ | .tenantUnload r _ | .stats r _ | .marchOk r _
  | .tenantAbort r _ | .setRangeMode r _ | .msgIn r _ _ | .copyIn r _ | .copyOut r _ | .copy r _ | .fill r _ | .gather r _ | .scatter r _
  | .checksum r _ | .captureStart r _ | .captureStop r _ | .trigSet r _ _ | .trigClear r _ | .probeSet r _ _ | .traceSet r _ _ | .traceStop r _
  | .tenantLaunch r _ | .ringEnable r _ | .ringDisable r _ | .interruptTimer r => ringInRange r
  | .loadComplete ⟨p, _⟩ | .clearanceGrant p | .holdLong p | .valuePacketArrival p _ | .frameCommit p | .frameAborted p _
  | .twinVerdict p | .quickSliceTestDone p _ | .twinStateCopyDone p | .intakeDelivery p => partInRange p
  | .portEnable _ p _ | .portDisable _ p _ | .portRateChange _ p _ | .amReceive _ p _ | .amSend _ p | .fillSend _ ⟨p, _⟩ | .spareSwitch _ p _
  | .laneRotation _ p | .rotationTestDone _ p _ _ _ | .ackTimer _ p | .nakRepeat _ p
  | .groupClose _ p | .memMessageReceive _ p _ | .msgMessageReceive _ p _ | .offer _ p _ | .accept _ p _ | .authFinish _ p _ | .update _ p _
  | .updateAck _ p _ | .reject _ p _ | .linkAuthTimeout _ p | .linkAuthRetry _ p | .epochRollover _ p | .sync _ p _ | .pdelayReq _ p _
  | .pdelayResp _ p _ _ | .announce _ p _ _ | .twinHeartbeatSend _ p | .twinHeartbeat _ p => portInRange p
  | .valueMessageReceive _ p src _ recs => portInRange p && moduleInRange src && decide (1 ≤ recs.length) && decide (recs.length ≤ 512)
  | .linkFlitReceive _ p ⟨slot, _⟩ | .linkctlReceive _ p ⟨slot, _⟩ => portInRange p && decide (slot < 6)
  | .messageForward _ p dst src _ ttl _ => portInRange p && moduleInRange dst && moduleInRange src && decide (ttl < 64)
  | .hello _ p rp _ rm _ => portInRange p && portInRange rp && moduleInRange rm
  | .laneCdrLock _ l | .laneBlockLock _ ⟨l, _⟩ | .laneLockLost _ ⟨l, _⟩ _ | .laneNoSignal _ l => laneInRange l
  | .memoryReturn p _ ecc => partInRange p && (ecc == .ok || ecc == .corrected || ecc == .uncorrectable)
  | .hbmReadReturn _ _ ecc node => (ecc == .ok || ecc == .corrected || ecc == .uncorrectable) && eccInRange (lostNode node)
  | .captureDelivery _ ⟨ecc, _⟩ => eccInRange ecc
  | .wbufDrain _ ⟨ecc, n⟩ => eccInRange ecc && decide (n < 3)
  | .stepBegin cab _ | .cabinetRepaired cab _ => cabInRange cab
  | .tileReloaded cab b x _ _ | .cellSwapped cab b x _ => cabInRange cab && cellInRange b x
  | .benchSwapped cab b _ => cabInRange cab && cellInRange b 0
  | .marchStart _ d i _ | .marchDone _ d i _ | .configParityFail _ d i => placeInRange d i
  | .sliceStart _ d | .slicePreloadDone _ ⟨d, _⟩ | .sliceSwap _ d _ | .cabinetTestDone _ d _ | .patrolPass _ d _ _ => dieInRange d
  | .flitReceive _ l _ _ | .laneCheckDone _ l _ _ | .wireRotation _ l | .wireTestDone _ l _ => linkInRange l
  | .unitComplete _ e _ _ ecc _ => engineInRange e && eccInRange ecc
  | .engineReplaced _ e _ | .spareEngineCheck _ e _ => engineInRange e
  | .viewEnable _ v _ | .pdelayTimer _ v | .syncTimeout _ v | .masterTimeout _ v | .announceSend _ v | .syncSend _ v => viewInRange v
  | .viewExchange _ v => decide (v < 8)
  | .launchFire _ e => decide (e < 16)
  | .outletWriteOut _ k => mportInRange k
  | .rangeClearDone _ r => rangeInRange r
  | .runStart _ src _ _ | .stopAt _ src _ | .slotHome _ src _ => moduleInRange src
  | .trigMessage _ src unit _ _ => moduleInRange src && decide (unit < 16)
  | .pairPrimary ⟨_, src⟩ member => moduleInRange src && moduleInRange member
  | .memTimeout _ tag => decide (tag < 4096)
  | .trigEdge _ line _ => decide (line < 4)
  | .phaseFailure g _ l => decide (g < 6) && decide (l.toNat ≤ 4)
  | .tempWarn die _ => decide (die < 9)
  | .oscCheck site _ => decide (site < 3)
  | .controllerHeartbeat who => decide (who < 3)
  | .twinInput _ _ port kind _ => mportInRange port && decide (kind < 4)
  | .twinSignature _ _ first sigs => decide (first + sigs.length ≤ 128)
  | .chainStatus index st => decide (index < 64) && decide (st < 256)
  | .storeBlockRetired store _ => decide (store < 3)
  | .captureBlockClose _ d => decide (d < 256)
  | .keySet _ kind index _ | .keyDrop _ kind index => decide (kind < 256) && decide (index < 2 ^ 32)
  | .getCertificate slot offset length => decide (slot < 16) && decide (offset < 65536) && decide (length < 65536)
  | .challenge slot _ => decide (slot < 16)
  | .getMeasurements _ index _ => decide (index < 256)
  | .badAccess _ n _ => decide (1 ≤ n) && decide (n ≤ 64)
  | .hdmRead _ a ecc _ => decide (a < 2 ^ 32) && eccInRange ecc
  | .hdmWrite _ a _ => decide (a < 2 ^ 32)
  | .doorbell page offset _ _ entries => decide (page < 256) && decide (offset < 4096) && decide (entries.length ≤ 65536)
  | .ideKm stream _ => decide (stream < 5)
  | .getVersion | .getCapabilities | .negotiateAlgorithms _ | .getDigests | .keyExchange _ _ | .finish _ _ | .spdmHeartbeat _ | .keyUpdate _
  | .claim _ _ | .keyList _ | .debugToken _ _ | .lifecycle _ _ _ _ _ | .debugTokenExpiry | .registerWrite _ _ _ | .lowWordRead _
  | .busTimeout _ _ | .modArrayBudgetWrite _ | .hbmSpareStart _ _ | .pcSparingDone _ _ | .guestRailsWrite _ _ | .guestRailFault _ _
  | .spareAssignWrite _ _ | .eyeScanStart _ _ | .eyeScanDone _ _ _ | .baseDeadlineWrite _ | .baseGo _ | .chainStart _ | .baseVerifyDone _ _
  | .deadlineExpired | .configRequest | .configWaitTimeout | .modTwinRejoin _ | .modPairReplace _ | .recoveryContinue _ | .recoveryFence _
  | .recoveryStop _ | .sliceNow _ _ | .patrolRestart _ _ | .timSnap _ _ | .deliveryChange _ _ | .deliveryModeApplied _ | .acqConsumedWrite _ _
  | .trcConsumedWrite _ _ | .modProbeGroupWrite _ | .modProbeTraceWrite _ | .auxPresent _ | .auxLost | .powerEnable _ _ | .inputLost _
  | .perstAssert | .perstRelease | .hostReset _ | .linkDown | .tamper _ | .emergencyOff _ _ | .channelEmergencyOff _ _ _ | .emergencyOffRestart
  | .powerStateReached _ _ _ | .sysclkLost _ | .sysclkReturn _ | .hbmHot _ _ | .refresh _ |  .macVerdict _ _ _
  | .guestPulses _ | .goutReceive _ _ | .guestResetOutputs _ _ | .guestLate _ | .slotHomeTimer _ | .chainData _ _ | .chainEnd _
  | .rejoinPrecopyPass _ | .refereeLost | .sequencerLost _ | .confirm _ _ _ | .twinFault _ | .twinState _ _ _ _ | .partnerLost
  | .joinPrecopyPass _ | .engineDispatch _ | .traceOverflow _ _ | .traceBlockDelivery _ | .linkUp _ _ => true

end Sys2Proof
end

