-- ==== Sys2Proof/Tests/Slice0.lean ====
section
/-! SUPPORT. The module's own tests: an ill-formed command for each check of WellFormed, single steps whose results the manual states, and
for every statement with hypotheses a concrete state and operands that meet them (`hyps_…`). -/

namespace Sys2Proof.Tests

set_option Elab.async false

open Sys2Proof Sys2Proof.Machine

/-! ### Small states -/

/-- The parameter bytes of a descriptor, from (offset, value) pairs. -/
def par (l : List (Nat × Nat)) : BitVec 320 := BitVec.ofNat 320 (l.map (fun e => e.2 * 2 ^ (8 * (e.1 - 8)))).sum

/-- An accepted command of ring `r` with TAG 7. -/
def cmd (r : RingNo) (op part : Nat) (l : List (Nat × Nat)) : Cmd :=
  { ring := r, count := 0, arb := .a, started := false,
    desc := { opcode := BitVec.ofNat 8 op, flags := 0, partition := BitVec.ofNat 4 part, hi := 0, tag := 7, params := par l, auth := 0 } }

/-- A state with one accepted command. -/
def on (s : State) (m : Cmd) : State := { s with host := { s.host with cmds := [m] } }

/-- The reset state. -/
abbrev R : State := State.reset

/-- The one accepted command of a state is ready to be carried out. -/
theorem ready_on (s : State) (m : Cmd) (op : Nat) (h : m.desc.opcode.toNat = op) (h1 : m.started = false) (h2 : s.host.perst = false)
    (h3 : s.sec.latched = false) (h4 : s.sec.lifecycle ≠ .scrapped := by decide) : Ready (on s m) m.ring m.desc.tag op m := by
  refine ⟨⟨?_, h, h1, ?_, .inl h2, h4⟩, h3⟩
  · simp [on, State.cmd]
  · simp [on, State.fenceOpen]

/-- A design in partition 0 of channel A, with frames of four steps, one phase and no regions. -/
def des : Design :=
  { tag := 1, slot := 1, targets := [0], x := 0,
    header := { frameLen := 4, phases := 1, pclass := [0], regions := 0, slots := 0, msgPorts := 0, guestGroups := 0, imageId := 5, keyId := 1,
                modules := 0, topoHash := 0, mask := 1 },
    nonce := 9, digest := 3 }

/-- A state that holds one loaded design. -/
def holding (s : State) (d : Design) : State :=
  { s with designs := [d], parts := d.allParts.foldl (fun ps p => KV.put {} p { owner := d.slot, state := d.state, design := d.tag } ps) [] }

/-- Channel A in a power state. -/
def powered (s : State) (st : PState) : State := s.modPw .a fun p => { p with state := st }

/-- A key of a tenant or of the operator, in the Hutch of channel A. -/
def keyed (s : State) (ks : List Key) : State := s.modHutch .a fun h => { h with keys := ks }

/-- A ring's RING_CTRL. -/
def ringed (s : State) (r : RingNo) (v : Word32) : State := s.setReg .hpRingCtrl .a [r] v

/-! ### Well-formed commands: one ill-formed term for each check, beside one at the edge that is accepted -/

/-- A TIME message. -/
def timeMsg : TimeMsg := { src := 0, domain := 0, seq := 0, correction := 0, seconds := 0, ns := 0 }

/-- A Cabinet test that finds nothing. -/
def clean : CabTest := { cells := [], benches := [], partFailed := false, drift := 0 }

theorem test_wf_ring : (Instr.nop 511 0).wf = true ∧ (Instr.nop 512 0).wf = false := by decide
theorem test_wf_part : (Instr.frameCommit 7).wf = true ∧ (Instr.frameCommit 8).wf = false := by decide
theorem test_wf_port : (Instr.amSend .b 7).wf = true ∧ (Instr.amSend .b 8).wf = false := by decide
theorem test_wf_value : (Instr.valueMessageReceive .a 7 63 0 [⟨0, true, 0⟩]).wf = true ∧
    (Instr.valueMessageReceive .a 8 63 0 [⟨0, true, 0⟩]).wf = false ∧ (Instr.valueMessageReceive .a 7 64 0 [⟨0, true, 0⟩]).wf = false ∧
    (Instr.valueMessageReceive .a 7 63 0 []).wf = false ∧ (Instr.valueMessageReceive .a 7 63 0 (List.replicate 513 ⟨0, true, 0⟩)).wf = false := by
  decide +kernel
theorem test_wf_forward : (Instr.messageForward .a 7 63 63 0 63 1).wf = true ∧ (Instr.messageForward .a 8 0 0 0 0 1).wf = false ∧
    (Instr.messageForward .a 0 64 0 0 0 1).wf = false ∧ (Instr.messageForward .a 0 0 64 0 0 1).wf = false ∧
    (Instr.messageForward .a 0 0 0 0 64 1).wf = false := by decide
theorem test_wf_hello : (Instr.hello .a 7 7 .b 63 0).wf = true ∧ (Instr.hello .a 8 0 .b 0 0).wf = false ∧ (Instr.hello .a 0 8 .b 0 0).wf = false ∧
    (Instr.hello .a 0 0 .b 64 0).wf = false := by decide
theorem test_wf_lane : (Instr.laneCdrLock .a 67).wf = true ∧ (Instr.laneCdrLock .a 68).wf = false := by decide
theorem test_wf_cabinet : (Instr.cabinetRepaired 127 .good).wf = true ∧ (Instr.cabinetRepaired 128 .good).wf = false := by decide
theorem test_wf_tile : (Instr.tileReloaded 127 15 63 .good true).wf = true ∧ (Instr.tileReloaded 128 0 0 .good true).wf = false ∧
    (Instr.tileReloaded 0 16 0 .good true).wf = false ∧ (Instr.tileReloaded 0 0 64 .good true).wf = false := by decide
theorem test_wf_bench : (Instr.benchSwapped 127 15 .good).wf = true ∧ (Instr.benchSwapped 128 0 .good).wf = false ∧
    (Instr.benchSwapped 0 16 .good).wf = false := by decide
theorem test_wf_place : (Instr.marchStart .a 1 33 1).wf = true ∧ (Instr.marchStart .a 2 0 1).wf = false ∧ (Instr.marchStart .a 0 34 1).wf = false := by
  decide
theorem test_wf_die : (Instr.cabinetTestDone .a 1 clean).wf = true ∧ (Instr.cabinetTestDone .a 2 clean).wf = false := by decide
theorem test_wf_link : (Instr.wireRotation .a 534).wf = true ∧ (Instr.wireRotation .a 535).wf = false := by decide
theorem test_wf_engine : (Instr.spareEngineCheck .a 17 true).wf = true ∧ (Instr.spareEngineCheck .a 18 true).wf = false := by decide
theorem test_wf_view : (Instr.viewEnable .a 5 0).wf = true ∧ (Instr.viewEnable .a 6 0).wf = false := by decide
theorem test_wf_exchange : (Instr.viewExchange .a 7).wf = true ∧ (Instr.viewExchange .a 8).wf = false := by decide
theorem test_wf_launch : (Instr.launchFire .a 15).wf = true ∧ (Instr.launchFire .a 16).wf = false := by decide
theorem test_wf_mport : (Instr.outletWriteOut .a 127).wf = true ∧ (Instr.outletWriteOut .a 128).wf = false := by decide
theorem test_wf_range : (Instr.rangeClearDone .a 15).wf = true ∧ (Instr.rangeClearDone .a 16).wf = false := by decide
theorem test_wf_module : (Instr.stopAt .a 63 0).wf = true ∧ (Instr.stopAt .a 64 0).wf = false := by decide
theorem test_wf_trig : (Instr.trigMessage .a 63 15 0 0).wf = true ∧ (Instr.trigMessage .a 64 0 0 0).wf = false ∧
    (Instr.trigMessage .a 0 16 0 0).wf = false := by decide
theorem test_wf_pair : (Instr.pairPrimary ⟨.a, 63⟩ 63).wf = true ∧ (Instr.pairPrimary ⟨.a, 64⟩ 0).wf = false ∧ (Instr.pairPrimary ⟨.a, 0⟩ 64).wf = false := by decide
theorem test_wf_memTag : (Instr.memTimeout .a 4095).wf = true ∧ (Instr.memTimeout .a 4096).wf = false := by decide
theorem test_wf_line : (Instr.trigEdge .a 3 0).wf = true ∧ (Instr.trigEdge .a 4 0).wf = false := by decide
theorem test_wf_phase : (Instr.phaseFailure 5 0 4).wf = true ∧ (Instr.phaseFailure 6 0 0).wf = false ∧ (Instr.phaseFailure 0 0 5).wf = false := by decide
theorem test_wf_temp : (Instr.tempWarn 8 0).wf = true ∧ (Instr.tempWarn 9 0).wf = false := by decide
theorem test_wf_osc : (Instr.oscCheck 2 true).wf = true ∧ (Instr.oscCheck 3 true).wf = false := by decide
theorem test_wf_heartbeat : (Instr.controllerHeartbeat 2).wf = true ∧ (Instr.controllerHeartbeat 3).wf = false := by decide
theorem test_wf_input : (Instr.twinInput .a 0 127 3 []).wf = true ∧ (Instr.twinInput .a 0 128 0 []).wf = false ∧
    (Instr.twinInput .a 0 0 4 []).wf = false := by decide
theorem test_wf_signature : (Instr.twinSignature .a 0 64 (List.replicate 64 0)).wf = true ∧
    (Instr.twinSignature .a 0 64 (List.replicate 65 0)).wf = false := by decide +kernel
theorem test_wf_chain : (Instr.chainStatus 63 255).wf = true ∧ (Instr.chainStatus 64 0).wf = false ∧ (Instr.chainStatus 0 256).wf = false := by decide
theorem test_wf_store : (Instr.storeBlockRetired 2 0).wf = true ∧ (Instr.storeBlockRetired 3 0).wf = false := by decide
theorem test_wf_design : (Instr.captureBlockClose .a 255).wf = true ∧ (Instr.captureBlockClose .a 256).wf = false := by decide
theorem test_wf_key : (Instr.keyDrop .operator 255 255).wf = true ∧ (Instr.keyDrop .operator 256 0).wf = false ∧
    (Instr.keySet .operator 0 (2 ^ 32) []).wf = false := by decide
theorem test_wf_certificate : (Instr.getCertificate 15 65535 65535).wf = true ∧ (Instr.getCertificate 16 0 0).wf = false ∧
    (Instr.getCertificate 0 65536 0).wf = false ∧ (Instr.getCertificate 0 0 65536).wf = false := by decide
theorem test_wf_challenge : (Instr.challenge 15 0).wf = true ∧ (Instr.challenge 16 0).wf = false := by decide
theorem test_wf_measurement : (Instr.getMeasurements none 255 0).wf = true ∧ (Instr.getMeasurements none 256 0).wf = false := by decide
theorem test_wf_badAccess : (Instr.badAccess 0 64 true).wf = true ∧ (Instr.badAccess 0 0 true).wf = false ∧ (Instr.badAccess 0 65 true).wf = false := by
  decide
theorem test_wf_hdm : (Instr.hdmRead .a (2 ^ 32 - 1) .ok true).wf = true ∧ (Instr.hdmRead .a (2 ^ 32) .ok true).wf = false ∧
    (Instr.hdmWrite .a (2 ^ 32) 0).wf = false := by decide
theorem test_wf_doorbell : (Instr.doorbell 255 4095 0 false []).wf = true ∧ (Instr.doorbell 256 0 0 false []).wf = false ∧
    (Instr.doorbell 0 4096 0 false []).wf = false := by decide
theorem test_wf_doorbell_entries (l : List Desc) (h : 65536 < l.length) : (Instr.doorbell 0 0 0 false l).wf = false := by
  simp [Instr.wf]; omega
theorem test_wf_ide : (Instr.ideKm 4 true).wf = true ∧ (Instr.ideKm 5 true).wf = false := by decide
theorem test_wf_slot : (Instr.linkFlitReceive .a 7 ⟨5, []⟩).wf = true ∧ (Instr.linkFlitReceive .a 7 ⟨6, []⟩).wf = false ∧
    (Instr.linkctlReceive .a 8 ⟨0, []⟩).wf = false := by decide
theorem test_wf_ecc : (Instr.hbmReadReturn .a 0 .ok (some 4)).wf = true ∧ (Instr.hbmReadReturn .a 0 .ok (some 5)).wf = false ∧
    (Instr.hbmReadReturn .a 0 (.node 1) none).wf = false := by decide
theorem test_wf_drain : (Instr.wbufDrain .a ⟨.ok, 2⟩).wf = true ∧ (Instr.wbufDrain .a ⟨.ok, 3⟩).wf = false := by decide
theorem test_wf_return : (Instr.memoryReturn 7 0 .corrected).wf = true ∧ (Instr.memoryReturn 8 0 .ok).wf = false ∧
    (Instr.memoryReturn 0 0 .scratch).wf = false := by decide

/-! ### Single steps and functions on the worked examples of the manual -/

/-- No row of the table has bits: no word spells a command (log entry 1). -/
theorem test_decode_none : decodeTableWord 0 0 = none ∧ decodeTableWord 64 0xFFFF = none := by decide
theorem test_withFetchWord (n w : Nat) : State.withFetchWord R n w = R := rfl

/-- The queue is first in, first out (R235 for rings; the block's own form): the front goes, the rest stays. -/
theorem test_step_queue : ∃ u, step { R with pending := [.twinVerdict 0, .partnerLost] } = .next u ∧ u.pending = [.partnerLost] := ⟨_, rfl, rfl⟩

/-- CRC-32C (R53, R200): the check value of the polynomial over "123456789". -/
theorem test_crc32c : crc32c [0x31, 0x32, 0x33, 0x34, 0x35, 0x36, 0x37, 0x38, 0x39] = 0xE3069283 := by decide +kernel

/-- 01_module_anatomy.md, example: Cabinet 41 lies in partition 2, on die A1. -/
theorem test_cabinet41 : partOfCab 41 = 2 ∧ dieOfCab 41 = 1 ∧ chOfCab 41 = .a := by decide

/-- 02_cells_and_benches.md, example of lanes: cells 3, 17 and 40 of Bench 6 send; lanes 24, 25 and 26 carry them, lane 27 carries 0. -/
theorem test_lanes :
    let o := fun k => ({ key := 6 * 64 + k, insn := 2 ^ 73, res := true, next := {} } : CellOut)
    outLanes [o 3, o 17, o 40] = 7#64 <<< 24 := by decide +kernel

/-- 02_cells_and_benches.md, example of gathers: cells 2, 5, 11 and 12 of Bench 3 tap results 1, 0, 1 and 1: the address register is 0xD. -/
theorem test_gather :
    let o := fun k r => ({ key := 3 * 64 + k, insn := 2 ^ 84, res := r, next := {} } : CellOut)
    KV.get 0 3 (fillGather [] [o 2 true, o 5 false, o 11 true, o 12 true] 1) = 0xD := by decide +kernel

/-- 02_cells_and_benches.md, example of tiles: step 1,000 is in tile 62, bits [791:704]. -/
theorem test_tile : ({ des with code := [(62, BitVec.ofNat 1440 (0xABC * 2 ^ 704))] } : Design).insn 0 1000 = 0xABC := by decide +kernel

/-- The worked step table of 02_cells_and_benches.md, step 3 of cell 5: q1' = q1 XOR t goes to the next bank at slot 1. -/
theorem test_counter_step3 :
    let d : Design := { des with
      code := [(cellKey 10 2 5 * 128, BitVec.ofNat 1440 (0x000E00FFFFFF002C016666 * 2 ^ 264))],
      cells := [(cellKey 10 2 5, { res := 4, bank0 := 1 })] }
    let o := d.cellStep 10 3 0 [] (cellKey 10 2 5)
    o.res = true ∧ o.next.nextBank = 2 ∧ o.next.curBank = 1 ∧ bitAt o.insn 73 = true := by decide +kernel

/-- The worked step table, step 1 of cell 9: it lands what cell 5 computed at step 0, in slot 2048 + 1. -/
theorem test_counter_landing :
    let d : Design := { des with
      code := [(cellKey 10 2 9 * 128, BitVec.ofNat 1440 ((2 ^ 72 + 5 * 2 ^ 64) * 2 ^ 88))], cells := [(cellKey 10 2 5, { res := 1 })] }
    (d.cellStep 10 1 0 [] (cellKey 10 2 9)).next.land = 2 := by decide +kernel

/-- 04_fatos_contract.md, examples of placement: mask 0x05 into partitions 0 and 2 takes x = 0; mask 0x02 into partition 5 takes x = 4. -/
theorem test_placement : R.placement 0x05 [0, 2] = some 0 ∧ (R.modMode fun x => { x with mode := .joined }).placement 0x02 [5] = some 4 := by decide +kernel

/-- 04_fatos_contract.md, example of R102: two PC3 partitions at SP1 and four PC6 partitions at SP0 are predicted at 563 W, and at
396.5 W (the whole watts of it) once channel B is at SP1. -/
theorem test_power :
    let h := fun (t : List Nat) c => ({ des with tag := c, targets := t, header := { des.header with pclass := List.replicate 8 c } } : Design)
    let s : State := { R with designs := [h [0, 1] 3, h [4, 5, 6, 7] 6] }
    s.predAt 1 0 / 1000000 = 563 ∧ s.predAt 1 1 / 1000000 = 396 := by decide +kernel

/-- 04_fatos_contract.md, example of relocation: with x = 4, a DEST of Cabinet 21 becomes 85. -/
theorem test_relocation : relocEntry 4 false 20 (1 + 21 * 8) = 1 + 85 * 8 := by decide +kernel

/-- Memory: what is written is read, other places keep their value, and writing what an unlisted place reads as removes the entry. -/
theorem test_memory : Memory.read (Memory.write [] 7 5) 7 = 5 ∧ Memory.read (Memory.write [(8, 1)] 7 5) 8 = 1 ∧ Memory.write [(7, 5)] 7 0 = [] := by decide

/-- 14_modes_and_recovery.md, R309: SET_MODE to JOINED (code 2) puts the mode in force. -/
theorem test_setMode : ∃ u, exec (.setMode 0 7) (on (ringed R 0 1) (cmd 0 0x02 0 [(8, 2)])) = .next u ∧ u.mode.mode = .joined := ⟨_, rfl, by decide +kernel⟩

/-- R289: under the tamper latch SET_MODE has no effect. -/
theorem test_setMode_latched :
    ∃ u, exec (.setMode 0 7) (on ({ R with sec := { R.sec with latched := true } }) (cmd 0 0x02 0 [(8, 2)])) = .next u ∧ u.mode.mode = .split :=
  ⟨_, rfl, by decide +kernel⟩

/-! ### Sealed buffers -/

theorem gcmSeal_length (key iv p : List Byte) : (gcmSeal key iv p).length = p.length := by simp [gcmSeal]

/-- The key stream applied twice gives the plaintext back. -/
theorem gcmSeal_twice (key iv p : List Byte) : gcmSeal key iv (gcmSeal key iv p) = p := by
  apply List.ext_getElem
  · simp [gcmSeal]
  · intro i h1 h2
    simp [gcmSeal]

theorem leBytes_length (n v : Nat) : (leBytes n v).length = n := by
  induction n generalizing v with
  | zero => rfl
  | succ n ih => simp [leBytes, ih]

/-- A host buffer of a command, sealed as R277 says. -/
def sealedBuf (m : Cmd) (key p : List Byte) : List Byte :=
  gcmSeal key (m.iv 1) p ++ leBytes 16 (Config.gcmTag key (m.iv 1) m.desc.bytes (gcmSeal key (m.iv 1) p)).toNat

/-- It opens to its plaintext. -/
theorem openBuf_sealed (m : Cmd) (k : Key) (p : List Byte) (h : m.key 5 0 = some k) :
    m.openBuf 1 (sealedBuf m k.material p) = some p := by
  simp [Cmd.openBuf, h, sealedBuf, gcmSeal_length, leBytes_length, gcmSeal_twice]

/-! ### The rings' commands: states that meet the hypotheses -/

theorem hyps_LatchCompletesTamper : ∃ (i : Instr) (r : RingNo) (t : Tag) (op : Nat) (s : State) (m : Cmd),
    ringForm i = some (r, t, op) ∧ op ≠ 0x01 ∧ Due s r t op m ∧ s.sec.latched = true :=
  ⟨.setMode 0 7, 0, 7, 2, on (R.modSec fun x => { x with latched := true }) (cmd 0 2 15 [(8, 1)]), cmd 0 2 15 [(8, 1)],
    rfl, by decide, ⟨by decide, by decide, rfl, by decide, .inl rfl, by decide⟩, rfl⟩

/-- A command with its FENCE set behind another of its ring. -/
def fenced : Cmd := { cmd 0 1 15 [] with desc := { (cmd 0 1 15 []).desc with flags := 1, tag := 8 } }

theorem hyps_FenceHolds : ∃ (i : Instr) (r : RingNo) (t : Tag) (op : Nat) (s : State) (m : Cmd),
    ringForm i = some (r, t, op) ∧ s.cmd r t = some m ∧ s.fenceOpen m = false :=
  ⟨.nop 0 8, 0, 8, 1, { R with host := { R.host with cmds := [cmd 0 2 15 [], fenced] } }, fenced, rfl, by decide, by decide⟩

theorem hyps_NopCompletes : ∃ s r t m, Due s r t 0x01 m := ⟨_, _, _, _, (ready_on R (cmd 0 1 15 []) 1 rfl rfl rfl rfl).toDue⟩

theorem hyps_SetMode :
    (∃ s r t m md, Ready s r t 0x02 m ∧ Mode.ofCode (m.desc.par 8 1) = some md ∧ s.modeReasons md = []) ∧
    (∃ s r t m md q qs, Ready s r t 0x02 m ∧ Mode.ofCode (m.desc.par 8 1) = some md ∧ s.modeReasons md = q :: qs) ∧
    (∃ s r t m md p, Ready s r t 0x02 m ∧ Mode.ofCode (m.desc.par 8 1) = some md ∧ p < 8 ∧ (s.part p).state ≠ .empty) ∧
    (∃ s r t m, Ready s r t 0x02 m ∧ Mode.ofCode (m.desc.par 8 1) = none) :=
  ⟨⟨_, _, _, _, .joined, ready_on R (cmd 0 2 15 [(8, 2)]) 2 rfl rfl rfl rfl, by decide, by decide⟩,
   ⟨_, _, _, _, .mirrored, 6, [7], ready_on R (cmd 0 2 15 [(8, 4)]) 2 rfl rfl rfl rfl, by decide, by decide⟩,
   ⟨_, _, _, _, .service, 0, ready_on (holding R des) (cmd 0 2 15 [(8, 7)]) 2 rfl rfl rfl rfl, by decide, by decide, by decide⟩,
   ⟨_, _, _, _, ready_on R (cmd 0 2 15 [(8, 8)]) 2 rfl rfl rfl rfl, by decide⟩⟩

/-- A base image is in force and the firmware of channel A matches. -/
def booted : State := (R.modBase fun b => { b with inForce := some 1 }).modCh .a fun h => { h with firmware := true }

theorem hyps_SetPower :
    (∃ s r t m, Ready s r t 0x03 m ∧ PState.ofCode (m.desc.par 9 1) = none) ∧
    (∃ s r t m st, Ready s r t 0x03 m ∧ PState.ofCode (m.desc.par 9 1) = some st ∧ (∀ c ∈ maskChs (m.desc.par 8 1), (s.pw c).walk = none) ∧
      s.powerRefused (m.desc.par 8 1) st = true) ∧
    (∃ s r t m st, Ready s r t 0x03 m ∧ PState.ofCode (m.desc.par 9 1) = some st ∧ (∀ c ∈ maskChs (m.desc.par 8 1), (s.pw c).walk = none) ∧
      s.powerRefused (m.desc.par 8 1) st = false ∧ st = .run ∧ s.powerTooMuch (m.desc.par 8 1) (m.desc.par 10 1) = true) ∧
    (∃ s r t m st, Ready s r t 0x03 m ∧ PState.ofCode (m.desc.par 9 1) = some st ∧ (∀ c ∈ maskChs (m.desc.par 8 1), (s.pw c).walk = none) ∧
      s.powerRefused (m.desc.par 8 1) st = false ∧ (st ≠ .run ∨ s.powerTooMuch (m.desc.par 8 1) (m.desc.par 10 1) = false) ∧
      (∀ c ∈ maskChs (m.desc.par 8 1), (s.pw c).state ≠ st ∧ (s.pw c).state ≠ .run)) ∧
    (∃ s r t m st c, Ready s r t 0x03 m ∧ PState.ofCode (m.desc.par 9 1) = some st ∧ (∀ x ∈ maskChs (m.desc.par 8 1), (s.pw x).walk = none) ∧
      maskChs (m.desc.par 8 1) = [c] ∧ s.powerRefused (m.desc.par 8 1) st = false ∧ (s.pw c).state = st ∧ st ≠ .run ∧
      (s.pw (otherCh c)).walk = none) :=
  ⟨⟨_, _, _, _, ready_on R (cmd 0 3 15 [(8, 1), (9, 5)]) 3 rfl rfl rfl rfl, by decide⟩,
   ⟨_, _, _, _, .run, ready_on R (cmd 0 3 15 [(8, 1), (9, 4)]) 3 rfl rfl rfl rfl, by decide, by decide, by decide⟩,
   ⟨_, _, _, _, .run, ready_on ((powered (holding booted des) .ready).setReg .modArrayBudget .a [] 0) (cmd 0 3 15 [(8, 1), (9, 4)]) 3 rfl rfl rfl rfl,
     by decide, by decide, by decide, by decide, by decide⟩,
   ⟨_, _, _, _, .ready, ready_on booted (cmd 0 3 15 [(8, 1), (9, 3)]) 3 rfl rfl rfl rfl, by decide, by decide, by decide, by decide, by decide⟩,
   ⟨_, _, _, _, .standby, .a, ready_on R (cmd 0 3 15 [(8, 1), (9, 2)]) 3 rfl rfl rfl rfl, by decide, by decide, by decide, by decide, by decide,
     by decide, by decide⟩⟩

/-- Slot `k` open. -/
def opened (s : State) (k : Nat) : State := s.modSec fun x => { x with slots := KV.put none k (some 5) x.slots }

theorem hyps_AssignReclaim :
    (∃ s r t m, Ready s r t 0x04 m ∧ (KV.get none (m.desc.par 8 1) s.sec.slots).isSome ∧ s.partsExist (m.desc.par 9 1) = true ∧
      ∀ p ∈ maskParts (m.desc.par 9 1), (s.part p).state = .empty ∧ ((s.part p).owner = 0 ∨ (s.part p).owner = m.desc.par 8 1)) ∧
    (∃ s r t m, Ready s r t 0x04 m ∧ KV.get none (m.desc.par 8 1) s.sec.slots = none) ∧
    (∃ s r t m, Ready s r t 0x04 m ∧ ∃ p ∈ maskParts (m.desc.par 9 1), (s.part p).state ≠ .empty) ∧
    (∃ s r t m, Ready s r t 0x05 m ∧ s.partsExist (m.desc.par 9 1) = true ∧ ∀ p ∈ maskParts (m.desc.par 9 1), (s.part p).state = .empty) ∧
    (∃ s r t m, Ready s r t 0x05 m ∧ ∃ p ∈ maskParts (m.desc.par 9 1), (s.part p).state ≠ .empty) :=
  ⟨⟨_, _, _, _, ready_on (opened R 8) (cmd 0 4 15 [(8, 8), (9, 0x81)]) 4 rfl rfl rfl rfl, by decide, by decide, by decide⟩,
   ⟨_, _, _, _, ready_on R (cmd 0 4 15 [(8, 1), (9, 1)]) 4 rfl rfl rfl rfl, by decide⟩,
   ⟨_, _, _, _, ready_on (holding R des) (cmd 0 4 15 [(8, 1), (9, 1)]) 4 rfl rfl rfl rfl, by decide⟩,
   ⟨_, _, _, _, ready_on R (cmd 0 5 15 [(9, 0xFF)]) 5 rfl rfl rfl rfl, by decide, by decide⟩,
   ⟨_, _, _, _, ready_on (holding R des) (cmd 0 5 15 [(9, 1)]) 5 rfl rfl rfl rfl, by decide⟩⟩

/-- A design that runs. -/
def runner : Design := { des with state := .running, run := some { ring := 1, tag := 3, left := none, waitLaunch := false } }

/-- A load in progress. -/
def theLoad : Load :=
  { ring := 1, tag := 4, slot := 1, targets := [0], x := 0, header := des.header, digest := 0, body := [], regions := [], slots := [], binds := [] }

/-- Partition 0 loads. -/
def loading : State := { R with loads := [theLoad], parts := [(0, { owner := 1, state := .loading })] }

theorem hyps_RunStep :
    (∃ s r t m d, Ready s r t 0x41 m ∧ s.designAt m.desc.partition.toNat = some d ∧ s.canRun d = true ∧ s.pairMayRun d = true) ∧
    (∃ s r t m d, Ready s r t 0x41 m ∧ s.designAt m.desc.partition.toNat = some d ∧ (s.canRun d && s.pairMayRun d) = false) ∧
    (∃ s r t m, Ready s r t 0x41 m ∧ s.designAt m.desc.partition.toNat = none) ∧
    (∃ s r t m d, Ready s r t 0x43 m ∧ s.loadAt m.desc.partition.toNat = none ∧ s.designAt m.desc.partition.toNat = some d ∧
      s.mode.mode.isDebug = true ∧ s.canRun d = true) ∧
    (∃ s r t m, Ready s r t 0x43 m ∧ s.loadAt m.desc.partition.toNat = none ∧ s.designAt m.desc.partition.toNat = some des ∧
      (s.mode.mode.isDebug && s.canRun des) = false) ∧
    (∃ s r t m, Ready s r t 0x43 m ∧ (s.loadAt m.desc.partition.toNat).isSome) :=
  ⟨⟨_, _, _, _, des, ready_on (powered (holding R des) .run) (cmd 1 0x41 0 []) 0x41 rfl rfl rfl rfl, by decide, by decide, by decide⟩,
   ⟨_, _, _, _, des, ready_on (holding R des) (cmd 1 0x41 0 []) 0x41 rfl rfl rfl rfl, by decide, by decide⟩,
   ⟨_, _, _, _, ready_on R (cmd 1 0x41 0 []) 0x41 rfl rfl rfl rfl, by decide⟩,
   ⟨_, _, _, _, des, ready_on ((powered (holding R des) .run).modMode fun x => { x with mode := .debugSplit }) (cmd 1 0x43 0 []) 0x43 rfl rfl rfl rfl,
     by decide, by decide, by decide, by decide⟩,
   ⟨_, _, _, _, ready_on (powered (holding R des) .run) (cmd 1 0x43 0 []) 0x43 rfl rfl rfl rfl, by decide, by decide, by decide⟩,
   ⟨_, _, _, _, ready_on loading (cmd 1 0x43 0 []) 0x43 rfl rfl rfl rfl, by decide⟩⟩

theorem hyps_StopRequests :
    (∃ s r t m, Ready s r t 0x06 m ∧ s.designAt m.desc.partition.toNat = none) ∧
    (∃ s r t m d, Ready s r t 0x42 m ∧ s.designAt m.desc.partition.toNat = some d ∧ d.state ≠ .running ∧ d.state ≠ .stopping) ∧
    (∃ s r t m d, Ready s r t 0x06 m ∧ s.designAt m.desc.partition.toNat = some d ∧ d.state = .running ∧ d.held = false ∧ d.disabled = false ∧
      d.waitPartner = false ∧ ∀ x, d.run = some x → x.waitLaunch = false) :=
  ⟨⟨_, _, _, _, ready_on R (cmd 0 6 0 []) 6 rfl rfl rfl rfl, by decide⟩,
   ⟨_, _, _, _, des, ready_on (holding R des) (cmd 1 0x42 0 []) 0x42 rfl rfl rfl rfl, by decide, by decide, by decide⟩,
   ⟨_, _, _, _, runner, ready_on (holding R runner) (cmd 0 6 0 []) 6 rfl rfl rfl rfl, by decide, by decide, by decide, by decide, by decide,
     fun x h => by cases h; rfl⟩⟩

theorem hyps_UnloadEmpties :
    (∃ s r t m, Ready s r t 0x07 m ∧ s.loadAt m.desc.partition.toNat = none ∧ s.designAt m.desc.partition.toNat = none) ∧
    (∃ s r t m d, Ready s r t 0x44 m ∧ s.loadAt m.desc.partition.toNat = none ∧ s.designAt m.desc.partition.toNat = some d ∧
      d.state ≠ .running ∧ d.state ≠ .stopping) ∧
    (∃ s r t m d, Ready s r t 0x44 m ∧ s.loadAt m.desc.partition.toNat = none ∧ s.designAt m.desc.partition.toNat = some d ∧
      d.state = .running ∧ d.held = false ∧ d.disabled = false ∧ d.waitPartner = false ∧ ∀ x, d.run = some x → x.waitLaunch = false) :=
  ⟨⟨_, _, _, _, ready_on R (cmd 0 7 0 []) 7 rfl rfl rfl rfl, by decide, by decide⟩,
   ⟨_, _, _, _, des, ready_on (holding R des) (cmd 1 0x44 0 []) 0x44 rfl rfl rfl rfl, by decide, by decide, by decide, by decide⟩,
   ⟨_, _, _, _, runner, ready_on (holding R runner) (cmd 1 0x44 0 []) 0x44 rfl rfl rfl rfl, by decide, by decide, by decide, by decide, by decide,
     by decide, fun x h => by cases h; rfl⟩⟩

/-- A command with keys of its tenant. -/
def withKeys (m : Cmd) (ks : List Key) : Cmd := { m with keys := ks }

theorem hyps_StatsMarch :
    (∃ s r t m d k l, Ready s r t 0x45 m ∧ s.designAt m.desc.partition.toNat = some d ∧ m.key 0x0A 0 = some k ∧
      s.statsOf d (chOfPart m.desc.partition.toNat) (m.desc.par 16 2) = some l) ∧
    (∃ (s : State) (d : Design) (l : Nat) (c : Ch) (die n : Nat), l ∈ d.span ∧ s.physOf l = some (c, die, n) ∧ nodeOfPhys n < 64 ∧ die < 2) ∧
    (∃ s r t m d, Ready s r t 0x45 m ∧ s.designAt m.desc.partition.toNat = some d ∧
      s.statsOf d (chOfPart m.desc.partition.toNat) (m.desc.par 16 2) = none) ∧
    (∃ s r t m, Ready s r t 0x45 m ∧ s.designAt m.desc.partition.toNat = none) ∧
    (∃ s r t m d, Ready s r t 0x46 m ∧ s.designAt m.desc.partition.toNat = some d ∧ d.state = .stopped ∧
      (s.sec.lifecycle = .field ∨ s.sec.lifecycle = .returned) ∧ (∀ c ∈ d.chans, (s.pw c).state.arrayOn = true) ∧
      ∀ l ∈ d.span, ∃ c die n, s.physOf l = some (c, die, n) ∧ (s.cab c die n).march = none) ∧
    (∃ s r t m d, Ready s r t 0x46 m ∧ s.designAt m.desc.partition.toNat = some d ∧ d.state ≠ .stopped) ∧
    (∃ s r t m, Ready s r t 0x46 m ∧ s.designAt m.desc.partition.toNat = none) :=
  ⟨⟨_, _, _, _, des, ⟨1, 0x0A, 0, [1]⟩, _,
      ready_on (holding R des) (withKeys (cmd 1 0x45 0 [(8, 4096), (16, 16)]) [⟨1, 0x0A, 0, [1]⟩]) 0x45 rfl rfl rfl rfl, by decide, by decide, rfl⟩,
   ⟨R, des, 15, .a, 0, 15, by decide, by decide, by decide, by decide⟩,
   ⟨_, _, _, _, des, ready_on (holding R des) (cmd 1 0x45 0 [(8, 4096), (16, 60)]) 0x45 rfl rfl rfl rfl, by decide, by decide⟩,
   ⟨_, _, _, _, ready_on R (cmd 1 0x45 0 []) 0x45 rfl rfl rfl rfl, by decide⟩,
   ⟨_, _, _, _, des, ready_on (powered (holding R des) .ready) (cmd 1 0x46 0 []) 0x46 rfl rfl rfl rfl, by decide, by decide, by decide, by decide,
     fun l h => ⟨.a, 0, l, by revert l; decide⟩⟩,
   ⟨_, _, _, _, runner, ready_on (holding R runner) (cmd 1 0x46 0 []) 0x46 rfl rfl rfl rfl, by decide, by decide⟩,
   ⟨_, _, _, _, ready_on R (cmd 1 0x46 0 []) 0x46 rfl rfl rfl rfl, by decide⟩⟩

theorem hyps_SetFunction :
    (∃ s r t m c on, Ready s r t 0x09 m ∧ m.desc.par 9 1 = chNum c ∧ m.desc.par 12 1 = bit01 on ∧
      s.functionOk (m.desc.par 8 1) (chNum c) (m.desc.par 10 2) (bit01 on) = false) ∧
    (∀ kind, kind < 6 → ∃ s r t m c on, Ready s r t 0x09 m ∧ m.desc.par 9 1 = chNum c ∧ m.desc.par 12 1 = bit01 on ∧
      s.functionOk (m.desc.par 8 1) (chNum c) (m.desc.par 10 2) (bit01 on) = true ∧ m.desc.par 8 1 = kind ∧
      ((s.ch c).sched.engine (m.desc.par 10 2)).busy = none ∧ (s.mport c (m.desc.par 10 2)).design = none ∧
      (s.mport c (m.desc.par 10 2)).inRing = none ∧ (s.mport c (m.desc.par 10 2)).accepted = []) := by
  refine ⟨⟨_, _, _, _, .a, false, ready_on R (cmd 0 9 15 [(8, 0), (10, 8)]) 9 rfl rfl rfl rfl, by decide, by decide, by decide⟩,
    fun kind h => ?_⟩
  have w : ∀ k i, k < 6 → i = (if k = 0 then 7 else if k = 1 then 17 else if k = 2 then 127 else 0) →
      (cmd 0 9 15 [(8, k), (9, 1), (10, i)]).desc.par 9 1 = chNum .b ∧ (cmd 0 9 15 [(8, k), (9, 1), (10, i)]).desc.par 12 1 = bit01 false ∧
      R.functionOk ((cmd 0 9 15 [(8, k), (9, 1), (10, i)]).desc.par 8 1) 1 ((cmd 0 9 15 [(8, k), (9, 1), (10, i)]).desc.par 10 2) 0 = true ∧
      (cmd 0 9 15 [(8, k), (9, 1), (10, i)]).desc.par 8 1 = k := by
    rintro k i hk rfl; revert k; decide
  obtain ⟨h1, h2, h3, h4⟩ := w kind _ h rfl
  exact ⟨_, _, _, _, .b, false, ready_on R (cmd 0 9 15 [(8, kind), (9, 1), (10, _)]) 9 rfl rfl rfl rfl, h1, h2, h3, h4, rfl, rfl, rfl, rfl⟩

/-- Two accepted commands: an ABORT with TAG 7, and one with TAG 9 that it may name. -/
def abortOf (r q op : Nat) : State :=
  { R with host := { R.host with
      cmds := [{ cmd q op 0 [] with desc := { (cmd q op 0 []).desc with tag := 9 } }, cmd r (if r = 0 then 0x0A else 0x47) 15 [(8, q), (12, 9)]] } }

theorem ready_abortOf (r q op : Nat) (m : Cmd) (h : m = cmd r (if r = 0 then 0x0A else 0x47) 15 [(8, q), (12, 9)]) :
    Ready (abortOf r q op) r 7 (if r = 0 then 0x0A else 0x47) m := by
  subst h
  refine ⟨⟨?_, ?_, rfl, ?_, .inl rfl, ?_⟩, rfl⟩
  · simp [abortOf, State.cmd, cmd]
  · split <;> rfl
  · simp [State.fenceOpen, Desc.fence, cmd]
  · show R.sec.lifecycle ≠ .scrapped; decide

theorem hyps_AbortCommands :
    (∃ s r t m, Ready s r t 0x47 m ∧ s.ringOwner m.ring ≠ 0 ∧ s.ringOwner (m.desc.par 8 2) ≠ s.ringOwner m.ring) ∧
    (∃ s r t m, Ready s r t 0x0A m ∧ s.ringOwner m.ring = 0 ∧ s.cmd (m.desc.par 8 2) (BitVec.ofNat 32 (m.desc.par 12 4)) = none) ∧
    (∃ s r t m q, Ready s r t 0x0A m ∧ s.ringOwner m.ring = 0 ∧ s.cmd (m.desc.par 8 2) (BitVec.ofNat 32 (m.desc.par 12 4)) = some q ∧
      q.desc.opcode.toNat ∈ neverAborted) ∧
    (∃ s r t m q, Ready s r t 0x0A m ∧ s.ringOwner m.ring = 0 ∧ s.cmd (m.desc.par 8 2) (BitVec.ofNat 32 (m.desc.par 12 4)) = some q ∧
      q.desc.opcode.toNat ∉ neverAborted ∧ q.started = false) :=
  ⟨⟨_, _, _, _, ready_on (ringed R 1 0x200#32) (cmd 1 0x47 15 [(8, 2), (12, 9)]) 0x47 rfl rfl rfl rfl, by decide, by decide⟩,
   ⟨_, _, _, _, ready_on R (cmd 0 0x0A 15 [(8, 0), (12, 9)]) 0x0A rfl rfl rfl rfl, by decide, by decide⟩,
   ⟨_, _, _, _, _, ready_abortOf 0 1 0x42 _ rfl, by decide, rfl, by decide⟩,
   ⟨_, _, _, _, _, ready_abortOf 0 1 0x41 _ rfl, by decide, rfl, by decide, rfl⟩⟩

/-- A topology table that holds this module alone. -/
def table : List Byte :=
  (leBytes 4 0x31544C56 ++ leBytes 2 1 ++ leBytes 58 0 ++ leBytes 1 1 ++ leBytes 3 0 ++ leBytes 8 1 ++ leBytes 4 0) ++ List.replicate 1008 0#8

theorem leNat_zeros (n : Nat) : leNat (List.replicate n (0#8)) = 0 := by
  induction n with
  | zero => rfl
  | succ n ih => simp [List.replicate_succ, leNat, ih]

theorem rd_table (off n : Nat) (h : 80 ≤ off) : rd table off n = 0 := by
  have hl : (leBytes 4 0x31544C56 ++ leBytes 2 1 ++ leBytes 58 0 ++ leBytes 1 1 ++ leBytes 3 0 ++ leBytes 8 1 ++ leBytes 4 0).length = 80 := by
    decide
  rw [rd, table, List.drop_append, List.drop_eq_nil_of_le (by omega), List.nil_append, List.drop_replicate, List.take_replicate, leNat_zeros]

theorem table_mods : (List.range 64).map (topoMod table) = ⟨1, 0, 0, 1⟩ :: List.replicate 63 ⟨0, 0, 0, 0⟩ := by
  apply List.ext_getElem
  · simp
  · intro i h1 h2
    rcases i with _ | i
    · show topoMod table 0 = ⟨1, 0, 0, 1⟩
      decide +kernel
    · simp only [List.getElem_map, List.getElem_range, List.getElem_cons_succ, List.getElem_replicate, topoMod]
      rw [rd_table _ _ (by omega), rd_table _ _ (by omega), rd_table _ _ (by omega), rd_table _ _ (by omega)]; rfl

theorem table_modsOk : (List.range 64).all (topoModOk table) = true := by
  rw [List.all_eq_true]
  intro i _
  rcases i with _ | i
  · decide +kernel
  · simp only [topoModOk, topoMod]
    have h : ∀ k n, rd table (64 + 16 * (i + 1) + k) n = 0 := fun k n => rd_table _ _ (by omega)
    have h0 : ∀ n, rd table (64 + 16 * (i + 1)) n = 0 := fun n => rd_table _ _ (by omega)
    simp only [h, h0]; rfl

theorem table_ok : (R.readTopo table 1088).isSome := by
  unfold State.readTopo
  rw [table_mods, table_modsOk]
  decide +kernel

theorem empty_refused : R.readTopo [] 0 = none := by
  simp only [State.readTopo]
  have h : decide (rd [] 0 4 = 0x31544C56) = false := by decide
  split
  · simp only [h, Bool.false_and]; rfl
  · rfl

/-- Reading a table depends on the identity of the part alone. -/
theorem readTopo_part (s : State) (l : List Byte) (n k : Nat) (h : s.id = R.id) (hk : n = k) : s.readTopo l n = R.readTopo l k := by
  unfold State.readTopo; rw [h, hk]

theorem hyps_SetTopology :
    (∃ s r t table m, Ready s r t 0x08 m ∧ s.readTopo table (m.desc.par 16 4) = none) ∧
    (∃ s r t table m tp, Ready s r t 0x08 m ∧ s.readTopo table (m.desc.par 16 4) = some tp ∧ ∃ d ∈ s.designs, d.header.topoHash ≠ 0) ∧
    (∃ s r t table m tp, Ready s r t 0x08 m ∧ s.readTopo table (m.desc.par 16 4) = some tp ∧ ∀ d ∈ s.designs, d.header.topoHash = 0) := by
  obtain ⟨tp, h⟩ := Option.isSome_iff_exists.mp table_ok
  refine ⟨⟨_, _, _, [], _, ready_on R (cmd 0 8 15 []) 8 rfl rfl rfl rfl, ?_⟩,
    ⟨_, _, _, table, _, tp, ready_on (holding R { des with header := { des.header with topoHash := 1 } }) (cmd 0 8 15 [(16, 1088)]) 8 rfl rfl rfl rfl,
      ?_, _, .head _, by decide⟩,
    ⟨_, _, _, table, _, tp, ready_on (holding R des) (cmd 0 8 15 [(16, 1088)]) 8 rfl rfl rfl rfl, ?_, by decide⟩⟩
  · rw [readTopo_part (on R (cmd 0 8 15 [])) [] _ 0 rfl (by decide +kernel)]; exact empty_refused
  · rw [readTopo_part (on (holding R _) _) table _ 1088 rfl (by decide +kernel)]; exact h
  · rw [readTopo_part (on (holding R des) _) table _ 1088 rfl (by decide +kernel)]; exact h

theorem hyps_Slots :
    (∃ s r t m, Ready s r t 0x10 m ∧ KV.get none (m.desc.par 8 1) s.sec.slots = none) ∧
    (∃ s r t m, Ready s r t 0x10 m ∧ (KV.get none (m.desc.par 8 1) s.sec.slots).isSome) ∧
    (∃ s r t m, Ready s r t 0x11 m ∧ (KV.get none (m.desc.par 8 1) s.sec.slots).isSome ∧
      (∀ p, p < 8 → (s.part p).owner ≠ m.desc.par 8 1) ∧ ∀ c, ∀ e ∈ (s.ch c).ranges, e.2.owner = m.desc.par 8 1 → e.2.state ≠ 1) ∧
    (∃ s r t m, Ready s r t 0x11 m ∧ KV.get none (m.desc.par 8 1) s.sec.slots = none) ∧
    (∃ s r t m, Ready s r t 0x11 m ∧ ∃ p, p < 8 ∧ (s.part p).owner = m.desc.par 8 1) :=
  ⟨⟨_, _, _, _, ready_on R (cmd 0 0x10 15 [(8, 8), (16, 5)]) 0x10 rfl rfl rfl rfl, by decide⟩,
   ⟨_, _, _, _, ready_on (opened R 1) (cmd 0 0x10 15 [(8, 1), (16, 5)]) 0x10 rfl rfl rfl rfl, by decide⟩,
   ⟨_, _, _, _, ready_on (opened R 8) (cmd 0 0x11 15 [(8, 8)]) 0x11 rfl rfl rfl rfl, by decide, by decide,
     fun c => by cases c <;> decide⟩,
   ⟨_, _, _, _, ready_on R (cmd 0 0x11 15 [(8, 1)]) 0x11 rfl rfl rfl rfl, by decide⟩,
   ⟨_, _, _, _, ready_on (holding (opened R 1) des) (cmd 0 0x11 15 [(8, 1)]) 0x11 rfl rfl rfl rfl, 0, by decide, by decide⟩⟩

/-- A range of slot 1 in channel B that stands OWNED. -/
def ranged (s : State) (mode : Nat) : State :=
  s.modRange .b 15 fun _ => { base := 0x4FE5FF, len := 1, mode := mode, owner := 1, state := 2, key := some 4 }

/-- A design with a region in that range. -/
def regional : Design := { des with regions := [{ index := 0, side := 1, base := 0x4FE5FF000, bytes := 4096, range := 15 }] }

/-- Parameters that name range 15 of channel B and mode ENC+INT. -/
def ps : List (Nat × Nat) := [(8, 1), (9, 15), (10, 2)]

theorem hyps_RangeCommands :
    (∃ s r t m c, s.rangeCh m = some c ∧ Ready s r t 0x12 m ∧ (KV.get none (m.desc.par 10 1) s.sec.slots).isSome ∧
      s.patched c (m.desc.par 9 1) = false ∧ (s.range c (m.desc.par 9 1)).state ≠ 1 ∧
      s.placeOk c (m.desc.par 9 1) (m.desc.par 12 4) (m.desc.par 16 4) = true) ∧
    (∃ s r t m c, s.rangeCh m = some c ∧ Ready s r t 0x12 m ∧ (KV.get none (m.desc.par 10 1) s.sec.slots).isSome ∧
      s.patched c (m.desc.par 9 1) = false ∧ (s.range c (m.desc.par 9 1)).state ≠ 1 ∧
      s.placeOk c (m.desc.par 9 1) (m.desc.par 12 4) (m.desc.par 16 4) = false) ∧
    (∃ s r t m c, s.rangeCh m = some c ∧ Ready s r t 0x13 m ∧ (s.range c (m.desc.par 9 1)).len = 0) ∧
    (∃ s r t m c, s.rangeCh m = some c ∧ Ready s r t 0x13 m ∧ (s.range c (m.desc.par 9 1)).len ≠ 0 ∧ s.patched c (m.desc.par 9 1) = true) ∧
    (∃ s r t m c, s.rangeCh m = some c ∧ Ready s r t 0x13 m ∧ (s.range c (m.desc.par 9 1)).len ≠ 0 ∧ s.patched c (m.desc.par 9 1) = false ∧
      (s.range c (m.desc.par 9 1)).state ≠ 1) ∧
    (∃ s r t m c, s.rangeCh m = some c ∧ Ready s r t 0x50 m ∧ (s.range c (m.desc.par 9 1)).len ≠ 0 ∧
      (s.range c (m.desc.par 9 1)).owner ≠ s.ringOwner m.ring) ∧
    (∃ s r t m c, s.rangeCh m = some c ∧ Ready s r t 0x50 m ∧ (s.range c (m.desc.par 9 1)).len ≠ 0 ∧
      (s.range c (m.desc.par 9 1)).owner = s.ringOwner m.ring ∧ s.patched c (m.desc.par 9 1) = false ∧ m.desc.par 10 1 = 2 ∧
      (s.ch c).hbm.integrity = false) ∧
    (∃ s r t m c, s.rangeCh m = some c ∧ Ready s r t 0x50 m ∧ (s.range c (m.desc.par 9 1)).len ≠ 0 ∧
      (s.range c (m.desc.par 9 1)).owner = s.ringOwner m.ring ∧ s.patched c (m.desc.par 9 1) = false ∧ m.desc.par 10 1 = 2 ∧
      (s.ch c).hbm.integrity = true ∧ (s.range c (m.desc.par 9 1)).state ≠ 1) := by
  refine ⟨⟨_, _, _, _, .b, by rfl, ready_on (opened R 1) (cmd 0 0x12 15 [(8, 1), (9, 15), (10, 1), (12, 0x4FE5FF), (16, 1)]) 0x12 rfl rfl rfl rfl,
      by decide, by decide, by decide, by decide⟩,
    ⟨_, _, _, _, .b, by rfl, ready_on (opened R 1) (cmd 0 0x12 15 [(8, 1), (9, 15), (10, 1), (12, 0x4FE5FF), (16, 2)]) 0x12 rfl rfl rfl rfl,
      by decide, by decide, by decide, by decide⟩,
    ⟨_, _, _, _, .b, by rfl, ready_on R (cmd 0 0x13 15 ps) 0x13 rfl rfl rfl rfl, by decide⟩,
    ⟨_, _, _, _, .b, by rfl, ready_on (holding (ranged R 1) regional) (cmd 0 0x13 15 ps) 0x13 rfl rfl rfl rfl, by decide, by decide⟩,
    ⟨_, _, _, _, .b, by rfl, ready_on (ranged R 1) (cmd 0 0x13 15 ps) 0x13 rfl rfl rfl rfl, by decide, by decide, by decide⟩,
    ⟨_, _, _, _, .b, by rfl, ready_on (ranged R 1) (cmd 1 0x50 15 ps) 0x50 rfl rfl rfl rfl, by decide, by decide⟩,
    ⟨_, _, _, _, .b, by rfl, ready_on ((ranged (ringed R 1 0x200#32) 1).modHbm .b fun h => { h with integrity := false }) (cmd 1 0x50 15 ps)
      0x50 rfl rfl rfl rfl, by decide, by decide, by decide, by decide, by decide⟩,
    ⟨_, _, _, _, .b, by rfl, ready_on (ranged (ringed R 1 0x200#32) 1) (cmd 1 0x50 15 ps) 0x50 rfl rfl rfl rfl, by decide, by decide,
      by decide, by decide, by decide, by decide⟩⟩

/-- The clearing that an ASSIGN_RANGE waits for. -/
def clearJob : ClearJob := { remove := false, ring := 0, tag := 7, answer := true }

/-- A range that is being cleared. -/
def clearing : KRange := { base := 0x43000, len := 1, mode := 1, owner := 1, state := 1, key := some 4, job := some clearJob }

theorem hyps_RangeCleared : ∃ (s : State) (c : Ch) (n : Nat) (j : ClearJob) (m : Cmd), (s.range c n).job = some j ∧ (s.range c n).state = 1 ∧
    (s.pw c).state.arrayOn = true ∧ j.answer = true ∧ s.cmd j.ring j.tag = some m :=
  ⟨on ((powered R .ready).modRange .a 0 fun _ => clearing) (cmd 0 0x12 15 []), .a, 0, clearJob, cmd 0 0x12 15 [], by decide, by decide, by decide, rfl, by decide⟩

/-- A launch entry. -/
def entry (l : Nat) : Launch :=
  { tenant := false, kind := 2, view := 0, lines := l, message := false, time := 5, partition := 15, ring := 0, tag := 3, armed := true }

/-- The first `n` launch entries of channel A in use. -/
def launches (n : Nat) : State := R.modTime .a fun x => { x with launches := (List.range n).map (fun k => (k, some (entry 1))) }

theorem hyps_Launches :
    (∃ s r t m l, Ready s r t 0x28 m ∧ m.desc.par 12 1 = chNum .a ∧ l = entry 1 ∧ (s.pw .a).state.hubOn = false) ∧
    (∃ s r t m, Ready s r t 0x78 m ∧ m.desc.par 12 1 = chNum .b ∧ (s.view .b (m.desc.par 9 1)).state = .disabled ∧ m.desc.par 9 1 < 6) ∧
    (∃ s r t m, Ready s r t 0x28 m ∧ m.desc.par 12 1 = chNum .a ∧ (s.pw .a).state.hubOn = true ∧ .a ∈ s.channels ∧
      (s.view .a (m.desc.par 9 1)).state ≠ .disabled ∧ s.mode.mode ≠ .mirrored ∧ s.launchDue .a { entry 1 with time := m.desc.par 16 8 } = true) ∧
    (∃ s r t m, Ready s r t 0x28 m ∧ m.desc.par 12 1 = chNum .a ∧ (s.pw .a).state.hubOn = true ∧ .a ∈ s.channels ∧
      (s.view .a (m.desc.par 9 1)).state ≠ .disabled ∧ s.mode.mode ≠ .mirrored ∧ s.launchDue .a { entry 1 with time := m.desc.par 16 8 } = false ∧
      ∀ e, e < 16 → (s.launch .a e).isSome) ∧
    (∃ s r t m, Ready s r t 0x78 m ∧ m.desc.par 12 1 = chNum .a ∧ (s.pw .a).state.hubOn = true ∧ .a ∈ s.channels ∧
      (s.view .a (m.desc.par 9 1)).state ≠ .disabled ∧ m.desc.par 8 1 ≠ 2 ∧ s.mode.mode ≠ .mirrored ∧
      s.launchDue .a { entry 1 with time := m.desc.par 16 8 } = false ∧ s.launch .a 15 = none ∧ ∀ k, k < 15 → (s.launch .a k).isSome) :=
  ⟨⟨_, _, _, _, _, ready_on (powered R .aux) (cmd 0 0x28 15 [(8, 2), (10, 1), (16, 5)]) 0x28 rfl rfl rfl rfl, by decide, rfl, by decide⟩,
   ⟨_, _, _, _, ready_on R (cmd 1 0x78 0 [(8, 1), (9, 5), (12, 1), (16, 5)]) 0x78 rfl rfl rfl rfl, by decide, by decide, by decide⟩,
   ⟨_, _, _, _, ready_on R (cmd 0 0x28 15 [(8, 2), (10, 1), (16, 0)]) 0x28 rfl rfl rfl rfl, by decide, by decide, by decide, by decide, by decide, by decide⟩,
   ⟨_, _, _, _, ready_on (launches 16) (cmd 0 0x28 15 [(8, 2), (10, 1), (16, 1)]) 0x28 rfl rfl rfl rfl, by decide, by decide, by decide, by decide,
     by decide, by decide, by decide⟩,
   ⟨_, _, _, _, ready_on (launches 15) (cmd 1 0x78 0 [(8, 1), (16, 1)]) 0x78 rfl rfl rfl rfl, by decide, by decide, by decide, by decide,
     by decide, by decide, by decide, by decide, by decide⟩⟩

theorem hyps_ViewCommands :
    (∃ s r t m, Ready s r t 0x29 m ∧ m.desc.par 8 1 = chNum .b ∧ m.desc.par 9 1 < 6 ∧ (s.view .b (m.desc.par 9 1)).state = .refused ∧
      ∀ e, e < 16 → s.launch .b e = none) ∧
    (∃ s r t m, Ready s r t 0x29 m ∧ m.desc.par 8 1 = chNum .b ∧ (s.view .b (m.desc.par 9 1)).state ≠ .refused) ∧
    (∃ s r t m, Ready s r t 0x2A m ∧ m.desc.par 9 1 < 6) ∧
    (∃ s r t m c, Ready s r t 0x2A m ∧ 6 ≤ m.desc.par 9 1 ∧
      s.channels.filter (fun x => bitAt (m.desc.par 8 1) (chNum x) && (s.pw x).state.hubOn) = [c] ∧ ∀ e, e < 16 → s.launch c e = none) :=
  ⟨⟨_, _, _, _, ready_on (R.modView .b 5 fun x => { x with state := .refused, lastOffset := 77 }) (cmd 0 0x29 15 [(8, 1), (9, 5)]) 0x29 rfl rfl rfl rfl,
     by decide, by decide, by decide, by decide⟩,
   ⟨_, _, _, _, ready_on R (cmd 0 0x29 15 [(8, 1), (9, 0)]) 0x29 rfl rfl rfl rfl, by decide, by decide⟩,
   ⟨_, _, _, _, ready_on R (cmd 0 0x2A 15 [(8, 3), (9, 5)]) 0x2A rfl rfl rfl rfl, by decide⟩,
   ⟨_, _, _, _, .b, ready_on R (cmd 0 0x2A 15 [(8, 2), (9, 6)]) 0x2A rfl rfl rfl rfl, by decide, by decide, by decide⟩⟩

/-- The capture, data and trace keys of slot 1. -/
def streamKeys : List Key := [⟨1, 5, 0, [5]⟩, ⟨1, 6, 0, [6]⟩, ⟨1, 7, 0, [7]⟩]

/-- A loaded design whose tenant has its stream keys. -/
def keyedState (d : Design) : State := holding (keyed R streamKeys) d

theorem hyps_CaptureCommands :
    (∃ s r t m d, s.designAt m.desc.partition.toNat = some d ∧ Ready s r t 0x70 m ∧ d.cap.on = false ∧ d.capReq = none ∧ (s.key d.slot 6 0).isSome) ∧
    (∃ s r t m d, s.designAt m.desc.partition.toNat = some d ∧ Ready s r t 0x70 m ∧ d.cap.on = false ∧ d.capReq = none ∧ s.key d.slot 6 0 = none) ∧
    (∃ s r t m d, s.designAt m.desc.partition.toNat = some d ∧ Ready s r t 0x70 m ∧ d.cap.on = true) ∧
    (∃ s r t m d, s.designAt m.desc.partition.toNat = some d ∧ Ready s r t 0x71 m ∧ d.cap.on = true) ∧
    (∃ s r t m d, s.designAt m.desc.partition.toNat = some d ∧ Ready s r t 0x71 m ∧ d.cap.on = false ∧ d.capReq.isSome) ∧
    (∃ s r t m d, s.designAt m.desc.partition.toNat = some d ∧ Ready s r t 0x71 m ∧ d.cap.on = false ∧ d.capReq = none) :=
  ⟨⟨_, _, _, _, des, by rfl, ready_on (keyedState des) (cmd 1 0x70 0 [(9, 2), (12, 2048)]) 0x70 rfl rfl rfl rfl, by decide, by decide, by decide⟩,
   ⟨_, _, _, _, des, by rfl, ready_on (holding R des) (cmd 1 0x70 0 []) 0x70 rfl rfl rfl rfl, by decide, by decide, by decide⟩,
   ⟨_, _, _, _, { des with cap := { on := true } }, by rfl, ready_on (keyedState { des with cap := { on := true } }) (cmd 1 0x70 0 []) 0x70 rfl rfl rfl rfl, by decide⟩,
   ⟨_, _, _, _, { des with cap := { on := true } }, by rfl, ready_on (keyedState { des with cap := { on := true } }) (cmd 1 0x71 0 []) 0x71 rfl rfl rfl rfl, by decide⟩,
   ⟨_, _, _, _, { des with capReq := some ⟨none⟩ }, by rfl, ready_on (keyedState { des with capReq := some ⟨none⟩ }) (cmd 1 0x71 0 []) 0x71 rfl rfl rfl rfl,
     by decide, by decide⟩,
   ⟨_, _, _, _, des, by rfl, ready_on (keyedState des) (cmd 1 0x71 0 []) 0x71 rfl rfl rfl rfl, by decide, by decide⟩⟩

/-- A design with one probe in Cabinet 0. -/
def probed : Design := { des with probes := [⟨3, 0, 0, 0, 2⟩] }

/-- A trigger program over signal 3, and the same with an undefined comparator. -/
def program (cmp : Nat) : List Byte := leBytes 2 1 ++ leBytes 1 cmp ++ leBytes 13 0 ++ leBytes 32 1 ++ leBytes 32 1 ++ leBytes 64 0 ++ leBytes 4 3

/-- A command of slot 1 with its data key, on a loaded design. -/
def sealedCmd (op : Nat) (l : List (Nat × Nat)) : Cmd := withKeys (cmd 1 op 0 l) streamKeys

theorem hyps_TriggerUnits :
    (∃ s r t m d buf, s.designAt m.desc.partition.toNat = some d ∧ m.desc.par 17 1 = chNum .a ∧ Ready s r t 0x72 m ∧ m.openBuf 1 buf = none) ∧
    (∃ s r t m d buf p, s.designAt m.desc.partition.toNat = some d ∧ m.desc.par 17 1 = chNum .a ∧ Ready s r t 0x72 m ∧ m.openBuf 1 buf = some p ∧
      .a ∈ s.channels ∧ trigOk p = false) ∧
    (∃ s r t m d buf p k, s.designAt m.desc.partition.toNat = some d ∧ m.desc.par 17 1 = chNum .a ∧ Ready s r t 0x72 m ∧
      m.openBuf 1 buf = some p ∧ .a ∈ s.channels ∧ trigOk p = true ∧ (∀ g ∈ trigSignals p, ∃ q ∈ d.probes, q.signal = g) ∧
      (∀ q ∈ d.probes, q.signal ∈ trigSignals p → chOfCab (d.liveCab q.cab) = .a) ∧ s.freeUnit .a (m.desc.par 16 1) = some k) ∧
    (∃ s r t m d, s.designAt m.desc.partition.toNat = some d ∧ m.desc.par 17 1 = chNum .a ∧ Ready s r t 0x73 m ∧
      (KV.get ({} : TrigUnit) (m.desc.par 16 1) (s.ch .a).units).design = some d.tag) ∧
    (∃ s r t m d, s.designAt m.desc.partition.toNat = some d ∧ m.desc.par 17 1 = chNum .a ∧ Ready s r t 0x73 m ∧
      (KV.get ({} : TrigUnit) (m.desc.par 16 1) (s.ch .a).units).design ≠ some d.tag) :=
  ⟨⟨_, _, _, _, probed, [], by rfl, by decide, ready_on (keyedState probed) (cmd 1 0x72 0 [(16, 15)]) 0x72 rfl rfl rfl rfl, by decide⟩,
   ⟨_, _, _, _, probed, _, program 3, by rfl, by decide, ready_on (keyedState probed) (sealedCmd 0x72 [(16, 15)]) 0x72 rfl rfl rfl rfl,
     openBuf_sealed _ ⟨1, 5, 0, [5]⟩ _ (by decide), by decide, by decide +kernel⟩,
   ⟨_, _, _, _, probed, _, program 2, 15, by rfl, by decide, ready_on (keyedState probed) (sealedCmd 0x72 [(16, 15)]) 0x72 rfl rfl rfl rfl,
     openBuf_sealed _ ⟨1, 5, 0, [5]⟩ _ (by decide), by decide, by decide +kernel, by decide +kernel, by decide +kernel, by decide⟩,
   ⟨_, _, _, _, probed, by rfl, by decide, ready_on ((keyedState probed).modCh .a fun h => { h with units := [(15, { design := some 1 })] })
     (cmd 1 0x73 0 [(16, 15)]) 0x73 rfl rfl rfl rfl, by decide⟩,
   ⟨_, _, _, _, probed, by rfl, by decide, ready_on (keyedState probed) (cmd 1 0x73 0 [(16, 0)]) 0x73 rfl rfl rfl rfl, by decide⟩⟩

/-- Pin 63 belongs to slot 1. -/
def pinned : State := (keyedState probed).setReg .modProbeGroup .a [] 0x10000000#32

theorem hyps_ProbePins :
    (∃ s r t m d buf p, s.designAt m.desc.partition.toNat = some d ∧ Ready s r t 0x74 m ∧ m.openBuf 1 buf = some p ∧
      p.length = 8 * m.desc.par 16 1 ∧ ∀ i, i < m.desc.par 16 1 → s.probeOk d p i = true) ∧
    (∃ s r t m d buf p, s.designAt m.desc.partition.toNat = some d ∧ Ready s r t 0x74 m ∧ m.openBuf 1 buf = some p ∧
      p.length ≠ 8 * m.desc.par 16 1) ∧
    (∃ s : State, s.portAnswers = true) ∧ (∃ v : Word32, v.getLsbD 0 = true) ∧ (∃ v : Word32, v.getLsbD 0 = false) :=
  ⟨⟨_, _, _, _, probed, _, leBytes 1 63 ++ leBytes 1 1 ++ leBytes 2 0 ++ leBytes 4 3, by rfl,
     ready_on pinned (sealedCmd 0x74 [(16, 1)]) 0x74 rfl rfl rfl rfl, openBuf_sealed _ ⟨1, 5, 0, [5]⟩ _ (by decide), by decide, by decide⟩,
   ⟨_, _, _, _, probed, _, [], by rfl, ready_on pinned (sealedCmd 0x74 [(16, 1)]) 0x74 rfl rfl rfl rfl, openBuf_sealed _ ⟨1, 5, 0, [5]⟩ _ (by decide),
     by decide⟩, ⟨R, rfl⟩, ⟨1, rfl⟩, ⟨0, rfl⟩⟩

/-- Trace ranges of channel A in use by another design. -/
def traceUsed (n : Nat) (tag : Nat) : State :=
  (keyedState probed).modCh .a fun h => { h with tranges := (List.range n).map (fun k => (k, { design := some tag })) }

theorem hyps_TraceRanges :
    (∃ s r t m d buf p, s.designAt m.desc.partition.toNat = some d ∧ m.desc.par 18 1 = chNum .a ∧ .a ∈ d.chans ∧ Ready s r t 0x75 m ∧
      bitAt (m.desc.par 17 1) 0 = false ∧ (s.key d.slot 7 0).isSome ∧ m.openBuf 1 buf = some p ∧ p.length = 24 * m.desc.par 16 1 ∧
      (List.range (m.desc.par 16 1)).all (traceRangeOk p) = true ∧
      ((List.range 8).filter (fun k => (KV.get ({} : TraceRange) k (s.ch .a).tranges).design.isNone)).length < m.desc.par 16 1) ∧
    (∃ s r t m d buf p, s.designAt m.desc.partition.toNat = some d ∧ m.desc.par 18 1 = chNum .a ∧ .a ∈ d.chans ∧ Ready s r t 0x75 m ∧
      bitAt (m.desc.par 17 1) 0 = false ∧ (s.key d.slot 7 0).isSome ∧ m.openBuf 1 buf = some p ∧ p.length = 24 * m.desc.par 16 1 ∧
      (List.range (m.desc.par 16 1)).all (traceRangeOk p) = true ∧
      m.desc.par 16 1 ≤ ((List.range 8).filter (fun k => (KV.get ({} : TraceRange) k (s.ch .a).tranges).design.isNone)).length) ∧
    (∃ s r t m d, s.designAt m.desc.partition.toNat = some d ∧ m.desc.par 18 1 = chNum .a ∧ .a ∈ d.chans ∧ Ready s r t 0x76 m ∧
      s.traced .a d = true) ∧
    (∃ s r t m d, s.designAt m.desc.partition.toNat = some d ∧ m.desc.par 18 1 = chNum .a ∧ .a ∈ d.chans ∧ Ready s r t 0x76 m ∧
      s.traced .a d = false) :=
  ⟨⟨_, _, _, _, probed, _, leBytes 48 0, by rfl, by decide, by decide, ready_on (traceUsed 7 2) (sealedCmd 0x75 [(16, 2)]) 0x75 rfl rfl rfl rfl,
     by decide, by decide, openBuf_sealed _ ⟨1, 5, 0, [5]⟩ _ (by decide), by decide, by decide, by decide⟩,
   ⟨_, _, _, _, probed, _, leBytes 48 0, by rfl, by decide, by decide, ready_on (traceUsed 6 2) (sealedCmd 0x75 [(16, 2)]) 0x75 rfl rfl rfl rfl,
     by decide, by decide, openBuf_sealed _ ⟨1, 5, 0, [5]⟩ _ (by decide), by decide, by decide, by decide⟩,
   ⟨_, _, _, _, probed, by rfl, by decide, by decide, ready_on (traceUsed 1 1) (cmd 1 0x76 0 []) 0x76 rfl rfl rfl rfl, by decide⟩,
   ⟨_, _, _, _, probed, by rfl, by decide, by decide, ready_on (traceUsed 8 2) (cmd 1 0x76 0 []) 0x76 rfl rfl rfl rfl, by decide⟩⟩

/-! ### Capture, trace, messages and work: states that meet the hypotheses -/

/-- A staged record of the operator's stream 5. -/
def record : StreamRec := { type := 3, id := 5, slot := 0, nonce := 0, image := 0, tick := 0, bytes := [1, 2, 3] }

/-- A channel that captures: one record staged, some blocks in a ring of 256 MiB with a produced count. -/
def capturing (blocks : List Block) (pull : Bool) (produced : Word32) (full : Bool) : State :=
  (powered R .ready).modCh .a fun h =>
    { h with hbm := { h.hbm with ring := 0 }, hutch := { h.hutch with hubKey := some 0 },
             acq := { fifo := [record], ringBlocks := blocks, active := pull, produced := produced, full := full } }

/-- A block with a payload. -/
def block (l : List Byte) : Block := { type := 3, id := 5, bseq := 0, nonce := 0, image := 0, payload := l, lost := false }

theorem hyps_CaptureBlocks :
    (∀ full, ∃ (s : State) (c : Ch) (id : Nat) (q : StreamRec) (recs : List StreamRec) (b : Block) (bytes : List Byte), (s.pw c).state.arrayOn = true ∧
      (s.ch c).acq.disabled = false ∧ s.captureServed c = true ∧ (s.ch c).acq.fifo.find? (fun x => x.id == id) = some q ∧
      recs = takeRecs 65536 ((s.ch c).acq.fifo.filter (fun x => x.key == q.key)) ∧ recs ≠ [] ∧
      s.closeBlock c q (KV.get 0 q.key (s.ch c).acq.bseq) (recs.flatMap (·.bytes)) = some (b, bytes) ∧
      (s.ch c).hbm.ringBytes / 64 < s.ringUsed c + bytes.length / 64 ∧ (s.ch c).acq.full = full) ∧
    (∃ (s : State) (c : Ch) (id : Nat) (q : StreamRec) (recs : List StreamRec) (b : Block) (bytes : List Byte), (s.pw c).state.arrayOn = true ∧
      (s.ch c).acq.disabled = false ∧ s.captureServed c = true ∧ (s.ch c).acq.fifo.find? (fun x => x.id == id) = some q ∧
      recs = takeRecs 65536 ((s.ch c).acq.fifo.filter (fun x => x.key == q.key)) ∧ recs ≠ [] ∧
      s.closeBlock c q (KV.get 0 q.key (s.ch c).acq.bseq) (recs.flatMap (·.bytes)) = some (b, bytes) ∧
      s.ringUsed c + bytes.length / 64 ≤ (s.ch c).hbm.ringBytes / 64 ∧ 64 * (s.ch c).acq.ringPos + bytes.length ≤ (s.ch c).hbm.ringBytes) := by
  refine ⟨fun full => ⟨capturing [] true 5125000 full, .a, 5, record, [record], _, _, rfl, rfl, ?_, rfl, ?_, by simp, rfl, ?_, rfl⟩,
    ⟨capturing [] false 0 false, .a, 5, record, [record], _, _, rfl, rfl, by decide +kernel, rfl, by decide +kernel, by simp, rfl, by decide +kernel,
      by decide +kernel⟩⟩ <;> revert full <;> decide +kernel

theorem hyps_CaptureDelivery :
    (∃ (s : State) (c : Ch) (b : Block) (bs : List Block), (s.ch c).acq.active = false ∧ s.host.perst = false ∧
      (s.pw c).state.arrayOn = true ∧ (s.ch c).acq.ringBlocks = b :: bs ∧ b.lost = false ∧ 64 * b.pos + 64 * b.units ≤ (s.ch c).hbm.ringBytes ∧
      (s.ch c).hbm.unreadable (captureBase + 64 * b.pos) (64 * b.units) = false ∧
      ((s.ch c).hbm.integrity = true → (s.ch c).hutch.hubKey.isSome) ∧
      ((s.ch c).acq.produced - s.reg .acqConsumed c []).toNat + b.units ≤ s.hostUnits .acqHostSize c ∧
      64 * ((s.ch c).acq.produced.toNat % s.hostUnits .acqHostSize c) + 64 * b.units ≤ 64 * s.hostUnits .acqHostSize c) ∧
    (∃ (s : State) (c : Ch) (b : Block) (bs : List Block), (s.ch c).acq.active = false ∧ s.host.perst = false ∧
      (s.pw c).state.arrayOn = true ∧ (s.ch c).acq.ringBlocks = b :: bs ∧ (s.ch c).hbm.integrity = true ∧ (s.ch c).hutch.hubKey = none ∧
      (s.ch c).hbm.unreadable (captureBase + 64 * b.pos) (64 * b.units) = false ∧ 64 * b.pos + 64 * b.units ≤ (s.ch c).hbm.ringBytes ∧
      ((s.ch c).acq.produced - s.reg .acqConsumed c []).toNat + 1 ≤ s.hostUnits .acqHostSize c) ∧
    (∃ (s : State) (c : Ch), s.portAnswers = true ∧ (s.pw c).state.hubOn = true) ∧
    (∃ (s : State) (c : Ch), bitAt (s.reg .acqCtrl c []).toNat 0 ≠ (s.ch c).acq.active ∧ (s.ch c).acq.ringBlocks = [] ∧
      (s.ch c).acq.produced = s.reg .acqConsumed c []) ∧
    (∀ pull, ∃ (s : State) (c : Ch) (value : Word32), s.portAnswers = true ∧ (s.pw c).state.hubOn = true ∧
      countOk (s.ch c).acq.produced (s.reg .acqConsumed c []) value = true ∧ (s.ch c).acq.active = pull) ∧
    (∃ (s : State) (c : Ch) (value : Word32), s.portAnswers = true ∧ (s.pw c).state.hubOn = true ∧
      countOk (s.ch c).acq.produced (s.reg .acqConsumed c []) value = false) :=
  ⟨⟨capturing [block [1]] false 0 false, .a, _, [], rfl, rfl, rfl, rfl, rfl, by decide +kernel, by decide +kernel, by decide +kernel, by decide +kernel,
      by decide +kernel⟩,
    ⟨(capturing [block [1]] false 0 false).modHutch .a fun h => { h with hubKey := none }, .a, _, [], rfl, rfl, rfl, rfl, by decide +kernel, rfl,
      by decide +kernel, by decide +kernel, by decide +kernel⟩,
    ⟨R, .b, by decide, by decide⟩, ⟨R.setReg .acqCtrl .a [] 1, .a, by decide, rfl, by decide⟩,
    fun pull => ⟨R.modAcq .b fun a => { a with produced := 3, active := pull }, .b, 3, by revert pull; decide⟩, ⟨R, .a, 1, by decide⟩⟩

/-- A staged packet of a scheduling stream. -/
def packet : StreamRec := { record with bytes := [3, 1, 2] }

theorem hyps_TraceDelivery :
    (∃ (s : State) (c : Ch) (q : StreamRec) (b : Block) (bytes : List Byte), (s.pw c).state.hubOn = true ∧ (s.ch c).trc.disabled = false ∧
      (s.ch c).trc.staged = [q] ∧ s.traceDest c = 0 ∧ s.host.perst = false ∧
      (s.packetBytes c (KV.get q.tick q.key (s.ch c).trc.lastTick) (0, 0) true [q]).length ≤ 65536 ∧
      s.closeBlock c q (KV.get 0 q.key (s.ch c).trc.bseq) (s.packetBytes c (KV.get q.tick q.key (s.ch c).trc.lastTick) (0, 0) true [q]) =
        some (b, bytes) ∧
      ((s.ch c).trc.produced - s.reg .trcConsumed c []).toNat + bytes.length / 64 ≤ s.hostUnits .trcHostSize c) ∧
    (∃ (s : State) (c : Ch) (n : Nat), 1 ≤ n ∧ (s.ch c).trc.staged ≠ [] ∧ (s.ch c).trc.overflowMs = some (s.clock / 1000000)) ∧
    (∃ (s : State) (c : Ch) (n : Nat), 1 ≤ n ∧ (s.ch c).trc.staged ≠ [] ∧ (s.ch c).trc.overflowMs ≠ some (s.clock / 1000000) ∧
      s.pwr.hostOn = true) ∧
    (∃ (s : State) (c : Ch) (value : Word32), s.portAnswers = true ∧ (s.pw c).state.hubOn = true ∧
      countOk (s.ch c).trc.produced (s.reg .trcConsumed c []) value = true) ∧
    (∃ (s : State) (c : Ch) (value : Word32), s.portAnswers = true ∧ (s.pw c).state.hubOn = true ∧
      countOk (s.ch c).trc.produced (s.reg .trcConsumed c []) value = false) :=
  ⟨⟨R.modTrc .a fun t => { t with staged := [packet] }, .a, packet, _, _, rfl, rfl, rfl, by decide, rfl, by decide +kernel, rfl, by decide +kernel⟩,
   ⟨R.modTrc .a fun t => { t with staged := [packet], overflowMs := some 0 }, .a, 1, by decide, by decide, by decide⟩,
   ⟨R.modTrc .a fun t => { t with staged := [packet] }, .a, 1, by decide, by decide, by decide, by decide⟩,
   ⟨R, .a, 0, by decide⟩, ⟨R, .a, 0xFFFFFFFF, by decide⟩⟩

/-! ### Messages, work items and engines: states that meet the hypotheses -/

/-- The message key of slot 1. -/
def msgKeys : List Key := [⟨1, 4, 0, [4]⟩]

/-- A design whose port 3 on HUB-A has both windows in Cabinet 0. -/
def ported (p : MPort) : State :=
  (holding (keyed R msgKeys) des).modMport .a 3 fun _ =>
    { p with design := some 1, inRing := some 128, outRing := some 129, inWin := some ⟨0, 0x1C000, 1024, 0⟩ }

/-- An entry of ring 128 with one byte of data, MSEQ `n` and the tag `t`. -/
def msgIn (n : Nat) (t : BitVec 128) : Cmd :=
  { cmd 128 0x60 0 [] with
    desc := { (cmd 128 0x60 0 []).desc with params := BitVec.ofNat 320 (2 ^ 64 + n * 2 ^ 128 + t.toNat * 2 ^ 192) } }

theorem field_low (a t lo k : Nat) (h : lo + k ≤ 192) : field (a + t * 2 ^ 192) lo k = field a lo k := by
  simp only [field, Nat.shiftRight_eq_div_pow]
  have e : (2 : Nat) ^ 192 = 2 ^ lo * (2 ^ k * 2 ^ (192 - lo - k)) := by rw [← pow_add, ← pow_add]; congr 1; omega
  have f : a + t * 2 ^ 192 = a + 2 ^ lo * (2 ^ k * (2 ^ (192 - lo - k) * t)) := by rw [e]; ring
  rw [f, Nat.add_mul_div_left _ _ (Nat.two_pow_pos lo), Nat.add_mul_mod_self_left]

theorem msgIn_toNat (n : Nat) (t : BitVec 128) (h : n < 2 ^ 64) :
    (msgIn n t).desc.params.toNat = 2 ^ 64 + n * 2 ^ 128 + t.toNat * 2 ^ 192 := by
  have := t.isLt
  simp only [msgIn, BitVec.toNat_ofNat]
  apply Nat.mod_eq_of_lt
  omega

theorem msgIn_par (n : Nat) (t : BitVec 128) (h : n < 2 ^ 64) (off k : Nat) (ho : 8 * (off - 8) + 8 * k ≤ 192) :
    (msgIn n t).desc.par off k = field (2 ^ 64 + n * 2 ^ 128) (8 * (off - 8)) (8 * k) := by
  rw [Desc.par, msgIn_toNat n t h, field_low _ _ _ _ ho]

theorem msgIn_tag (t : BitVec 128) : (msgIn 0 t).desc.par 32 16 = t.toNat := by
  rw [Desc.par, msgIn_toNat 0 t (by decide)]
  have := t.isLt
  simp only [field, Nat.shiftRight_eq_div_pow]
  omega

theorem leBytes_take (k n x y : Nat) (hk : k ≤ n) (h : x % 256 ^ k = y % 256 ^ k) : (leBytes n x).take k = (leBytes n y).take k := by
  induction k generalizing n x y with
  | zero => rfl
  | succ k ih =>
    obtain ⟨n, rfl⟩ : ∃ j, n = j + 1 := ⟨n - 1, by omega⟩
    have h1 : x % 256 = y % 256 := by
      have := congrArg (· % 256) h
      simpa only [Nat.pow_succ, Nat.mod_mul_left_mod] using this
    have h2 : x / 256 % 256 ^ k = y / 256 % 256 ^ k := by
      rw [Nat.pow_succ, Nat.mul_comm] at h
      rw [← Nat.mod_mul_right_div_self, ← Nat.mod_mul_right_div_self, h]
    simp only [leBytes, List.take_succ_cons, ih n _ _ (by omega) h2]
    congr 1
    apply BitVec.eq_of_toNat_eq
    simpa using h1

theorem take_front (A X Y : List Byte) (hA : A.length = 8) (e : X.take 24 = Y.take 24) : (A ++ X).take 32 = (A ++ Y).take 32 := by
  rw [List.take_append, List.take_append, hA]
  exact congrArg _ e

theorem pow_bytes : (256 : Nat) ^ 24 = 2 ^ 192 := by norm_num

theorem aad_params (d : Desc) (p q : BitVec 320) (h : (leBytes 40 p.toNat).take 24 = (leBytes 40 q.toNat).take 24) :
    ({ d with params := p } : Desc).bytes.take 32 = ({ d with params := q } : Desc).bytes.take 32 :=
  take_front _ _ _ (by simp [leBytes_length]) h

theorem msgIn_aad (t : BitVec 128) : (msgIn 0 t).desc.bytes.take 32 = (msgIn 0 0).desc.bytes.take 32 := by
  have h := leBytes_take 24 40 (msgIn 0 t).desc.params.toNat (msgIn 0 0).desc.params.toNat (by decide) (by
    rw [msgIn_toNat 0 t (by decide), msgIn_toNat 0 0 (by decide), pow_bytes, Nat.add_mul_mod_self_right, Nat.add_mul_mod_self_right])
  exact aad_params (cmd 128 0x60 0 []).desc _ _ h

/-- The tag that the message of ring 128 carries. -/
def goodTag (d : Design) (key : List Byte) (cipher : List Byte) : BitVec 128 :=
  Config.gcmTag key (msgIv 0xA0 (128 * chNum d.home + 3) 0) ((msgIn 0 0).desc.bytes.take 32) (cipher.take 1)

theorem openMsg_good (s : State) (d : Design) (key cipher : List Byte) (hk : s.msgKey d = some key) :
    ∃ data, s.openMsg d 3 (msgIn 0 (goodTag d key cipher)) cipher = some data := by
  refine ⟨gcmSeal key (msgIv 0xA0 (128 * chNum d.home + 3) 0) (cipher.take 1), ?_⟩
  have h1 : (msgIn 0 (goodTag d key cipher)).desc.par 24 8 = 0 := by rw [msgIn_par _ _ (by decide) _ _ (by decide)]; decide
  have h2 : (msgIn 0 (goodTag d key cipher)).desc.par 16 2 = 1 := by rw [msgIn_par _ _ (by decide) _ _ (by decide)]; decide
  simp only [State.openMsg, hk, h1, h2, msgIn_aad, msgIn_tag]
  exact if_pos rfl

/-- A table in which module `i` serves the ports of every other module. -/
def proxies (i : Nat) : Topo := { systemId := 0, mods := List.replicate 64 ⟨1, 0, i, 1⟩, links := [], hash := 5, identity := i }

/-- A module other than `m`. -/
def besides (m : Fin 64) : Nat := if m = 0 then 1 else 0

/-- A module that serves the ports of every other module. -/
def proxying (r : RingNo) : State := { R with topo := some (proxies (besides (Config.proxyPort r).1)) }

theorem proxied : ∀ m : Fin 64, ((List.range 64).filter (fun k => k != (proxies (besides m)).identity &&
    [1, 2, 3].contains ((proxies (besides m)).kind k) &&
    (((proxies (besides m)).mods[k]?).map (·.proxy)) == some (proxies (besides m)).identity)).contains m.val = true := by decide +kernel

theorem proxying_serves (r : RingNo) : ((proxying r).proxyFor r).isSome := by
  have h := proxied (Config.proxyPort r).1
  have h1 := List.contains_iff_mem.mp h
  show (if _ then none else if _ then some _ else none).isSome = true
  rw [if_neg, if_pos h]
  · rfl
  · intro e
    rw [List.isEmpty_iff.mp e] at h1
    exact absurd h1 (by simp)

theorem hyps_MessageAccepted :
    (∃ (s : State) (r : RingNo) (t : Tag) (m : Cmd), (s.unread r).head? = some m ∧ m.desc.tag = t ∧ s.sec.latched = false ∧ s.intakeOf r = none ∧
      s.proxyFor r = none) ∧
    (∃ (s : State) (r : RingNo) (t : Tag) (m : Cmd), (s.unread r).head? = some m ∧ m.desc.tag = t ∧ s.sec.latched = false ∧ s.intakeOf r = none ∧
      (s.proxyFor r).isSome) ∧
    (∃ (s : State) (r : RingNo) (t : Tag) (m : Cmd) (c : Ch) (k : Nat) (d : Design),
      (s.unread r).head? = some m ∧ m.desc.tag = t ∧ s.sec.latched = false ∧
      s.intakeOf r = some (c, k, s.mport c k) ∧ (s.mport c k).design.bind s.design = some d ∧ d.home = c ∧
      BitVec.ofNat 64 (m.desc.par 24 8) ≠ (s.mport c k).mseqIn) ∧
    (∃ (s : State) (r : RingNo) (t : Tag) (cipher : List Byte) (m : Cmd) (c : Ch) (k : Nat) (d : Design),
      (s.unread r).head? = some m ∧ m.desc.tag = t ∧ s.sec.latched = false ∧
      s.intakeOf r = some (c, k, s.mport c k) ∧ (s.mport c k).design.bind s.design = some d ∧ d.home = c ∧
      BitVec.ofNat 64 (m.desc.par 24 8) = (s.mport c k).mseqIn ∧ d.twin = false ∧ s.openMsg d k m cipher = none) ∧
    (∃ (s : State) (r : RingNo) (t : Tag) (cipher : List Byte) (m : Cmd) (c : Ch) (k : Nat) (d : Design) (data : List Byte),
      (s.unread r).head? = some m ∧ m.desc.tag = t ∧ s.sec.latched = false ∧
      s.intakeOf r = some (c, k, s.mport c k) ∧ (s.mport c k).design.bind s.design = some d ∧ d.home = c ∧
      BitVec.ofNat 64 (m.desc.par 24 8) = (s.mport c k).mseqIn ∧ d.twin = false ∧ s.openMsg d k m cipher = some data ∧
      (s.mport c k).disabled = false) ∧
    (∃ (s : State) (c : Ch) (k : Nat), (s.mport c k).gone = []) := by
  refine ⟨⟨on R (msgIn 0 0), 128, 7, msgIn 0 0, by rfl, rfl, rfl, by rfl, by rfl⟩,
    ⟨on (proxying 128) (msgIn 0 0), 128, 7, msgIn 0 0, by rfl, rfl, rfl, by rfl, proxying_serves 128⟩,
    ⟨on (ported {}) (msgIn 1 0), 128, 7, msgIn 1 0, .a, 3, des, by rfl, rfl, rfl, by rfl, by rfl, by decide, by decide⟩,
    ⟨on { ported {} with chA := { (ported {}).chA with hutch := {} } } (msgIn 0 0), 128, 7, [], msgIn 0 0, .a, 3, des, by rfl, rfl, rfl, by rfl, by rfl,
      by decide, by decide, rfl, by decide⟩, ?_, R, .a, 0, rfl⟩
  obtain ⟨key, hk⟩ : ∃ key, (ported {}).msgKey des = some key := ⟨_, rfl⟩
  obtain ⟨data, hd⟩ := openMsg_good (ported {}) des key [5] hk
  refine ⟨on (ported {}) (msgIn 0 (goodTag des key [5])), 128, 7, [5], _, .a, 3, des, data, by rfl, rfl, rfl, by rfl, by rfl, by decide, ?_,
    rfl, hd, rfl⟩
  rw [msgIn_par _ _ (by decide) _ _ (by decide)]
  show BitVec.ofNat 64 (field (2 ^ 64 + 0 * 2 ^ 128) (8 * (24 - 8)) (8 * 8)) = 0
  decide

/-- A message with FENCE, in order 5. -/
def intake : InMsg := { ring := 128, tag := 7, cring := 32, fence := true, data := [1, 2], order := 5 }

theorem hyps_MessageDelivered : ∃ (s : State) (p k : Nat) (d : Design) (q : MPort) (w : Window) (i : InMsg) (m : Cmd), s.designAt p = some d ∧
    d.gapOpen = true ∧ s.portsOf d = [(k, q)] ∧ s.mport d.home k = q ∧ q.accepted = [i] ∧ q.inWin = some w ∧ q.outWin = none ∧
    s.mayDeliver d q = true ∧ d.twin = false ∧ d.span.contains w.cab = true ∧ s.pairRuns = false ∧ s.cmd i.ring i.tag = some m ∧
    (s.ch d.home).fab.flows = [] ∧ (s.ch d.home).fab.landed = [] :=
  ⟨on (ported { accepted := [intake] }) (msgIn 0 0), 0, 3, des, _, ⟨0, 0x1C000, 1024, 0⟩, intake, msgIn 0 0, by rfl, by rfl, by rfl, by rfl, rfl, rfl, rfl,
    by decide, rfl, by decide, by decide, by rfl, rfl, rfl⟩

/-- A running design whose port 3 has one released record, its ring enabled. -/
def outletState : State :=
  ringed ((holding (keyed R msgKeys) runner).modMport .a 3 fun _ =>
    { design := some 1, outRing := some 129, outWin := some ⟨0, 0x1C000, 1024, 8⟩, released := [⟨true, [1, 2], 0⟩] }) 129 1#32

theorem hyps_OutletWritten : ∃ (s : State) (c : Ch) (k g : Nat) (d : Design) (o : OutRec) (key : List Byte),
    (s.mport c k).design.bind s.design = some d ∧ d.home = c ∧ d.runs = true ∧ d.twin = false ∧ s.host.perst = false ∧ s.proxy = none ∧
    (s.mport c k).released = [o] ∧ s.outletReady d (k, s.mport c k) = true ∧ (s.mport c k).outRing = some g ∧ s.msgKey d = some key :=
  ⟨outletState, .a, 3, 129, runner, ⟨true, [1, 2], 0⟩, _, by rfl, by decide, by decide, rfl, rfl, by decide, rfl, by decide +kernel, rfl, rfl⟩

/-- Port 0 of HUB-A carries traffic. -/
def carrying (s : State) (c : Ch) (p : Nat) : State := s.modPort c p fun x => { x with state := .up, traffic := true, helloOk := true }

/-- A message as it waits in a receive buffer: its bodies from module `src` to module `dst`. -/
def heardAs (dst src : Nat) (m : Sent) : Heard := { bodies := msgBodies dst src 63 m.parts, vc1 := m.onVc1, resent := false, arrived := 0 }

/-- A message waits on a port. -/
def hearing (s : State) (c : Ch) (p : Nat) (h : Heard) : State := s.modPort c p fun x => { x with inbox := [h] }

/-- MSG from module 2. -/
def aMsg (toHost : Bool) : PortMsg := { src := 2, port := 3, toHost := toHost, fence := false, data := [1] }

/-- A MSG message waits on port 7 of HUB-B, which carries traffic. -/
def msgHeard (s : State) (toHost : Bool) : State := hearing (carrying s .b 7) .b 7 (heardAs 0 2 (.msg 0 (aMsg toHost)))

theorem rings_serve : ∀ x, x < 256 → ((ringed (msgHeard R true) (128 + x) 1#32).ringOn (128 + x) &&
    !(ringed (msgHeard R true) (128 + x) 1#32).ringFull (128 + x) && !(ringed (msgHeard R true) (128 + x) 1#32).host.perst) = true := by
  decide +kernel

theorem hyps_MessageFromLink :
    (∃ (s : State) (c : Ch) (p : Nat) (m : PortMsg), s.carries c p = true ∧ m.toHost = true ∧
      ∀ g, (s.ringOn g && !s.ringFull g && !s.host.perst) = false) ∧
    (∃ (s : State) (c : Ch) (p : Nat) (m : PortMsg) (g : Nat), g = 128 + Config.proxyRing m.src m.port % 256 ∧ s.carries c p = true ∧
      m.toHost = true ∧ (s.ringOn g && !s.ringFull g && !s.host.perst) = true ∧ ∃ w t, Arrived s c p (some m.src) (.msg 0 m) w t) ∧
    (∃ (s : State) (c h : Ch) (p k : Nat) (m : PortMsg) (d : Design) (w : Heard) (t : State), Arrived s c p (some m.src) (.msg 0 m) w t ∧
      s.carries c p = true ∧ m.toHost = false ∧ h = chOf (m.port / 128) ∧
      k = m.port % 128 ∧ (s.mport h k).design.bind s.design = some d ∧ d.home = h ∧ d.twin = false ∧ (s.mport h k).inWin.isSome ∧
      (s.mport h k).disabled = false ∧ m.data ≠ [] ∧ m.data.length ≤ 4096) :=
  ⟨⟨{ carrying R .b 7 with host := { R.host with perst := true } }, .b, 7, aMsg true, by decide, rfl, fun g => by simp⟩,
   ⟨ringed (msgHeard R true) (128 + Config.proxyRing 2 3 % 256) 1#32, .b, 7, aMsg true, _, rfl, by decide, rfl,
     rings_serve _ (Nat.mod_lt _ (by decide)), heardAs 0 2 (.msg 0 (aMsg true)), _, by rfl, by decide +kernel, rfl⟩,
   ⟨msgHeard (ported {}) false, .b, .a, 7, 3, aMsg false, des, heardAs 0 2 (.msg 0 (aMsg false)), _, ⟨by decide +kernel, by decide +kernel, rfl⟩, by decide, rfl, rfl, rfl, by rfl,
     by decide, rfl, rfl, rfl, by simp [aMsg], by decide⟩⟩

/-- A design with a region of 4 KiB in channel A. -/
def worker : Design := { des with regions := [{ index := 2, side := 0, base := 0x43000000, bytes := 4096, range := 0 }] }

theorem hyps_WorkItems :
    (∃ s r t m, Ready s r t 0x62 m ∧ s.designAt m.desc.partition.toNat = none) ∧
    (∃ s r t m d, Ready s r t 0x63 m ∧ s.designAt m.desc.partition.toNat = some d ∧ s.base.delivery = none ∧
      s.groupOpen d.home m.desc.group d.slot = false) ∧
    (∃ s r t m d, Ready s r t 0x65 m ∧ s.designAt m.desc.partition.toNat = some d ∧ s.base.delivery = none ∧
      s.groupOpen d.home m.desc.group d.slot = true ∧ d.areaOk m.desc.area m.desc.area.offset m.desc.workBytes = false) ∧
    (∃ s r t m d, Ready s r t 0x64 m ∧ s.designAt m.desc.partition.toNat = some d ∧ s.base.delivery = none ∧
      s.groupOpen d.home m.desc.group d.slot = true ∧ d.areaOk m.desc.target m.desc.target.offset m.desc.workBytes = false) ∧
    (∀ op ∈ [0x62, 0x63, 0x64, 0x65, 0x66, 0x67, 0x68], ∃ s r t m d, Ready s r t op m ∧ s.designAt m.desc.partition.toNat = some d ∧
      s.base.delivery = none ∧ s.groupOpen d.home m.desc.group d.slot = true ∧ d.areaOk m.desc.area 0 0 = true ∧
      d.areaOk m.desc.area m.desc.area.offset m.desc.workBytes = true ∧ d.areaOk m.desc.target m.desc.target.offset m.desc.workBytes = true ∧
      (m.key 5 0).isSome) := by
  refine ⟨⟨_, _, _, _, ready_on R (cmd 1 0x62 0 []) 0x62 rfl rfl rfl rfl, by decide⟩,
    ⟨_, _, _, _, worker, ready_on ((keyedState worker).setReg .schGroup .a [0] 0x201#32) (cmd 1 0x63 0 []) 0x63 rfl rfl rfl rfl, by rfl, rfl, by decide⟩,
    ⟨_, _, _, _, worker, ready_on (keyedState worker) (cmd 1 0x65 0 [(16, 4089), (24, 1), (25, 2), (28, 8)]) 0x65 rfl rfl rfl rfl, by rfl, rfl, by decide,
      by decide⟩,
    ⟨_, _, _, _, worker, ready_on (keyedState worker) (cmd 1 0x64 0 [(16, 0), (26, 1), (27, 1), (28, 8)]) 0x64 rfl rfl rfl rfl, by rfl, rfl, by decide,
      by decide⟩, ?_⟩
  intro op h
  refine ⟨on (keyedState worker) (sealedCmd op [(24, 1), (25, 2), (28, 8)]), 1, 7, sealedCmd op [(24, 1), (25, 2), (28, 8)], worker, ?_⟩
  simp only [List.mem_cons, List.not_mem_nil, or_false] at h
  rcases h with rfl | rfl | rfl | rfl | rfl | rfl | rfl <;>
    exact ⟨ready_on _ _ _ rfl rfl rfl rfl, by rfl, rfl, by decide, by decide, by decide, by decide, by decide⟩

/-- A load waits in the queue of HUB-A, in group `g`; `failed` says that every engine has failed. -/
def queued (g : Nat) (failed : Bool) : State :=
  loading.modSched .a fun q => { q with
    waiting := [{ group := g, work := .module 1 4 }], credits := [(g, 1)],
    engines := if failed then (List.range 18).map (fun e => (e, { spare := decide (16 ≤ e), failed := true })) else
      (List.range 15).map (fun e => (e, { failed := true })) }

theorem hyps_EngineTakesUnit :
    (∃ (s : State) (c : Ch) (q : SchedSt), q = (s.ch c).sched ∧ (∀ u ∈ q.waiting, s.unitAlive c u = true) ∧
      ∀ e, e < 18 → (q.engine e).isFree = false) ∧
    (∃ (s : State) (c : Ch) (q : SchedSt) (e i g : Nat) (u : WorkUnit), q = (s.ch c).sched ∧ (∀ u ∈ q.waiting, s.unitAlive c u = true) ∧ e < 18 ∧
      (q.engine e).isFree = true ∧ (∀ j, j < e → (q.engine j).isFree = false) ∧ i < 8 ∧ g = (q.last + 1 + i) % 8 ∧ KV.get 0 g q.credits ≠ 0 ∧
      q.waiting.find? (fun x => x.group == g && s.eligible c x) = some u ∧
      ∀ j, j < i → KV.get 0 ((q.last + 1 + j) % 8) q.credits = 0 ∨
        ∀ x ∈ q.waiting, x.group = (q.last + 1 + j) % 8 → s.eligible c x = false) :=
  ⟨⟨queued 0 true, .a, _, rfl, by decide, by decide⟩,
   ⟨queued 7 false, .a, _, 15, 7, 7, { group := 7, work := .module 1 4 }, rfl, by decide, by decide, by decide, by decide, by decide, by decide,
     by decide, by decide, by decide⟩⟩

/-- Engine 3 of HUB-A runs the only unit of a work item of the design; a packet of its own may be lost with a link. -/
def working (m : Cmd) (lost : Bool) : State :=
  (on (keyedState des) m).modSched .a fun q => { q with engines := [(3, { busy := some { group := 0, work := .item 1 7 0 1 }, lost := lost })] }

/-- Eight bytes of Cabinet 15, at their end. -/
def eight (op : Nat) : Cmd := sealedCmd op [(16, 0xFFFF8), (25, 15), (26, 0), (27, 15), (28, 8), (32, 0xFFFF8)]

/-- What the sub-statements on a finished unit have in common. -/
def UnitHyps (s : State) (m : Cmd) (d : Design) (lost : Bool) : Prop :=
  ((s.ch .a).sched.engine 3).busy = some { group := 0, work := .item 1 7 0 1 } ∧ s.cmd 1 7 = some m ∧
    s.designAt m.desc.partition.toNat = some d ∧
    ((s.unitDone .a (.item m.ring m.desc.tag 0 1)).ch .a).sched.holds m.ring m.desc.tag = false ∧
    s.itemMarched d m = false ∧ (∀ b, s.itemPoison d m b 0 (min m.desc.workBytes 4096) = none) ∧
    (∀ b, s.itemUnkeyed d m.desc.area (itemReads m b 0 (min m.desc.workBytes 4096)) = false) ∧ ((s.ch .a).sched.engine 3).lost = lost

theorem unit_hyps : ∀ op ∈ [0x62, 0x63, 0x64, 0x65, 0x68], ∀ lost, UnitHyps (working (eight op) lost) (eight op) des lost := by
  intro op h lost
  simp only [List.mem_cons, List.not_mem_nil, or_false] at h
  rcases h with rfl | rfl | rfl | rfl | rfl <;>
    exact ⟨by revert lost; decide, by rfl, by rfl, by revert lost; decide, by revert lost; decide, fun _ => by rfl, fun _ => by rfl, by revert lost; decide⟩

theorem hyps_UnitRuns :
    (∃ (s : State) (m : Cmd) (d : Design), UnitHyps s m d true) ∧
    (∃ (s : State) (m : Cmd) (d : Design) (buf b1 : List Byte), UnitHyps s m d false ∧ d.runs = false ∧ m.desc.opcode = 0x62#8 ∧
      m.openBuf 1 buf = some b1 ∧ m.desc.area.offset % 8 = 0 ∧ d.areaOk m.desc.writeArea m.desc.area.offset ((b1.drop 0).take 8).length = true ∧
      s.itemUnkeyed d m.desc.writeArea [(m.desc.area.offset, ((b1.drop 0).take 8).length)] = false) ∧
    (∃ (s : State) (m : Cmd) (d : Design), UnitHyps s m d false ∧ d.runs = false ∧ m.desc.opcode = 0x64#8 ∧ m.desc.target.offset % 8 = 0 ∧
      d.areaOk m.desc.writeArea m.desc.target.offset (s.areaRead d m.desc.area m.desc.area.offset 8).length = true ∧
      s.itemUnkeyed d m.desc.writeArea [(m.desc.target.offset, (s.areaRead d m.desc.area m.desc.area.offset 8).length)] = false) ∧
    (∃ (s : State) (m : Cmd) (d : Design), UnitHyps s m d false ∧ d.runs = false ∧ m.desc.opcode = 0x65#8 ∧ m.desc.area.offset % 8 = 0 ∧
      d.areaOk m.desc.writeArea m.desc.area.offset ((List.range (8 / 8)).flatMap (fun _ => leBytes 8 (m.desc.par 32 8))).length = true ∧
      s.itemUnkeyed d m.desc.writeArea [(m.desc.area.offset, ((List.range (8 / 8)).flatMap (fun _ => leBytes 8 (m.desc.par 32 8))).length)] = false) ∧
    (∃ (s : State) (m : Cmd) (d : Design), UnitHyps s m d false ∧ m.desc.opcode = 0x63#8 ∧ m.desc.area.space = 0) ∧
    (∃ (s : State) (m : Cmd) (d : Design), UnitHyps s m d false ∧ m.desc.opcode = 0x68#8 ∧ m.desc.par 26 1 = 0) :=
  ⟨⟨_, _, _, unit_hyps 0x65 (by decide) true⟩,
   ⟨_, _, _, _, leBytes 8 5, unit_hyps 0x62 (by decide) false, rfl, rfl, openBuf_sealed _ ⟨1, 5, 0, [5]⟩ _ (by decide), by decide, by decide +kernel,
     by rfl⟩,
   ⟨_, _, _, unit_hyps 0x64 (by decide) false, rfl, rfl, by decide, by decide +kernel, by rfl⟩,
   ⟨_, _, _, unit_hyps 0x65 (by decide) false, rfl, rfl, by decide, by decide +kernel, by rfl⟩,
   ⟨_, _, _, unit_hyps 0x63 (by decide) false, rfl, by decide⟩, ⟨_, _, _, unit_hyps 0x68 (by decide) false, rfl, by decide⟩⟩

theorem hyps_AreaWritten : ∃ (s : State) (d : Design) (a : Area) (l : Nat) (data : List Byte), s.design d.tag = some d ∧ a.space = 0 ∧
    l = a.place ^^^ (16 * d.x) ∧ d.span.contains l = true ∧ d.twin = false ∧ s.pairRuns = false ∧ data.length % 8 = 0 ∧ data.length ≤ 4096 :=
  ⟨holding R { des with targets := [3], x := 3 }, { des with targets := [3], x := 3 }, { space := 0, place := 15, offset := 8 }, 63, leBytes 16 7,
    by rfl, rfl, by decide, by decide, rfl, by decide, by decide, by decide⟩

theorem hyps_EngineSpares :
    (∃ (s : State) (c : Ch) (e : Nat) (u : WorkUnit), e < 18 ∧ ((s.ch c).sched.engine e).spare = false ∧ ((s.ch c).sched.engine e).failed = false ∧
      ((s.ch c).sched.engine e).busy = some u) ∧
    (∃ (s : State) (c : Ch) (e k : Nat), e < 18 ∧ ((s.ch c).sched.engine e).spare = false ∧ ((s.ch c).sched.engine e).failed = false ∧
      ((s.ch c).sched.engine e).busy = none ∧ k < 18 ∧ k ≠ e ∧ ((s.ch c).sched.engine k).spare = true ∧ ((s.ch c).sched.engine k).failed = false ∧
      ∀ j, j < k → ((s.ch c).sched.engine j).spare = false ∨ ((s.ch c).sched.engine j).failed = true) ∧
    (∃ (s : State) (c : Ch) (e : Nat), e < 18 ∧ ((s.ch c).sched.engine e).spare = true) :=
  ⟨⟨working (eight 0x65) false, .a, 3, _, by decide, by decide, by decide, rfl⟩,
   ⟨R.modEngine .b 16 fun x => { x with failed := true }, .b, 15, 17, by decide, by decide, by decide, by decide, by decide, by decide, by decide,
     by decide, by decide⟩, ⟨R, .b, 17, by decide, by decide⟩⟩

/-- A body whose RESETMAP holds one record, of the last STI. -/
def initBody : List Byte := leBytes 304 0 ++ leBytes 8 360 ++ leBytes 8 8 ++ leBytes 40 0 ++ (leBytes 1 2 ++ leBytes 1 15 ++ leBytes 1 63 ++ leBytes 1 1 ++ leBytes 4 511)

theorem hyps_LoadCompletes : ∃ (s : State) (p tag : Nat) (l : Load) (m : Cmd) (x : Reset), s.loadAt p = some l ∧ s.freeTag = some tag ∧
    s.cmd l.ring l.tag = some m ∧ s.mode.mode ≠ .mirrored ∧ initResets l.body l.x (s.mode.mode == .twinned) = [x] ∧ x.sti < 512 ∧
    ∀ q ∈ (s.makeDesign l tag).allParts, q < 8 :=
  ⟨on { loading with loads := [{ theLoad with tag := 7, body := initBody, targets := [1], x := 1 }], designs := [des] } (cmd 1 0x40 15 []), 1, 2, _,
    cmd 1 0x40 15 [], ⟨18, 15, 63, true, 511⟩, by rfl, by decide, by rfl, by decide, by decide +kernel, by decide, by decide +kernel⟩

/-! ### An image that loads -/

/-- HEADER of an image of one partition with frames of one step. -/
def hdr : List Byte := leBytes 2 1 ++ leBytes 1 1 ++ leBytes 2 0 ++ leBytes 7 0xFFFFFFFFFFFFFF ++ leBytes 12 0 ++ leBytes 8 5 ++ leBytes 32 0

/-- CONTRACT (table 1). -/
def contract : List Byte :=
  leBytes 2 1 ++ leBytes 2 1 ++ leBytes 2 6 ++ leBytes 2 12 ++ leBytes 2 28 ++ leBytes 2 64 ++ leBytes 2 4 ++ leBytes 2 6 ++ leBytes 2 384 ++
    leBytes 2 0xFFF1 ++ leBytes 2 0xFFF2 ++ leBytes 10 0

/-- An entry of the section directory. -/
def dirEntry (t off len : Nat) (crc : Word32) : List Byte :=
  leBytes 8 t ++ leBytes 8 off ++ leBytes 8 len ++ leBytes 4 crc.toNat ++ leBytes 4 0

/-- The section directory, with the CRC of the last section. -/
def dir (crc : Word32) : List Byte :=
  leBytes 8 11 ++ dirEntry 1 384 64 (crc32c hdr) ++ dirEntry 2 448 32 (crc32c contract) ++
    (List.range 8).flatMap (fun i => dirEntry (i + 3) 512 0 0) ++ dirEntry 11 512 160 crc

/-- The digest of R113. -/
def imgDigest : Digest := Config.sha384 ((dir 0).take 352 ++ leBytes 4 0 ++ leBytes 4 0 ++ (hdr ++ contract))

/-- SIGNATURE of an unsigned image. -/
def sigSect : List Byte := leBytes 48 imgDigest.toNat ++ leBytes 112 0

/-- The body. -/
def body : List Byte := dir (crc32c sigSect) ++ leBytes 24 0 ++ hdr ++ contract ++ leBytes 32 0 ++ sigSect ++ leBytes 32 0

/-- The outer header. -/
def outer : List Byte :=
  leBytes 4 0x314D4946 ++ leBytes 2 1 ++ leBytes 2 0x80 ++ leBytes 8 704 ++ leBytes 1 0 ++ leBytes 1 1 ++ leBytes 1 1 ++ leBytes 1 1 ++ leBytes 1 1 ++
    leBytes 27 0 ++ leBytes 4 1 ++ leBytes 12 9 ++ leBytes 8 5 ++ leBytes 56 0

/-- The image, with a number in place of its tag added to the tag. -/
def image (add : Nat) : List Byte :=
  outer ++ gcmSeal [3] (leBytes 12 9) body ++
    leBytes 16 (((Config.gcmTag [3] (leBytes 12 9) outer (gcmSeal [3] (leBytes 12 9) body)).toNat + add) % 2 ^ 128)

theorem leNat_leBytes (n x : Nat) (h : x < 256 ^ n) : leNat (leBytes n x) = x := by
  induction n generalizing x with
  | zero => simp at h; simp [leNat, leBytes, h]
  | succ n ih =>
    have : x / 256 < 256 ^ n := by rw [Nat.div_lt_iff_lt_mul (by decide)]; rwa [Nat.pow_succ] at h
    simp only [leBytes, leNat, ih _ this, BitVec.toNat_ofNat]
    omega

theorem body_sig : sectData body 11 = sigSect := by
  have h : sect body 11 = (512, 160) := by decide +kernel
  have hl : (dir (crc32c sigSect) ++ leBytes 24 0 ++ hdr ++ contract ++ leBytes 32 0).length = 512 := by decide +kernel
  have hs : sigSect.length = 160 := by decide +kernel
  rw [sectData, h, body, List.append_assoc, List.drop_left' hl, List.take_left' hs]

theorem body_digest : imageDigest body = imgDigest := by
  have h : body.take 352 ++ leBytes 4 0 ++ (body.drop 356).take 4 ++ (List.range 10).flatMap (fun i => sectData body (i + 1)) =
      (dir 0).take 352 ++ leBytes 4 0 ++ leBytes 4 0 ++ (hdr ++ contract) := by decide +kernel
  exact congrArg Config.sha384 h

theorem body_crcs : (List.range 11).all (fun i => rd body (8 + 32 * i + 24) 4 == (crc32c (sectData body (i + 1))).toNat) = true := by
  rw [List.all_eq_true]
  intro i hi
  have h : ∀ i, i < 10 → (rd body (8 + 32 * i + 24) 4 == (crc32c (sectData body (i + 1))).toNat) = true := by decide +kernel
  rcases Nat.lt_or_ge i 10 with h1 | h1
  · exact h i h1
  · obtain rfl : i = 10 := by have := List.mem_range.mp hi; omega
    rw [body_sig, beq_iff_eq]
    show leNat (leBytes 4 (crc32c sigSect).toNat) = _
    exact leNat_leBytes 4 _ (crc32c sigSect).isLt

theorem body_check6 : check6 body none = true := by
  unfold check6
  rw [body_sig, body_digest]
  have h : rd sigSect 0 48 = imgDigest.toNat := leNat_leBytes 48 _ imgDigest.isLt
  simp [h]

theorem body_check7 : check7 body 1 5 = none := by
  unfold check7
  rw [body_sig, body_crcs]
  decide +kernel

/-- The ciphertext of the body. -/
def sealedBody : List Byte := gcmSeal [3] (leBytes 12 9) body

theorem outer_length : outer.length = 128 := by decide +kernel

theorem sealed_length : sealedBody.length = 704 := by
  rw [sealedBody, gcmSeal_length]
  decide +kernel

theorem img_take (add : Nat) : (image add).take 128 = outer := by
  rw [image, List.append_assoc, List.take_left' outer_length]

theorem img_drop (add : Nat) : (image add).drop 128 = sealedBody ++
    leBytes 16 (((Config.gcmTag [3] (leBytes 12 9) outer sealedBody).toNat + add) % 2 ^ 128) := by
  rw [image, List.append_assoc, List.drop_left' outer_length]; rfl

theorem img_rd (add off n : Nat) (h : off + n ≤ 128) : rd (image add) off n = rd outer off n := by
  rw [rd, rd, ← img_take add, List.drop_take, List.take_take, Nat.min_eq_left (by omega)]

theorem img_size (add : Nat) : rd (image add) 8 8 = 704 := by
  rw [img_rd _ _ _ (by decide)]; decide +kernel

theorem img_cipher (add : Nat) : imageCipher (image add) = sealedBody := by
  rw [imageCipher, img_size, img_drop, List.take_left' sealed_length]

theorem img_iv (add : Nat) : ((image add).drop 52).take 12 = leBytes 12 9 := by
  have h : (outer.drop 52).take 12 = leBytes 12 9 := by decide +kernel
  rw [← img_take add, List.drop_take, List.take_take, Nat.min_eq_left (by decide)] at h
  exact h

theorem img_body (add : Nat) : imageBody [3] (image add) = body := by
  rw [imageBody, img_iv, img_cipher, sealedBody, gcmSeal_twice]

theorem img_tag (add : Nat) : rd (image add) 832 16 = ((Config.gcmTag [3] (leBytes 12 9) outer sealedBody).toNat + add) % 2 ^ 128 := by
  have h : (image add).drop 832 = leBytes 16 (((Config.gcmTag [3] (leBytes 12 9) outer sealedBody).toNat + add) % 2 ^ 128) := by
    rw [show 832 = 128 + 704 from rfl, ← List.drop_drop, img_drop, List.drop_left' sealed_length]
  rw [rd, h, List.take_of_length_le (by rw [leBytes_length])]
  exact leNat_leBytes 16 _ (Nat.lt_of_lt_of_le (Nat.mod_lt _ (by decide)) (by norm_num))

theorem img_tagOk : tagOk [3] (image 0) = true := by
  rw [tagOk, img_iv, img_cipher, img_size, img_take, img_tag, Nat.add_zero,
    Nat.mod_eq_of_lt (Config.gcmTag [3] (leBytes 12 9) outer sealedBody).isLt, beq_self_eq_true]

theorem img_tagBad : tagOk [3] (image 1) = false := by
  rw [tagOk, img_iv, img_cipher, img_size, img_take, img_tag]
  have := (Config.gcmTag [3] (leBytes 12 9) outer sealedBody).isLt
  rw [beq_eq_false_iff_ne]
  omega

/-- The LOAD of the image into partition 0. -/
def loadCmd (keys : List Key) : Cmd := withKeys (cmd 1 0x40 15 [(16, 848), (24, 1)]) keys

/-- Partition 0 belongs to slot 1, channel A in READY with a base image in force. -/
def loadState : State := { ringed (powered booted .ready) 1 0x200#32 with parts := [(0, { owner := 1 })] }

/-- What the checks know of the load. -/
def loadCtx : LoadCtx := { slot := 1, targets := [0], x := 0, header := imageHeader (image 0) body, body := body }

theorem body_checks : bodyChecks loadCtx none = none := by
  have h1 : loadCtx.header.mask = 1 := by decide +kernel
  have h2 : loadCtx.header.imageId.toNat = 5 := by decide +kernel
  have h3 : check8 body = true := by decide +kernel
  have h4 : check9 body (fun c => loadCtx.targets.contains (partOfCab (loadCtx.reloc c))) = none := by decide +kernel
  have h5 : check10 body loadCtx.reloc = none := by decide +kernel
  have h6 : check11 body loadCtx.reloc = none := by decide +kernel
  have h7 : check12 body loadCtx.reloc = none := by decide +kernel
  have hb : loadCtx.body = body := rfl
  simp only [bodyChecks, hb, body_check6, h1, h2, body_check7, h3, h4, h5, h6, h7]
  rfl

/-- Whether an answer is a success. -/
def isOk {α β : Type} : Except α β → Bool
  | .ok _ => true
  | .error _ => false

/-- The load with the key of the image at hand. -/
def loadS : State := on loadState (loadCmd [⟨1, 3, 1, [3]⟩])

theorem load_1 : loadS.check1 1 1 = none := by
  have h : (loadS.check1 1 1).isNone = true := by decide +kernel
  exact Option.isNone_iff_eq_none.mp h
theorem load_2 (add : Nat) : outerOk (image add) 848 = true := by
  have h : (image add).length = 848 := by
    rw [image, List.length_append, List.length_append, outer_length, leBytes_length]
    have := sealed_length
    rw [sealedBody] at this
    rw [this]
  have hz : ((outer.drop 72).take 56).all (· == 0) = true := by decide +kernel
  have hd : ((image add).drop 72).take 56 = (outer.drop 72).take 56 := by
    rw [← img_take add, List.drop_take, List.take_take, Nat.min_eq_left (by decide)]
  simp only [outerOk, h, hd, hz, img_size, img_rd _ _ _ (show 0 + 4 ≤ 128 by decide), img_rd _ _ _ (show 4 + 2 ≤ 128 by decide),
    img_rd _ _ _ (show 6 + 2 ≤ 128 by decide)]
  decide +kernel
theorem load_3 (s : State) (add : Nat) (h : s.id = R.id) (hm : s.mode = R.mode) (ht : s.topo = R.topo) : s.keyField (image add) [0] = none := by
  have e : R.keyField outer [0] = none := by decide +kernel
  simp only [State.keyField, img_rd _ _ _ (show 24 + 24 ≤ 128 by decide), img_rd _ _ _ (show 20 + 1 ≤ 128 by decide),
    img_rd _ _ _ (show 16 + 1 ≤ 128 by decide), img_rd _ _ _ (show 17 + 1 ≤ 128 by decide), img_rd _ _ _ (show 18 + 1 ≤ 128 by decide),
    img_rd _ _ _ (show 19 + 1 ≤ 128 by decide), img_rd _ _ _ (show 21 + 3 ≤ 128 by decide), State.grade, State.placement, h, hm, ht] at e ⊢
  exact e
theorem load_13 : isOk (loadS.check13 loadCtx) = true := by decide +kernel
theorem load_14 : loadS.check14 loadCtx = true := by decide +kernel

theorem load_key (add : Nat) : rd (image add) 48 4 = 1 := by
  rw [img_rd _ _ _ (by decide)]; decide +kernel

theorem load_ok : ∃ l, loadS.loadChecks (loadCmd [⟨1, 3, 1, [3]⟩]) (image 0) = .ok l := by
  have ho : loadS.ringOwner (loadCmd [⟨1, 3, 1, [3]⟩]).ring = 1 := by decide +kernel
  have ht : (loadCmd [⟨1, 3, 1, [3]⟩]).desc.par 24 1 = 1 := by decide +kernel
  have hl : (loadCmd [⟨1, 3, 1, [3]⟩]).desc.par 16 8 = 848 := by decide +kernel
  have hk : (loadCmd [⟨1, 3, 1, [3]⟩]).key 3 1 = some ⟨1, 3, 1, [3]⟩ := by decide +kernel
  have hs : (loadCmd [⟨1, 3, 1, [3]⟩]).key 8 0 = none := by decide +kernel
  have hm : maskParts 1 = [0] := by decide
  have hp : loadS.placement (rd (image 0) 18 1) [0] = some 0 := by decide +kernel
  simp only [State.loadChecks, ho, ht, hl, load_1, load_2, load_3 loadS 0 rfl rfl rfl, hm, load_key, hk, img_tagOk, img_body, hs, hp]
  rw [if_neg (by decide), if_neg (by decide)]
  have hc : ({ slot := 1, targets := [0], x := (some 0).getD 0, header := imageHeader (image 0) body, body := body } : LoadCtx) = loadCtx := rfl
  rw [hc, Option.map_none, body_checks]
  have h13 := load_13
  cases h : loadS.check13 loadCtx with
  | error f => rw [h] at h13; exact nomatch h13
  | ok v => exact ⟨_, by simp only [load_14, if_true]; rfl⟩

/-- The same with a power budget of 1 W. -/
def lowS : State := loadS.setReg .modArrayBudget .a [] 1#32

/-- What the clauses on a load that meets checks 1 to 13 ask. -/
def LoadHyps (s : State) (fits : Bool) : Prop :=
  ∃ (r : RingNo) (t : Tag) (image : List Byte) (m : Cmd) (ik : Key) (b : List Byte) (k : LoadCtx) (v : Resolved), Ready s r t 0x40 m ∧
    s.base.delivery = none ∧ s.check1 (s.ringOwner m.ring) (m.desc.par 24 1) = none ∧ outerOk image (m.desc.par 16 8) = true ∧
    s.keyField image (maskParts (m.desc.par 24 1)) = none ∧ m.key 3 (rd image 48 4) = some ik ∧ tagOk ik.material image = true ∧
    b = imageBody ik.material image ∧
    k = ({ slot := s.ringOwner m.ring, targets := maskParts (m.desc.par 24 1),
           x := (s.placement (rd image 18 1) (maskParts (m.desc.par 24 1))).getD 0, header := imageHeader image b, body := b } : LoadCtx) ∧
    bodyChecks k ((m.key 8 0).map (·.material)) = none ∧ s.check13 k = .ok v ∧ s.check14 k = fits

theorem load_hyps (s : State) (fits : Bool) (hr : Ready s 1 7 0x40 (loadCmd [⟨1, 3, 1, [3]⟩])) (hd : s.base.delivery = none)
    (ho : s.ringOwner 1 = 1) (h1 : (s.check1 1 1).isNone = true) (hp : s.placement (rd (image 0) 18 1) [0] = some 0) (hi : s.id = R.id)
    (hm : s.mode = R.mode) (ht : s.topo = R.topo) (h13 : isOk (s.check13 loadCtx) = true) (h14 : s.check14 loadCtx = fits) : LoadHyps s fits := by
  have e1 : (loadCmd [⟨1, 3, 1, [3]⟩]).desc.par 24 1 = 1 := by decide +kernel
  have e2 : (loadCmd [⟨1, 3, 1, [3]⟩]).desc.par 16 8 = 848 := by decide +kernel
  have e3 : maskParts 1 = [0] := by decide
  have e4 : s.ringOwner (loadCmd [⟨1, 3, 1, [3]⟩]).ring = 1 := ho
  have e5 : (loadCmd [⟨1, 3, 1, [3]⟩]).key 3 (rd (image 0) 48 4) = some ⟨1, 3, 1, [3]⟩ := by rw [load_key]; rfl
  cases e : s.check13 loadCtx with
  | error f => rw [e] at h13; exact nomatch h13
  | ok v =>
    refine ⟨1, 7, image 0, _, ⟨1, 3, 1, [3]⟩, _, loadCtx, v, hr, hd, ?_, ?_, ?_, e5, img_tagOk, rfl, ?_, body_checks, e, h14⟩
    · rw [e1, e4]; exact Option.isNone_iff_eq_none.mp h1
    · rw [e2]; exact load_2 0
    · rw [e1, e3]; exact load_3 s 0 hi hm ht
    · rw [e1, e3, e4, hp, img_body]; rfl

theorem hyps_LoadFits : (∃ s, LoadHyps s true) ∧ ∃ s, LoadHyps s false :=
  ⟨⟨loadS, load_hyps _ _ (ready_on _ _ _ rfl rfl rfl rfl) rfl (by decide +kernel) (by decide +kernel) (by decide +kernel) rfl rfl rfl load_13 load_14⟩,
   ⟨lowS, load_hyps _ _ ⟨⟨by rfl, rfl, rfl, by rfl, .inl rfl, by decide⟩, rfl⟩ rfl (by decide +kernel) (by decide +kernel) (by decide +kernel) rfl rfl rfl
     (by decide +kernel) (by decide +kernel)⟩⟩

theorem hyps_LoadChecked :
    (∃ (s : State) (r : RingNo) (t : Tag) (image : List Byte) (m : Cmd) (l : Load), Ready s r t 0x40 m ∧ s.base.delivery = none ∧
      s.loadChecks m image = .ok l) ∧
    (∃ (s : State) (r : RingNo) (t : Tag) (image : List Byte) (m : Cmd) (f : LoadFail), Ready s r t 0x40 m ∧ s.base.delivery = none ∧
      s.loadChecks m image = .error f) ∧
    (∃ (s : State) (r : RingNo) (t : Tag) (image : List Byte) (m : Cmd), Ready s r t 0x40 m ∧ s.base.delivery = none ∧
      s.check1 (s.ringOwner m.ring) (m.desc.par 24 1) = none ∧ outerOk image (m.desc.par 16 8) = false) ∧
    (∃ (s : State) (r : RingNo) (t : Tag) (image : List Byte) (m : Cmd), Ready s r t 0x40 m ∧ s.base.delivery = none ∧
      s.check1 (s.ringOwner m.ring) (m.desc.par 24 1) = none ∧ outerOk image (m.desc.par 16 8) = true ∧
      s.keyField image (maskParts (m.desc.par 24 1)) = none ∧ m.key 3 (rd image 48 4) = none) ∧
    (∃ (s : State) (r : RingNo) (t : Tag) (image : List Byte) (m : Cmd) (ik : Key), Ready s r t 0x40 m ∧ s.base.delivery = none ∧
      s.check1 (s.ringOwner m.ring) (m.desc.par 24 1) = none ∧ outerOk image (m.desc.par 16 8) = true ∧
      s.keyField image (maskParts (m.desc.par 24 1)) = none ∧ m.key 3 (rd image 48 4) = some ik ∧ tagOk ik.material image = false) := by
  obtain ⟨l, hl⟩ := load_ok
  have ht : ∀ ks, (loadCmd ks).desc.par 24 1 = 1 := fun _ => (by decide +kernel : (loadCmd []).desc.par 24 1 = 1)
  have hn : ∀ ks, (loadCmd ks).desc.par 16 8 = 848 := fun _ => (by decide +kernel : (loadCmd []).desc.par 16 8 = 848)
  have h1 : loadS.check1 (loadS.ringOwner 1) 1 = none := by rw [show loadS.ringOwner 1 = 1 by decide +kernel]; exact load_1
  have hm : maskParts 1 = [0] := by decide
  refine ⟨⟨loadS, 1, 7, image 0, _, l, ready_on _ _ _ rfl rfl rfl rfl, rfl, hl⟩,
    ⟨on R (loadCmd []), 1, 7, [], _, .plain 1 .refusedState, ready_on _ _ _ rfl rfl rfl rfl, rfl, by rfl⟩,
    ⟨loadS, 1, 7, [], loadCmd [⟨1, 3, 1, [3]⟩], ready_on _ _ _ rfl rfl rfl rfl, rfl, by rw [ht]; exact h1, by decide⟩,
    ⟨on loadState (loadCmd []), 1, 7, image 0, loadCmd [], ready_on _ _ _ rfl rfl rfl rfl, rfl, ?_, ?_, ?_, ?_⟩,
    ⟨loadS, 1, 7, image 1, loadCmd [⟨1, 3, 1, [3]⟩], ⟨1, 3, 1, [3]⟩, ready_on _ _ _ rfl rfl rfl rfl, rfl, by rw [ht]; exact h1, ?_, ?_, ?_, img_tagBad⟩⟩
  · rw [ht]; exact h1
  · rw [hn]; exact load_2 0
  · rw [ht, hm]; exact load_3 _ 0 rfl rfl rfl
  · rfl
  · rw [hn]; exact load_2 1
  · rw [ht, hm]; exact load_3 _ 1 rfl rfl rfl
  · rw [load_key]; rfl

/-! ### The security mailbox: states that meet the hypotheses -/

/-- A state with one open session. -/
def sessioned (s : State) (w : Sess) : State := s.modSec fun x => { x with sessions := [⟨w, [1], 7⟩] }

theorem hyps_SpdmRequests :
    (∃ (s : State) (o : AlgOffer), s.spdmUp = true ∧ o.ecdsaP384 = true ∧ o.sha384 = true ∧ o.ecdhe384 = true ∧ o.aes256gcm = true) ∧
    (∃ (s : State) (o : AlgOffer), s.spdmUp = true ∧ o.aes256gcm = false) ∧
    (∃ (s : State) (i : Nat), s.spdmUp = true ∧ s.sec.spdm ≠ 0 ∧ 1 ≤ i ∧ i ≤ 4) ∧
    (∃ (s : State) (p : Nat) (d : Design) (w : Sess), s.spdmUp = true ∧ s.sec.spdm ≠ 0 ∧ p < 8 ∧ s.designAt p = some d ∧
      (s.session w).isSome) ∧
    (∃ s : State, s.rspUp = true) ∧ (∃ s : State, s.sec.lifecycle = .scrapped) :=
  ⟨⟨R, ⟨true, true, true, true⟩, by decide, rfl, rfl, rfl, rfl⟩, ⟨R, ⟨true, true, true, false⟩, by decide, rfl⟩,
   ⟨R.modSec fun x => { x with spdm := 1 }, 4, by decide⟩,
   ⟨sessioned ((holding R { des with targets := [7] }).modSec fun x => { x with spdm := 1 }) (.tenant 1), 7, _, .tenant 1, by decide, by decide, by decide,
     rfl, by decide⟩,
   ⟨R, by decide⟩, ⟨R.modSec fun x => { x with lifecycle := .scrapped }, rfl⟩⟩

/-- FINISH's two outcomes hang on a signature, of which nothing is known: whichever it has, the other hypotheses are met. -/
theorem hyps_Sessions :
    (∃ s : State, s.spdmUp = true ∧ s.sec.spdm ≠ 0) ∧
    (∀ (leaf sig ems : List Byte), ∃ (s : State) (w : Sess), s.spdmUp = true ∧ s.sec.handshake = some ems ∧
      w = s.principal (Config.sha384 leaf) ∧ s.session w = none ∧
      (Config.ecdsaVerify leaf (Config.sha384 ems) sig = true ∨ Config.ecdsaVerify leaf (Config.sha384 ems) sig = false)) ∧
    (∃ (s : State) (w : Sess), s.spdmUp = true ∧ (s.session w).isSome) ∧
    (∃ (s : State) (leaf : Digest), s.spdmUp = true ∧ s.sec.bound = some leaf) :=
  ⟨⟨R.modSec fun x => { x with spdm := 1 }, by decide⟩,
   fun _ _ ems => ⟨R.modSec fun x => { x with handshake := some ems }, _, rfl, rfl, rfl, rfl, by
     cases Config.ecdsaVerify _ _ _ <;> simp⟩,
   ⟨sessioned R (.tenant 8), .tenant 8, by decide⟩, ⟨R.modSec fun x => { x with bound := some 5 }, 5, by decide⟩⟩

theorem hyps_Claims :
    (∃ (s : State) (w : Sess) (x : SessRec), s.spdmUp = true ∧ s.session w = some x ∧ w = .unbound ∧ s.sec.bound = none ∧
      s.session .operator = none) ∧
    (∃ (s : State) (w : Sess) (x : SessRec), s.spdmUp = true ∧ s.session w = some x ∧ w = .operator ∧ s.sec.bound = some x.leaf ∧
      s.sec.latched = true) ∧
    (∃ (s : State) (w : Sess) (x : SessRec), s.spdmUp = true ∧ s.session w = some x ∧ w = .operator ∧ s.sec.bound.isSome ∧
      s.sec.latched = false) :=
  ⟨⟨sessioned R .unbound, .unbound, _, by decide, rfl, rfl, rfl, rfl⟩,
   ⟨sessioned (R.modSec fun x => { x with bound := some 7, latched := true }) .operator, .operator, _, by decide, rfl, rfl, rfl, rfl⟩,
   ⟨sessioned (R.modSec fun x => { x with bound := some 8 }) .operator, .operator, _, by decide, rfl, rfl, rfl, rfl⟩⟩

theorem hyps_Keys :
    (∃ (s : State) (w : Sess) (x : SessRec), s.spdmUp = true ∧ s.session w = some x ∧ s.sec.latched = true) ∧
    (∃ (s : State) (x : SessRec), s.spdmUp = true ∧ s.session .unbound = some x ∧ s.sec.latched = false) ∧
    (∃ (s : State) (w : Sess) (x : SessRec) (k i : Nat), s.spdmUp = true ∧ s.session w = some x ∧ s.sec.latched = false ∧ w ≠ .unbound ∧
      kindOk k i = false) ∧
    (∃ (s : State) (w : Sess) (x : SessRec) (k i : Nat), s.spdmUp = true ∧ s.session w = some x ∧ s.sec.latched = false ∧ w ≠ .unbound ∧
      kindOk k i = true ∧ kindAllowed w k = false) ∧
    (∃ (s : State) (w : Sess) (x : SessRec) (k i : Nat), s.spdmUp = true ∧ s.session w = some x ∧ s.sec.latched = false ∧ w ≠ .unbound ∧
      kindOk k i = true ∧ kindAllowed w k = true ∧ s.key w.holder k i = none) ∧
    (∃ (s : State) (w : Sess) (x : SessRec) (k i : Nat), s.spdmUp = true ∧ s.session w = some x ∧ s.sec.latched = false ∧ w ≠ .unbound ∧
      kindOk k i = true ∧ kindAllowed w k = true ∧ (s.key w.holder k i).isSome ∧ s.chA.hutch.keys ≠ []) :=
  ⟨⟨sessioned (R.modSec fun x => { x with latched := true }) .operator, .operator, _, by decide, rfl, rfl⟩,
   ⟨sessioned R .unbound, _, by decide, rfl, rfl⟩, ⟨sessioned R (.tenant 1), .tenant 1, _, 3, 16, by decide, rfl, rfl, by decide, by decide⟩,
   ⟨sessioned R .operator, .operator, _, 2, 0, by decide, rfl, rfl, by decide, by decide, by decide⟩,
   ⟨sessioned R (.tenant 8), .tenant 8, _, 3, 15, by decide, rfl, rfl, by decide, by decide, by decide, by decide⟩,
   ⟨sessioned (keyed R streamKeys) (.tenant 1), .tenant 1, _, 7, 0, by decide, rfl, rfl, by decide, by decide, by decide, by decide, by decide⟩⟩

/-- The token's signature may verify or not; the other hypotheses are met beside either. -/
theorem hyps_DebugTokens :
    (∃ (s : State) (tok : Token), s.spdmUp = true ∧ (s.session .operator).isSome ∧ s.sec.latched = false ∧ tok.serial = s.id.serial ∧
      (s.now0 0).toNat < tok.notAfter.toNat) ∧
    (∃ (s : State) (tok : Token), s.spdmUp = true ∧ (s.session .operator).isSome ∧ s.sec.latched = false ∧ tok.serial ≠ s.id.serial) ∧
    (∃ (s : State) (f : BitVec 8) (n : BitVec 64), s.sec.token = some (f, n) ∧ n.toNat ≤ (s.now0 0).toNat) ∧
    (∃ (s : State) (f : BitVec 8) (n : BitVec 64), s.sec.token = some (f, n) ∧ (s.now0 0).toNat < n.toNat) :=
  ⟨⟨sessioned R .operator, ⟨1, 0, 1, []⟩, by decide⟩, ⟨sessioned R .operator, ⟨2, 0, 1, []⟩, by decide⟩,
   ⟨R.modSec fun x => { x with token := some (3, 0) }, 3, 0, rfl, by decide⟩, ⟨R.modSec fun x => { x with token := some (3, 1) }, 3, 1, rfl, by decide⟩⟩

/-- SERVICE, with the operator's session. -/
def service : State := sessioned (R.modMode fun x => { x with mode := .service }) .operator

/-- The authorisation may verify or not; the other hypotheses are met beside either. -/
theorem hyps_LifecycleChanges :
    (∃ s : State, s.sec.latched = false ∧ s.sec.lifecycle = .scrapped) ∧
    (∃ (s : State), s.sec.latched = false ∧ s.spdmUp = true ∧ s.sec.lifecycle ≠ .blank ∧ (s.session .operator).isSome ∧
      s.mode.mode ≠ .service) ∧
    (∃ (s : State) (t : Lifecycle), s.sec.latched = false ∧ s.spdmUp = true ∧ s.sec.lifecycle ≠ .blank ∧ (s.session .operator).isSome ∧
      t = .returned ∧ s.sec.returnsLeft = 0) ∧
    (∃ (s : State) (t : Lifecycle) (n : BitVec 64), s.sec.latched = false ∧ s.spdmUp = true ∧ s.sec.lifecycle ≠ .blank ∧
      (s.session .operator).isSome ∧ s.mode.mode = .service ∧ (∀ p, p < 8 → (s.part p).state = .empty) ∧ lifecycleStep s.sec.lifecycle t = true ∧
      (t = .returned → s.sec.returnsLeft ≠ 0) ∧ s.lifecycleAuth t n [] false = false) ∧
    (∀ t : Lifecycle, lifecycleStep .field t = true → ∃ s : State, s.sec.latched = false ∧ s.spdmUp = true ∧ s.sec.lifecycle ≠ .blank ∧
      (s.session .operator).isSome ∧ s.mode.mode = .service ∧ (∀ p, p < 8 → (s.part p).state = .empty) ∧ lifecycleStep s.sec.lifecycle t = true ∧
      (t = .returned → s.sec.returnsLeft ≠ 0)) :=
  ⟨⟨R.modSec fun x => { x with lifecycle := .scrapped }, rfl, rfl⟩, ⟨sessioned R .operator, by decide⟩,
   ⟨service.modSec fun x => { x with returnsLeft := 0 }, .returned, by decide⟩, ⟨service, .scrapped, 2, by decide⟩,
   fun t h => ⟨service, by decide, by decide, by decide, by decide, by decide, by decide, h, fun _ => by decide⟩⟩

/-! ### Registers and rings: states that meet the hypotheses -/

theorem hyps_RegisterWrites :
    (∃ (s : State) (off : Nat) (r : Reg) (c : Ch) (idx : List Nat), s.portAnswers = true ∧ off % 4 = 0 ∧
      s.findReg off = some (r, c, idx) ∧ s.domOn r.row.dom c = true ∧ s.locked r c idx = false ∧ r.row.pair = .one ∧
      r ≠ .schTraceCtrl ∧ r ≠ .schGroup ∧ r ≠ .hpRingCtrl ∧ r ≠ .msixControl) ∧
    (∃ (s : State) (off : Nat) (r : Reg) (c : Ch) (idx : List Nat), s.portAnswers = true ∧ off % 8 = 0 ∧
      s.findReg off = some (r, c, idx) ∧ s.findReg (off + 4) = some (r.high, c, idx) ∧ s.domOn r.row.dom c = true ∧
      s.domOn r.high.row.dom c = true ∧ s.locked r c idx = false ∧ s.locked r.high c idx = false ∧ r.row.pair = .lo ∧ r.high.row.pair = .hi ∧
      regOff r.high c idx ≠ regOff r c idx) ∧
    (∃ (s : State) (off : Nat) (wide : Bool), s.portAnswers = true ∧ off % (if wide then 8 else 4) ≠ 0) ∧
    (∃ (s : State) (off : Nat) (r : Reg) (c : Ch) (idx : List Nat), s.portAnswers = true ∧ off % 4 = 0 ∧
      s.findReg off = some (r, c, idx) ∧ s.domOn r.row.dom c = false ∧ s.host.busTimeoutMs ≠ some (s.clock / 1000000)) ∧
    (∃ (s : State) (off k : Nat) (idx : List Nat) (v : Word64), s.portAnswers = true ∧ off % 4 = 0 ∧
      s.findReg off = some (.msixControl, .a, k :: idx) ∧ s.domOn Reg.msixControl.row.dom .a = true ∧ v.getLsbD 0 = false ∧
      s.host.msixPending.getLsbD k = true) :=
  ⟨⟨R, 0x100014, .hpBadAccess, .a, [], by decide +kernel⟩, ⟨R, 0x101000 + 0x20 * 383, .hpRingBaseLo, .a, [383], by decide +kernel⟩,
   ⟨R, 4, true, by decide⟩, ⟨powered R .off, 0x540018, .acqHostSize, .a, [], by decide +kernel⟩,
   ⟨R.modHost fun h => { h with msixPending := 4 }, 0x1E002C, 2, [], 0, by decide +kernel⟩⟩

theorem hyps_RegisterReads :
    (∀ q ∈ [(0x101000, RegPair.lo), (0x101004, .hi), (0x100014, .one)], ∃ (s : State) (r : Reg) (c : Ch) (idx : List Nat), s.portAnswers = true ∧ q.1 % 4 = 0 ∧ s.findReg q.1 = some (r, c, idx) ∧ s.readStalls r c = false ∧ r.row.pair = q.2) ∧
    (∃ (s : State) (off n : Nat), s.portAnswers = true ∧ s.badWords off n ≠ 0) ∧
    (∃ (s : State) (off : Nat), off % 8 = 0 ∧ s.findReg off = none ∧ s.findReg (off + 4) = none) ∧
    (∃ (s : State) (off : Nat), s.portAnswers = true ∧ s.crosses off = true ∧ s.host.busTimeoutMs = some (s.clock / 1000000)) := by
  refine ⟨?_, ⟨R, 1, 4, by decide +kernel⟩, ⟨R, 0xFFFF8, by decide +kernel⟩,
    ⟨(powered R .off).modHost fun h => { h with busTimeoutMs := some 0 }, 0x540018, by decide +kernel⟩⟩
  intro q h
  simp only [List.mem_cons, List.not_mem_nil, or_false] at h
  rcases h with rfl | rfl | rfl
  · exact ⟨R, .hpRingBaseLo, .a, [0], by decide +kernel⟩
  · exact ⟨R, .hpRingBaseHi, .a, [0], by decide +kernel⟩
  · exact ⟨R, .hpBadAccess, .a, [], by decide +kernel⟩

theorem hyps_BudgetWrite :
    (∃ (s : State) (v : Word32), s.portAnswers = true ∧
      (s.setReg .modArrayBudget .a [] (v &&& 0xFFFF#32)).predW ≤ (s.setReg .modArrayBudget .a [] (v &&& 0xFFFF#32)).budgetW) ∧
    (∃ (s : State) (v : Word32), s.portAnswers = true ∧
      (s.setReg .modArrayBudget .a [] (v &&& 0xFFFF#32)).budgetW < (s.setReg .modArrayBudget .a [] (v &&& 0xFFFF#32)).predW) :=
  ⟨⟨R, 0, by decide⟩, ⟨holding R des, 1, by decide⟩⟩

/-- A completion that waits for ring 95. -/
def kept : Retained :=
  { arb := .b, cring := 95, accepted := true, cpl := { tag := 7, status := .ok, retained := true, ring := 0, frame := 0, detail := 0 } }

theorem hyps_RingSwitch :
    (∃ (s : State) (r : RingNo), isReservedRing r = false ∧ r ≤ 511 ∧ s.portAnswers = true ∧ s.base.fwValid = true ∧ s.ringOn r = true ∧
      isCplRing r = false) ∧
    (∃ (s : State) (r : RingNo) (e : Retained) (w : State) (v : Word32), isReservedRing r = false ∧ r ≤ 511 ∧ s.portAnswers = true ∧
      s.base.fwValid = true ∧ s.ringOn r = true ∧ isCplRing r = true ∧ s.host.retention = [e] ∧ e.cring = r ∧
      w = s.setReg .hpRingCtrl .a [r] (v ||| 1#32) ∧ w.ringFull r = false) ∧
    (∃ (s : State) (r : RingNo), isReservedRing r = false ∧ r ≤ 511 ∧ s.portAnswers = true ∧ s.base.fwValid = true ∧ s.ringOn r = false ∧
      isCplRing r = false) ∧
    (∃ (s : State) (r : RingNo) (e : Retained), isReservedRing r = false ∧ r ≤ 511 ∧ s.portAnswers = true ∧ s.base.fwValid = true ∧
      s.ringOn r = false ∧ isCplRing r = true ∧ s.host.retention = [e] ∧ e.cring = r) :=
  ⟨⟨ringed R 96 1, 96, by decide⟩,
   ⟨ringed (R.modHost fun h => { h with retention := [kept] }) 95 1, 95, kept, _, 0xF#32, by decide, by decide, by decide, by decide, by decide, by decide, rfl,
     rfl, rfl, by decide⟩, ⟨R, 383, by decide⟩, ⟨R.modHost fun h => { h with retention := [kept] }, 95, kept, by decide⟩⟩

theorem hyps_Doorbells :
    (∃ (s : State) (page r : Nat), s.portAnswers = true ∧ s.base.fwValid = true ∧
      (s.ringOn r = false ∨ s.regField .hpRingCtrl .a [r] 13 8 ≠ page ∨ isReservedRing r = true ∨ 511 < r)) ∧
    (∀ taken, ∃ (s : State) (page r : Nat) (entries : List Desc) (count : Word32) (words : Nat), s.portAnswers = true ∧ s.base.fwValid = true ∧
      words = entryWords (count.toNat - (s.ring r).produced.toNat) entries ∧ isCmdRing r = true ∧
      s.ringOn r = true ∧ s.regField .hpRingCtrl .a [r] 13 8 = page ∧ s.intakeOf r = none ∧ (s.ring r).produced.toNat ≤ count.toNat ∧
      s.canTake r count words = taken) ∧
    (∃ (s : State) (page r : Nat) (count : Word32), s.portAnswers = true ∧ s.base.fwValid = true ∧ isCmdRing r = true ∧
      s.ringOn r = true ∧ s.regField .hpRingCtrl .a [r] 13 8 = page ∧ s.intakeOf r = none ∧ count.toNat < (s.ring r).produced.toNat ∧
      s.ringSize r < (count - (s.ring r).produced).toNat) :=
  ⟨⟨R, 0, 0, by decide⟩,
   fun taken => by
     cases taken
     · exact ⟨ringed R 16 0xD#32, 0, 16, [], 65, _, by decide, by decide, rfl, by decide⟩
     · exact ⟨ringed R 16 0xD#32, 0, 16, [(cmd 16 1 15 []).desc], 1, _, by decide, by decide, rfl, by decide⟩,
   ⟨(ringed R 0 0xD#32).modRing 0 fun g => { g with produced := 100 }, 0, 0, 99, by decide⟩⟩

/-- A descriptor of ring 1 with the AUTH of its key. -/
def signed (s : State) (d : Desc) : Desc := { d with auth := Config.cmac [2] (s.authBytes 1 0 d) }

/-- Ring 1 belongs to slot 1, which has its command key. -/
def tenantRing : State := ringed (ringed (keyed R [⟨1, 2, 0, [2]⟩]) 1 0x201#32) 32 0x201#32

theorem signed_ok (s : State) (d : Desc) (k : Key) (h : s.ringKey 1 = some k) (hk : k.material = [2]) : s.authOk 1 0 (signed s d) = true := by
  simp only [State.authOk, h, hk, beq_iff_eq]
  rfl

/-- A completion of a command of ring 1 with TAG 7 waits. -/
def retaining : State := tenantRing.modHost fun h => { h with retention := [{ kept with cring := 33, cpl := { kept.cpl with ring := 1 } }] }

theorem hyps_DescriptorChecked :
    (∃ (s : State) (r : RingNo) (n : Word32) (d : Desc), s.checkDesc r n d = none) ∧
    (∃ (s : State) (r : RingNo) (n : Word32) (d : Desc) (st : Status), s.checkDesc r n d = some st ∧ s.cringOk d.cring r = true ∧
      s.ringFull d.cring = false ∧ s.host.perst = false ∧ s.host.retention.any (fun e => e.cring == d.cring) = false) ∧
    (∃ (s : State) (r : RingNo), s.ringKey r = none) ∧
    (∃ (s : State) (r : RingNo) (n : Word32) (d : Desc) (k : Key), s.ringKey r = some k ∧ d.auth ≠ Config.cmac k.material (s.authBytes r n d)) ∧
    (∃ (s : State) (r : RingNo) (n : Word32) (d : Desc), s.authOk r n d = true ∧ s.opDefined r d = false) ∧
    (∃ (s : State) (r : RingNo) (n : Word32) (d : Desc), s.authOk r n d = true ∧ (s.cmd r d.tag).isSome) ∧
    (∃ (s : State) (r : RingNo) (n : Word32) (d : Desc), ∃ e ∈ s.host.retention, s.authOk r n d = true ∧ e.accepted = true ∧ e.cpl.ring = r ∧
      e.cpl.tag = d.tag) ∧
    (∃ (s : State) (r : RingNo) (n : Word32) (d : Desc), s.authOk r n d = true ∧ s.ringOwner r ≠ 0 ∧ usesPart d.opcode.toNat = true ∧
      (s.part d.partition.toNat).owner ≠ s.ringOwner r) := by
  have hk : tenantRing.ringKey 1 = some ⟨1, 2, 0, [2]⟩ := by decide
  refine ⟨⟨tenantRing, 1, 0, signed tenantRing (cmd 1 0x47 15 [(8, 1)]).desc, ?_⟩,
    ⟨keyed tenantRing [], 1, 0, (cmd 1 0x47 15 []).desc, .authFail, by decide, by decide, by decide, rfl, rfl⟩, ⟨R, 0, by decide⟩,
    ⟨tenantRing, 1, 0, { (cmd 1 1 15 []).desc with auth := Config.cmac [2] (tenantRing.authBytes 1 0 (cmd 1 1 15 []).desc) + 1 }, _, hk, ?_⟩,
    ⟨tenantRing, 1, 0, signed tenantRing (cmd 1 1 15 []).desc, signed_ok _ _ _ hk rfl, by decide⟩,
    ⟨on tenantRing (cmd 1 0x47 15 []), 1, 0, signed (on tenantRing (cmd 1 0x47 15 [])) (cmd 1 0x47 15 []).desc, signed_ok _ _ _ hk rfl, by decide⟩,
    ⟨retaining, 1, 0, signed retaining (cmd 1 0x47 15 []).desc, _, .head _, signed_ok _ _ _ (by rfl) rfl, rfl, rfl, rfl⟩,
    ⟨tenantRing, 1, 0, signed tenantRing (cmd 1 0x41 7 []).desc, signed_ok _ _ _ hk rfl, by decide, by decide, by decide⟩⟩
  · have ho : tenantRing.opDefined 1 (signed tenantRing (cmd 1 0x47 15 [(8, 1)]).desc) = true := by decide +kernel
    have h1 : tenantRing.cringOk (signed tenantRing (cmd 1 0x47 15 [(8, 1)]).desc).cring 1 = true := by decide +kernel
    have h2 : tenantRing.partOk 1 (signed tenantRing (cmd 1 0x47 15 [(8, 1)]).desc) = true := by decide +kernel
    simp only [State.checkDesc, signed_ok _ _ _ hk rfl, ho, h1, h2]
    rfl
  · show Config.cmac [2] (tenantRing.authBytes 1 0 (cmd 1 1 15 []).desc) + 1 ≠ Config.cmac [2] (tenantRing.authBytes 1 0 (cmd 1 1 15 []).desc)
    intro h
    exact absurd (BitVec.add_right_eq_self.mp h) (by decide)

theorem hyps_ConsumedAndTimer :
    (∃ (s : State) (page : Nat) (count : Word32), s.portAnswers = true ∧ s.base.fwValid = true ∧ s.ringOn 96 = true ∧
      s.regField .hpRingCtrl .a [96] 13 8 = page ∧ (count - (s.ring 96).consumed).toNat ≤ ((s.ring 96).produced - (s.ring 96).consumed).toNat) ∧
    (∀ masked : Bool, ∃ (s : State) (r : RingNo) (v : Nat), s.regField .hpRingMod .a [r] 8 16 ≠ 0 ∧ (s.ring r).unsignalled ≠ 0 ∧
      v = s.regField .hpRingCtrl .a [r] 21 8 ∧ s.host.msixMask.getLsbD v = masked) :=
  ⟨⟨(ringed R 96 1).modRing 96 fun g => { g with produced := 2 }, 0, 2, by decide⟩,
   fun masked => by
     cases masked
     · exact ⟨((R.setReg .hpRingMod .a [96] 0x100#32).modRing 96 fun g => { g with unsignalled := 1 }).modHost fun h => { h with msixMask := 0 },
         96, 0, by decide⟩
     · exact ⟨((R.setReg .hpRingMod .a [96] 0x100#32).modRing 96 fun g => { g with unsignalled := 1 }).modHost fun h => { h with msixMask := 1 },
         96, 0, by decide⟩⟩

/-! ### HBM, marches and the base image: states that meet the hypotheses -/

/-- A read of the running design in flight on HUB-A, from a range under ENC+INT. -/
def aRead : HRead := { design := 1, cab := 0, attempt := 1, frame := 0, step := 0, port := 0, addr := 4032, size := 64, lbo := 2, data := [],
                       issuedAt := 0 }

/-- One read in flight. -/
def reading (s : State) (r : HRead) : State :=
  (s.modHbm .a fun h => { h with reads := [r] }).modRange .a 1 fun _ => { base := 0, len := 1, mode := 2, owner := 1, state := 2, key := some 4 }

theorem hyps_ReadReturns :
    (∃ (s : State) (c : Ch) (k : Nat) (r : HRead) (d : Design) (bytes : List Byte), (s.ch c).hbm.reads[k]? = some r ∧
      s.hbmServes c r.addr (agedRank 3 r.issuedAt s.clock) r.issuedAt = true ∧ (s.ch c).fab.flows = [] ∧ (s.ch c).fab.landed = [] ∧
      s.design r.design = some d ∧ d.tag = r.design ∧ r.attempt = d.attempt ∧ r.frame = d.frame ∧ r.attempt ≠ 0 ∧
      (s.ch c).hbm.unreadable r.addr r.size = false ∧ (∀ e, s.rangeAt c r.addr = some e → e.2.unkeyed = false) ∧
      bytes = (s.ch c).hbm.overlay r ∧ (s.rangeAt c r.addr).map (fun e => e.2.mode) = some 2) ∧
    ∃ (s : State) (c : Ch) (k : Nat) (r : HRead), (s.ch c).hbm.reads[k]? = some r ∧
      s.hbmServes c r.addr (agedRank 3 r.issuedAt s.clock) r.issuedAt = true ∧ s.design r.design = none ∧
      s.regField .hbmSpareCtrl c [] 16 8 = 0 := by
  refine ⟨⟨reading (holding {} runner) aRead, .a, 0, aRead, runner, _, rfl, by decide +kernel, rfl, rfl, by rfl, by decide, by decide, by decide, by decide, by decide, ?_, rfl,
    by rfl⟩, ⟨reading (({} : State).setReg .hbmSpareCtrl .a [] 0) aRead, .a, 0, aRead, rfl, by decide +kernel, rfl, by decide⟩⟩
  intro e h
  have g : (reading (holding {} runner) aRead).rangeAt .a aRead.addr = some (1, ({ base := 0, len := 1, mode := 2, owner := 1, state := 2, key := some 4 } : KRange)) := rfl
  obtain rfl := Option.some.inj (h.symm.trans g)
  decide

/-- A write buffer whose second entry, of `n` bytes, is committed. -/
def draining (n : Nat) : State :=
  let e : WEntry := { design := 1, partition := 0, committed := false, step := 0, port := 0, addr := 64, data := List.replicate n 1 }
  State.modHbm {} .a fun h => { h with wbuf := [e, { e with committed := true }], poison := [64] }

theorem hyps_DrainWrites : ∀ n, n = 64 ∨ n = 8 → ∃ (s : State) (c : Ch) (pre post : List WEntry) (e : WEntry) (ecc : Ecc) (integ : Bool),
    (s.ch c).hbm.wbuf = pre ++ e :: post ∧ (∀ x ∈ pre, x.committed = false) ∧ e.committed = true ∧ (∀ l, ecc ≠ .node l) ∧
    s.hbmServes c e.addr (agedRank 4 e.since s.clock) e.since = true ∧
    integ = ((s.rangeAt c e.addr).map (fun x => x.2.mode == 2)).getD false ∧ needsMerge e.addr e.data.length integ = (n == 8) ∧
    (s.ch c).hbm.unreadable e.addr e.data.length = true := by
  rintro n (rfl | rfl)
  · exact ⟨draining 64, .a, (draining 64).chA.hbm.wbuf.take 1, [], _, .ok, false, rfl, by decide, rfl, by simp, by decide +kernel, by decide, by decide,
      by decide⟩
  · exact ⟨draining 8, .a, (draining 8).chA.hbm.wbuf.take 1, [], _, .ok, false, rfl, by decide, rfl, by simp, by decide +kernel, by decide, by decide,
      by decide⟩

theorem hyps_PseudoChannelSpare : ∃ (s t u : State) (c : Ch) (value : Word32) (pc : Nat), s.portAnswers = true ∧ s.domOn .hub c = true ∧ bitAt value.toNat 0 = true ∧
    field value.toNat 1 5 ≤ 30 ∧ (s.ch c).hbm.replaced = none ∧ (s.ch c).hbm.sparing = none ∧
    t.portAnswers = true ∧ t.domOn .hub c = true ∧ (t.ch c).hbm.replaced.isSome ∧ (u.ch c).hbm.sparing = some pc ∧ (u.ch c).hbm.waitSparing = [] :=
  ⟨{}, State.modHbm {} .a fun h => { h with replaced := some 30 }, State.modHbm {} .a fun h => { h with sparing := some 30 }, .a, 61#32, 30,
    by decide, by decide, by decide, by decide, rfl, rfl, by decide, by decide, by decide, rfl, rfl⟩

theorem hyps_RefreshAndHeat : ∃ (s : State) (c : Ch) (t u v : Int), (s.pw c).state.arrayOn = true ∧ 85 < t ∧ u < 80 ∧ 80 ≤ v ∧ v ≤ 85 :=
  ⟨powered {} .ready, .a, 86, 79, 85, by decide, by decide, by decide, by decide, by decide⟩

theorem hyps_HdmWindow : ∃ (s t : State) (c : Ch) (x y : Nat), s.portAnswers = true ∧ t.portAnswers = true ∧ (s.ch c).fab.flows = [] ∧
    (s.ch c).fab.landed = [] ∧ s.hdmIn c x = false ∧ s.hdmIn c y = true ∧ (s.pw c).state.arrayOn = true ∧
    (s.ch c).hbm.unreadable (captureBase + y / 8 * 8) 8 = false ∧ (s.ch c).hutch.hubKey.isSome ∧ t.hdmIn c y = true ∧
    (t.pw c).state.arrayOn = false :=
  ⟨(powered {} .ready).modHutch .a fun h => { h with hubKey := some 5 }, {}, .a, 2 ^ 30, 2 ^ 30 - 1, by decide, by decide, rfl, rfl, by decide, by decide, by decide, by decide,
    by decide, by decide, by decide⟩

theorem hyps_Marches : ∃ (s t u v : State) (c : Ch) (die cab spare : Nat) (value : Word32), s.channels.contains c = true ∧ die < 2 ∧ cab < 34 ∧
    s.portAnswers = true ∧ s.domOn .array c = true ∧ bitAt value.toNat 0 = true ∧ s.sec.lifecycle = .field ∧ s.cabOwned c die cab = true ∧
    t.portAnswers = true ∧ t.channels.contains c = true ∧ t.domOn .array c = true ∧ t.sec.lifecycle = .field ∧ t.cabOwned c die cab = false ∧
    (t.cab c die cab).march = none ∧ u.channels.contains c = true ∧ (u.cab c die cab).march = some { run := 1, design := none } ∧
    (u.logicalOf c die cab).isSome ∧ v.channels.contains c = true ∧ spare < 34 ∧
    (v.cab c die spare).march = some { run := 1, design := none } ∧ v.logicalOf c die spare = none :=
  ⟨powered (holding {} des) .ready, powered {} .ready, State.modCab {} .a 0 0 fun p => { p with march := some { run := 1, design := none } },
    State.modCab {} .a 0 32 fun p => { p with march := some { run := 1, design := none } },
    .a, 0, 0, 32, 1#32, by decide, by decide, by decide, by decide, by decide, by decide, rfl, by decide, by decide, by decide, by decide, rfl, by decide,
    rfl, by decide, rfl, by decide, by decide, by decide, rfl, by decide⟩

theorem hyps_BaseDeadline : ∃ s t u v w : State, s.portAnswers = true ∧ u.portAnswers = true ∧ v.portAnswers = true ∧ s.base.started = false ∧ s.base.expired = false ∧ s.base.inForce = none ∧
    t.base.started = true ∧ u.base.expired = true ∧ v.base.inForce.isSome ∧ t.base.inForce = none ∧ t.base.expired = false ∧
    t.base.delivery = none ∧ w.base.started = true ∧ w.base.inForce = none ∧ w.base.expired = false ∧ w.base.delivery = some (.host true) :=
  ⟨{}, { base := { started := true } }, { base := { started := true, expired := true } }, { base := { inForce := some 1 } },
    { base := { started := true, delivery := some (.host true) } }, rfl, rfl, rfl, rfl, rfl, rfl, rfl, rfl, rfl, rfl, rfl, rfl, rfl, rfl, rfl, rfl⟩

theorem hyps_DeliveryBegins : ∃ (s t u : State) (v w : Word32), bitAt v.toNat 0 = true ∧ bitAt v.toNat 1 = false ∧ bitAt w.toNat 0 = true ∧
    bitAt w.toNat 1 = true ∧ s.portAnswers = true ∧ s.baseBusy = true ∧ t.portAnswers = true ∧ t.baseBusy = false ∧ t.base.fwValid = true ∧
    u.portAnswers = true ∧ u.baseBusy = false ∧ u.base.fwValid = false ∧ u.base.expired = false :=
  ⟨{ base := { forwarding := some 16 } }, {}, { base := { fwValid := false } }, 1#32, 3#32, by decide, by decide, by decide, by decide, rfl, rfl, rfl, rfl,
    rfl, rfl, rfl, rfl, rfl⟩

/-- A base image of 512 bytes with SVN 2 and the named STEP_HI and signer; its signature bytes are zero. -/
def anImage (hi signer : Nat) : List Byte :=
  leBytes 4 0x3142574C ++ leBytes 2 1 ++ leBytes 2 0x100 ++ leBytes 4 512 ++ leBytes 2 2 ++ leBytes 1 signer ++ leBytes 1 0 ++ leBytes 1 1 ++
  leBytes 1 hi ++ leBytes 1 15 ++ leBytes 1 0 ++ leBytes 4 0 ++ leBytes 4 256 ++ leBytes 4 4 ++ leBytes 4 320 ++ leBytes 4 4 ++ leBytes 8 0 ++
  List.replicate 208 0 ++ List.replicate 256 0

/-- A delivery of the host under way, with MOD_BASE_LEN 512. -/
def delivering : State := { (State.setReg {} .modBaseLen .a [] 512#32) with base := { delivery := some (.host true), revoked := 8 } }

/-- Whether the signature of the image holds is the host's cryptography: nothing is known of it here, so the first case is shown for an image
whose signature verifies, if there is one. -/
theorem hyps_BaseVerified :
    (∃ (s : State) (image : List Byte) (given : Nat), s.base.delivery = some (.host true) ∧ given = s.regField .modBaseLen .a [] 0 27 ∧
      s.base.inForce = none ∧ (Config.ecdsaVerify (Config.signer 2) (Config.sha384 (image.take 384)) ((image.drop 384).take 96) = true →
        s.imgFail image given true = none)) ∧
    (∃ (s t : State) (image : List Byte) (given : Nat), s.base.delivery = some (.host true) ∧ given = s.regField .modBaseLen .a [] 0 27 ∧
      s.imgFail image given true = some 3 ∧ s.base.inForce = none ∧ s.sec.lifecycle = .field ∧ imgLayout image given = true ∧
      s.base.revoked.getLsbD (rd image 14 1) = true ∧ imgLayout [] given = false ∧ t.base.delivery = some (.host true) ∧
      t.base.inForce.isSome ∧ t.mode.mode ≠ .service) := by
  refine ⟨⟨delivering, anImage 1 2, 512, rfl, by decide, rfl, fun h => ?_⟩,
    ⟨delivering, { base := { delivery := some (.host true), inForce := some 1 } }, anImage 1 3, 512, rfl, by decide, by decide +kernel, rfl, rfl,
      by decide +kernel, by decide +kernel, by decide, rfl, rfl, by decide⟩⟩
  have h1 : imgLayout (anImage 1 2) 512 = true := by decide +kernel
  have h2 : rd (anImage 1 2) 14 1 = 2 := by decide +kernel
  have h3 : rd (anImage 1 2) 8 4 = 512 := by decide +kernel
  have h4 : delivering.base.revoked[2] = false := by decide
  have h5 : delivering.base.inForce = none := rfl
  have h6 : delivering.sec.lifecycle = .field := rfl
  have h7 : ¬ rd (anImage 1 2) 12 2 < delivering.base.svnMin.toNat := by decide +kernel
  have h8 : ¬ (delivering.id.stepping.toNat < rd (anImage 1 2) 16 1 ∨ rd (anImage 1 2) 17 1 < delivering.id.stepping.toNat ∨
    bitAt (rd (anImage 1 2) 18 1) delivering.grade = false) := by decide +kernel
  simp [State.imgFail, h1, h2, h3, h4, h5, h6, h7, h8, h]

/-- A message of the chain as it waits: DST, SRC and TTL 0. -/
def chainHeard (m : Sent) : Heard := { bodies := msgBodies 0 0 0 m.parts, vc1 := false, resent := false, arrived := 0 }

/-- Port 0 of HUB-A takes the chain stream in, and a message waits there. -/
def chainState (m : Sent) : State :=
  hearing { ((State.setReg {} .modBaseCtrl .a [] 4#32).setReg .vlPortCtrl .a [0] 2#32) with base := { stream := [1] } } .a 0 (chainHeard m)

/-- A module with a chain-down port, on which a status waits. -/
def statusState (chained : Bool) : State := hearing { base := { chained := chained, chainPort := some (.b, 1) } } .b 1 (chainHeard (.chainStatus 2 0))

theorem hyps_ChainStream :
    (∀ n, n = 14 ∨ n = 16 → ∃ (s : State) (off : Nat) (data l : List Byte) (h : Heard) (t : State), Arrived s .a 0 (some 0) (.chainData off data) h t ∧
      h.isChain = true ∧ s.chainOpen = true ∧ s.base.refused = false ∧ s.base.inForce = none ∧ s.regField .modBaseCtrl .a [] 2 1 = 1 ∧
      s.base.delivery = none ∧ (s.base.stream ≠ [] → off = s.base.chainFrom + s.base.stream.length) ∧ l = s.base.stream ++ data ∧
      s.base.fwValid = true ∧ (n = 14 → l.length < 16) ∧ (n = 16 → 16 ≤ l.length ∧ 16 + rd l 0 8 ≤ l.length)) ∧
    (∃ (s : State) (n : Nat) (h : Heard) (t : State), Arrived s .a 0 (some 0) (.chainEnd n) h t ∧ h.isChain = true ∧ s.chainOpen = true ∧
      s.base.refused = false ∧ s.base.inForce = none ∧ s.base.delivery = none ∧ s.base.stream ≠ [] ∧ s.base.expired = false) ∧
    (∀ chained, ∃ (s : State) (c : Ch) (p i st : Nat) (h : Heard) (t : State), s.base.chainPort = some (c, p) ∧
      Arrived s c p (some 0) (.chainStatus i st) h t ∧ h.isChain = true ∧ s.base.chained = chained) := by
  refine ⟨?_, ⟨chainState (.chainEnd 1), 1, chainHeard (.chainEnd 1), _, ⟨by decide +kernel, by decide +kernel, rfl⟩, by decide +kernel, by decide, rfl,
    rfl, rfl, by decide, rfl⟩, fun chained => ⟨statusState chained, .b, 1, 2, 0, chainHeard (.chainStatus 2 0), _, rfl, ⟨?_, by decide +kernel, rfl⟩ ,
    by decide +kernel, rfl⟩⟩
  · rintro n (rfl | rfl)
    · exact ⟨chainState (.chainData 1 (List.replicate 14 0)), 1, List.replicate 14 0, _, chainHeard (.chainData 1 (List.replicate 14 0)), _,
        ⟨by decide +kernel, by decide +kernel, rfl⟩, by decide +kernel, by decide, rfl, rfl, by decide, rfl, fun _ => rfl, rfl, rfl,
        fun _ => by decide, fun h => absurd h (by decide)⟩
    · exact ⟨chainState (.chainData 1 (List.replicate 16 0)), 1, List.replicate 16 0, _, chainHeard (.chainData 1 (List.replicate 16 0)), _,
        ⟨by decide +kernel, by decide +kernel, rfl⟩, by decide +kernel, by decide, rfl, rfl, by decide, rfl, fun _ => rfl, rfl, rfl,
        fun h => absurd h (by decide), fun _ => by decide⟩
  · revert chained; decide +kernel

/-! ### Power, resets and tampering: states that meet the hypotheses -/

/-- Channel A in state `st`, on its walk to `target` for ring 0 TAG 7. -/
def walking (s : State) (st target : PState) : State :=
  s.modPw .a fun _ => { state := st, walk := some { target := target, sp := 0, ring := 0, tag := 7 } }

theorem hyps_PowerWalks : ∃ (s t u v : State) (c : Ch) (w x y : Walk) (m : Cmd),
    ((s.pw c).walk = some w ∧ (s.pw c).state = .run ∧ w.target ≠ .run ∧ ∃ d ∈ s.designs, c ∈ d.chans ∧ d.state = .running) ∧
    ((t.pw c).walk = some x ∧ (t.pw c).state = .standby ∧ x.target = .run) ∧
    ((u.pw c).walk = some x ∧ (u.pw c).state = .ready ∧ x.target = .run ∧ u.cmd x.ring x.tag = some m ∧ (u.pw (otherCh c)).walk = none) ∧
    ((v.pw c).walk = some y ∧ (v.pw c).state = .ready ∧ y.target = .aux) :=
  ⟨walking (holding R runner) .run .off, walking R .standby .run, on (walking R .ready .run) { cmd 0 3 15 [(8, 1), (9, 4)] with started := true },
    walking R .ready .aux, .a, _, _, _, _, ⟨rfl, rfl, by decide, runner, by simp [walking, holding, State.modPw, State.modPwr], by decide, rfl⟩, ⟨rfl, rfl, rfl⟩,
    ⟨rfl, rfl, rfl, by rfl, rfl⟩, ⟨rfl, rfl, rfl⟩⟩

theorem hyps_TamperResponse : ∃ s t : State, s.pwr.aux = false ∧ t.pwr.aux = true ∧ t.sec.lifecycle ≠ .scrapped ∧ t.designs = [] ∧ t.loads = [] ∧ t.pwr.hostOn = true ∧
    .a ∈ t.channels ∧ (t.ch .a).hutch.powered = true :=
  ⟨R.modPwr fun p => { p with aux := false }, R, rfl, rfl, by decide, rfl, rfl, rfl, by decide, rfl⟩

theorem hyps_HostPortResets : ∃ (s : State) (width speed : BitVec 2) (n m : Nat), s.pwr.hostOn = true ∧ s.host.perst = false ∧ width ≠ 3 ∧
    speed ≠ 3 ∧ n ≤ 4 ∧ n ∈ s.host.ideKeys ∧ m ≤ 4 ∧ m ∉ s.host.ideKeys :=
  ⟨R.modHost fun h => { h with ideKeys := [4] }, 2, 2, 4, 0, rfl, rfl, by decide, by decide, by decide, by decide, by decide, by decide⟩

/-- The host die held in reset with one command outstanding. -/
def inReset (m : Cmd) : State := { on R m with host := { (on R m).host with perst := true } }

theorem hyps_Perst : ∃ (s t u : State) (m : Cmd), (s.pwr.hostOn = true ∧ s.host.perst = false) ∧
    (t.host.perst = true ∧ ∀ x ∈ t.host.cmds, x.desc.opcode.toNat ∉ hostDieOps) ∧
    (u.host.perst = true ∧ u.host.cmds = [m] ∧ m.desc.opcode.toNat ∈ hostDieOps) :=
  ⟨R, inReset (cmd 0 0x41 0 []), inReset (cmd 0 0x02 15 []), cmd 0 0x02 15 [], ⟨rfl, rfl⟩, ⟨rfl, by decide⟩, rfl, rfl, by decide⟩

/-- The host die off, with the SVNs of its two firmware copies. -/
def darkState (a b : BitVec 16) (least : BitVec 16) : State :=
  { (R.modPwr fun p => { p with hostOn := false, inputLost := some 2 }) with base := { R.base with hfCopies := ((true, a), true, b), svnMin := least } }

theorem hyps_ModulePower :
    (∃ (s t v w : State), s.pwr.hostOn = true ∧ s.pwr.aux = true ∧ t.pwr.aux = false ∧ v.pwr.latched = true ∧
      w.pwr.aux = true ∧ w.pwr.latched = true ∧ w.pwr.hostOn = false) ∧
    (∀ k, k < 3 → ∃ (s : State) (fwA fwB : Bool) (svnA svnB : BitVec 16) (n : Nat), s.pwr.aux = true ∧ s.pwr.hostOn = false ∧ s.pwr.latched = false ∧
      svnA = s.base.hfCopies.1.2 ∧ svnB = s.base.hfCopies.2.2 ∧ s.pwr.inputLost = some n ∧
      (k = 0 → fwA = true ∧ s.base.svnMin.toNat ≤ svnA.toNat ∧ (fwB = false ∨ svnB.toNat ≤ svnA.toNat)) ∧
      (k = 1 → fwB = true ∧ s.base.svnMin.toNat ≤ svnB.toNat ∧ (fwA = false ∨ svnA.toNat < svnB.toNat)) ∧
      (k = 2 → (fwA = false ∨ svnA.toNat < s.base.svnMin.toNat) ∧ (fwB = false ∨ svnB.toNat < s.base.svnMin.toNat))) := by
  refine ⟨⟨R, R.modPwr fun p => { p with aux := false, hostOn := false }, R.modPwr fun p => { p with latched := true },
    R.modPwr fun p => { p with latched := true, hostOn := false }, rfl, rfl, rfl, rfl, rfl, rfl, rfl⟩, fun k hk => ?_⟩
  match k, hk with
  | 0, _ => exact ⟨darkState 5 5 5, true, true, 5, 5, 2, by decide⟩
  | 1, _ => exact ⟨darkState 4 5 5, true, true, 4, 5, 2, by decide⟩
  | 2, _ => exact ⟨darkState 4 5 5, true, false, 4, 5, 2, by decide⟩

theorem hyps_ChannelOff : ∃ (s : State) (c : Ch), s.pwr.hostOn = true ∧ c ∈ s.channels ∧ (s.pw c).state.hubOn = true ∧ (s.pw c).walk = none ∧
    s.loads = [] ∧ ∀ d ∈ s.designs, c ∉ d.chans :=
  ⟨holding R des, .b, rfl, by decide, by decide, rfl, rfl, by decide⟩

/-- A reading of die 8. -/
def readingOf (s : State) (degC : BitVec 8) : State := s.modPwr fun p => { p with dieTemp := KV.ins 8 degC (KV.del 8 p.dieTemp) }

theorem hyps_PhasesAndTemperature : ∃ (s t u : State) (g : Nat) (warn : Nat) (lo hi : BitVec 8) (l : BitVec 3), s.pwr.hostOn = true ∧ g ≤ 5 ∧
    l.toNat ≤ 4 ∧
    KV.get 2 g s.pwr.phases = 2 ∧ (t.pwr.hostOn = true ∧ KV.get 2 g t.pwr.phases = 1) ∧
    (u.pwr.hostOn = true ∧ KV.get 2 1 u.pwr.phases = 0 ∧ u.pwr.limitA.toNat < l.toNat ∧ KV.get 2 4 u.pwr.phases = 0 ∧ u.pwr.limitB.toNat < l.toNat) ∧
    s.pwr.warned = none ∧ warn = s.regField .modPwrTempWarn .a [] 0 8 ∧
    (readingOf s hi).pwr.hottest = some (8, hi) ∧ (warn : Int) ≤ hi.toInt ∧
    (readingOf s lo).pwr.hottest = some (8, lo) ∧ lo.toInt < (warn : Int) :=
  ⟨R, R.modPwr fun p => { p with phases := [(5, 1)] }, R.modPwr fun p => { p with phases := [(1, 0), (4, 0)] }, 5,
    R.regField .modPwrTempWarn .a [] 0 8, BitVec.ofNat 8 (R.regField .modPwrTempWarn .a [] 0 8 - 1),
    BitVec.ofNat 8 (R.regField .modPwrTempWarn .a [] 0 8), 4, by decide +kernel⟩

/-! ### Steps, frames and repairs: states that meet the hypotheses -/

/-- A design that runs in RUN. -/
def live (d : Design) : State := powered (holding R d) .run

/-- The running design with `n` steps cleared. -/
def cleared (n : Nat) : Design := { runner with trA := { cleared := n }, stage := 3 }

/-- ADD on cabinet memory at step 0 of Cabinet 0, with port 0, in phase 0. -/
def adding : Design := { cleared 1 with memops := [(0, 3#192 + 0x20000000000#192)] }

theorem hyps_CellComputes : ∃ (d : Design) (cab step key : Nat) (lanes : BitVec 192) (c n : Cell) (r : Bool), c = d.cellAt key ∧
    n = (d.cellStep cab step lanes [] key).next ∧ step < 2048 ∧
    r = bitAt (d.insn key step) (bit01 (d.operand key c (field (d.insn key step) 16 12)) + 2 * bit01 (d.operand key c (field (d.insn key step) 28 12)) +
      4 * bit01 (d.operand key c (field (d.insn key step) 40 12)) + 8 * bit01 (d.operand key c (field (d.insn key step) 52 12))) ∧
    bitAt (d.insn key step) 72 = true ∧ bitAt (d.insn key step) 74 = true ∧ field (d.insn key step) 75 9 = 511 :=
  ⟨{ des with code := [(1023 * 128 + 127, BitVec.ofNat 1440 ((2 ^ 72 + 2 ^ 74 + 511 * 2 ^ 75) * 2 ^ (88 * 15)))] }, 0, 2047, 1023, 0, _, _, _, rfl, rfl,
    by decide, rfl, by decide +kernel, by decide +kernel, by decide +kernel⟩

/-- A design in reset whose slot 511 is forced to 1. -/
def forcing : Design := { des with resets := [⟨0, 0, 0, true, 511⟩] }

theorem hyps_Operands : ∃ (d : Design) (key a b c e : Nat) (v : Bool), 0 < 0x800 ∧ 0x800 ≤ a ∧ a < 0xC00 ∧ 0xC00 ≤ b ∧ b < 0xE00 ∧
    d.forced key (b - 0xC00) = none ∧ 0xC00 ≤ c ∧ c < 0xE00 ∧ d.forced key (c - 0xC00) = some v ∧ 0xE00 ≤ e :=
  ⟨forcing, 0, 0xBFF, 0xC00, 0xDFF, 0xE00, true, by decide +kernel⟩

theorem hyps_StepRuns : ∃ (s t : State) (cab : Nat) (obs : StepObs) (c d : Design) (f : Nat),
    (∀ x ∈ (live (cleared 0)).designs, x.span.contains cab = false ∨ x.mayBegin cab = false ∨ (live (cleared 0)).tagsFree x cab = false) ∧
    ((s.designs.find? (fun x => x.span.contains cab && x.mayBegin cab && s.tagsFree x cab) = some c ∧
      ∀ h, (s.ch h).fab.flows = [] ∧ (s.ch h).fab.landed = []) ∧ s.design c.tag = some c ∧ obs.tiles = [] ∧
      obs.parityBench = none ∧ obs.wrong = [] ∧ opFields (c.memEntry cab (c.cab cab).next) = []) ∧
    (t.designs.find? (fun x => x.span.contains cab && x.mayBegin cab && t.tagsFree x cab) = some d ∧
      (∀ h, (t.ch h).fab.flows = [] ∧ (t.ch h).fab.landed = []) ∧ t.design d.tag = some d ∧
      opFields (d.memEntry cab (d.cab cab).next) = [(0, f)] ∧ d.opActs f = true ∧ field f 0 3 ∈ [1, 2, 3, 4] ∧ 2 ≤ d.stage) :=
  ⟨live (cleared 1), live adding, 0, { tiles := [], parityBench := none, wrong := [] }, cleared 1, adding, 3 + 2 ^ 41, by decide +kernel,
    ⟨⟨by decide +kernel, fun h => by cases h <;> exact ⟨rfl, rfl⟩⟩, by rfl, rfl, rfl, rfl, by decide +kernel⟩,
    ⟨by decide +kernel, fun h => by cases h <;> exact ⟨rfl, rfl⟩, by rfl, by decide +kernel, by decide +kernel, by decide +kernel, by decide⟩⟩

/-- A design of which a member is disabled: its frame waits. -/
def waits : Design := { cleared 0 with disabled := true }

/-- What the clauses of a running design's Trestle have in common. -/
def GrantHyps (s : State) (d : Design) : Prop :=
  s.designAt 0 = some d ∧ false = d.sideOf (chOfPart 0) ∧ d.state = .running ∧ d.errs = [] ∧ (d.tr false).cleared < d.header.frameLen ∧
    d.lock false ≠ [] ∧ (∀ l ∈ d.lock false, (d.tr false).cleared < d.lookahead ∨ (d.tr false).cleared < (d.cab l).next + d.lookahead) ∧
    ((d.tr false).cleared ≠ 0 ∨ s.frameOpen d = true)

theorem hyps_Clearance : ∃ (b c d e f : Design),
    (GrantHyps (live c) c ∧ (live c).causes c false = 0 ∧ (c.tr false).held = false) ∧
    (GrantHyps (live f) f ∧ (live f).causes f false = 0 ∧ (f.tr false).held = true) ∧
    (GrantHyps (live d) d ∧ (live d).causes d false ≠ 0 ∧ (live d).causes d false ≠ 64 ∧ d.waiting false = true ∧ (d.tr false).held = false ∧
      d.stops = []) ∧
    (GrantHyps (live b) b ∧ (live b).causes b false ≠ 0 ∧ b.waiting false = false) ∧
    ((holding R des).designAt 0 = some des ∧ des.state ≠ .running ∧ des.state ≠ .stopping ∧ (des.tr false).held = false) ∧
    ((live e).designAt 0 = some e ∧ (e.tr false).held = true ∧ (e.tr false).told = false) := by
  refine ⟨{ waits with trA := { cleared := 1 } }, cleared 0, waits, { waits with trA := { held := true } }, { cleared 0 with trA := { held := true } },
    ⟨⟨?_, ?_, ?_, ?_, ?_, ?_, ?_, ?_⟩, ?_, ?_⟩, ⟨⟨?_, ?_, ?_, ?_, ?_, ?_, ?_, ?_⟩, ?_, ?_⟩, ⟨⟨?_, ?_, ?_, ?_, ?_, ?_, ?_, ?_⟩, ?_, ?_, ?_, ?_, ?_⟩,
    ⟨⟨?_, ?_, ?_, ?_, ?_, ?_, ?_, ?_⟩, ?_, ?_⟩, ⟨?_, ?_, ?_, ?_⟩, ?_, ?_, ?_⟩ <;> decide +kernel

/-- A packet for Cabinet `dst`, of the design with this tag. -/
def vpacket (src dst attempt tag : Nat) : VPacket :=
  { src := src, dst := dst, step := 3, group := 3, values := 5, attempt := attempt, frame := 0, tag := tag }

/-- A word on its way back. -/
def back (addr : Nat) : MemRet := { cab := 15, addr := addr, port := 3, op := 1, ret := some ⟨3, 1, 5⟩, wait := 0 }

/-- The running design with packets and accesses in flight. -/
def busyD : Design :=
  { cleared 1 with packets := [vpacket 0 15 2 1, vpacket 1 15 1 1, vpacket 2 16 1 1, vpacket 3 14 1 2, vpacket 1 15 1 1],
                   rets := [back (2 ^ 17 - 1), back 131064] }

theorem hyps_Arrivals : ∃ (s : State) (p : Nat) (d : Design) (v w x y z : VPacket) (m n : MemRet) (c : Ch) (die i : Nat), s.designAt p = some d ∧
    (d.packets[0]? = some x ∧ d.inOrder 0 x = true ∧ x.attempt ≠ d.attempt) ∧
    (d.packets[1]? = some y ∧ d.inOrder 1 y = true ∧ y.attempt = d.attempt ∧ y.frame = d.frame ∧ d.span.contains y.dst = true ∧ y.tag = d.tag) ∧
    (d.packets[2]? = some z ∧ d.inOrder 2 z = true ∧ z.attempt = d.attempt ∧ z.frame = d.frame ∧ d.span.contains z.dst = false ∧
      s.pwr.hostOn = true) ∧
    (d.packets[3]? = some w ∧ d.inOrder 3 w = true ∧ w.attempt = d.attempt ∧ w.frame = d.frame ∧ d.span.contains w.dst = true ∧ w.tag ≠ d.tag) ∧
    (d.packets[4]? = some v ∧ d.inOrder 4 v = false) ∧
    (d.rets[0]? = some m ∧ s.physOf m.cab = some (c, die, i) ∧ d.firstOfBank 0 m = true ∧ m.op ≠ 2 ∧ m.addr < 2 ^ 17 ∧ die < 2 ∧ i < 34 ∧
      m.port < 4) ∧
    d.rets[1]? = some n ∧ d.firstOfBank 1 n = false :=
  ⟨live busyD, 0, busyD, _, _, _, _, _, _, _, .a, 0, 15, by decide +kernel, ⟨rfl, by decide, by decide⟩, ⟨rfl, by decide, rfl, rfl, by decide +kernel, rfl⟩,
    ⟨rfl, by decide, rfl, rfl, by decide +kernel, rfl⟩, ⟨rfl, by decide, rfl, rfl, by decide +kernel, by decide⟩, ⟨rfl, by decide⟩,
    ⟨rfl, by decide +kernel, by decide +kernel, by decide, by decide, by decide, by decide, by decide⟩, rfl, by decide +kernel⟩

/-- The running design with every step done. -/
def atEnd (left : Option Nat) : Design :=
  { cleared 4 with begun := true, run := some { ring := 1, tag := 3, left := left, waitLaunch := false },
                   cabs := (List.range 16).map fun l => (l, { next := 4 }) }

/-- The same, with capture on and no room for its records. -/
def pausing (flipped : Bool) : Design := { atEnd none with cap := { on := true }, flipped := flipped }

/-- A channel whose capture ring is full. -/
def fullState (d : Design) : State := (live d).modAcq .a fun a => { a with full := true }

/-- What the clauses of a commit that goes through have in common. -/
def CommitHyps (s : State) (d : Design) : Prop :=
  s.designAt 0 = some d ∧ d.flipped = false ∧ d.stepsDone = true ∧ s.macsDone d = true ∧ d.twin = false ∧ s.mode.mode ≠ .mirrored ∧
    s.mode.other ≠ .joining ∧ d.lastErr = none ∧ s.captureHolds d = [] ∧ d.hazards = [] ∧ d.stops = [] ∧ d.stopAfter = none

theorem hyps_FrameCommits : ∃ (b c d e f : Design) (q r : RunRec),
    ((live b).designAt 0 = some b ∧ b.flipped = false ∧ b.stepsDone = false) ∧
    ((fullState e).designAt 0 = some e ∧ e.flipped = true ∧ (fullState e).captureHolds e ≠ []) ∧
    ((fullState f).designAt 0 = some f ∧ f.flipped = false ∧ f.stepsDone = true ∧ (fullState f).macsDone f = true ∧ f.twin = false ∧
      (fullState f).mode.mode ≠ .mirrored ∧ (fullState f).captureHolds f ≠ []) ∧
    (CommitHyps (live c) c ∧ c.run = some q ∧ q.left ≠ some 1) ∧ (CommitHyps (live d) d ∧ d.run = some r ∧ r.left = some 1) := by
  refine ⟨cleared 4, atEnd none, atEnd (some 1), pausing true, pausing false, _, _, ⟨?_, ?_, ?_⟩, ⟨?_, ?_, ?_⟩, ⟨?_, ?_, ?_, ?_, ?_, ?_, ?_⟩,
    ⟨⟨?_, ?_, ?_, ?_, ?_, ?_, ?_, ?_, ?_, ?_, ?_, ?_⟩, rfl, ?_⟩, ⟨⟨?_, ?_, ?_, ?_, ?_, ?_, ?_, ?_, ?_, ?_, ?_, ?_⟩, rfl, ?_⟩⟩ <;> decide +kernel

/-- The running design with an error within its frame. -/
def erring : Design := { cleared 4 with errs := [(.region, 15, 0)], attempt := 3 }

theorem hyps_FrameAborts : ∃ (s t : State) (p : Nat) (c d : Design) (e : ErrSrc × Nat × Nat) (es : List (ErrSrc × Nat × Nat)),
    (s.designAt p = some c ∧ c.errs = []) ∧
    (t.designAt p = some d ∧ d.flipped = false ∧ d.errs = e :: es ∧ d.attempt < 4 ∧ d.lastErr = none ∧ e.1 ≠ .twin ∧ d.twinRepaired = false ∧
      t.pwr.hostOn = true) :=
  ⟨live (cleared 4), live erring, 0, cleared 4, erring, (.region, 15, 0), [], ⟨by decide +kernel, rfl⟩,
    by decide +kernel, rfl, rfl, by decide, rfl, by decide, rfl, rfl⟩

/-- The running design with a tile to reload and repairs asked for. -/
def mending (rs : List (Nat × Nat × Nat)) : Design := { cleared 1 with repairs := rs, cabs := [(15, { reload := [(15, 63, 127)] })] }

theorem hyps_TilesCellsBenches : ∃ (s t u v : State) (cab bench cell pb : Nat) (d e f : Design) (c : Ch) (die i sp tile : Nat),
    (s.physOf cab = some (c, die, i) ∧ pb = (s.cab c die i).physBench bench ∧
      s.designs.find? (fun x => x.span.contains cab && ((x.cab cab).waitingTile bench cell).isSome) = some d ∧
      (d.cab cab).waitingTile bench cell = some tile ∧
      ((s.cab c die i).bench pb).reloadedLately (((s.cab c die i).bench pb).physCell cell) s.clock = false ∧
      (KV.get {} (partOfCab cab % 4) (s.ch (chOfCab cab)).hbm.images).design = d.tag) ∧
    (t.physOf cab = some (c, die, i) ∧ pb = (t.cab c die i).physBench bench ∧
      t.designs.find? (fun x => x.repairs.contains (5, cab, 64 * bench + cell)) = some e ∧
      (e.begun = true → e.tileRepair (5, cab, 64 * bench + cell) = true) ∧ ((t.cab c die i).bench pb).freeSpare = some sp) ∧
    (u.physOf cab = some (c, die, i) ∧ pb = (u.cab c die i).physBench bench ∧
      u.designs.find? (fun x => x.repairs.contains (5, cab, 64 * bench + cell)) = some e ∧ ((u.cab c die i).bench pb).freeSpare = none) ∧
    (v.physOf cab = some (c, die, i) ∧
      v.designs.find? (fun x => x.repairs.any (fun r => (r.1 == 1 || r.1 == 4) && r.2 == (cab, bench))) = some f ∧
      (v.cab c die i).spareBench = none ∧ ((v.cab c die i).bench 16).usable = true) := by
  refine ⟨(live (mending [])).modHbm .a fun h => { h with images := [(0, { design := 1 })] }, live (mending [(5, 15, 1023)]),
    (live (mending [(5, 15, 1023)])).modBench .a 0 15 15 fun b => { b with spare0 := 1, spare1 := 0x7E },
    live (mending [(4, 15, 15)]), 15, 15, 63, 15, mending [], mending [(5, 15, 1023)], mending [(4, 15, 15)], .a, 0, 15, 64, 127,
    ⟨?_, ?_, ?_, ?_, ?_, ?_⟩, ⟨?_, ?_, ?_, ?_, ?_⟩, ⟨?_, ?_, ?_, ?_⟩, ?_, ?_, ?_, ?_⟩ <;> decide +kernel

theorem hyps_CabinetSwaps : ∃ (s t : State) (c : Ch) (die i cab sp rot l : Nat),
    (s.physOf cab = some (c, die, i) ∧ (∀ d ∈ s.designs, d.allCabs.contains cab = false) ∧ (s.cab c die i).repairDue = true ∧
      (s.part (partOfCab cab)).state ≠ .loading ∧ s.spares c die = [sp, rot] ∧ sp ≠ i ∧ rot ≠ i ∧ rot ≠ sp) ∧
    ((t.pw c).state.arrayOn = true ∧ die < 2 ∧ i < 34 ∧ (t.cab c die i).configBad = false ∧ t.logicalOf c die i = some l ∧
      ∀ d ∈ t.designs, d.span.contains l = false) :=
  ⟨(live (cleared 1)).modCab .a 1 31 fun p => { p with repairDue := true }, live (cleared 1), .a, 1, 31, 63, 33, 32, 63,
    ⟨by decide +kernel, by decide +kernel, by decide +kernel, by decide +kernel, by decide +kernel, by decide, by decide, by decide⟩,
    by decide +kernel, by decide, by decide, by decide +kernel, by decide +kernel, by decide +kernel⟩

/-! ### Fabric, guest and lanes: states that meet the hypotheses -/

/-- A flit with a good CRC. -/
def crcFlit (w : Nat) : BitVec 256 := BitVec.ofNat 256 (w % 2 ^ 224 + (crc32c (leBytes 28 (w % 2 ^ 224))).toNat * 2 ^ 224)

/-- A MSG head without body flits from the router of node 0 on die 0 to itself, for the tag 9. -/
def msgHead : BitVec 256 := crcFlit (4 + 9 * 2 ^ 48)

/-- An end of a link of channel A in a named state. -/
def flinked (link : Nat) (x : FLink) : State := (powered R .ready).modFlink .a link fun _ => x

/-- A sideband word with the good parity: VALID, SEQ, and where `ack` names one an acknowledged number with NAK or without. -/
def sideOf (valid : Bool) (seq : Nat) (ack : Option (Nat × Bool)) : BitVec 16 :=
  let w := bit01 valid + 2 * seq + (match ack with
    | some a => 2 ^ 7 + 2 ^ 8 * a.1 + 2 ^ 14 * bit01 a.2
    | none => 0)
  BitVec.ofNat 16 (w + 2 ^ 15 * (1 - ((List.range 15).map (fun i => bit01 (bitAt w i))).sum % 2))

/-- An end that is up, as `x`. -/
abbrev Receives (s : State) (c : Ch) (link : Nat) (x : FLink) : Prop := x = s.flink c link ∧ s.endUp c link = true

/-- A sideband word that carries a flit and acknowledges nothing. -/
abbrev Carries (side : BitVec 16) : Prop := sideOk side = true ∧ side.getLsbD 7 = false ∧ side.getLsbD 0 = true

/-- Nothing waits in the fabric of a channel. -/
abbrev Still (s : State) (c : Ch) : Prop := (s.ch c).fab.flows = [] ∧ (s.ch c).fab.landed = []

/-- An end that has two flits to replay. -/
def replaying : FLink := { seq := 3, replay := [{ vc := 0, tag := 9, flit := msgHead, last := true }, { vc := 0, tag := 9, flit := msgHead, last := true }] }

theorem hyps_FlitSides :
    (∃ (s : State) (c : Ch) (link : Nat) (side : BitVec 16) (x : FLink), Receives s c link x ∧ sideOk side = false) ∧
    (∀ nak, ∃ (s : State) (c : Ch) (link : Nat) (side : BitVec 16) (x : FLink) (n k : Nat), Receives s c link x ∧ sideOk side = true ∧
      side.getLsbD 7 = true ∧ side.getLsbD 0 = false ∧ x.check = 0 ∧ x.queue = [] ∧ x.owed = [] ∧ Still s c ∧
      n = x.acks (field side.toNat 8 6) ∧ k = x.replay.length - n ∧ n = 1 ∧ k = 1 ∧ side.getLsbD 14 = nak) ∧
    (∃ (s : State) (c : Ch) (link : Nat) (side : BitVec 16) (x : FLink), Receives s c link x ∧ sideOk side = true ∧ side.getLsbD 7 = false ∧
      side.getLsbD 0 = false) ∧
    (∃ (s : State) (c : Ch) (link : Nat) (flit : BitVec 256) (side : BitVec 16) (x : FLink), Receives s c link x ∧ Carries side ∧ x.check ≠ 0 ∧
      field flit.toNat 0 3 ≠ 7) ∧
    (∀ nak, ∃ (s : State) (c : Ch) (link : Nat) (side : BitVec 16) (x : FLink), Receives s c link x ∧ Carries side ∧ x.check = 0 ∧
      field side.toNat 1 6 ≠ x.next ∧ (field side.toNat 1 6 + 64 - x.next) % 64 < linkWindow link ∧ x.nak = nak) ∧
    (∃ (s : State) (c : Ch) (link : Nat) (side : BitVec 16) (x : FLink), Receives s c link x ∧ Carries side ∧ x.check = 0 ∧
      field side.toNat 1 6 ≠ x.next ∧ linkWindow link ≤ (field side.toNat 1 6 + 64 - x.next) % 64) :=
  ⟨⟨flinked 409 {}, .a, 409, 3#16, {}, by decide +kernel⟩,
   fun nak => ⟨flinked 9 replaying, .a, 9, sideOf false 0 (some (1, nak)), replaying, 1, 1, by revert nak; decide +kernel⟩,
   ⟨flinked 0 {}, .a, 0, sideOf false 0 none, {}, by decide +kernel⟩,
   ⟨flinked 9 { check := 1 }, .a, 9, msgHead, sideOf true 0 none, { check := 1 }, by decide +kernel⟩,
   fun nak => ⟨flinked 12 { next := 60, nak := nak }, .a, 12, sideOf true 11 none, { next := 60, nak := nak }, by revert nak; decide +kernel⟩,
   ⟨flinked 12 { next := 60 }, .a, 12, sideOf true 12 none, { next := 60 }, by decide +kernel⟩⟩

theorem hyps_FlitReceived :
    (∃ (s : State) (c : Ch) (link : Nat) (flit : BitVec 256) (side : BitVec 16) (x : FLink), Receives s c link x ∧ Carries side ∧ x.check = 0 ∧
      field side.toNat 1 6 = x.next ∧ flitCrcOk flit = false ∧ x.fails < 3) ∧
    (∃ (s : State) (c : Ch) (link : Nat) (flit : BitVec 256) (side : BitVec 16) (x : FLink), Receives s c link x ∧ Carries side ∧ x.check = 0 ∧
      field side.toNat 1 6 = x.next ∧ flitCrcOk flit = false ∧ 3 ≤ x.fails ∧ x.checked = false ∧ Still s c) ∧
    (∃ (s : State) (c : Ch) (link : Nat) (flit : BitVec 256) (side : BitVec 16) (x : FLink), Receives s c link x ∧ Carries side ∧ x.check = 0 ∧
      field side.toNat 1 6 = x.next ∧ flitCrcOk flit = false ∧ 3 ≤ x.fails ∧ x.checked = true ∧ (link = 8 ∨ link = 9) ∧ s.pwr.hostOn = true) ∧
    (∃ (s : State) (c : Ch) (link : Nat) (flit : BitVec 256) (side : BitVec 16) (x : FLink) (die node : Nat), Receives s c link x ∧ Carries side ∧
      x.check = 0 ∧ field side.toNat 1 6 = x.next ∧ flitCrcOk flit = true ∧ link ≠ 11 ∧ x.fails = 0 ∧ x.checked = false ∧ x.nak = false ∧
      x.drop = 0 ∧ s.bufferFull c link flit.toNat = false ∧ (∀ y ∈ (s.ch c).fab.flows, y.input = link → y.left = 0) ∧ headBad flit.toNat = false ∧
      field flit.toNat 0 3 ≠ 7 ∧ s.fabTagOk c (endPlace link) flit.toNat = false ∧ endPlace link = .router die node ∧ Still s c ∧
      s.pwr.hostOn = true) :=
  ⟨⟨flinked 409 { next := 63 }, .a, 409, 1, sideOf true 63 none, { next := 63 }, by decide +kernel⟩,
   ⟨flinked 9 { next := 63, fails := 3 }, .a, 9, 1, sideOf true 63 none, { next := 63, fails := 3 }, by decide +kernel⟩,
   ⟨flinked 9 { next := 63, fails := 3, checked := true }, .a, 9, 1, sideOf true 63 none, { next := 63, fails := 3, checked := true }, by decide +kernel⟩,
   ⟨flinked 12 {}, .a, 12, msgHead, sideOf true 0 none, {}, 0, 0, by decide +kernel⟩⟩

/-- A packet that stands in a router. -/
def flow (input base : Nat) : Flow := { input := input, vc := 0, out := 12, tag := 9, base := base, age := 3, flits := [msgHead], left := 0 }

theorem hyps_FabricMoves :
    (∃ (f : FabSt) (x : Flow) (w : BitVec 256) (y : FLink), f.flows = [x] ∧ x.flits = [w] ∧ x.left = 0 ∧ x.granted = false ∧ x.begun = false ∧
      x.out < 1024 ∧ x.out ≠ x.input ∧ y = KV.get {} x.out f.links ∧ y.failed = false ∧ y.check = 0 ∧ y.queue = [] ∧ y.replay = [] ∧ y.owed = [] ∧
      y.mid = false ∧ KV.get 0 (x.vc % 4) y.used < 32) ∧
    (∃ (f : FabSt) (out k j : Nat) (w y : Flow), winner (KV.get 0 out f.lastIn) (competing f.flows out) = some (k, w) ∧ f.flows[j]? = some y ∧ j ≠ k ∧
      (j, y) ∈ competing f.flows out) ∧
    (∃ here there : Nat, here < 36 ∧ there < 36 ∧ here ≠ there) ∧ ∃ e p, endOk e = true ∧ peerEnd e = some p :=
  ⟨⟨{ flows := [flow 17 0] }, flow 17 0, msgHead, {}, rfl, rfl, rfl, rfl, rfl, by decide, by decide, rfl, rfl, rfl, rfl, rfl, rfl, rfl, by decide⟩,
   ⟨{ flows := [flow 17 0, flow 14 2] }, 12, 1, 0, flow 14 2, flow 17 0, by decide +kernel⟩, ⟨0, 35, by decide⟩, ⟨12, 17, by decide⟩⟩

/-- The lane check of an end under way, with a wire mapped to its spare. -/
def checked (l : List Nat) : FLink := { check := 1, lanes := l }

theorem hyps_LaneCheck :
    (∃ (s : State) (c : Ch) (link : Nat) (x : FLink), x = s.flink c link ∧ x.check ≠ 1) ∧
    (∀ again : Bool, ∃ (s : State) (c : Ch) (link : Nat) (failed side : List Nat) (x : FLink) (lanes sb : List Nat), x = s.flink c link ∧
      lanes = failed.foldl (fun l w => insKey w l) x.lanes ∧ sb = side.foldl (fun l w => insKey w l) x.sbLanes ∧ x.check = 1 ∧ link < 12 ∧
      (lanes.map (wireGroup link)).Nodup ∧ (∀ w ∈ lanes, wireGroup link w < wireGroups link) ∧ sb.length ≤ 1 ∧
      (lanes.length + sb.length - x.lanes.length - x.sbLanes.length = 0 ↔ again = true)) ∧
    (∃ (s : State) (c : Ch) (link : Nat) (failed side : List Nat) (x : FLink) (lanes : List Nat), x = s.flink c link ∧
      lanes = failed.foldl (fun l w => insKey w l) x.lanes ∧ x.check = 1 ∧ link < 12 ∧ (link = 8 ∨ link = 9 ∨ link = 11) ∧
      ¬(lanes.map (wireGroup link)).Nodup ∧ side = [] ∧ s.pwr.hostOn = true) := by
  refine ⟨⟨R, .a, 9, {}, rfl, by decide⟩, fun again => ?_,
    ⟨flinked 9 (checked [240]), .a, 9, [255], [], checked [240], [240, 255], by decide +kernel⟩⟩
  cases again
  · exact ⟨flinked 11 (checked [0]), .a, 11, [255, 16], [3], checked [0], _, _, by decide +kernel, rfl, rfl, by decide +kernel⟩
  · exact ⟨flinked 11 (checked [0]), .a, 11, [0], [], checked [0], _, _, by decide +kernel, rfl, rfl, by decide +kernel⟩

/-- A base image in force. -/
def based (s : State) : State := s.modBase fun b => { b with inForce := some 1 }

theorem hyps_GuestRails : ∃ (s t u : State) (c : Ch) (on off : Word32), s.portAnswers = true ∧ s.hasGuest c = true ∧ (s.pw c).state.hubOn = true ∧
    on.getLsbD 30 = true ∧ off.getLsbD 30 = false ∧ (s.ch c).guest.fault = false ∧ (s.ch c).guest.rails = false ∧ s.base.inForce.isSome ∧
    t.portAnswers = true ∧ t.hasGuest c = true ∧ (t.pw c).state.hubOn = true ∧ (t.ch c).guest.fault = true ∧ (t.ch c).guest.rails = true ∧
    u.portAnswers = true ∧ u.hasGuest c = true ∧ (u.pw c).state.hubOn = true ∧ (u.ch c).guest.fault = false ∧ u.base.inForce = none :=
  ⟨based R, State.modGuest {} .a fun g => { g with fault := true, rails := true }, R, .a, 0x40000000#32, 0xBFFFFFFF#32, by decide⟩

/-- Payload of a guest output flit with groups 500 to 511 for design cycle 65535, and of one for the reset. -/
def gout (rst : Bool) (cycle : Nat) : BitVec 224 := BitVec.ofNat 224 (2 + 500 * 16 + bit01 rst * 2 ^ 13 + cycle * 2 ^ 16 + 7 * 2 ^ 208)

/-- A guest in a named state. -/
def guested (g : GuestSt) : State := State.modGuest {} .a fun _ => g

theorem hyps_GuestExchange : ∃ (s t u v w : State) (c : Ch),
    (s.ch c).guest.rx.head? ≠ some (gout false 0) ∧
    ((s.ch c).guest.phase = 1 ∧ (s.ch c).guest.rails = true ∧ (s.ch c).guest.failed = false ∧ (s.flink c 11).queue = [] ∧
      (s.flink c 11).replay = []) ∧
    ((t.ch c).guest.phase = 2 ∧ (t.ch c).guest.failed = false ∧ (t.ch c).guest.late = false ∧
      (t.ch c).guest.rx = [gout false 65535, gout false 5] ∧ Still t c ∧
      (gout false 65535).getLsbD 13 = false ∧ field (gout false 65535).toNat 16 16 = (t.ch c).guest.cycle % 65536) ∧
    ((w.ch c).guest.rx = [gout false 5] ∧ Still w c ∧ (gout false 5).getLsbD 13 = false ∧
      field (gout false 5).toNat 16 16 ≠ (w.ch c).guest.cycle % 65536) ∧
    ((u.ch c).guest.rx = [gout true 0] ∧ Still u c ∧ (gout true 0).getLsbD 13 = true ∧ (u.ch c).guest.failed = false ∧ (u.ch c).guest.rstLow = false ∧
      (u.ch c).guest.owner.isSome = true ∧ (u.ch c).guest.exchanged = false) ∧
    ((v.ch c).guest.phase = 2 ∧ (v.ch c).guest.late = true ∧ (v.ch c).guest.rstLow = true ∧ (v.ch c).guest.rx = [gout true 0] ∧ Still v c) :=
  ⟨guested { phase := 1, rails := true }, guested { phase := 2, cycle := 131071, rx := [gout false 65535, gout false 5] },
    guested { rstLow := false, owner := some 1, rx := [gout true 0] }, guested { phase := 2, late := true, rx := [gout true 0] },
    guested { phase := 2, rx := [gout false 5] }, .a, by decide +kernel⟩

/-! ### Lanes -/

/-- Port 7 of HUB-A in a named state, with VL_PORT_CTRL; a base image is in force. -/
def ported7 (x : VPort) (ctrl : Word32) : State := based ((State.setReg {} .vlPortCtrl .a [7] ctrl).modPort .a 7 fun _ => x)

/-- What the clauses on VL_PORT_CTRL have in common. -/
abbrev PortHyps (s : State) (c : Ch) (p : Nat) (old : Word32) : Prop :=
  old = s.reg .vlPortCtrl c [p] ∧ s.portAnswers = true ∧ s.portLive c p = true ∧ s.chA.link.resend = [] ∧ s.chB.link.resend = []

theorem hyps_PortControl : ∃ (s t u : State) (c : Ch) (p : Nat) (on off rate a b d : Word32),
    (PortHyps s c p a ∧ s.portAllowed c p = true ∧ on.getLsbD 0 = true ∧ a.getLsbD 0 = false) ∧
    (PortHyps u c p b ∧ u.portAllowed c p = true ∧ off.getLsbD 0 = false ∧ b.getLsbD 0 = true ∧ (u.port c p).unsent = [] ∧
      (u.port c p).rotating = some (63, 3) ∧ u.assigned c 3 p = true) ∧
    (PortHyps u c p b ∧ rate.getLsbD 1 ≠ b.getLsbD 1 ∧ rate.getLsbD 0 = true ∧ b.getLsbD 0 = true ∧ (u.port c p).state = .up) ∧
    (PortHyps t c p d ∧ t.portAllowed c p = false ∧ on.getLsbD 0 = true ∧ off.getLsbD 0 = false ∧ on.getLsbD 1 ≠ d.getLsbD 1) ∧
    (on.getLsbD 0 = b.getLsbD 0 ∧ b.getLsbD 0 = true ∧ (1#32).getLsbD 1 = b.getLsbD 1) ∧ off.getLsbD 0 = d.getLsbD 0 ∧ (0#32).getLsbD 1 = d.getLsbD 1 :=
  ⟨based {}, {}, (ported7 { state := .up, rotating := some (63, 3) } 1#32).setReg .vlSpareAssign .a [] 0xF000#32, .a, 7, 0xFFFFFFFF#32, 0xFFFFFFFE#32, 3#32, 12#32,
    1#32, 12#32, by decide +kernel⟩

/-- Every lane of port 7 of HUB-A but lane 63 LOCKED, that one in state `st`. -/
def locking (s : State) (st : LaneState) : State :=
  s.modCh .a fun h => { h with lanes := (List.range 7).map (fun i => (56 + i, { state := .locked })) ++ [(63, { state := st })] }

/-- Spare 0 assigned to port 7. -/
def spared (s : State) : State := s.setReg .vlSpareAssign .a [] 15#32

theorem hyps_LaneLocks : ∃ (s t u v : State) (c : Ch) (lane k : Nat) (ks : List Nat), lane < 68 ∧
    ((s.lane c lane).state = .acquire ∧ s.laneEnabled c lane = true) ∧
    ((t.lane c lane).state = .hunt ∧ t.servedBy c lane = some (7, 7) ∧ (t.port c 7).state = .acquire ∧ t.rxLane c 7 7 = lane) ∧
    ((u.lane c 67).state = .hunt ∧ u.servedBy c 67 = none) ∧
    ((v.lane c lane).state = .locked ∧ v.servedBy c lane = some (7, 7) ∧ v.rxLane c 7 7 = lane ∧ (v.port c 7).lanes.contains 7 = true ∧
      (v.port c 7).state = .up ∧ (v.port c 7).rxReq = none ∧ (v.port c 7).farFault = 0 ∧ v.sparesOf c 7 = k :: ks ∧ v.pwr.hostOn = true) :=
  ⟨ported7 { state := .acquire } 1#32, locking (ported7 { state := .acquire } 1#32) .hunt, State.modLane {} .a 67 fun x => { x with state := .hunt },
    spared (locking (ported7 { state := .up } 5#32) .locked), .a, 63, 0, [], by decide +kernel⟩

/-- A valid marker of logical lane `i`, port 7, AMSEQ `q`, with RX_OK and no spare request. -/
def marker (i q : Nat) : Nat := i + 16 + 7 * 2 ^ 8 + q * 2 ^ 24 + 15 * 2 ^ 40 + 90 * 2 ^ 48

/-- A column of markers on the lanes of port 7; `f` gives the logical lane that a physical lane carries. -/
def markers (f : Nat → Nat) (q : Nat) : List (Nat × BitVec 56) := (List.range 8).map fun i => (56 + i, BitVec.ofNat 56 (marker (f i) q))

/-- No marker of a column names another width than the port has. -/
def SameWidth (s : State) (ams : List (Nat × BitVec 56)) : Prop :=
  ∀ i ∈ (s.port .a 7).lanes, ∀ b, amOn ams (s.rxLane .a 7 i) = some b → bitAt b 5 = false ∨ (s.port .a 7).width4.isSome = true

theorem sameWidth_of (s : State) (ams : List (Nat × BitVec 56)) (h : ∀ e ∈ ams, bitAt e.2.toNat 5 = false) : SameWidth s ams := by
  intro i _ b hb
  simp only [amOn, Option.map_eq_some_iff] at hb
  obtain ⟨e, he, rfl⟩ := hb
  exact .inl (h e (List.mem_of_find?_eq_some he))

theorem hyps_Markers : ∃ (s t u v : State) (p : Nat) (f : Nat → Nat), p = 7 ∧
    (SameWidth s (markers f 65535) ∧ SameWidth s [] ∧ s.portLive .a p = true ∧ (s.port .a p).state = .deskew ∧
      (∀ i ∈ (s.port .a p).lanes, amOn (markers f 65535) (s.rxLane .a p i) = some (marker (f i) 65535) ∧ amValid (marker (f i) 65535) = true ∧
        bitAt (marker (f i) 65535) 3 = false ∧ amSeqOf (marker (f i) 65535) = 65535 ∧ amPort (marker (f i) 65535) = 7 ∧
        amLane (marker (f i) 65535) ∈ (s.port .a p).lanes) ∧
      ((s.port .a p).lanes.map (fun i => amLane (marker (f i) 65535))).Nodup ∧ s.farEnd .a p = none ∧
      ∃ i ∈ (s.port .a p).lanes, amOn [] (s.rxLane .a p i) = none) ∧
    (SameWidth t (markers id 0) ∧ t.portLive .a p = true ∧ (t.port .a p).state = .waitRemote ∧ (t.port .a p).badAm = [] ∧
      (∀ i ∈ (t.port .a p).lanes, amOn (markers id 0) (t.rxLane .a p i) = some (marker i 0) ∧ amValid (marker i 0) = true ∧
        bitAt (marker i 0) 3 = false ∧ amLane (marker i 0) = i ∧ amPort (marker i 0) = (t.port .a p).expPort ∧
        amSeqOf (marker i 0) = ((t.port .a p).lastAm + 1).toNat ∧ bitAt (marker i 0) 4 = true)) ∧
    (SameWidth u [] ∧ u.portLive .a p = true ∧ (u.port .a p).state = .up ∧ 7 ∈ (u.port .a p).lanes ∧ amOn [] (u.rxLane .a p 7) = none ∧
      KV.get 0 7 (u.port .a p).badAm = 1 ∧ u.pwr.hostOn = true ∧ u.transmits .a p = true ∧ (u.port .a p).rxSwitched = false) ∧
    (v.portLive .a p = true ∧ (v.port .a p).state = .failed ∧ v.transmits .a p = false) :=
  ⟨ported7 { state := .deskew } 1#32, ported7 { state := .waitRemote, expPort := 7, lastAm := 65535 } 1#32,
    ported7 { state := .up, badAm := [(7, 1)] } 1#32, ported7 { state := .failed } 1#32, 7, fun i => 7 - i, rfl,
    ⟨sameWidth_of _ _ (by decide +kernel), sameWidth_of _ _ (by decide), by decide +kernel⟩, ⟨sameWidth_of _ _ (by decide +kernel), by decide +kernel⟩,
    ⟨sameWidth_of _ _ (by decide), by decide +kernel⟩, by decide +kernel⟩

/-- A spare that carries a lane of the hub: spare 3 and lane 63 have changed places. -/
def swapped : State := State.modCh {} .a fun h => { h with rxMap := swapLanes [] 63 67 }

theorem hyps_SpareLanes : ∃ (s t u v w w2 : State) (c : Ch),
    (s.portAnswers = true ∧ c ∈ s.channels ∧ (s.pw c).state.hubOn = true ∧
      ∀ k, k < 4 → 64 ≤ placeOf (s.ch c).rxMap (64 + k) ∧ 64 ≤ placeOf (s.ch c).txMap (64 + k)) ∧
    (t.portAnswers = true ∧ c ∈ t.channels ∧ (t.pw c).state.hubOn = true ∧ placeOf (t.ch c).rxMap (64 + 3) < 64 ∧ t.pwr.hostOn = true) ∧
    (s.port c 7).rxReq = none ∧
    ((u.port c 7).rxReq = some (7, 3, false) ∧ (u.port c 7).rxSwitched = false ∧ (u.port c 7).health.head? ≠ some 7) ∧
    ((v.port c 7).rxReq = some (7, 3, true) ∧ (v.port c 7).rxSwitched = false ∧ (v.port c 7).health.head? ≠ some 7 ∧ v.pwr.hostOn = true) ∧
    ((w.port c 7).rxReq = some (7, 3, true) ∧ (w.port c 7).rxSwitched = false ∧ (w.port c 7).health = [7] ∧ (w.port c 7).repairs = [] ∧
      w.pwr.hostOn = true) ∧
    ((w2.port c 7).rxReq = some (6, 3, true) ∧ (w2.port c 7).rxSwitched = false ∧ (w2.port c 7).health = [6, 7] ∧ (w2.port c 7).repairs = [] ∧
      (w2.modPort c 7 fun y => { y with rxReq := none }).sparesOf c 7 = [0]) :=
  ⟨{}, swapped, ported7 { rxReq := some (7, 3, false) } 1#32, ported7 { rxReq := some (7, 3, true) } 1#32,
    ported7 { rxReq := some (7, 3, true), health := [7] } 1#32, spared (ported7 { rxReq := some (6, 3, true), health := [6, 7] } 5#32), .a,
    by decide +kernel⟩

theorem hyps_Rotations : ∃ (x y z z2 : State) (c : Ch) (k : Nat) (ks : List Nat),
    (x.portLive c 7 = true ∧ (x.port c 7).state = .up ∧ (x.reg .vlPortCtrl c [7]).getLsbD 3 = true ∧ (x.port c 7).rxReq = none ∧
      (x.port c 7).rotating = none ∧ x.sparesOf c 7 = k :: ks ∧
      ((List.range 8).map (fun n => ((x.port c 7).nextRotate + n) % 8)).find? (fun j => (x.port c 7).lanes.contains j) = some 5) ∧
    (y.portLive c 7 = true ∧ (y.port c 7).state = .up ∧ (y.reg .vlPortCtrl c [7]).getLsbD 3 = true ∧ (y.port c 7).rxReq = none ∧
      (y.port c 7).rotating = none ∧ y.sparesOf c 7 = []) ∧
    ((z.port c 7).rotating = some (67, 3) ∧ (z.lane c 67).mismatches + 0 = 0) ∧ (z2.port c 7).rotating = some (67, 3) ∧
    0 < (z2.lane c 67).mismatches + 0 :=
  ⟨spared (ported7 { state := .up, nextRotate := 5 } 15#32), ported7 { state := .up } 15#32, ported7 { rotating := some (67, 3) } 1#32,
    (ported7 { rotating := some (67, 3) } 1#32).modLane .a 67 fun l => { l with mismatches := 1 }, .a, 0, [], by decide +kernel⟩

theorem hyps_EyeScan : ∃ (s t : State) (c : Ch) (value : Word32), s.portAnswers = true ∧ c ∈ s.channels ∧ (s.pw c).state.hubOn = true ∧
    value.getLsbD 7 = true ∧ value.toNat % 128 < 68 ∧ (s.ch c).scan.busy = false ∧ (0#32).getLsbD 7 = false ∧ (t.ch c).scan.busy = true :=
  ⟨{}, State.modCh {} .a fun h => { h with scan := { h.scan with busy := true } }, .a, 0xC3#32, by decide⟩

/-! ### Links: states that meet the hypotheses -/

/-- Port 0 of HUB-A in a named state. -/
def onPort (s : State) (x : VPort) : State := s.modPort .a 0 fun _ => x

/-- A table of two modules with one traffic link, from port 0 of HUB-A of module 0 to that of module 1; `i` is this module's identity. -/
def twoMods (i kindA kindB use : Nat) : Topo :=
  { systemId := 0, mods := [⟨kindA, 1, 0, 1⟩, ⟨kindB, 0, 0, 2⟩], links := [⟨0, 0, 1, 0, use, 0⟩], hash := 5, identity := i }

/-- Two single modules whose link carries traffic. -/
def linked (s : State) (i : Nat) : State := { onPort s { state := .up, traffic := true, helloOk := true } with topo := some (twoMods i 1 1 1) }

/-- A message from the other module of two waits on the link. -/
def linkHears (s : State) (i : Nat) (m : Sent) : State := hearing (linked s i) .a 0 (heardAs i (1 - i) m)

/-- Bit `i` of what `scramble` gives behind no history. -/
theorem scramble_bit (x i : Nat) (h : i < 64) : (scramble 0 x).testBit i =
    if i < 39 then x.testBit i
    else x.testBit i ^^ x.testBit (i - 39) ^^ (decide (58 ≤ i) && x.testBit (i - 58)) := by
  simp only [scramble, Nat.zero_shiftRight, Nat.xor_zero, Nat.zero_add, Nat.add_comm (_ % 2 ^ 39)]
  rw [Nat.testBit_two_pow_mul_add _ (Nat.mod_lt _ (Nat.two_pow_pos 39))]
  split
  · next h => rw [Nat.testBit_mod_two_pow]; simp [h]
  · next h39 =>
    have h1 : i - 39 < 25 := by omega
    have e1 : 39 + (i - 39) = i := by omega
    have e2 : 58 + (i - 39) = i + 19 := by omega
    have e3 : 39 + (i - 39) = i := by omega
    simp only [Nat.testBit_mod_two_pow, h1, decide_true, Bool.true_and, Nat.testBit_xor, Nat.testBit_shiftRight, e1, e2,
      Nat.testBit_two_pow_mul]
    have e4 : i + 19 - 58 = i - 39 := by omega
    have h2 : i - 39 < 39 := by omega
    have h3 : i - 58 < 39 := by omega
    have h4 : i + 19 ≥ 58 := by omega
    simp [e4, h2, h3, h4]

/-- Behind no history the descrambler gives back what was scrambled. -/
theorem descramble_scramble (x : Nat) (h : x < 2 ^ 64) : descramble 0 (scramble 0 x) = x := by
  apply Nat.eq_of_testBit_eq
  intro i
  by_cases hi : i < 64
  · simp only [descramble, Nat.zero_add, Nat.testBit_mod_two_pow, hi, decide_true, Bool.true_and, Nat.testBit_xor, Nat.testBit_shiftRight,
      Nat.testBit_two_pow_mul, scramble_bit x i hi]
    have e : 19 + i - 58 = i - 39 := by omega
    have h1 : i - 39 < 39 := by omega
    have h2 : i - 58 < 39 := by omega
    rw [e, scramble_bit x (i - 39) (by omega), scramble_bit x (i - 58) (by omega), if_pos h1, if_pos h2]
    by_cases h3 : i < 39
    · have h4 : ¬ 58 ≤ 19 + i := by omega
      have h5 : ¬ 58 ≤ i := by omega
      simp [h3, h4, h5]
    · have h4 : 58 ≤ 19 + i := by omega
      simp only [h3, if_false, ge_iff_le, h4, decide_true, Bool.true_and]
      cases x.testBit i <;> cases x.testBit (i - 39) <;> cases (decide (58 ≤ i) && x.testBit (i - 58)) <;> rfl
  · have hp : (2 : Nat) ^ 64 ≤ 2 ^ i := Nat.pow_le_pow_right (by decide) (by omega)
    have hd : descramble 0 (scramble 0 x) < 2 ^ 64 := Nat.mod_lt _ (Nat.two_pow_pos 64)
    rw [Nat.testBit_lt_two_pow (lt_of_lt_of_le h hp), Nat.testBit_lt_two_pow (lt_of_lt_of_le hd hp)]

theorem scramble_lt (x : Nat) : scramble 0 x < 2 ^ 64 := by
  have h1 := Nat.mod_lt (x ^^^ (0 >>> 19) ^^^ 0) (Nat.two_pow_pos 39)
  have h2 : ∀ y : Nat, y % 2 ^ 25 < 2 ^ 25 := fun y => Nat.mod_lt y (Nat.two_pow_pos 25)
  have h3 := h2 ((x >>> 39) ^^^ ((0 + 2 ^ 58 * ((x ^^^ (0 >>> 19) ^^^ 0) % 2 ^ 39)) >>> 58) ^^^
    ((0 + 2 ^ 58 * ((x ^^^ (0 >>> 19) ^^^ 0) % 2 ^ 39)) >>> 39))
  simp only [scramble]
  omega

/-- The four blocks that carry a flit behind no history. -/
def wireFlit (f : BitVec 256) : List (BitVec 66) := (List.range 4).map fun k => wire false 2 (scramble 0 (field f.toNat (64 * k) 64))

theorem read_wire (l : Lane) (hl : l.descrambler = 0) (x : Nat) (hx : x < 2 ^ 64) :
    (l.read false (wire false 2 (scramble 0 x))).2 = some (.data x) := by
  have hs := scramble_lt x
  have hw : (wire false 2 (scramble 0 x)).toNat = 2 + 4 * scramble 0 x := by
    simp only [wire, Bool.false_eq_true, if_false, BitVec.toNat_ofNat]
    omega
  have h1 : field (2 + 4 * scramble 0 x) 2 64 = scramble 0 x := by
    simp only [field, Nat.shiftRight_eq_div_pow]; omega
  have h2 : field (2 + 4 * scramble 0 x) 0 2 = 2 := by
    simp only [field, Nat.shiftRight_eq_div_pow]; omega
  simp only [Lane.read, Bool.false_eq_true, if_false, hw, h1, h2, hl, if_true, Option.some.injEq,
    LinkBlock.data.injEq]
  exact descramble_scramble x hx

theorem lane_modLane (s : State) {l k : Nat} (h : k ≠ l) (f : Lane → Lane) : (s.modLane .a l f).lane .a k = s.lane .a k :=
  KV.get_upd_other _ _ h _ _

theorem readBlocks_wire (ls : List (Nat × Nat)) (s : State) (hn : (ls.map (·.1)).Nodup)
    (h : ∀ e ∈ ls, (s.lane .a e.1).descrambler = 0 ∧ s.rxInv .a e.1 = false ∧ e.2 < 2 ^ 64) :
    (s.readBlocks .a (ls.map fun e => (e.1, wire false 2 (scramble 0 e.2)))).2 = ls.map fun e => some (.data e.2) := by
  induction ls generalizing s with
  | nil => rfl
  | cons e es ih =>
    obtain ⟨h1, h2, h3⟩ := h e (by simp)
    have hr := read_wire (s.lane .a e.1) h1 e.2 h3
    simp only [List.map_cons, List.nodup_cons] at hn
    simp only [List.map_cons, State.readBlocks, h2, hr, Option.isNone_some, Bool.false_eq_true, if_false]
    refine congrArg _ (ih _ hn.2 fun d hd => ?_)
    have hne : d.1 ≠ e.1 := fun he => hn.1 (he ▸ List.mem_map_of_mem hd)
    rw [lane_modLane _ hne]
    exact h d (by simp [hd])

/-- Flit slot 0 of port 0 of HUB-A receives, its lanes LOCKED and their descramblers without history. -/
abbrev Hears (s : State) : Prop :=
  s.slotLanes .a 0 0 = [0, 1, 2, 3] ∧ s.portLive .a 0 = true ∧ (s.port .a 0).state ≠ .disabled ∧
    ∀ l, l < 4 → (s.lane .a l).state = .locked ∧ (s.lane .a l).descrambler = 0 ∧ s.rxInv .a l = false

/-- The blocks of a flit slot bring a flit. -/
abbrev Brings (s : State) (c : Ch) (p slot : Nat) (blocks : List (BitVec 66)) (flit : BitVec 256) : Prop :=
  s.slotReady c p slot blocks = true ∧ slot < 2 ∧ flitOf (s.readBlocks c ((s.slotLanes c p slot).zip blocks)).2 = some flit

theorem brings (s : State) (f : BitVec 256) (h : Hears s) : Brings s .a 0 0 (wireFlit f) f := by
  obtain ⟨h1, h2, h3, h4⟩ := h
  have l0 := h4 0 (by decide)
  have l1 := h4 1 (by decide)
  have l2 := h4 2 (by decide)
  have l3 := h4 3 (by decide)
  refine ⟨?_, by decide, ?_⟩
  · simp only [State.slotReady, h1, h2, wireFlit]
    simp [h3, l0.1, l1.1, l2.1, l3.1]
  · have hb : ∀ k, field f.toNat k 64 < 2 ^ 64 := fun k => Nat.mod_lt _ (Nat.two_pow_pos 64)
    have hr := readBlocks_wire [(0, field f.toNat 0 64), (1, field f.toNat 64 64), (2, field f.toNat 128 64), (3, field f.toNat 192 64)] s
      (by simp) (by simpa [l0, l1, l2, l3] using ⟨hb 0, hb 64, hb 128, hb 192⟩)
    have hz : (s.slotLanes .a 0 0).zip (wireFlit f) =
        [(0, field f.toNat 0 64), (1, field f.toNat 64 64), (2, field f.toNat 128 64), (3, field f.toNat 192 64)].map
          (fun e => (e.1, wire false 2 (scramble 0 e.2))) := by rw [h1]; rfl
    rw [hz, hr]
    have hf := f.isLt
    simp only [List.map_cons, List.map_nil, flitOf, Option.some.injEq]
    apply BitVec.eq_of_toNat_eq
    simp only [BitVec.toNat_ofNat, field, Nat.shiftRight_eq_div_pow]
    omega

/-- Port 0 of HUB-A receives, in a named state. -/
def received (s : State) (x : VPort) : State :=
  State.modCh (onPort s x) .a fun h => { h with lanes := (List.range 4).map fun i => (i, { state := .locked }) }

/-- Blocks that bring no flit: their headers are invalid. -/
def noFlit : List (BitVec 66) := List.replicate 4 0

/-- A TEST block behind no history. -/
def testBlock (y : Nat) : BitVec 66 := wire false 1 (scramble 0 (0x33 + 256 * y))

/-- Spare 0 is assigned to port 0 of HUB-A, its lane LOCKED in the middle of a TEST sequence; spares may serve the port. -/
def onSpare (q : BitVec 31) : State :=
  (State.modCh (onPort (State.setReg {} .vlSpareAssign .a [] 8#32) { state := .up }) .a fun h =>
    { h with lanes := [(64, { state := .locked, rxPrbs := some q })] })

/-- A port whose expected flit has failed three times; `done` where a health check has run for it. -/
def failing (done : Bool) : VPort := { state := .up, rxNext := 4095, failSeq := 4095, fails := 3, checked := done }

/-- Spare 0 may stand in for a lane of port 0. -/
def sparable (s : State) : State := ((s.setReg .vlSpareAssign .a [] 8#32).setReg .vlPortCtrl .a [0] 5#32).modLane .a 64 fun l => { l with state := .locked }

theorem hyps_LinkFlits :
    (∃ (s : State) (c : Ch) (p slot : Nat) (blocks : List (BitVec 66)) (r : State × List (Option LinkBlock)), s.slotReady c p slot blocks = true ∧
      r = s.readBlocks c ((s.slotLanes c p slot).zip blocks) ∧ slot < 2 ∧ flitOf r.2 = none) ∧
    (∀ good : Bool, ∃ (s : State) (c : Ch) (p slot : Nat) (blocks : List (BitVec 66)) (r : State × List (Option LinkBlock)) (y l : Nat) (q : BitVec 31),
      s.slotReady c p slot blocks = true ∧ r = s.readBlocks c ((s.slotLanes c p slot).zip blocks) ∧ 2 ≤ slot ∧ l = (s.slotLanes c p slot).headD 0 ∧
      r.2 = [some (.control 0x33 y)] ∧ (r.1.lane c l).rxPrbs = some q ∧ (prbsNext q.toNat = y ↔ good = true)) ∧
    (∃ (s : State) (c : Ch) (p slot : Nat) (blocks : List (BitVec 66)) (flit : BitVec 256), Brings s c p slot blocks flit ∧
      (s.port c p).takes = false) ∧
    (∃ (s : State) (c : Ch) (p slot : Nat) (blocks : List (BitVec 66)) (flit : BitVec 256), Brings s c p slot blocks flit ∧
      (s.port c p).takes = true ∧ isCtl flit = true) ∧
    (∀ keys : Bool, ∃ (s : State) (c : Ch) (p slot : Nat) (blocks : List (BitVec 66)) (flit : BitVec 256) (x : VPort) (w : Nat),
      Brings s c p slot blocks flit ∧ x = s.port c p ∧ w = flit.toNat ∧ x.takes = true ∧ linkCrcOk flit = true ∧ field w 12 2 = 0 ∧
      bitAt w 15 = false ∧ field w 0 12 = x.rxNext ∧ x.sinceAck < 31 ∧ x.keys.isSome = keys ∧ x.nakHigh = none) ∧
    (∃ (s : State) (c : Ch) (p slot : Nat) (blocks : List (BitVec 66)) (flit : BitVec 256) (x : VPort), Brings s c p slot blocks flit ∧
      x = s.port c p ∧ x.takes = true ∧ isCtl flit = false ∧ linkCrcOk flit = false ∧ x.fails < 3 ∧ x.nak = false ∧ s.linkChecks p c = []) ∧
    (∀ nak : Bool, ∃ (s : State) (c : Ch) (p slot : Nat) (blocks : List (BitVec 66)) (flit : BitVec 256) (x : VPort) (w : Nat),
      Brings s c p slot blocks flit ∧ x = s.port c p ∧ w = flit.toNat ∧ x.takes = true ∧ isCtl flit = false ∧ linkCrcOk flit = true ∧
      field w 12 2 < 2 ∧ bitAt w 15 = false ∧ field w 0 12 ≠ x.rxNext ∧ x.nak = nak) ∧
    (∀ done : Bool, ∃ (s : State) (c : Ch) (p slot : Nat) (blocks : List (BitVec 66)) (flit : BitVec 256) (x : VPort) (k : Nat) (ks : List Nat),
      Brings s c p slot blocks flit ∧ x = s.port c p ∧ x.takes = true ∧ linkCrcOk flit = false ∧ x.failSeq = x.rxNext ∧ x.fails = 3 ∧
      x.checked = done ∧ s.sparesOf c p = k :: ks ∧ s.pwr.hostOn = true) :=
  ⟨⟨received {} { state := .up }, .a, 0, 0, noFlit, _, by decide +kernel, rfl, by decide +kernel⟩,
   fun good => ⟨onSpare (if good then 1 else 2), .a, 0, 2, [testBlock (prbsNext 1)], _, prbsNext 1, 64, if good then 1 else 2, by
     cases good <;> decide +kernel, rfl, by cases good <;> decide +kernel⟩,
   ⟨received {} { state := .up, out := true }, .a, 0, 0, wireFlit 1, 1, brings _ _ (by decide +kernel), by decide +kernel⟩,
   ⟨received {} { state := .up }, .a, 0, 0, wireFlit (crcFlit (2 * 2 ^ 12)), crcFlit (2 * 2 ^ 12), brings _ _ (by decide +kernel), by decide +kernel⟩,
   fun keys => ⟨received {} { state := .up, rxNext := 4095, sinceAck := 30, keys := if keys then some (5, 0) else none }, .a, 0, 0,
     wireFlit (crcFlit (4095 + 2 ^ 14 + 7 * 2 ^ 16)), crcFlit (4095 + 2 ^ 14 + 7 * 2 ^ 16), _, _, brings _ _ (by revert keys; decide +kernel), rfl, rfl,
     by revert keys; decide +kernel⟩,
   ⟨received {} { state := .up, rxNext := 4095 }, .a, 0, 0, wireFlit 1, 1, _, brings _ _ (by decide +kernel), rfl, by decide +kernel⟩,
   fun nak => ⟨received {} { state := .up, rxNext := 4095, nak := nak }, .a, 0, 0, wireFlit (crcFlit 4094), crcFlit 4094, _, _,
     brings _ _ (by revert nak; decide +kernel), rfl, rfl, by revert nak; decide +kernel⟩,
   fun done => ⟨sparable (received {} (failing done)), .a, 0, 0, wireFlit 1, 1, _, 0, [], brings _ _ (by revert done; decide +kernel), rfl,
     by revert done; decide +kernel⟩⟩

theorem field_add (n a t lo k : Nat) (h : lo + k ≤ n) : field (a + t * 2 ^ n) lo k = field a lo k := by
  simp only [field, Nat.shiftRight_eq_div_pow]
  have e : (2 : Nat) ^ n = 2 ^ lo * (2 ^ k * 2 ^ (n - lo - k)) := by rw [← pow_add, ← pow_add]; congr 1; omega
  have f : a + t * 2 ^ n = a + 2 ^ lo * (2 ^ k * (2 ^ (n - lo - k) * t)) := by rw [e]; ring
  rw [f, Nat.add_mul_div_left _ _ (Nat.two_pow_pos lo), Nat.add_mul_mod_self_left]

theorem field_above (a t lo k : Nat) (h : a < 2 ^ lo) : field (a + t * 2 ^ lo) 0 k = field (a + t * 2 ^ lo) 0 k ∧ field (a + t * 2 ^ lo) lo k = t % 2 ^ k := by
  refine ⟨rfl, ?_⟩
  simp only [field, Nat.shiftRight_eq_div_pow]
  rw [Nat.add_mul_div_right _ _ (Nat.two_pow_pos lo), Nat.div_eq_of_lt h, Nat.zero_add]

theorem crcFlit_toNat (w : Nat) (h : w < 2 ^ 224) : (crcFlit w).toNat = w + (crc32c (leBytes 28 w)).toNat * 2 ^ 224 := by
  have hc := (crc32c (leBytes 28 w)).isLt
  simp only [crcFlit, BitVec.toNat_ofNat, Nat.mod_eq_of_lt h]
  apply Nat.mod_eq_of_lt
  omega

theorem crcFlit_crc (w : Nat) (h : w < 2 ^ 224) : linkCrcOk (crcFlit w) = true := by
  simp only [linkCrcOk, crcFlit_toNat w h]
  rw [Nat.add_mul_mod_self_right, Nat.mod_eq_of_lt h, Nat.add_mul_div_right _ _ (Nat.two_pow_pos _), Nat.div_eq_of_lt h, Nat.zero_add]
  simp

theorem crcFlit_field (w lo k : Nat) (h : w < 2 ^ 224) (hk : lo + k ≤ 224) : field (crcFlit w).toNat lo k = field w lo k := by
  rw [crcFlit_toNat w h, field_add _ _ _ _ _ hk]

/-- The SEAL flit that closes a group of one flit, with the tag `t`. -/
def sealWord (t : BitVec 128) : Nat := 4096 + t.toNat * 2 ^ 16

theorem sealWord_lt (t : BitVec 128) : sealWord t < 2 ^ 224 := by have := t.isLt; simp only [sealWord]; omega

theorem seal_low (t : BitVec 128) (lo k : Nat) (h : lo + k ≤ 16) : field (crcFlit (sealWord t)).toNat lo k = field 4096 lo k := by
  rw [crcFlit_field _ _ _ (sealWord_lt t) (by omega), sealWord, field_add _ _ _ _ _ h]

theorem seal_body (t : BitVec 128) : field (crcFlit (sealWord t)).toNat 16 208 = t.toNat := by
  have := t.isLt
  rw [crcFlit_field _ _ _ (sealWord_lt t) (by omega), sealWord, (field_above _ _ _ _ (by decide)).2]
  omega

theorem seal_epoch (t : BitVec 128) : field (crcFlit (sealWord t)).toNat (16 + 198) 2 = 0 := by
  have := t.isLt
  rw [crcFlit_field _ _ _ (sealWord_lt t) (by omega), sealWord]
  simp only [field, Nat.shiftRight_eq_div_pow]
  omega

theorem field_tag (t : BitVec 128) (lo k : Nat) (h : 128 ≤ lo) : field t.toNat lo k = 0 := by
  have h1 := t.isLt
  have h2 : (2 : Nat) ^ 128 ≤ 2 ^ lo := Nat.pow_le_pow_right (by decide) h
  simp only [field, Nat.shiftRight_eq_div_pow]
  rw [Nat.div_eq_of_lt (by omega), Nat.zero_mod]

/-- A port with keys that has received one DATA flit of a group. -/
def grouped : State := received {} { state := .up, groupRx := [⟨0, false, 0⟩], keys := some (5, 0) }

theorem seal_ok (s : State) (c : Ch) (p : Nat) (k : BitVec 64) (t : BitVec 128) (h1 : (s.port c p).groupRx = [⟨0, false, 0⟩])
    (h2 : (s.port c p).keys = some (k, 0)) (h3 : (s.port c p).nextKeys = none) (h4 : (s.port c p).rxEpoch = 0) (h5 : (s.port c p).groupRxNext = 0)
    (ht : groupTag (s.rxKey c p k) [0] 0 0 = t) : s.groupOk c p (crcFlit (sealWord t)).toNat = true := by
  have h6 : field t.toNat 0 128 = t.toNat := by
    have := t.isLt
    simp only [field, Nat.shiftRight_zero]; omega
  simp only [State.groupOk, State.sealKey, VPort.nextGroup, h1, h2, h3, h4, h5, seal_epoch, seal_body, field_tag t 128 64 (by decide),
    field_tag t 128 72 (by decide), field_tag t 192 6 (by decide), field_tag t 200 8 (by decide), h6, Option.toList, List.append_nil, List.find?]
  simpa using congrArg BitVec.toNat ht

theorem grouped_ok : ∃ t, grouped.groupOk .a 0 (crcFlit (sealWord t)).toNat = true :=
  ⟨_, seal_ok grouped .a 0 5 _ (by rfl) (by rfl) (by rfl) (by rfl) (by rfl) rfl⟩

/-- A design that binds slot 511 to module 1 and sends it from Cabinet 0. -/
def slotted : Design :=
  { des with frame := 5, slots := [⟨511, 1, 511⟩], ports := [(0, BitVec.ofNat 128 (1 + 1 * 2 + 511 * 8 + 15 * 2 ^ 25))],
             linkIn := [⟨1, 511, 4, true, 1⟩] }

/-- It has consumed that slot in frame 5. -/
def consuming : Design := { slotted with begun := true, cabs := [(0, { next := 1 })] }

/-- A check outstanding on HUB-A; port 0 as `x`, which VL_PORT_CTRL enables. -/
def checkingMac (s : State) (m : MacCheck) (x : VPort) : State :=
  State.modHbm ((onPort (based s) x).setReg .vlPortCtrl .a [0] 1) .a fun h => { h with macs := [m] }

/-- A check of a read, or of records of slot 511 on port 0, of frame 5. -/
def aCheck (link : Option Nat) (used : Option Nat) : MacCheck := { design := 1, cab := 0, attempt := 1, frame := 5, addr := 511, link := link, used := used }

theorem hyps_SealedGroups :
    (∃ (s : State) (c : Ch) (p slot : Nat) (blocks : List (BitVec 66)) (flit : BitVec 256) (x : VPort), p < 8 ∧ Brings s c p slot blocks flit ∧
      x = s.port c p ∧ x.takes = true ∧ linkCrcOk flit = true ∧ field flit.toNat 12 2 = 1 ∧ bitAt flit.toNat 15 = false ∧
      field flit.toNat 0 12 = x.rxNext ∧ x.keys.isSome = true ∧ s.groupOk c p flit.toNat = true ∧ x.sinceAck < 31 ∧ x.early = 0) ∧
    (∃ (s : State) (c : Ch) (p slot : Nat) (blocks : List (BitVec 66)) (flit : BitVec 256) (x : VPort), p < 8 ∧ Brings s c p slot blocks flit ∧
      x = s.port c p ∧ x.takes = true ∧ linkCrcOk flit = true ∧ field flit.toNat 12 2 = 1 ∧ bitAt flit.toNat 15 = false ∧
      field flit.toNat 0 12 = x.rxNext ∧ x.keys.isSome = true ∧ s.groupOk c p flit.toNat = false ∧ x.sealFails = 0 ∧ s.pwr.hostOn = true) ∧
    (∃ (s : State) (c : Ch) (k : Nat) (m : MacCheck), (s.ch c).hbm.macs[k]? = some m ∧ m.link = none ∧ m.addr / 64 * 64 ∉ (s.ch c).hbm.fails ∧
      s.design m.design = none ∧ (s.ch c).hbm.macs[k + 1]? = none) ∧
    (∀ now : Bool, ∃ (s : State) (c : Ch) (k : Nat) (m : MacCheck) (d : Design), (s.ch c).hbm.macs[k]? = some m ∧ m.link = none ∧
      m.addr / 64 * 64 ∉ (s.ch c).hbm.fails ∧ s.design m.design = some d ∧ (m.used = some d.frame ↔ now = true)) ∧
    (∃ (s : State) (c : Ch) (p k : Nat) (m : MacCheck) (d : Design), p < 8 ∧ (s.ch c).hbm.macs[k]? = some m ∧ m.link = some p ∧
      (s.port c p).sealFails = 0 ∧ (s.port c p).nak = false ∧ s.design m.design = some d ∧ s.usedBy m = true ∧ s.pwr.hostOn = true) ∧
    (∃ (s : State) (c : Ch) (p k : Nat) (m : MacCheck), p < 8 ∧ (s.ch c).hbm.macs[k]? = some m ∧ m.link = some p ∧ (s.port c p).sealFails = 1 ∧
      s.portEnabled c p = true ∧ (∀ d ∈ s.designs, d.lastErr = none) ∧ s.pwr.hostOn = true) := by
  obtain ⟨t, ht⟩ := grouped_ok
  refine ⟨⟨grouped, .a, 0, 0, wireFlit (crcFlit (sealWord t)), crcFlit (sealWord t), _, by decide, brings _ _ (by decide +kernel), rfl, by decide +kernel,
      crcFlit_crc _ (sealWord_lt _), ?_, ?_, ?_, by decide +kernel, ht, by decide +kernel, by decide +kernel⟩,
    ⟨received {} { state := .up, keys := some (5, 0) }, .a, 0, 0, wireFlit (crcFlit 4096), crcFlit 4096, _, by decide, brings _ _ (by decide +kernel), rfl,
      by decide +kernel, by decide +kernel, by decide +kernel, by decide +kernel, by decide +kernel, by decide +kernel, by decide +kernel,
      by decide +kernel⟩,
    ⟨checkingMac {} (aCheck none none) {}, .a, 0, aCheck none none, by decide +kernel⟩,
    fun now => ⟨checkingMac (holding {} slotted) (aCheck none (some (if now then 5 else 6))) {}, .a, 0, aCheck none (some (if now then 5 else 6)), slotted,
      by cases now <;> decide +kernel⟩,
    ⟨checkingMac (holding {} consuming) (aCheck (some 0) none) {}, .a, 0, 0, aCheck (some 0) none, consuming, by decide +kernel⟩,
    ⟨checkingMac (holding {} consuming) (aCheck (some 0) none) { sealFails := 1 }, .a, 0, 0, aCheck (some 0) none, by decide +kernel⟩⟩
  · rw [seal_low _ _ _ (by decide)]; decide
  · have h : field (crcFlit (sealWord t)).toNat 15 1 = 0 := by rw [seal_low _ _ _ (by decide)]; decide
    simp only [field, Nat.shiftRight_eq_div_pow, Nat.pow_one] at h
    rw [bitAt, Nat.testBit_eq_decide_div_mod_eq, h]
    rfl
  · rw [seal_low _ _ _ (by decide)]; decide

/-- Two flits to replay. -/
def unackedTwo : List KeptFlit := [⟨0, 1, none⟩, ⟨2, 2, some (.hello 0 0 0)⟩]

/-- A LINKCTL flit with a CODE and an ACKSEQ. -/
def ctl (code a : Nat) : BitVec 256 := ctlFlit code a 7 9

theorem hyps_LinkControl :
    (∀ good : Bool, ∃ (s : State) (c : Ch) (p slot : Nat) (blocks : List (BitVec 66)) (flit : BitVec 256) (x : VPort) (w : Nat), p < 8 ∧
      Brings s c p slot blocks flit ∧ x = s.port c p ∧ w = flit.toNat ∧ isCtl flit = true ∧ x.state = .up ∧ s.base.forwarding = none ∧
      x.queue = [] ∧ x.queue1 = [] ∧ field w 0 12 = 0 ∧ bitAt w 15 = false ∧ field w 56 168 = 0 ∧ 1 ≤ field w 16 4 ∧ field w 16 4 ≤ 3 ∧
      ((field w 20 12 + 4096 - x.txAcked) % 4096 ≤ x.inFlight ↔ good = true)) ∧
    (∃ (s : State) (c : Ch) (p slot : Nat) (blocks : List (BitVec 66)) (flit : BitVec 256), p < 8 ∧
      Brings s c p slot blocks flit ∧ isCtl flit = true ∧ (s.port c p).state = .up ∧ s.base.forwarding = none ∧
      (s.port c p).queue = [] ∧ (s.port c p).queue1 = [] ∧ field flit.toNat 0 12 = 5 ∧ bitAt flit.toNat 15 = true ∧ field flit.toNat 56 168 = 1 ∧
      field flit.toNat 16 4 = 0) ∧
    (∃ (s t : State) (c : Ch) (p : Nat), p < 8 ∧ s.portLive c p = true ∧ (s.port c p).state = .up ∧ (s.port c p).sinceAck ≠ 0 ∧
      (s.port c p).nak = true ∧ t.portLive c p = true ∧ (t.port c p).state = .up ∧ (t.port c p).sinceAck = 0 ∧
      (t.port c p).freed0 = (t.port c p).told0 ∧ (t.port c p).freed1 = (t.port c p).told1 ∧ (t.port c p).nak = false) ∧
    (∃ (s t : State) (c : Ch) (p k e : Nat) (q : BitVec 64), p < 8 ∧ k = 1 ∧ (s.port c p).keys = some (q, e) ∧ (s.port c p).groupOpen ≠ [] ∧
      (s.port c p).state = .up ∧ (s.port c p).inFlight < 1024 ∧ (t.port c p).keys = none) :=
  ⟨fun good => ⟨received {} { state := .up, txNext := 3, unacked := unackedTwo }, .a, 0, 0, wireFlit (ctl 3 (if good then 2 else 3)), ctl 3 (if good then 2 else 3),
     _, _, by decide, brings _ _ (by decide +kernel), rfl, rfl, by cases good <;> decide +kernel⟩,
   ⟨received {} { state := .up }, .a, 0, 0, wireFlit (crcFlit (5 + 2 * 2 ^ 12 + 2 ^ 15 + 2 ^ 56)), crcFlit (5 + 2 * 2 ^ 12 + 2 ^ 15 + 2 ^ 56), by decide,
     brings _ _ (by decide +kernel), by decide +kernel⟩,
   ⟨onPort {} { state := .up, sinceAck := 1, nak := true }, onPort {} { state := .up }, .a, 0, by decide +kernel⟩,
   ⟨onPort {} { state := .up, keys := some (5, 0), groupOpen := [1] }, {}, .a, 0, 1, 0, 5, by decide +kernel⟩⟩

/-- A message for module 1 with some hops left. -/
def hop (ttl : Nat) : Heard := { bodies := msgBodies 1 1 ttl (Sent.runStart 1 5 9).parts, vc1 := false, resent := false, arrived := 0 }

/-- It waits on the link of module 0. -/
def passing (ttl : Nat) : State := hearing (linked {} 0) .a 0 (hop ttl)

theorem hyps_Forwarding : ∀ hops : Bool, ∃ (s t : State) (c : Ch) (p dst src type ttl flits : Nat) (h : Heard), s.carries c p = true ∧
    (s.port c p).inbox.find? (fun h => !s.forMe h) = some h ∧ h.dst = dst ∧ h.src = src ∧ h.type = type ∧ h.ttl = ttl ∧ h.rest.length = flits ∧
    t = s.takeOut c p h ∧ (0 < ttl ↔ hops = true) ∧ t.portsTo c dst ≠ [] ∧
    (State.port (linked {} 0) c p).inbox.find? (fun h => !(linked {} 0).forMe h) = none :=
  fun hops => ⟨passing (if hops then 1 else 0), _, .a, 0, 1, 1, 4, if hops then 1 else 0, 0, hop (if hops then 1 else 0), by cases hops <;> decide +kernel, by cases hops <;> rfl,
    by cases hops <;> decide +kernel, by cases hops <;> decide +kernel, by cases hops <;> decide +kernel, by cases hops <;> decide +kernel,
    by cases hops <;> decide +kernel, rfl, by cases hops <;> decide +kernel, by cases hops <;> decide +kernel, by cases hops <;> decide +kernel⟩

/-! A VALUE message of an open group: what seals it opens it. -/

theorem groupBody_twice (key : List Byte) (g j : Nat) (b : BitVec 208) : groupBody key g j (groupBody key g j b) = b := by
  simp [groupBody]

/-- The body of a flit as it travels in a group, at place 0 of GROUP 0. -/
def sealedFlit (key : List Byte) (b : BitVec 208) : RxFlit :=
  { flit := BitVec.ofNat 256 (2 ^ 16 * (groupBody key 0 0 b).toNat), resent := false, arrived := 0 }

theorem openFlits_sealed (key : List Byte) (b : BitVec 208) :
    openFlits key 0 [sealedFlit key b] = [{ flit := BitVec.ofNat 256 (2 ^ 16 * b.toNat), resent := false, arrived := 0 }] := by
  have h := (groupBody key 0 0 b).isLt
  have h1 : (sealedFlit key b).flit.toNat = 2 ^ 16 * (groupBody key 0 0 b).toNat := by
    simp only [sealedFlit, BitVec.toNat_ofNat]; omega
  have h2 : (sealedFlit key b).flit.toNat % 2 ^ 16 = 0 := by rw [h1]; omega
  have h3 : BitVec.ofNat 208 (field (sealedFlit key b).flit.toNat 16 208) = groupBody key 0 0 b := by
    rw [h1]
    apply BitVec.eq_of_toNat_eq
    simp only [field, Nat.shiftRight_eq_div_pow, BitVec.toNat_ofNat]
    omega
  simp only [openFlits, List.length_singleton, List.range_one, List.zip_cons_cons, List.zip_nil_right, List.map_cons, List.map_nil, h2, h3, groupBody_twice,
    Nat.zero_add]
  rfl

/-- VALUE of module 1 with one record, for frame `fr`. -/
def aValue (fr : BitVec 48) (r : LinkRec) : Sent := .value 0 fr [r]

/-- Its one flit body. -/
def valueBody (fr : BitVec 48) (r : LinkRec) : BitVec 208 := (heardAs 0 1 (aValue fr r)).bodies.headD 0

/-- The key that port 0 of HUB-A receives with. -/
def rxKey0 : List Byte := (linked {} 0).rxKey .a 0 5

/-- The VALUE message has arrived on the link of module 0, which holds design `d`, in a group that is still open. -/
def early (d : Design) (fr : BitVec 48) (r : LinkRec) : State :=
  (linked (holding {} d) 0).modPort .a 0 fun x => { x with keys := some (5, 0), groupRx := [sealedFlit rxKey0 (valueBody fr r)] }

/-- The flit as it opens. -/
def plainFlit (fr : BitVec 48) (r : LinkRec) : RxFlit := { flit := BitVec.ofNat 256 (2 ^ 16 * (valueBody fr r).toNat), resent := false, arrived := 0 }

theorem early_msgs (d : Design) (fr : BitVec 48) (r : LinkRec) : (early d fr r).groupMsgs .a 0 0 = takeBodies [] [] [plainFlit fr r] := by
  rw [plainFlit, ← openFlits_sealed rxKey0]
  rfl

/-- The records that the clauses on VALUE messages speak of: slot 510 is bound by nothing, slot 511 by `slotted`, in frame 5. -/
def aRec (slot : Nat) : LinkRec := ⟨slot, true, 9⟩

theorem early_value (d : Design) (fr : BitVec 48) (slot : Nat) (h : Heard) (hm : (takeBodies [] [] [plainFlit fr (aRec slot)]).2 = [h])
    (hf : (linked {} 0).forMe h = true) (ht : h.type = 1) : (early d fr (aRec slot)).earlyValue .a 0 = some h := by
  have h1 : (early d fr (aRec slot)).earlyValue .a 0 =
      ((((early d fr (aRec slot)).groupMsgs .a 0 0).2.filter (fun h => (early d fr (aRec slot)).forMe h && h.type == 1)).drop 0).head? := rfl
  rw [h1, early_msgs, hm]
  have h2 : (early d fr (aRec slot)).forMe h = true := hf
  simp [h2, ht]

/-- A VALUE message with one record has arrived, in a group that has verified (`sure`) or in one that is open. -/
abbrev Came (s t : State) (sure : Bool) (fr : BitVec 48) (slot : Nat) : Prop :=
  (sure = true ∧ ∃ h, Arrived s .a 0 (some 1) (.value 0 fr [aRec slot]) h t) ∨
    (sure = false ∧ s.heard .a 0 (1, 0) = none ∧ t = s.modPort .a 0 (fun x => { x with early := x.early + 1 }) ∧
      ∃ h, s.earlyValue .a 0 = some h ∧ h.ok = true ∧ h.is (some 1) (.value 0 fr [aRec slot]) = true)

/-- The state in which it has. -/
def valued (sure : Bool) (fr : BitVec 48) (slot : Nat) : State :=
  if sure then linkHears (holding {} slotted) 0 (aValue fr (aRec slot)) else early slotted fr (aRec slot)

theorem came (sure : Bool) (fr : BitVec 48) (slot : Nat) (h : Heard) (h0 : h = heardAs 0 1 (aValue fr (aRec slot)))
    (h1 : (linked {} 0).forMe h = true) (h2 : h.kind = (1, 0)) (h3 : h.is (some 1) (aValue fr (aRec slot)) = true) (h4 : h.ok = true)
    (h5 : h.type = 1) (h6 : (takeBodies [] [] [plainFlit fr (aRec slot)]).2 = [h]) :
    ∃ t, Came (valued sure fr slot) t sure fr slot ∧ t.designs = [slotted] ∧ (valued sure fr slot).carries .a 0 = true := by
  cases sure
  · exact ⟨_, .inr ⟨rfl, rfl, rfl, h, early_value slotted fr slot h h6 h1 h5, h4, h3⟩, rfl, rfl⟩
  · refine ⟨_, .inl ⟨rfl, h, ⟨?_, h3, rfl⟩⟩, rfl, rfl⟩
    subst h0
    show ([heardAs 0 1 (aValue fr (aRec slot))].find? (fun h => (linked {} 0).forMe h && h.kind == (1, 0))) = _
    exact List.find?_cons_of_pos (by rw [h1, h2]; rfl)

/-- The design of a state that binds a slot to module 1. -/
abbrev binder (t : State) (slot : Nat) : Option Design :=
  t.designs.find? (fun d => d.slots.any (fun b => b.remote == 1 && b.slot == slot) && (if d.twin then d.home == .a else d.slotCh slot == some .a))

theorem hyps_LinkRecords (sure : Bool) :
    (∃ (s t : State) (fr : BitVec 48), s.carries .a 0 = true ∧ Came s t sure fr 510 ∧ binder t 510 = none) ∧
    (∃ (s t : State) (fr : BitVec 48) (d : Design), s.carries .a 0 = true ∧ Came s t sure fr 511 ∧ binder t 511 = some d ∧
      laterFrame (BitVec.ofNat 48 (d.frame - 1)) fr = true) ∧
    (∃ (s t : State) (fr : BitVec 48) (d : Design), s.carries .a 0 = true ∧ Came s t sure fr 511 ∧ binder t 511 = some d ∧
      laterFrame (BitVec.ofNat 48 (d.frame - 1)) fr = false ∧ laterFrame fr (BitVec.ofNat 48 (d.frame - 1) + 1) = true) ∧
    ∀ held : Bool, ∃ (s t : State) (fr : BitVec 48) (d : Design), s.carries .a 0 = true ∧ Came s t sure fr 511 ∧ binder t 511 = some d ∧
      laterFrame (BitVec.ofNat 48 (d.frame - 1)) fr = false ∧ laterFrame fr (BitVec.ofNat 48 (d.frame - 1) + 1) = false ∧
      d.linkIn.any (fun k => k.slot == 511 && k.frame == fr) = held := by
  obtain ⟨t0, a0, b0, c0⟩ := came sure 5 510 _ rfl (by decide +kernel) (by decide +kernel) (by decide +kernel) (by decide +kernel) (by decide +kernel) (by decide +kernel)
  obtain ⟨t1, a1, b1, c1⟩ := came sure 3 511 _ rfl (by decide +kernel) (by decide +kernel) (by decide +kernel) (by decide +kernel) (by decide +kernel) (by decide +kernel)
  obtain ⟨t2, a2, b2, c2⟩ := came sure 6 511 _ rfl (by decide +kernel) (by decide +kernel) (by decide +kernel) (by decide +kernel) (by decide +kernel) (by decide +kernel)
  obtain ⟨t3, a3, b3, c3⟩ := came sure 4 511 _ rfl (by decide +kernel) (by decide +kernel) (by decide +kernel) (by decide +kernel) (by decide +kernel) (by decide +kernel)
  obtain ⟨t4, a4, b4, c4⟩ := came sure 5 511 _ rfl (by decide +kernel) (by decide +kernel) (by decide +kernel) (by decide +kernel) (by decide +kernel) (by decide +kernel)
  refine ⟨⟨_, t0, 5, c0, a0, ?_⟩, ⟨_, t1, 3, slotted, c1, a1, ?_, by decide⟩, ⟨_, t2, 6, slotted, c2, a2, ?_, by decide, by decide⟩, fun held => ?_⟩
  · rw [binder, b0]; decide +kernel
  · rw [binder, b1]; decide +kernel
  · rw [binder, b2]; decide +kernel
  · cases held
    · refine ⟨_, t4, 5, slotted, c4, a4, ?_, by decide, by decide, by decide⟩
      rw [binder, b4]; decide +kernel
    · refine ⟨_, t3, 4, slotted, c3, a3, ?_, by decide, by decide, by decide⟩
      rw [binder, b3]; decide +kernel

theorem hyps_SlotHomes :
    (∃ (s : State) (c : Ch) (p : Nat) (h : Heard) (t : State) (src : Nat) (map : BitVec 512), ArrivedOn s c (some src) (.slotHome 0 map) p h t ∧
      ∀ g ∈ s.channels, (s.ch g).link.waiting = []) ∧
    (∃ (s : State) (c : Ch), ∀ d ∈ s.designs, d.home ≠ c) ∧
    (∃ (s : State) (c : Ch) (d : Design) (m q : Nat), s.designs = [d] ∧ d.home = c ∧ (d.slots.map (·.remote)).eraseDups = [m] ∧ s.silent = false ∧
      s.portsTo c m = [q]) :=
  ⟨⟨linkHears {} 0 (.slotHome 0 6), .a, 0, heardAs 0 1 (.slotHome 0 6), _, 1, 6, ⟨⟨by decide +kernel, by decide +kernel, rfl⟩, by decide +kernel⟩, by decide +kernel⟩,
   ⟨{}, .a, by decide⟩, ⟨linked (holding {} slotted) 0, .a, slotted, 1, 0, by decide +kernel⟩⟩

/-- A design with a region of 64 bytes that module 1 may reach. -/
def reached (st : PartState) : Design := { slotted with state := st, regions := [⟨3, 0, 4096, 64, 0⟩] }

/-- A MEM message of module 1 for the last word of region 3. -/
def memFor (op offset : Nat) : MemMsg := { src := 1, op := op, slot := 511, region := 3, offset := offset, tag := 4095, size := 0, status := 0,
                                           data := if op = 1 then List.replicate 8 1 else [] }

/-- It has arrived on the link of module 0, which is in state `s`. -/
def memHeard (s : State) (m : MemMsg) : State := linkHears s 0 (.mem 0 m)

/-- It has. -/
abbrev MemCame (s t : State) (m : MemMsg) : Prop := s.carries .a 0 = true ∧ ∃ h, Arrived s .a 0 (some m.src) (.mem 0 m) h t

theorem memCame (s : State) (m : MemMsg) (h1 : (memHeard s m).carries .a 0 = true)
    (h2 : (memHeard s m).heard .a 0 (kindOf (Sent.mem 0 m).parts.1 (Sent.mem 0 m).parts.2.1) = some (heardAs 0 1 (.mem 0 m)))
    (h3 : (heardAs 0 1 (.mem 0 m)).is (some m.src) (.mem 0 m) = true) :
    MemCame (memHeard s m) ((memHeard s m).takeOut .a 0 (heardAs 0 1 (.mem 0 m))) m := ⟨h1, _, h2, h3, rfl⟩

/-- HUB-A with a key range over region 3, its key lost. -/
def unkeyed (s : State) : State := s.modCh .a fun h => { h with ranges := [(0, { base := 1, len := 1, mode := 2, state := 2 })] }

/-- HUB-A with a poisoned line in region 3. -/
def poisoned (s : State) : State := s.modHbm .a fun h => { h with poison := [4096] }

theorem hyps_MemMessages :
    (∃ (s t : State) (m : MemMsg), MemCame s t m ∧ m.op < 2 ∧ t.memTarget m = none) ∧
    (∃ (s t : State) (m : MemMsg) (d : Design) (g : Region) (n : Nat) (v : State), MemCame s t m ∧ t.memTarget m = some (d, [g]) ∧ m.op = 0 ∧ n = sizeBytes m.size ∧
      v = t.hubMem .a 22 (chOf g.side) d.tag (g.base + m.offset) n [] ∧ (t.ch (chOf g.side)).hbm.unreadable (g.base + m.offset) n = false ∧
      ((v.rangeAt (chOf g.side) (g.base + m.offset)).map (·.2.unkeyed)).getD false = false) ∧
    (∃ (s t : State) (m : MemMsg) (d : Design) (g : Region) (n : Nat) (v : State), MemCame s t m ∧ t.memTarget m = some (d, [g]) ∧ m.op = 0 ∧ n = sizeBytes m.size ∧
      v = t.hubMem .a 22 (chOf g.side) d.tag (g.base + m.offset) n [] ∧ (t.ch (chOf g.side)).hbm.unreadable (g.base + m.offset) n = false ∧
      ((v.rangeAt (chOf g.side) (g.base + m.offset)).map (·.2.unkeyed)).getD false = true) ∧
    (∃ (s t : State) (m : MemMsg) (d : Design) (g : Region), MemCame s t m ∧ t.memTarget m = some (d, [g]) ∧ m.op = 0 ∧
      (t.ch (chOf g.side)).hbm.unreadable (g.base + m.offset) (sizeBytes m.size) = true) ∧
    (∃ (s t : State) (m : MemMsg) (d : Design) (g : Region), MemCame s t m ∧ t.memTarget m = some (d, [g]) ∧ m.op = 1 ∧ d.state = .running) ∧
    (∃ (s t : State) (m : MemMsg) (d : Design) (g : Region) (v : State), MemCame s t m ∧ t.memTarget m = some (d, [g]) ∧ m.op = 1 ∧
      d.state = .stopped ∧ v = (t.hubMem .a 22 (chOf g.side) d.tag (g.base + m.offset) (m.data.take (sizeBytes m.size)).length
        (m.data.take (sizeBytes m.size))).commitWrite (chOf g.side) d (g.base + m.offset) (m.data.take (sizeBytes m.size)) ∧ v.pairRuns = false) ∧
    (∃ (s t : State) (m : MemMsg), MemCame s t m ∧ m.op = 9 ∧ (t.ch .a).link.mem.find? (fun q => q.tag == m.tag) = none) ∧
    (∃ (s t : State) (m : MemMsg) (q : MemReq) (cm : Cmd), MemCame s t m ∧ m.op = 9 ∧ (t.ch .a).link.mem.find? (fun q => q.tag == m.tag) = some q ∧
      t.cmd q.ring q.cmd = some cm) ∧
    (∃ (s t : State) (c : Ch) (tag : Nat) (q : MemReq) (cm : Cmd), (t.ch c).link.mem.find? (fun q => q.tag == tag) = none ∧
      (s.ch c).link.mem.find? (fun q => q.tag == tag) = some q ∧ s.cmd q.ring q.cmd = some cm) ∧
    ∃ (s : State) (c : Ch) (d : Design) (addr : Nat) (data : List Byte) (p : Nat), p = (d.allParts.filter (fun p => chOfPart p == c)).headD d.low ∧
      data ≠ [] ∧ addr % 64 + data.length ≤ 64 ∧ (s.ch c).hbm.quota p + data.length ≤ 2097152 :=
  ⟨⟨_, _, memFor 1 57, memCame (holding {} (reached .running)) _ (by decide +kernel) (by decide +kernel) (by decide +kernel), by decide, by decide +kernel⟩,
   ⟨_, _, memFor 0 56, reached .running, ⟨3, 0, 4096, 64, 0⟩, _, _,
     memCame (holding {} (reached .running)) _ (by decide +kernel) (by decide +kernel) (by decide +kernel), by decide +kernel, rfl, rfl, rfl, by decide +kernel, by decide +kernel⟩,
   ⟨_, _, memFor 0 56, reached .running, ⟨3, 0, 4096, 64, 0⟩, _, _,
     memCame (unkeyed (holding {} (reached .running))) _ (by decide +kernel) (by decide +kernel) (by decide +kernel), by decide +kernel, rfl, rfl, rfl, by decide +kernel, by decide +kernel⟩,
   ⟨_, _, memFor 0 56, reached .running, ⟨3, 0, 4096, 64, 0⟩,
     memCame (poisoned (holding {} (reached .running))) _ (by decide +kernel) (by decide +kernel) (by decide +kernel), by decide +kernel, rfl, by decide +kernel⟩,
   ⟨_, _, memFor 1 56, reached .running, ⟨3, 0, 4096, 64, 0⟩,
     memCame (holding {} (reached .running)) _ (by decide +kernel) (by decide +kernel) (by decide +kernel), by decide +kernel, rfl, rfl⟩,
   ⟨_, _, memFor 1 56, reached .stopped, ⟨3, 0, 4096, 64, 0⟩, _,
     memCame (holding {} (reached .stopped)) _ (by decide +kernel) (by decide +kernel) (by decide +kernel), by decide +kernel, rfl, rfl, rfl, by decide +kernel⟩,
   ⟨_, _, memFor 9 0, memCame {} _ (by decide +kernel) (by decide +kernel) (by decide +kernel), rfl, by decide +kernel⟩,
   ⟨_, _, memFor 9 0, ⟨4095, 64, 7⟩, cmd 64 0x66 0 [],
     memCame ((on {} (cmd 64 0x66 0 [])).modLink .a fun k => { k with mem := [⟨4095, 64, 7⟩] }) _ (by decide +kernel) (by decide +kernel) (by decide +kernel),
     rfl, by decide +kernel, by decide +kernel⟩,
   ⟨(on {} (cmd 64 0x66 0 [])).modLink .a fun k => { k with mem := [⟨4095, 64, 7⟩] }, {}, .a, 4095, ⟨4095, 64, 7⟩, cmd 64 0x66 0 [], by decide +kernel⟩,
   ⟨{}, .a, slotted, 120, List.replicate 8 1, _, rfl, by decide, by decide, by decide +kernel⟩⟩

/-- HELLO of module 1 as the table has it (`ok`) or not, on a link that does not carry traffic yet. -/
def helloHeard (ok : Bool) : State :=
  (linkHears {} 0 (.hello (if ok then 0 else 3) 0 5)).modPort .a 0 fun x => { x with traffic := false, helloOk := false }

theorem hyps_Hello :
    (∀ ok : Bool, ∃ (s : State) (c : Ch) (p rp : Nat) (rc : Ch) (rm : Nat) (hash : BitVec 192) (x : VPort) (h : Heard) (t : State), x = s.port c p ∧
      ok = (s.farEnd c p == some (rm, rp + 8 * chNum rc) && (s.topo.map (fun t => t.hash.toNat % 2 ^ 192)) == some hash.toNat) ∧
      s.portLive c p = true ∧ x.state = .up ∧ Arrived s c p (some rm) (.hello rp (chNum rc) hash) h t ∧ s.carries c p = false ∧ x.keys = none ∧
      x.auth = none ∧ s.initiates c p = true) ∧ ∃ (s : State) (c : Ch) (p : Nat), s.heard c p (4, 1) = none :=
  ⟨fun ok => ⟨helloHeard ok, .a, 0, if ok then 0 else 3, .a, 1, 5, _, heardAs 0 1 (.hello (if ok then 0 else 3) 0 5), _, rfl, by cases ok <;> decide +kernel,
     by cases ok <;> decide +kernel, rfl, ⟨by cases ok <;> decide +kernel, by cases ok <;> decide +kernel, rfl⟩, by cases ok <;> decide +kernel, rfl, rfl,
     by cases ok <;> decide +kernel⟩, ⟨{}, .a, 0, by decide +kernel⟩⟩

/-- What an AUTH message of module `i` says: that it is module `serial`, in FIELD. -/
def farMsg (serial : BitVec 64) : AuthMsg := { chain := [], serial := serial, fieldState := true, latched := false, eph := [], nonce := 0, sig := [] }

/-- Module `i` of a linked pair with an exchange under way, and an AUTH message that begins with `lead`. -/
def authing (i : Nat) (a : Option Auth) (n k : Option (BitVec 64 × Nat)) (lead : List Byte) : State :=
  hearing { onPort {} { state := .up, helloOk := true, auth := a, nextKeys := n, keys := k } with topo := some (twoMods i 1 1 1) } .a 0
    (heardAs i (1 - i) (.auth (leNat (lead.take 1)) (lead.drop 1)))

/-- The AUTH message has arrived. -/
abbrev AuthCame (s t : State) (lead : List Byte) : Prop :=
  ∃ h, s.heard .a 0 (4, 0x10) = some h ∧ h.bytes.take lead.length = lead ∧ t = s.takeOut .a 0 h

/-- Where module 1's chain verifies the far end passes under its serial number only; where it does not, it never passes. -/
theorem far_refused (s : State) (i : Nat) (hi : i < 2) (ht : s.topo = some (twoMods i 1 1 1)) (hf : s.farEnd .a 0 = some (1 - i, 0)) :
    (Config.chainOk [] = true → s.farRefused .a 0 (farMsg (BitVec.ofNat 64 (2 - i))) = none) ∧ ∃ r, s.farRefused .a 0 (farMsg 9) = some r := by
  obtain rfl | rfl : i = 0 ∨ i = 1 := by omega
  · refine ⟨fun h => ?_, ?_⟩
    · simp [State.farRefused, ht, hf, h, twoMods, Topo.kind, farMsg]
    · rcases Bool.eq_false_or_eq_true (Config.chainOk []) with h | h <;> simp [State.farRefused, ht, hf, h, twoMods, Topo.kind, farMsg]
  · refine ⟨fun h => ?_, ?_⟩
    · simp [State.farRefused, ht, hf, h, twoMods, Topo.kind, farMsg]
    · rcases Bool.eq_false_or_eq_true (Config.chainOk []) with h | h <;> simp [State.farRefused, ht, hf, h, twoMods, Topo.kind, farMsg]

/-- Whether a certificate chain or a signature verifies is the cryptography's to say; both cases of each stand below as they come out for the
bytes that are named. -/
theorem hyps_LinkAuth :
    (∃ (s t : State) (m n : AuthMsg), AuthCame s t (leBytes 1 1) ∧ s.portLive .a 0 = true ∧ (s.port .a 0).state = .up ∧ (s.port .a 0).helloOk = true ∧
      s.initiates .a 0 = false ∧ (Config.chainOk [] = true → t.farRefused .a 0 m = none) ∧ (∃ r, t.farRefused .a 0 n = some r) ∧ s.pwr.hostOn = true) ∧
    (∃ s : State, s.initiates .a 0 = true) ∧
    (∃ (s t : State) (m n : AuthMsg) (own : BitVec 64), AuthCame s t (leBytes 1 2) ∧
      (s.port .a 0).auth = some { initiator := true, accepted := false, own := own } ∧
      (Config.chainOk [] = true → t.farRefused .a 0 m = none) ∧ (∃ r, t.farRefused .a 0 n = some r) ∧ s.pwr.hostOn = true) ∧
    (∃ s : State, (s.port .a 0).auth = none) ∧
    (∃ (s t : State) (a : Auth) (k : BitVec 64) (e : Nat), AuthCame s t (leBytes 1 3) ∧ (s.port .a 0).auth = some a ∧ a.initiator = false ∧
      (s.port .a 0).nextKeys = some (k, e) ∧ s.pwr.hostOn = true) := by
  refine ⟨⟨authing 1 none none none (leBytes 1 1), _, farMsg 1, farMsg 9, ⟨_, by rfl, by decide +kernel, rfl⟩, by decide +kernel, by decide +kernel,
      by decide +kernel, by decide +kernel, ?_⟩,
    ⟨linked {} 0, by decide +kernel⟩,
    ⟨authing 0 (some ⟨true, false, 7⟩) none none (leBytes 1 2), _, farMsg 2, farMsg 9, 7, ⟨_, by rfl, by decide +kernel, rfl⟩, by decide +kernel, ?_⟩,
    ⟨{}, by decide +kernel⟩,
    ⟨authing 1 (some ⟨false, true, 7⟩) (some (5, 0)) none (leBytes 1 3), _, ⟨false, true, 7⟩, 5, 0, ⟨_, by rfl, by decide +kernel, rfl⟩, by decide +kernel⟩⟩
  · exact ⟨(far_refused _ 1 (by decide) (by rfl) (by decide +kernel)).1, (far_refused _ 1 (by decide) (by rfl) (by decide +kernel)).2, rfl⟩
  · exact ⟨(far_refused _ 0 (by decide) (by rfl) (by decide +kernel)).1, (far_refused _ 0 (by decide) (by rfl) (by decide +kernel)).2, rfl⟩

theorem hyps_LinkAuthEnds :
    (∃ (s t : State) (r : Nat), AuthCame s t (leBytes 1 6 ++ leBytes 1 r) ∧ (s.port .a 0).auth.isSome = true) ∧
    (∃ s : State, (s.port .a 0).auth = none) ∧
    (∃ s : State, s.portLive .a 0 = true ∧ (s.port .a 0).state = .up ∧ (s.port .a 0).helloOk = true ∧ (s.port .a 0).keys = none ∧
      (s.port .a 0).auth = none ∧ s.initiates .a 0 = true) ∧ ∃ s : State, (s.port .a 0).helloOk = false :=
  ⟨⟨authing 0 (some ⟨true, false, 7⟩) none none (leBytes 1 6 ++ leBytes 1 3), _, 3, ⟨_, by rfl, by decide +kernel, rfl⟩, by decide +kernel⟩,
   ⟨{}, by decide +kernel⟩, ⟨linked {} 0, by decide +kernel⟩, ⟨{}, by decide +kernel⟩⟩

theorem hyps_KeyEpochs :
    (∃ (s t : State) (k : BitVec 64) (e : Nat), (s.port .a 0).keys = some (k, e) ∧ (s.port .a 0).updating = false ∧ s.initiates .a 0 = true ∧
      (t.port .a 0).keys = some (k, e) ∧ t.initiates .a 0 = false) ∧
    (∀ next : Bool, ∃ (s t : State) (k : BitVec 64) (e n : Nat), (s.port .a 0).keys = some (k, e) ∧ AuthCame s t (leBytes 1 4 ++ leBytes 4 n) ∧
      (s.port .a 0).updating = false ∧ n ≠ e ∧ (n = e + 1 ↔ next = true)) ∧
    (∃ (s t : State) (k k' : BitVec 64) (e n : Nat), (s.port .a 0).keys = some (k, e) ∧ AuthCame s t (leBytes 1 5 ++ leBytes 4 n) ∧ n = e + 1 ∧
      (s.port .a 0).updating = true ∧ (s.port .a 0).nextKeys = some (k', n)) :=
  ⟨⟨authing 0 none none (some (5, 0)) [4], authing 1 none none (some (5, 0)) [4], 5, 0, by decide +kernel⟩,
   fun next => ⟨authing 1 none none (some (5, 0)) (leBytes 1 4 ++ leBytes 4 (if next then 1 else 2)), _, 5, 0, if next then 1 else 2, by cases next <;> rfl,
     ⟨heardAs 1 0 (.auth 4 (leBytes 4 (if next then 1 else 2))), by cases next <;> decide +kernel, by cases next <;> decide +kernel, rfl⟩,
     by cases next <;> decide +kernel⟩,
   ⟨(authing 0 none (some (6, 1)) (some (5, 0)) (leBytes 1 5 ++ leBytes 4 1)).modPort .a 0 fun x => { x with updating := true }, _, 5, 6, 0, 1,
     by decide +kernel, ⟨heardAs 0 1 (.auth 5 (leBytes 4 1)), by decide +kernel, by decide +kernel, rfl⟩, by decide +kernel⟩⟩

/-! ### Time and the trigger bus: states that meet the hypotheses -/

/-- A launch entry of the tenant that holds partition 0. -/
def lentry (time : Nat) : Launch :=
  { tenant := true, kind := 1, view := 0, lines := 0, message := false, time := time, partition := 0, ring := 64, tag := 7, armed := true }

/-- Launch entry 15 of HUB-A taken. -/
def launching (s : State) (l : Launch) : State := s.modTime .a fun t => { t with launches := [(15, some l)] }

/-- The running design waits for its launch. -/
def awaiting : Design := { runner with run := some { ring := 1, tag := 3, left := none, waitLaunch := true } }

theorem hyps_LaunchesFire :
    (∃ (s t u : State) (c : Ch) (e : Nat) (l k : Launch) (d : Design) (m : Cmd), R.launch c e = none ∧
      (s.launch c e = some l ∧ s.launchDue c l = false) ∧
      (t.launch c e = some k ∧ t.launchDue c k = true ∧ k.kind = 1 ∧ k.tenant = true ∧ t.designAt k.partition = some d ∧
        t.cmd k.ring k.tag = some m ∧ d.slots = []) ∧ u.silent = false) ∧
    (∃ (s t : State) (c : Ch) (src k p : Nat) (frame : BitVec 48) (h : Heard), ArrivedOn s c (some src) (.runStart 0 frame k) p h t ∧
      ∀ d ∈ s.designs, d.run.map (·.waitLaunch) ≠ some true ∨ d.slots.any (fun b => b.remote == src) = false ∨ BitVec.ofNat 48 d.frame ≠ frame) ∧
    ∃ (s t : State) (c : Ch) (src k p : Nat) (frame : BitVec 48) (h : Heard) (d : Design), ArrivedOn s c (some src) (.runStart 0 frame k) p h t ∧
      s.designs = [d] ∧ d.run.map (·.waitLaunch) = some true ∧ d.slots.any (fun b => b.remote == src) = true ∧ BitVec.ofNat 48 d.frame = frame :=
  ⟨⟨launching R (lentry 1), launching (on (holding R awaiting) (cmd 64 0x78 0 [])) (lentry 0), R, .a, 15,
      lentry 1, lentry 0, awaiting, cmd 64 0x78 0 [], by decide +kernel, by decide +kernel, by decide +kernel, by decide⟩,
    ⟨linkHears R 0 (.runStart 0 1 9), _, .a, 1, 9, 0, 1, heardAs 0 1 (.runStart 0 1 9), ⟨⟨by decide +kernel, by decide +kernel, rfl⟩, by decide +kernel⟩, by decide⟩,
    ⟨linkHears (holding R { awaiting with slots := [⟨0, 1, 0⟩] }) 0 (.runStart 0 0 9), _, .a, 1, 9, 0, 0, heardAs 0 1 (.runStart 0 0 9),
      { awaiting with slots := [⟨0, 1, 0⟩] }, ⟨⟨by decide +kernel, by decide +kernel, rfl⟩, by decide +kernel⟩, by decide +kernel⟩⟩

theorem hyps_Views : ∃ (s : State) (c : Ch) (v : Nat), s.portAnswers = true ∧ (s.pw c).state.hubOn = true ∧ (1#32).getLsbD 0 = true ∧ (0#32).getLsbD 0 = false ∧ v < 6 ∧
    (s.ch c).time.launches = [] ∧ (8#32).getLsbD 3 = true ∧ (8#32).toNat % 8 = 0 ∧ (11#32).toNat % 8 = 3 ∧ (10#32).toNat % 8 = 2 :=
  ⟨R, .a, 5, by decide⟩

/-- View 5 of HUB-A as a slave on port 7. -/
def slaved (s : State) (x : View) : State := (s.setReg .timViewCfg .a [5] 0xFFFF8009#32).modView .a 5 fun _ => x

/-- A message of module 1 for domain 5. -/
def timing (seconds : Nat) : TimeMsg := { src := 1, domain := 5, seq := 65535, correction := 0, seconds := seconds, ns := 0 }

/-- A view with a master and one path delay. -/
def tracking (st : ViewState) (stepped : Bool) : View :=
  { state := st, hasMaster := true, master := 1, delays := [0], stepped := stepped, reqAt := some (65535, 0), best := some ⟨128, 248, 254, 65535, 128, 9, 0⟩ }

/-- A message from module `src` waits on port 7 of HUB-A, its head flit resent or not. -/
def timed (s : State) (resent : Bool) (src : Nat) (m : Sent) : State := hearing (carrying s .a 7) .a 7 { heardAs 0 src m with resent := resent }

/-- It has arrived, at raw value 0. -/
abbrev TimeCame (s t : State) (resent : Bool) (src : Nat) (m : Sent) (h : Heard) : Prop :=
  s.carries .a 7 = true ∧ Arrived s .a 7 (some src) m h t ∧ h.resent = resent ∧ h.arrived = 0

theorem timeCame (s : State) (resent : Bool) (src : Nat) (m : Sent) (h1 : (timed s resent src m).carries .a 7 = true)
    (h2 : (timed s resent src m).heard .a 7 (kindOf m.parts.1 m.parts.2.1) = some { heardAs 0 src m with resent := resent })
    (h3 : ({ heardAs 0 src m with resent := resent } : Heard).is (some src) m = true) :
    ∃ t, TimeCame (timed s resent src m) t resent src m { heardAs 0 src m with resent := resent } := ⟨_, h1, ⟨h2, h3, rfl⟩, rfl, rfl⟩

theorem sixteenths_small (s : State) : s.sixteenths < 2 ^ 32 := by
  have : s.free.toNat % 16 < 16 := Nat.mod_lt _ (by decide)
  simp only [State.sixteenths]
  omega

theorem stamp_small (s : State) (c : Ch) (h : (s.ch c).time.raw = 0) : s.rawStamp c < 2 ^ 32 := by
  simp only [State.rawStamp, State.rawNow, h]
  have := sixteenths_small s
  show 0 + _ < _
  omega

/-- A view of rate and offset 0 reads the raw counter. -/
theorem view_reads (x : View) (raw : Nat) (h1 : x.rate = 0) (h2 : x.offset = 0) (h3 : x.state ≠ .disabled) : viewAt 5 x raw = raw := by
  simp [viewAt, h1, h2, h3]

theorem jump_R (s : State) (h : s.jumpNs .a = R.jumpNs .a) : 1 ≤ s.jumpNs .a ∧ s.jumpNs .a ≤ 1000000000 := by
  rw [h]; decide +kernel

/-- What the servo measures of a message that names `sec` seconds lies within one nanosecond of it. -/
theorem measured (s : State) (x : View) (sec : Nat) (h1 : x.rate = 0) (h2 : x.offset = 0) (h3 : x.state ≠ .disabled) :
    0 ≤ viewAt 5 x (0 + s.sixteenths) - timeOf (timing sec) - 0 + sec * 1000000000 * 2 ^ 32 ∧
    viewAt 5 x (0 + s.sixteenths) - timeOf (timing sec) - 0 + sec * 1000000000 * 2 ^ 32 < 2 ^ 32 := by
  have := sixteenths_small s
  rw [view_reads x _ h1 h2 h3]
  simp only [timeOf, timing]
  constructor <;> omega

theorem within (j o : Int) (hj : 1 ≤ j) (h1 : 0 ≤ o + ((0 : Nat) : Int) * 1000000000 * 2 ^ 32)
    (h2 : o + ((0 : Nat) : Int) * 1000000000 * 2 ^ 32 < 2 ^ 32) : o.natAbs ≤ j * 2 ^ 32 := by omega

theorem beyond (j o : Int) (hj : j ≤ 1000000000) (h1 : 0 ≤ o + ((5 : Nat) : Int) * 1000000000 * 2 ^ 32)
    (h2 : o + ((5 : Nat) : Int) * 1000000000 * 2 ^ 32 < 2 ^ 32) : j * 2 ^ 32 < o.natAbs := by omega

/-- Half of what lies between a request at `t1` and an arrival within a nanosecond of raw value 0. -/
theorem half_far (n : Nat) : 100 * 2 ^ 32 < (((((n : Int) - (-2 ^ 50)) - (0 + 0) * 2 ^ 16) / 2) - 0).natAbs := by omega

theorem half_near (n : Nat) (h : n < 2 ^ 32) : (((((n : Int) - 0) - (0 + 0) * 2 ^ 16) / 2) - 0).natAbs ≤ 100 * 2 ^ 32 := by omega

/-- A Sync of the master of view 5, which is `x`. -/
def syncing (x : View) (sec : Nat) : State := timed (slaved R x) false 1 (.time 0 0 (timing sec))

/-- It has arrived, and measures `o`. -/
abbrev Measures (s t : State) (m : TimeMsg) (x : View) (h : Heard) (raw : Nat) (pd o : Int) : Prop :=
  x = s.view .a m.domain ∧ TimeCame s t false m.src (.time 0 0 m) h ∧ s.takesTime .a 7 m = true ∧ x.hasMaster = true ∧ x.master = m.src ∧
    x.pathDelay = some pd ∧ raw = h.arrived + s.sixteenths ∧ o = viewAt m.domain x raw - timeOf m - pd

/-- The Sync as it waits. -/
def syncWord (sec : Nat) : Heard := { heardAs 0 1 (.time 0 0 (timing sec)) with resent := false }

theorem measures (x : View) (sec : Nat) (h1 : (syncing x sec).carries .a 7 = true)
    (h2 : (syncing x sec).heard .a 7 (kindOf (Sent.time 0 0 (timing sec)).parts.1 (Sent.time 0 0 (timing sec)).parts.2.1) = some (syncWord sec))
    (h3 : (syncWord sec).is (some 1) (.time 0 0 (timing sec)) = true) (h4 : (syncing x sec).takesTime .a 7 (timing sec) = true)
    (h5 : x.hasMaster = true) (h6 : x.master = 1) (h7 : x.pathDelay = some 0) (h8 : (syncing x sec).view .a 5 = x) :
    ∃ t, Measures (syncing x sec) t (timing sec) x (syncWord sec) (0 + (syncing x sec).sixteenths) 0
      (viewAt 5 x (0 + (syncing x sec).sixteenths) - timeOf (timing sec) - 0) :=
  ⟨_, h8.symm, ⟨h1, ⟨h2, h3, rfl⟩, rfl, rfl⟩, h4, h5, h6, h7, rfl, rfl⟩

theorem hyps_Servo :
    (∃ (s t : State) (m : TimeMsg) (h : Heard), TimeCame s t true m.src (.time 0 0 m) h) ∧
    (∃ (s t : State) (m : TimeMsg) (x : View) (h : Heard) (raw : Nat) (pd o : Int), Measures s t m x h raw pd o ∧ x.stepped = false ∧
      (s.ch .a).time.launches = []) ∧
    (∃ (s t : State) (m : TimeMsg) (x : View) (h : Heard) (raw : Nat) (pd o : Int), Measures s t m x h raw pd o ∧ x.stepped = true ∧
      o.natAbs ≤ s.jumpNs .a * 2 ^ 32) ∧
    (∀ refused : Bool, ∃ (s t : State) (m : TimeMsg) (x : View) (h : Heard) (raw : Nat) (pd o : Int), Measures s t m x h raw pd o ∧ x.stepped = true ∧
      s.jumpNs .a * 2 ^ 32 < o.natAbs ∧ (x.state = .refused ↔ refused = true)) ∧
    (∃ (s t : State) (c : Ch), s.viewIs c 5 1 = true ∧ (s.view c 5).state = .locked ∧ t.viewIs c 5 1 = false) := by
  obtain ⟨t0, h0⟩ := timeCame R true 1 (.time 0 0 (timing 0)) (by decide +kernel) (by decide +kernel) (by decide +kernel)
  obtain ⟨t1, h1⟩ := measures (tracking .acquiring false) 0 (by decide +kernel) (by decide +kernel) (by decide +kernel) (by decide +kernel) rfl rfl rfl rfl
  obtain ⟨t2, h2⟩ := measures (tracking .locked true) 0 (by decide +kernel) (by decide +kernel) (by decide +kernel) (by decide +kernel) rfl rfl rfl rfl
  obtain ⟨t3, h3⟩ := measures (tracking .locked true) 5 (by decide +kernel) (by decide +kernel) (by decide +kernel) (by decide +kernel) rfl rfl rfl rfl
  obtain ⟨t4, h4⟩ := measures (tracking .refused true) 5 (by decide +kernel) (by decide +kernel) (by decide +kernel) (by decide +kernel) rfl rfl rfl rfl
  have j2 := jump_R (syncing (tracking .locked true) 0) (by decide +kernel)
  have j3 := jump_R (syncing (tracking .locked true) 5) (by decide +kernel)
  have j4 := jump_R (syncing (tracking .refused true) 5) (by decide +kernel)
  have m2 := measured (syncing (tracking .locked true) 0) (tracking .locked true) 0 rfl rfl (by decide)
  have m3 := measured (syncing (tracking .locked true) 5) (tracking .locked true) 5 rfl rfl (by decide)
  have m4 := measured (syncing (tracking .refused true) 5) (tracking .refused true) 5 rfl rfl (by decide)
  have k2 := within ((syncing (tracking .locked true) 0).jumpNs .a)
    (viewAt 5 (tracking .locked true) (0 + (syncing (tracking .locked true) 0).sixteenths) - timeOf (timing 0) - 0) j2.1 m2.1 m2.2
  refine ⟨⟨_, t0, timing 0, _, h0⟩, ⟨_, t1, timing 0, _, _, _, _, _, h1, rfl, rfl⟩, ⟨_, t2, timing 0, _, _, _, _, _, h2, rfl, k2⟩, fun refused => ?_,
    ⟨slaved R (tracking .locked true), R, .a, by decide +kernel⟩⟩
  cases refused
  · exact ⟨_, t3, timing 5, _, _, _, _, _, h3, rfl, beyond _ _ j3.2 m3.1 m3.2, by decide⟩
  · exact ⟨_, t4, timing 5, _, _, _, _, _, h4, rfl, beyond _ _ j4.2 m4.1 m4.2, by decide⟩

/-- Datasets that view 5's master sent, and one that is better. -/
def dsNow : Dataset := ⟨128, 248, 254, 65535, 128, 9, 0⟩
def dsBetter : Dataset := ⟨127, 248, 254, 65535, 128, 8, 0⟩

/-- An Announce has arrived that view 5, which is `x`, takes. -/
abbrev Announced (s t : State) (m : TimeMsg) (ds : Dataset) (x : View) (h : Heard) (takes : Bool) : Prop :=
  x = s.view .a m.domain ∧ TimeCame s t false m.src (.announce 0 m ds) h ∧ s.takesTime .a 7 m = takes

theorem announced (s : State) (src : Nat) (ds : Dataset) (takes : Bool) (m : TimeMsg) (hm : m = { timing 0 with src := src })
    (h1 : (timed s false src (.announce 0 m ds)).carries .a 7 = true)
    (h2 : (timed s false src (.announce 0 m ds)).heard .a 7 (kindOf (Sent.announce 0 m ds).parts.1 (Sent.announce 0 m ds).parts.2.1) =
      some { heardAs 0 src (.announce 0 m ds) with resent := false })
    (h3 : ({ heardAs 0 src (.announce 0 m ds) with resent := false } : Heard).is (some src) (.announce 0 m ds) = true)
    (h4 : (timed s false src (.announce 0 m ds)).takesTime .a 7 m = takes) :
    ∃ t h, Announced (timed s false src (.announce 0 m ds)) t m ds ((timed s false src (.announce 0 m ds)).view .a m.domain) h takes := by
  subst hm
  exact ⟨_, _, rfl, ⟨h1, ⟨h2, h3, rfl⟩, rfl, rfl⟩, h4⟩

theorem hyps_Masters :
    (∃ (s t : State) (m : TimeMsg) (ds : Dataset) (x : View) (h : Heard), Announced s t m ds x h false) ∧
    (∃ (s t : State) (m : TimeMsg) (ds : Dataset) (x : View) (h : Heard), Announced s t m ds x h true ∧ x.hasMaster = true ∧ x.master = m.src) ∧
    (∃ (s t : State) (m : TimeMsg) (ds : Dataset) (x : View) (h : Heard), Announced s t m ds x h true ∧ x.hasMaster = false) ∧
    (∀ better : Bool, ∃ (s t : State) (m : TimeMsg) (ds : Dataset) (x : View) (h : Heard) (b : Dataset), Announced s t m ds x h true ∧
      x.hasMaster = true ∧ x.master ≠ m.src ∧ x.best = some b ∧ betterMaster ds b = better) ∧
    (∃ (s t : State) (c : Ch) (v : Nat), s.viewIs c v 1 = true ∧ (s.view c v).hasMaster = true ∧ (t.view c v).hasMaster = false) := by
  obtain ⟨t0, h0, a0⟩ := announced R 1 dsNow false _ rfl (by decide +kernel) (by decide +kernel) (by decide +kernel) (by decide +kernel)
  obtain ⟨t1, h1, a1⟩ := announced (slaved R (tracking .locked true)) 1 dsNow true _ rfl (by decide +kernel) (by decide +kernel) (by decide +kernel) (by decide +kernel)
  obtain ⟨t2, h2, a2⟩ := announced (slaved R { state := .acquiring }) 1 dsNow true _ rfl (by decide +kernel) (by decide +kernel) (by decide +kernel) (by decide +kernel)
  obtain ⟨t3, h3, a3⟩ := announced (slaved R (tracking .locked true)) 2 dsNow true _ rfl (by decide +kernel) (by decide +kernel) (by decide +kernel) (by decide +kernel)
  obtain ⟨t4, h4, a4⟩ := announced (slaved R (tracking .locked true)) 2 dsBetter true _ rfl (by decide +kernel) (by decide +kernel) (by decide +kernel) (by decide +kernel)
  refine ⟨⟨_, t0, _, _, _, h0, a0⟩, ⟨_, t1, _, _, _, h1, a1, rfl, rfl⟩, ⟨_, t2, _, _, _, h2, a2, rfl⟩, fun better => ?_,
    ⟨slaved R (tracking .locked true), R, .a, 5, by decide +kernel⟩⟩
  cases better
  · exact ⟨_, t3, _, _, _, h3, dsNow, a3, rfl, by decide +kernel, rfl, by decide⟩
  · exact ⟨_, t4, _, _, _, h4, dsNow, a4, rfl, by decide +kernel, rfl, by decide⟩

/-- View 5 of HUB-A as a master. -/
def mastering (s : State) : State := (s.setReg .timViewCfg .a [5] 10#32).modView .a 5 fun _ => { state := .running }

/-- An answer to the request that view 5, which is `x`, sent. -/
def answering (x : View) : State := timed (slaved R x) false 1 (.time 0 3 (timing 0))

/-- It has arrived: the request left at `t1`, and the path delay comes out as `pd`. -/
abbrev Answered (s t : State) (m : TimeMsg) (x : View) (h : Heard) (turn : Nat) (t1 pd : Int) : Prop :=
  x = s.view .a m.domain ∧ TimeCame s t false m.src (.time 0 3 m) h ∧ s.takesTime .a 7 m = true ∧ x.master = m.src ∧
    x.reqAt = some (m.seq.toNat, t1) ∧ pd = ((viewAt m.domain x (h.arrived + s.sixteenths) - t1) - (turn + m.correction) * 2 ^ 16) / 2

/-- The answer as it waits. -/
def answerWord : Heard := { heardAs 0 1 (.time 0 3 (timing 0)) with resent := false }

theorem answered (x : View) (t1 : Int) (h1 : (answering x).carries .a 7 = true)
    (h2 : (answering x).heard .a 7 (kindOf (Sent.time 0 3 (timing 0)).parts.1 (Sent.time 0 3 (timing 0)).parts.2.1) = some answerWord)
    (h3 : answerWord.is (some 1) (.time 0 3 (timing 0)) = true) (h4 : (answering x).takesTime .a 7 (timing 0) = true)
    (h5 : x.master = 1) (h6 : x.reqAt = some (65535, t1)) (h7 : (answering x).view .a 5 = x) :
    ∃ t, Answered (answering x) t (timing 0) x answerWord 0 t1 (((viewAt 5 x (0 + (answering x).sixteenths) - t1) - (0 + 0) * 2 ^ 16) / 2) :=
  ⟨_, h7.symm, ⟨h1, ⟨h2, h3, rfl⟩, rfl, rfl⟩, h4, h5, h6, rfl⟩

theorem hyps_PathDelays :
    (∃ (s t : State) (c : Ch), s.viewIs c 5 1 = true ∧ (s.view c 5).hasMaster = true ∧ t.viewIs c 5 1 = false ∧ t.viewIs c 5 2 = false) ∧
    (∀ resent : Bool, ∃ (s t : State) (m : TimeMsg) (h : Heard), TimeCame s t resent m.src (.time 0 2 m) h ∧ s.viewIs .a m.domain 2 = true) ∧
    (∃ (s t : State) (m : TimeMsg) (x : View) (h : Heard) (turn : Nat) (t1 pd mean : Int), Answered s t m x h turn t1 pd ∧ x.pathDelay = some mean ∧
      (pd - mean).natAbs ≤ 100 * 2 ^ 32) ∧
    (∃ (s t : State) (m : TimeMsg) (x : View) (h : Heard) (turn : Nat) (t1 pd mean : Int), Answered s t m x h turn t1 pd ∧ x.pathDelay = some mean ∧
      100 * 2 ^ 32 < (pd - mean).natAbs) ∧
    (∃ (s t : State) (m : TimeMsg) (h : Heard), TimeCame s t false m.src (.time 0 3 m) h ∧ (s.view .a m.domain).reqAt = none) ∧
    (∃ (s t : State) (c : Ch), s.viewIs c 5 2 = true ∧ s.reachable c = [1] ∧ t.carries c 7 = false) := by
  obtain ⟨t1, a1⟩ := answered (tracking .locked true) 0 (by decide +kernel) (by decide +kernel) (by decide +kernel) (by decide +kernel) rfl rfl rfl
  obtain ⟨t2, a2⟩ := answered { tracking .locked true with reqAt := some (65535, -2 ^ 50) } (-2 ^ 50) (by decide +kernel) (by decide +kernel) (by decide +kernel)
    (by decide +kernel) rfl rfl rfl
  obtain ⟨t3, a3⟩ := timeCame R false 1 (.time 0 3 (timing 0)) (by decide +kernel) (by decide +kernel) (by decide +kernel)
  refine ⟨⟨slaved R (tracking .locked true), R, .a, by decide +kernel⟩, fun resent => ?_, ⟨_, t1, timing 0, _, _, 0, _, _, 0, a1, rfl, ?_⟩,
    ⟨_, t2, timing 0, _, _, 0, _, _, 0, a2, rfl, ?_⟩, ⟨_, t3, timing 0, _, a3, by decide +kernel⟩, ⟨mastering (linked R 0), R, .a, by decide +kernel⟩⟩
  · obtain ⟨t, a⟩ := timeCame (mastering R) resent 1 (.time 0 2 (timing 0)) (by cases resent <;> decide +kernel) (by cases resent <;> decide +kernel)
      (by cases resent <;> decide +kernel)
    exact ⟨_, t, timing 0, _, a, by cases resent <;> decide +kernel⟩
  · rw [view_reads _ _ rfl rfl (by decide)]
    have h := half_near (0 + (answering (tracking .locked true)).sixteenths) (by rw [Nat.zero_add]; exact sixteenths_small _)
    exact h
  · rw [view_reads _ _ rfl rfl (by decide)]
    exact half_far _

theorem hyps_FollowersAndClocks : ∃ (s t u v w x : State) (c : Ch),
    R.viewIs .a 0 3 = false ∧
    (s.viewIs c 0 3 = true ∧ (s.pw (otherCh c)).state.hubOn = false ∧ (s.view c 0).state = .locked) ∧
    (t.viewIs c 0 3 = true ∧ (t.pw (otherCh c)).state.hubOn = false ∧ (t.view c 0).state ≠ .locked) ∧
    (R.viewIs c 0 3 = true ∧ (R.pw (otherCh c)).state.hubOn = true ∧ otherCh c ∈ R.channels ∧ (R.view (otherCh c) 0).state ≠ .disabled ∧
      (R.ch c).time.launches = [] ∧ (R.view c 0).stepped = false) ∧
    (u.viewIs c 0 3 = true ∧ (u.pw (otherCh c)).state.hubOn = true ∧ (u.view (otherCh c) 0).state ≠ .disabled ∧ (u.ch c).time.launches = [] ∧
      (u.view c 0).stepped = true ∧ (u.viewNow (otherCh c) 0 - u.viewNow c 0).natAbs ≤ 4 * 2 ^ 32) ∧
    ((v.ch c).time.sysclk = true ∧ (v.pw c).state.hubOn = true ∧ v.viewIs c 5 4 = true) ∧
    ((w.ch c).time.sysclk = false ∧ (w.pw c).state.hubOn = true ∧ w.viewIs c 5 4 = true ∧ w.viewIs c 0 4 = false) ∧
    (x.hostOsc.2 = false ∧ x.pwr.hostOn = true ∧ (x.ch c).time.oscFailed = false ∧ (x.pw c).state.hubOn = true) :=
  ⟨(R.modView .b 0 fun x => { x with state := .locked }).modPw .a fun p => { p with state := .aux }, R.modPw .a fun p => { p with state := .aux },
    R.modView .b 0 fun x => { x with state := .locked, stepped := true, offset := -4 * 2 ^ 32 },
    (((R.setReg .timViewCfg .b [5] 12#32).modView .b 5 fun _ => { state := .locked }).modTime .b fun t => { t with sysclk := true }),
    (R.setReg .timViewCfg .b [5] 12#32).modView .b 5 fun _ => { state := .locked }, R, .b, by decide, by decide, by decide, by decide, by decide +kernel,
    by decide +kernel, by decide +kernel, by decide⟩

/-- Line 3 of HUB-A enabled, last accepted at a time. -/
def lined (last : Option Nat) : State :=
  (R.setReg .timTrigCfg .a [3] 0x1000#32).modTime .a fun t => { t with lines := [(3, { last := last })] }

theorem hyps_TriggerBus : ∃ (s t u : State) (c : Ch) (line ns : Nat), line < 4 ∧ 5 ≤ ns ∧ R.pwr.hostOn = true ∧
    ((s.pw c).state.hubOn = true ∧ (∀ h ∈ s.channels, (KV.get ({} : Line) line (s.ch h).time.lines).pulseEnd = none) ∧
      (s.reg .timTrigCfg c [line]).getLsbD 12 = true ∧ (KV.get ({} : Line) line (s.ch c).time.lines).last = none) ∧
    ((t.pw c).state.hubOn = true ∧ (∀ h ∈ t.channels, (KV.get ({} : Line) line (t.ch h).time.lines).pulseEnd = none) ∧
      (KV.get ({} : Line) line (t.ch c).time.lines).last = some 0 ∧
      t.rawStamp c + (t.reg .timTrigCfg c [line]).toNat % 4096 * 2 ^ 32 / 100 < 0 + 40 * 2 ^ 32) ∧
    ((u.pw c).state.hubOn = true ∧ (∀ h ∈ u.channels, (KV.get ({} : Line) line (u.ch h).time.lines).pulseEnd = none) ∧
      (u.reg .timTrigCfg c [line]).getLsbD 12 = false) := by
  refine ⟨lined none, lined (some 0), R, .a, 3, 5, by decide, by decide, rfl, by decide +kernel,
    ⟨by decide, by decide +kernel, by decide +kernel, ?_⟩, by decide +kernel⟩
  have := stamp_small (lined (some 0)) .a rfl
  have h : ((lined (some 0)).reg .timTrigCfg .a [3]).toNat % 4096 = 0 := by decide +kernel
  rw [h]
  omega

/-! ### Recovery: states that meet the hypotheses -/

/-- A TWINNED design at the end of its frame, its repairs and the Cabinets of both copies given. -/
def twinned (begun : Bool) (crc : Word64) (rs : List (Nat × Nat × Nat)) : Design :=
  { cleared 4 with
    twin := true, trB := { cleared := 4 }, begun := begun, repairs := rs,
    cabs := (List.range 16).map (fun l => (l, { next := 4, crc := 0 })) ++ (List.range 16).map (fun l => (l + 64, { next := 4, crc := if l = 15 then crc else 0 })) }

/-- A state in TWINNED mode that runs a design. -/
def twinMode (d : Design) : State := (live d).modMode fun x => { x with mode := .twinned, referee := .armed }

theorem hyps_TwinVerdicts : ∃ (s t u : State) (p : Nat) (c d : Design) (q l : Nat), (s.designAt p = some (cleared 4) ∧ (cleared 4).stepsDone = false) ∧
    (t.designAt p = some c ∧ t.design c.tag = some c ∧ c.twinAlive = true ∧ c.stepsDone = true ∧ t.macsDone c = true ∧ c.verdict = none ∧
      t.mode.refLost = false ∧ t.host.perst = false ∧ ∀ q ∈ c.targets, ∀ l ∈ cabsOfPart q, c.sig l = c.sig (l ^^^ 64)) ∧
    (u.designAt p = some d ∧ u.design d.tag = some d ∧ d.twinAlive = true ∧ d.stepsDone = true ∧ u.macsDone d = true ∧ d.verdict = none ∧
      u.mode.refLost = false ∧ u.host.perst = false ∧ q ∈ d.targets ∧ l ∈ cabsOfPart q ∧ d.sig l ≠ d.sig (l ^^^ 64)) :=
  ⟨twinMode (cleared 4), twinMode (twinned true 0 []), twinMode (twinned true 1 []), 0, twinned true 0 [], twinned true 1 [], 0, 15,
    ⟨by decide +kernel, by decide +kernel⟩,
    ⟨by decide +kernel, by decide +kernel, by decide, by decide +kernel, by decide +kernel, rfl, by decide, by decide, by decide +kernel⟩,
    ⟨by decide +kernel, by decide +kernel, by decide, by decide +kernel, by decide +kernel, rfl, by decide, by decide, by decide, by decide +kernel,
      by decide +kernel⟩⟩

/-- A state whose spare Cabinets of die 0 of channel A have failed. -/
def spareless (s : State) : State := (s.modCab .a 0 32 fun p => { p with failed := true }).modCab .a 0 33 fun p => { p with failed := true }

theorem hyps_TwinRepairs : ∃ (s t u : State) (p l i die sp rot : Nat) (d e : Design), l < 64 ∧
    (s.designAt p = some d ∧ s.design d.tag = some d ∧ d.repairs = [(3, l, 0)] ∧ d.twinAlive = true ∧ d.begun = false ∧
      s.physOf l = some (.a, die, i) ∧ s.spares .a die = [sp, rot] ∧ sp ≠ i ∧ rot ≠ i ∧ rot ≠ sp ∧ s.pwr.hostOn = true) ∧
    (t.designAt p = some d ∧ t.design d.tag = some d ∧ t.physOf l = some (.a, die, i) ∧ t.spares .a die = [] ∧ t.designs = [d] ∧ t.loads = [] ∧
      d.slots = [] ∧ t.chA.fenced = false ∧ t.mode.mode = .twinned ∧ t.pwr.hostOn = true) ∧
    (u.designAt p = some e ∧ u.design e.tag = some e ∧ e.repairs = [(3, l, 0)] ∧ e.twinAlive = true ∧ u.physOf l = some (.a, die, i) ∧
      e.begun = true) :=
  ⟨twinMode (twinned false 1 [(3, 15, 0)]), spareless (twinMode (twinned false 1 [(3, 15, 0)])), twinMode (twinned true 1 [(3, 15, 0)]), 0, 15, 15, 0,
    33, 32, twinned false 1 [(3, 15, 0)], twinned true 1 [(3, 15, 0)], by decide,
    ⟨by decide +kernel, by decide +kernel, rfl, by decide, rfl, by decide +kernel, by decide +kernel, by decide, by decide, by decide, by decide⟩,
    ⟨by decide +kernel, by decide +kernel, by decide +kernel, by decide +kernel, by decide +kernel, by decide +kernel, rfl, by decide +kernel,
      by decide +kernel, by decide⟩,
    by decide +kernel, by decide +kernel, rfl, by decide, by decide +kernel, rfl⟩

theorem hyps_TwinCopies : ∃ (s t : State) (p l : Nat) (d e : Design), (s.designAt p = some d ∧ s.design d.tag = some d ∧ d.repairs = [(6, l, 0)] ∧
      s.mode.referee = .repair) ∧
    (t.designAt p = some e ∧ t.design e.tag = some e ∧ ∀ r ∈ e.repairs, r.1 ≠ 6) :=
  ⟨(twinMode (twinned false 1 [(6, 15, 0)])).modMode fun x => { x with referee := .repair }, twinMode (twinned false 1 [(3, 15, 0)]), 0, 15,
    twinned false 1 [(6, 15, 0)], twinned false 1 [(3, 15, 0)], ⟨by decide +kernel, by decide +kernel, rfl, by decide +kernel⟩,
    by decide +kernel, by decide +kernel, by decide⟩

/-- A DEGRADED state in which channel A is fenced, its rejoin as given. -/
def degraded (j : Option Nat) (tested : Bool) : State :=
  ((twinMode { twinned false 0 [] with fencedSide := some .a }).modMode fun x =>
    { x with referee := .degraded, rejoin := j, rejoinTested := tested }).modCh .a fun h => { h with fenced := true }

theorem hyps_Rejoins : ∃ (s t u : State) (v w : Word32), (s.portAnswers = true ∧ v.getLsbD 0 = true ∧ s.mode.referee = .degraded ∧ s.mode.rejoin = none) ∧
    (w.getLsbD 0 = false ∧ v.getLsbD 0 = true ∧ R.mode.referee ≠ .degraded) ∧ (t.mode.rejoin.isSome = true ∧ t.mode.rejoinTested = false) ∧
    (u.mode.rejoin.isSome = true ∧ u.mode.rejoinTested = true ∧ 8192 < 8193 ∧ u.pwr.hostOn = true ∧
      ∀ d ∈ u.designs, d.twin = true → (d.state = .stopped ∨ d.atBoundary = true) ∧ d.repairs = []) :=
  ⟨degraded none false, degraded (some 9000) false, degraded (some 9000) true, 1, 0, by decide +kernel, by decide +kernel, by decide +kernel,
    by decide +kernel⟩

/-- A MIRRORED member that knows the design in partition 0 of channel A. -/
def member (d : Design) (primary solo : Bool) (other : Other) : State :=
  { (live d).modMode fun x =>
      { x with mode := .mirrored, primary := primary, partner := !primary, solo := solo, other := other, descriptor := d.descriptor }
    with topo := some (twoMods 0 2 3 2) }

theorem pairDesign_member (d : Design) (p s : Bool) (o : Other) : (member d p s o).pairDesign = some d := by
  have h : (member d p s o).designs = [d] := rfl
  have h2 : (member d p s o).mode.descriptor = d.descriptor := rfl
  simp [State.pairDesign, h, h2]

theorem hyps_Joins : ∃ (s t : State) (d : Design) (v : Word32), s.pairDesign = some d ∧ t.pairDesign = some d ∧
    (s.portAnswers = true ∧ v.getLsbD 0 = true ∧ s.mode.mode = .mirrored ∧ s.mode.primary = true ∧ s.mode.solo = true ∧ s.mode.other ≠ .joining) ∧
    (t.mode.other = .joining ∧ 256 * t.joinLimit < min 0xFFFFFF 0xFFFFFF ∧ min 0 0xFFFFFF ≤ 256 * t.joinLimit ∧ d.atBoundary = true ∧
      d.repairs = [] ∧ t.pwr.hostOn = true) :=
  ⟨member (cleared 4) true true .lost, member (cleared 4) true true .joining, cleared 4, 1, pairDesign_member _ _ _ _, pairDesign_member _ _ _ _,
    by decide +kernel, by decide +kernel, by decide +kernel, by decide, by decide, rfl, by decide +kernel⟩

/-- A state without a referee. -/
def refereeless (s : State) : State := (s.modCh .a fun h => { h with refLost := true, holding := true }).modCh .b fun h => { h with refLost := true, holding := true }

theorem hyps_RecoveryChoices : ∃ (s t u : State) (c : Ch) (d e : Design), (R.ch c).refLost = false ∧
    (s.chA.refLost = true ∧ s.designs = [d] ∧ s.loads = [] ∧ (s.ch c).refLost = true ∧ (s.ch c).fenced = false ∧ d.twinAlive = true ∧ d.slots = [] ∧
      s.pwr.hostOn = true) ∧
    (t.designs = [e] ∧ (t.ch c).refLost = true ∧ e.twin = true ∧ e.fencedSide = none ∧ e.begun = false ∧ e.run = none ∧ e.state = .running) ∧
    ((u.ch c).refLost = true ∧ u.designs = []) :=
  ⟨refereeless (twinMode (twinned true 0 [])), refereeless (twinMode { twinned false 0 [] with run := none }), refereeless {}, .b, twinned true 0 [],
    { twinned false 0 [] with run := none }, by decide,
    ⟨by decide +kernel, by decide +kernel, by decide +kernel, by decide +kernel, by decide +kernel, by decide, rfl, by decide⟩,
    ⟨by decide +kernel, by decide +kernel, by decide, by decide, rfl, rfl, rfl⟩, by decide +kernel, by decide +kernel⟩

/-- A MIRRORED member whose mirror port carries, with an intake window of the design on its message port 127 of HUB-A. -/
def mirrored (d : Design) (primary : Bool) : State :=
  (onPort (member d primary false .paired) { state := .up, traffic := true, helloOk := true }).modMport .a 127 fun x =>
    { x with design := some d.tag, inWin := some ⟨15, 0, 2, 0⟩ }

theorem pairDesign_mirrored (d : Design) (p : Bool) : (mirrored d p).pairDesign = some d := by
  have h : (mirrored d p).designs = [d] := rfl
  have h2 : (mirrored d p).mode.descriptor = d.descriptor := rfl
  simp [State.pairDesign, h, h2]

/-- The design of a pair, at rest. -/
def rested : Design := { cleared 0 with state := .stopped, run := none, frame := 6 }

theorem hyps_Controllers : ∃ (s t u v : State) (c : Ch), (s.mode.refLost = false ∧ t.mode.refLost = true) ∧
    ((if c = .a then t.mode.seqLostA else t.mode.seqLostB) = true ∧ (if c = .a then s.mode.seqLostA else s.mode.seqLostB) = false ∧
      s.mode.mode ≠ .twinned ∧ s.mode.mode ≠ .mirrored) ∧
    ((if c = .a then u.mode.seqLostA else u.mode.seqLostB) = false ∧ u.mode.mode = .twinned ∧ u.loads = [] ∧ u.designs = [] ∧
      (u.ch c).fenced = false ∧ u.pwr.hostOn = true) ∧ (if Ch.b = .a then v.mode.seqLostA else v.mode.seqLostB) = true ∧
    ∃ w : State, (if c = .a then w.mode.seqLostA else w.mode.seqLostB) = false ∧ w.pairRuns = true ∧ w.designs = [] ∧ w.pwr.hostOn = true :=
  ⟨{}, State.modMode {} fun x => { x with refLost := true, seqLostA := true }, State.modMode {} fun x => { x with mode := .twinned },
    State.modMode {} fun x => { x with seqLostB := true }, .a, by decide, by decide, by decide +kernel, by decide,
    { mirrored rested true with designs := [] }, by decide +kernel⟩

/-- A message from the other member waits on the mirror port. -/
def twinHears (s : State) (m : Sent) : State := hearing s .a 0 (heardAs 0 1 m)

theorem hyps_PairMessages :
    (∃ (s : State) (c : Ch) (p : Nat), s.mode.mode = .mirrored ∧ (s.mirrorPorts c).contains p = true ∧ R.mode.mode ≠ .mirrored ∧
      (R.mirrorPorts c).contains p = false) ∧
    (∃ (s t : State) (c : Ch) (p : Nat) (h : Heard), s.mode.mode = .mirrored ∧ (s.mirrorPorts c).contains p = true ∧
      Arrived s c p none .twinHeartbeat h t) ∧
    (∃ (s t : State) (c : Ch) (frame : BitVec 48) (first q : Nat) (sigs : List Word64) (h : Heard),
      ArrivedTwin s c (.twinSignature frame first sigs) q h t ∧ s.pairRuns = true ∧ s.mode.partner = false) ∧
    (∃ (s t : State) (c : Ch) (frame : BitVec 48) (first q : Nat) (sigs : List Word64) (h : Heard) (d : Design),
      ArrivedTwin s c (.twinSignature frame first sigs) q h t ∧ s.pairRuns = true ∧ s.mode.partner = true ∧ s.pairDesign = some d ∧
      s.design d.tag = some d ∧ s.canRun d = true ∧ BitVec.ofNat 48 d.frame = frame) ∧
    (∃ (s t : State) (c : Ch) (frame : BitVec 48) (first q : Nat) (sigs : List Word64) (h : Heard),
      ArrivedTwin s c (.twinSignature frame first sigs) q h t ∧ s.pairRuns = true ∧ s.mode.partner = true ∧ s.pairDesign = none) ∧
    (∀ later : Bool, ∃ (s t : State) (c : Ch) (frame : BitVec 48) (port kind q a : Nat) (writes : List (Nat × Word64)) (h : Heard) (d : Design) (w : Window)
      (b : Word64), ArrivedTwin s c (.twinInput frame port kind writes) q h t ∧ s.pairRuns = true ∧ s.mode.partner = true ∧
      (s.mport (chOf (port / 128)) (port % 128)).design.bind s.design = some d ∧ laterFrame (BitVec.ofNat 48 d.frame) frame = !later ∧ d.begun = false ∧
      kind = 0 ∧ writes = [(a, b)] ∧ (s.mport (chOf (port / 128)) (port % 128)).inWin = some w) ∧
    (∃ (s t : State) (c : Ch) (frame : BitVec 48) (mask : BitVec 128) (q : Nat) (h : Heard), ArrivedTwin s c (.confirm frame mask) q h t ∧
      s.pairRuns = true ∧ s.mode.primary = true ∧ mask = 0 ∧ s.pairDesign = none) ∧
    (∃ (s t : State) (c : Ch) (frame : BitVec 48) (mask : BitVec 128) (q : Nat) (h : Heard), ArrivedTwin s c (.confirm frame mask) q h t ∧
      s.pairRuns = true ∧ s.mode.primary = true ∧ mask ≠ 0 ∧ s.mode.mismatchAt ≠ some frame) ∧
    (∃ (s t : State) (c : Ch) (frame : BitVec 48) (mask : BitVec 128) (q : Nat) (h : Heard) (d : Design), ArrivedTwin s c (.confirm frame mask) q h t ∧
      s.pairRuns = true ∧ s.mode.primary = true ∧ mask ≠ 0 ∧ s.mode.mismatchAt = some frame ∧ s.pairDesign = some d ∧ s.design d.tag = some d ∧
      d.unresolvedAt = none) :=
  ⟨⟨mirrored rested false, .a, 0, by decide +kernel⟩,
   ⟨twinHears (mirrored rested false) .twinHeartbeat, _, .a, 0, heardAs 0 1 .twinHeartbeat, by decide +kernel, by decide +kernel, by decide +kernel, by decide +kernel, rfl⟩,
   ⟨twinHears (mirrored rested true) (.twinSignature 6 3 [7]), _, .a, 6, 3, 0, [7], heardAs 0 1 (.twinSignature 6 3 [7]),
     ⟨⟨by decide +kernel, by decide +kernel, rfl⟩, by decide +kernel⟩, by decide +kernel, by decide +kernel⟩,
   ⟨twinHears (mirrored rested false) (.twinSignature 6 3 [7]), _, .a, 6, 3, 0, [7], heardAs 0 1 (.twinSignature 6 3 [7]), rested,
     ⟨⟨by decide +kernel, by decide +kernel, rfl⟩, by decide +kernel⟩, by decide +kernel, by decide +kernel, pairDesign_mirrored rested false, by rfl,
     by decide +kernel, by decide⟩,
   ⟨twinHears { mirrored rested false with designs := [] } (.twinSignature 6 3 [7]), _, .a, 6, 3, 0, [7], heardAs 0 1 (.twinSignature 6 3 [7]),
     ⟨⟨by decide +kernel, by decide +kernel, rfl⟩, by decide +kernel⟩, by decide +kernel, by decide +kernel, rfl⟩,
   fun later => ⟨twinHears (mirrored rested false) (.twinInput (if later then 6 else 5) 127 0 [(131071, 9)]), _, .a, if later then 6 else 5, 127, 0, 0, 131071,
     [(131071, 9)], heardAs 0 1 (.twinInput (if later then 6 else 5) 127 0 [(131071, 9)]), rested, ⟨15, 0, 2, 0⟩, 9,
     ⟨⟨by cases later <;> decide +kernel, by cases later <;> decide +kernel, rfl⟩, by cases later <;> decide +kernel⟩, by cases later <;> decide +kernel,
     by cases later <;> decide +kernel, by cases later <;> rfl, by cases later <;> decide, rfl, rfl, rfl, by cases later <;> rfl⟩,
   ⟨twinHears { mirrored rested true with designs := [] } (.confirm 5 0), _, .a, 5, 0, 0, heardAs 0 1 (.confirm 5 0),
     ⟨⟨by decide +kernel, by decide +kernel, rfl⟩, by decide +kernel⟩, by decide +kernel, by decide +kernel, rfl, rfl⟩,
   ⟨twinHears (mirrored rested true) (.confirm 5 1), _, .a, 5, 1, 0, heardAs 0 1 (.confirm 5 1),
     ⟨⟨by decide +kernel, by decide +kernel, rfl⟩, by decide +kernel⟩, by decide +kernel, by decide +kernel, by decide, by decide +kernel⟩,
   ⟨twinHears ((mirrored rested true).modMode fun x => { x with mismatchAt := some 5 }) (.confirm 5 1), _, .a, 5, 1, 0, heardAs 0 1 (.confirm 5 1), rested,
     ⟨⟨by decide +kernel, by decide +kernel, rfl⟩, by decide +kernel⟩, by decide +kernel, by decide +kernel, by decide, by decide +kernel,
     pairDesign_mirrored rested true, by rfl, rfl⟩⟩

theorem hyps_PairEnds : (∃ (s t : State) (c : Ch) (p : Nat) (h : Heard), ArrivedTwin s c .twinFault p h t) ∧ ∃ (s t u : State),
    (s.pairRuns = true ∧ s.mode.partner = false ∧ s.pwr.hostOn = true ∧ s.mode.twinLastAt + 200000 ≤ s.clock ∧
      ∀ d ∈ s.designs, d.outQ = []) ∧
    (t.pairRuns = true ∧ t.mode.partner = true ∧ t.pwr.hostOn = true ∧ t.mode.twinLastAt + 200000 ≤ t.clock ∧ ∀ d ∈ t.designs, d.outQ = []) ∧
    u.clock < u.mode.twinLastAt + 200000 :=
  ⟨⟨twinHears (mirrored rested true) .twinFault, _, .a, 0, heardAs 0 1 .twinFault, ⟨⟨by decide +kernel, by decide +kernel, rfl⟩, by decide +kernel⟩⟩,
    { mirrored rested true with clock := 200000 }, { mirrored rested false with clock := 200000 }, { mirrored rested false with clock := 199999 },
    by decide +kernel, by decide +kernel, by decide +kernel⟩

/-- The running design of a pair, before frame 7. -/
def seventh : Design := { rested with state := .running, frame := 7 }

/-- The last byte of cabinet memory, in a STATE message. -/
def lastByte : Nat := 2 ^ 36 + 127 * 2 ^ 20 + (2 ^ 20 - 1)

theorem hyps_PairState :
    (∃ (s t : State) (c : Ch) (frame : BitVec 48) (data : List Byte) (q : Nat) (h : Heard), ArrivedTwin s c (.twinState frame 0xFFFFFFFFFF data) q h t ∧
      s.mode.mode = .mirrored ∧ ∀ d ∈ s.designs, d.descriptor ≠ data) ∧
    (∃ (s t : State) (c : Ch) (frame : BitVec 48) (b : Byte) (q : Nat) (h : Heard) (d : Design), ArrivedTwin s c (.twinState frame lastByte [b]) q h t ∧
      s.mode.mode = .mirrored ∧ s.mode.primary = false ∧ s.pairDesign = some d ∧ s.design d.tag = some d) ∧
    (∃ (s t : State) (c : Ch) (frame : BitVec 48) (offset : Nat) (data : List Byte) (q : Nat) (h : Heard),
      ArrivedTwin s c (.twinState frame offset data) q h t ∧ s.mode.mode ≠ .mirrored) ∧
    (∃ (s t : State) (c : Ch) (src member p : Nat) (h : Heard), ArrivedOn s c (some src) (.pairPrimary 0 member) p h t) ∧
    (∀ stops : Bool, ∃ (s t : State) (c : Ch) (frame : BitVec 48) (src p : Nat) (h : Heard) (d : Design), ArrivedOn s c (some src) (.stopAt 0 frame) p h t ∧
      s.designs = [d] ∧ d.state = .running ∧ s.stopsFor d src = stops ∧ laterFrame (BitVec.ofNat 48 d.frame) frame = false) ∧
    (∃ (s t : State) (c : Ch) (frame : BitVec 48) (src p : Nat) (h : Heard) (d : Design), ArrivedOn s c (some src) (.stopAt 0 frame) p h t ∧
      s.designs = [d] ∧ d.state = .running ∧ s.stopsFor d src = true ∧ laterFrame (BitVec.ofNat 48 d.frame) frame = true ∧ d.begun = false ∧
      d.run = none ∧ d.stops = [] ∧ s.pwr.hostOn = true) :=
  ⟨⟨twinHears (mirrored rested false) (.twinState 6 0xFFFFFFFFFF [1]), _, .a, 6, [1], 0, heardAs 0 1 (.twinState 6 0xFFFFFFFFFF [1]),
     ⟨⟨by decide +kernel, by decide +kernel, rfl⟩, by decide +kernel⟩, by decide +kernel, by decide +kernel⟩,
   ⟨twinHears (mirrored rested false) (.twinState 6 lastByte [1]), _, .a, 6, 1, 0, heardAs 0 1 (.twinState 6 lastByte [1]), rested,
     ⟨⟨by decide +kernel, by decide +kernel, rfl⟩, by decide +kernel⟩, by decide +kernel, by decide +kernel, pairDesign_mirrored rested false, by rfl⟩,
   ⟨twinHears ((mirrored rested false).modMode fun x => { x with mode := .split }) (.twinState 6 lastByte [1]), _, .a, 6, lastByte, [1], 0,
     heardAs 0 1 (.twinState 6 lastByte [1]), ⟨⟨by decide +kernel, by decide +kernel, rfl⟩, by decide +kernel⟩, by decide +kernel⟩,
   ⟨linkHears R 0 (.pairPrimary 0 63), _, .a, 1, 63, 0, heardAs 0 1 (.pairPrimary 0 63), ⟨⟨by decide +kernel, by decide +kernel, rfl⟩, by decide +kernel⟩⟩,
   fun stops => ⟨twinHears (if stops then mirrored (cleared 0) false else linked (live (cleared 0)) 0) (.stopAt 0 0), _, .a, 0, 1, 0, heardAs 0 1 (.stopAt 0 0),
     cleared 0, ⟨⟨by cases stops <;> decide +kernel, by cases stops <;> decide +kernel, rfl⟩, by cases stops <;> decide +kernel⟩, by cases stops <;> rfl,
     by cases stops <;> decide +kernel, by cases stops <;> decide +kernel, by cases stops <;> decide +kernel⟩,
   ⟨twinHears (mirrored seventh false) (.stopAt 0 6), _, .a, 6, 1, 0, heardAs 0 1 (.stopAt 0 6), seventh,
     ⟨⟨by decide +kernel, by decide +kernel, rfl⟩, by decide +kernel⟩, rfl, rfl, by decide +kernel, by decide +kernel, rfl, rfl, rfl, rfl⟩⟩

/-! ### Rolling test, wires, patrol, stores: states that meet the hypotheses -/

/-- A die of channel A in a state of its rolling test. -/
def slicing (d : Design) (die : Nat) (f : DieSt → DieSt) : State := (live d).modCh .a fun h => { h with dies := KV.upd {} die f h.dies }

/-- Cabinet 15 of die 0 of channel A has been chosen, and waits for the frame boundary of what runs on it. -/
def waitingSwap (d : Design) : State := slicing d 0 fun x => { x with slice := .waitBoundary, chosen := some 15 }

/-- No design runs on it. -/
def emptySwap : State := { waitingSwap (cleared 0) with designs := [] }

/-- A repair is due on it. -/
def dueSwap (s : State) : State := s.modCab .a 0 15 fun x => { x with repairDue := true }

/-- A slice that waits to swap Cabinet `i` for the rotating spare. -/
abbrev Swaps (s : State) (c : Ch) (die i new old l : Nat) (dd : Option Design) : Prop :=
  (s.die c die).slice = .waitBoundary ∧ (s.die c die).chosen = some i ∧ (s.die c die).rotating = some new ∧ (s.die c die).phys i = some old ∧ new ≠ old ∧
    l = 64 * chNum c + 32 * die + i ∧ dd = s.designs.find? (fun d => d.span.contains l)

theorem hyps_Slices :
    (∃ (s : State) (c : Ch) (die : Nat), R.sliceMay c die = false ∧ s.sliceMay c die = true ∧ (s.die c die).slice = .idle ∧
      s.sliceSkips c die ((s.die c die).next % 32) = false ∧ (s.die c die).slice ≠ .preload) ∧
    (∃ (s : State) (c : Ch) (die i : Nat), (s.die c die).slice = .preload ∧ (s.die c die).chosen = some i ∧
      s.designs.any (fun d => d.span.contains (64 * chNum c + 32 * die + i)) = false) ∧
    (∀ twin : Bool, ∃ (s : State) (c : Ch) (die i : Nat) (d : Design), (s.die c die).slice = .preload ∧ (s.die c die).chosen = some i ∧
      s.designs.find? (fun d => d.span.contains (64 * chNum c + 32 * die + i)) = some d ∧ d.twinAlive = twin ∧ (ImageRead.badTile ≠ .good)) ∧
    (∀ loaded : Bool, ∃ (s : State) (c : Ch) (die i new old l : Nat) (dd : Option Design), Swaps s c die i new old l dd ∧ dd.isSome = loaded ∧
      (∀ d, dd = some d → d.begun = false ∧ s.cabQuiet d l = true ∧ ∀ r ∈ d.repairs, r.2.1 ≠ l) ∧ (s.cab c die old).repairDue = false ∧
      (s.part (partOfCab l)).state ≠ .loading) ∧
    (∃ (s : State) (c : Ch) (die i new old l : Nat) (dd : Option Design), Swaps s c die i new old l dd ∧ (s.cab c die old).repairDue = true ∧ dd = none ∧
      (s.part (partOfCab l)).state ≠ .loading) ∧
    (∃ (s : State) (c : Ch) (die i new old l : Nat) (dd : Option Design), Swaps s c die i new old l dd ∧ (s.part (partOfCab l)).state = .loading) ∧
    (∃ (s : State) (c : Ch) (die i new old l : Nat) (dd : Option Design) (d : Design), Swaps s c die i new old l dd ∧ dd = some d ∧ d.begun = true) :=
  ⟨⟨slicing (cleared 0) 0 fun x => { x with next := 31 }, .a, 0, by decide +kernel⟩,
   ⟨{ slicing (cleared 0) 0 fun x => { x with slice := .preload, chosen := some 15 } with designs := [] }, .a, 0, 15, by decide +kernel⟩,
   fun twin => ⟨slicing { cleared 0 with twin := twin } 0 fun x => { x with slice := .preload, chosen := some 15 }, .a, 0, 15, { cleared 0 with twin := twin },
     by revert twin; decide +kernel⟩,
   fun loaded => match loaded with
     | true => ⟨waitingSwap (cleared 0), .a, 0, 15, 32, 15, 15, some (cleared 0), by decide +kernel, rfl,
         fun d hd => by cases hd; decide +kernel, by decide +kernel, by decide +kernel⟩
     | false => ⟨emptySwap, .a, 0, 15, 32, 15, 15, none, by decide +kernel, rfl, fun _ hd => (Option.some_ne_none _ hd.symm).elim, by decide +kernel,
         by decide +kernel⟩,
   ⟨dueSwap emptySwap, .a, 0, 15, 32, 15, 15, none, by decide +kernel⟩,
   ⟨{ waitingSwap (cleared 0) with parts := [(partOfCab 15, { state := .loading })] }, .a, 0, 15, 32, 15, 15, some (cleared 0), by decide +kernel⟩,
   ⟨waitingSwap (atEnd none), .a, 0, 15, 32, 15, 15, some (atEnd none), atEnd none, by decide +kernel, rfl, rfl⟩⟩

/-- What a test of a freed Cabinet finds: `n` Benches that cannot be used. -/
def found (n : Nat) (bad : Bool) : CabTest := { cells := [(0, 5)], benches := List.range n, partFailed := bad, drift := 599 }

/-- Cabinet 33 of die 1 of channel A is freed, and Cabinet 32 its healthy spare; a design with the tag `owner` ran on it. -/
def freedCab (owner : Nat) : State :=
  slicing (cleared 0) 1 fun x => { x with slice := .test, freed := some 33, freedOwner := owner, rotating := none, standing := some 32 }

/-- A Cabinet is under test, with a healthy spare beside it. -/
abbrev Tested (s : State) (c : Ch) (die i j : Nat) (obs : CabTest) (x : DieSt) : Prop :=
  x = s.die c die ∧ x.slice = .test ∧ x.freed = some i ∧ x.rotating = none ∧ x.standing = some j ∧ x.healthy j = true ∧ j ≠ i ∧
    ((s.cab c die i).tested obs).ageWarn = false

theorem hyps_CabinetTests :
    (∃ (s : State) (c : Ch) (die i j : Nat) (obs : CabTest) (x : DieSt), Tested s c die i j obs x ∧ obs.partFailed = false ∧
      (s.cab c die i).marchFailed = false ∧ x.healthy i = true ∧ ((s.cab c die i).tested obs).formsCabinet = true) ∧
    (∃ (s : State) (c : Ch) (die i j : Nat) (obs : CabTest) (x : DieSt), Tested s c die i j obs x ∧ obs.partFailed = true ∧
      s.design x.freedOwner = none ∧ s.pwr.hostOn = true) ∧
    (∃ (s : State) (c : Ch) (die i j : Nat) (obs : CabTest) (x : DieSt) (d : Design), Tested s c die i j obs x ∧
      ((s.cab c die i).tested obs).formsCabinet = false ∧ s.design x.freedOwner = some d ∧ s.pwr.hostOn = true) :=
  ⟨⟨freedCab 77, .a, 1, 33, 32, found 1 false, (freedCab 77).die .a 1, by decide +kernel⟩,
   ⟨freedCab 77, .a, 1, 33, 32, found 0 true, (freedCab 77).die .a 1, by decide +kernel⟩,
   ⟨freedCab 1, .a, 1, 33, 32, found 2 false, (freedCab 1).die .a 1, cleared 0, by decide +kernel, by decide +kernel, by rfl, by decide +kernel⟩⟩

theorem hyps_SelfTestControl : ∃ (s t : State) (c : Ch) (v w z : Word32),
    (s.portAnswers = true ∧ t.portAnswers = true ∧ (s.pw c).state.hubOn = true ∧ v.getLsbD 2 = false ∧ v.getLsbD 3 = false ∧ w.getLsbD 2 = true ∧ w.getLsbD 3 = true) ∧
    (∃ u, exec (.patrolRestart c w) s = .next u ∧ u.sliceMay c 0 = true ∧ (s.die c 0).slice = .idle ∧
      u.sliceSkips c 0 ((s.die c 0).next % 32) = false) ∧
    (∃ u, exec (.patrolRestart c z) s = .next u ∧ z.getLsbD 2 = true ∧ z.getLsbD 3 = true ∧ u.sliceMay c 0 = false) ∧
    ((t.pw c).state.hubOn = false ∧ t.pwr.hostOn = true ∧ t.host.busTimeoutMs ≠ some (t.clock / 1000000)) :=
  ⟨live (cleared 0), powered R .off, .a, 0, 0xF, 0xC, by decide +kernel, ⟨_, rfl, by decide +kernel, by decide +kernel, by decide +kernel⟩,
    ⟨_, rfl, by decide, by decide, by decide +kernel⟩, by decide +kernel⟩

/-- A link of the fabric of channel A, as given. -/
def wired (link : Nat) (x : FLink) : State := (live (cleared 0)).modFlink .a link fun _ => x

theorem hyps_Wires :
    (∃ (s t : State) (c : Ch) (link w : Nat) (x : FLink), x = s.flink c link ∧ w = x.nextWire % wireCount link ∧ (s.reg .bstCtrl c []).getLsbD 1 = true ∧
      endOk link = true ∧ x.failed = false ∧ x.check = 0 ∧ x.testing = none ∧ (s.pw c).state.hubOn = true ∧
      (∀ y ∈ x.lanes, wireGroup link y ≠ wireGroup link w) ∧ (t.reg .bstCtrl c []).getLsbD 1 = false) ∧
    (∃ (s : State) (c : Ch) (link w : Nat) (x : FLink), x = s.flink c link ∧ x.testing = some w ∧ isMesh link = true ∧
      (insKey w x.lanes).length < wireGroups link) ∧
    (∃ (s : State) (c : Ch) (link w : Nat) (x : FLink), x = s.flink c link ∧ x.testing = some w ∧ isMesh link = false) :=
  ⟨⟨wired 11 { nextWire := 255, lanes := [0] }, (live (cleared 0)).setReg .bstCtrl .a [] 5, .a, 11, 255, _, rfl, by decide +kernel⟩,
   ⟨wired 12 { testing := some 255, lanes := [0] }, .a, 12, 255, _, rfl, by decide +kernel⟩,
   ⟨wired 11 { testing := some 255 }, .a, 11, 255, _, rfl, by decide +kernel⟩⟩

theorem hyps_Patrol : ∃ (s t u : State) (c : Ch) (die : Nat) (o : PatrolObs), c ∈ s.channels ∧ die < 2 ∧
    ((s.pw c).state.arrayOn = true ∧ (s.die c die).patrolStopped = false ∧ (s.reg .bstCtrl c []).getLsbD 2 = true ∧
      ((s.die c die).disagreeAt.filter (fun t => decide (s.clock < t + 10 ^ 9))).length + min 16 4 = 15 ∧ (s.die c die).disagreeAt.length = 12) ∧
    ((t.pw c).state.arrayOn = true ∧ (t.die c die).patrolStopped = true) ∧
    ((u.pw c).state.arrayOn = true ∧ (u.die c die).patrolStopped = false ∧ (u.reg .bstCtrl c []).getLsbD 2 = true ∧ o.rereadOk = true ∧ o.cab < 34 ∧
      (u.cab c die o.cab).failed = false ∧ ((u.cab c die o.cab).bench o.bench).retired = false ∧
      ((u.cab c die o.cab).bench o.bench).failed.contains o.cell = false ∧ o.bench < 17 ∧ u.designOfPhys c die o.cab = none ∧ (u.die c die).disagreeAt = [] ∧ u.pwr.hostOn = true ∧ 16 ≤ 16) :=
  ⟨{ slicing (cleared 0) 1 fun x => { x with disagreeAt := 0 :: List.replicate 11 1 } with clock := 10 ^ 9 },
    slicing (cleared 0) 1 fun x => { x with patrolStopped := true }, live (cleared 0), .a, 1, ⟨33, 16, 65, 127, true, true, .good⟩, by decide, by decide,
    by decide +kernel, by decide +kernel, by decide +kernel⟩

theorem hyps_StoreBlocks : ∃ (t u : State), t.store.sparesLeft = 1 ∧ t.chA.store.sparesLeft = 1 ∧ t.chB.store.sparesLeft = 1 ∧
    u.store.sparesLeft = 0 ∧ u.chA.store.sparesLeft = 0 ∧ u.chB.store.sparesLeft = 0 :=
  ⟨{ store := { sparesLeft := 1 }, chA := { store := { sparesLeft := 1 } }, chB := { store := { sparesLeft := 1 } } },
    { store := { sparesLeft := 0 }, chA := { store := { sparesLeft := 0 } }, chB := { store := { sparesLeft := 0 } } }, by decide⟩

/-! ### The whole machine: states that meet the hypotheses -/

theorem hyps_ExecKeepsQueue : ∃ (c : Instr) (s u : State), exec c s = .next u := ⟨.twinVerdict 0, R, R, rfl⟩

theorem hyps_StepKeepsMemory : ∃ s u : State, s.memWf ∧ step s = .next u := ⟨{ R with pending := [.twinVerdict 0] }, R, ⟨by decide, by decide⟩, rfl⟩

theorem hyps_IdleStep : ∃ s : State, s.pending = [] := ⟨R, rfl⟩

end Sys2Proof.Tests
end

section
/-! What a cell does in a step (R31-R46): the bits of its data store, one stage of the step after another, and the state flip. -/

namespace Sys2Proof.Machine

open Sys2Proof

/-! ### Single bits -/

theorem getLsbD_setBit {w : Nat} (v : BitVec w) (i : Nat) (b : Bool) {j : Nat} (hj : j < w) :
    (setBit v i b).getLsbD j = if j = i then b else v.getLsbD j := by
  have one : (1#w <<< i).getLsbD j = decide (j = i) := by
    rw [BitVec.getLsbD_shiftLeft, BitVec.getLsbD_one, Bool.eq_iff_iff]
    simp [hj]; omega
  cases b <;> by_cases h : j = i <;> simp [setBit, one, h] <;> omega

/-! ### The two state banks -/

namespace Cell

@[simp] theorem setNext_cur (c : Cell) (v : BitVec 512) : (c.setNext v).cur = c.cur := by cases h : c.cur <;> simp [setNext, h]
@[simp] theorem setNext_mask (c : Cell) (v : BitVec 512) : (c.setNext v).mask = c.mask := by cases h : c.cur <;> simp [setNext, h]
@[simp] theorem setNext_res (c : Cell) (v : BitVec 512) : (c.setNext v).res = c.res := by cases h : c.cur <;> simp [setNext, h]
@[simp] theorem setNext_land (c : Cell) (v : BitVec 512) : (c.setNext v).land = c.land := by cases h : c.cur <;> simp [setNext, h]
@[simp] theorem setNext_nextBank (c : Cell) (v : BitVec 512) : (c.setNext v).nextBank = v := by
  cases h : c.cur <;> simp [setNext, nextBank, h]
@[simp] theorem setNext_curBank (c : Cell) (v : BitVec 512) : (c.setNext v).curBank = c.curBank := by
  cases h : c.cur <;> simp [setNext, curBank, h]

/-! ### The stages of a step -/

/-- The landing slots of a cell after a step (R39): with `on`, slot `i` holds the sampled bit. -/
def captured (c : Cell) (on : Bool) (i : Nat) (b : Bool) : Cell :=
  if on then { c with land := setBit c.land i b, landW := setBit c.landW i true } else c

/-- A cell whose result slot `i` holds `b` (R34). -/
def resulted (c : Cell) (i : Nat) (b : Bool) : Cell := { c with res := setBit c.res i b }

/-- The state banks of a cell after a step (R43): with `on`, slot `i` of the next bank holds `b`, and the slot counts as written. -/
def stored (c : Cell) (on : Bool) (i : Nat) (b : Bool) : Cell :=
  if on then { c.setNext (setBit c.nextBank i b) with mask := setBit c.mask i true } else c

@[simp] theorem captured_res (c : Cell) (on : Bool) (i : Nat) (b : Bool) : (c.captured on i b).res = c.res := by cases on <;> rfl
@[simp] theorem captured_cur (c : Cell) (on : Bool) (i : Nat) (b : Bool) : (c.captured on i b).cur = c.cur := by cases on <;> rfl
@[simp] theorem captured_mask (c : Cell) (on : Bool) (i : Nat) (b : Bool) : (c.captured on i b).mask = c.mask := by cases on <;> rfl
@[simp] theorem captured_curBank (c : Cell) (on : Bool) (i : Nat) (b : Bool) : (c.captured on i b).curBank = c.curBank := by
  cases on <;> rfl
@[simp] theorem captured_nextBank (c : Cell) (on : Bool) (i : Nat) (b : Bool) : (c.captured on i b).nextBank = c.nextBank := by
  cases on <;> rfl

theorem captured_land (c : Cell) (on : Bool) (i : Nat) (b : Bool) {j : Nat} (hj : j < 1024) :
    (c.captured on i b).land.getLsbD j = if on = true ∧ j = i then b else c.land.getLsbD j := by
  cases on
  · simp [captured]
  · simp [captured, getLsbD_setBit _ _ _ hj]

@[simp] theorem resulted_land (c : Cell) (i : Nat) (b : Bool) : (c.resulted i b).land = c.land := rfl
@[simp] theorem resulted_cur (c : Cell) (i : Nat) (b : Bool) : (c.resulted i b).cur = c.cur := rfl
@[simp] theorem resulted_mask (c : Cell) (i : Nat) (b : Bool) : (c.resulted i b).mask = c.mask := rfl
@[simp] theorem resulted_curBank (c : Cell) (i : Nat) (b : Bool) : (c.resulted i b).curBank = c.curBank := rfl
@[simp] theorem resulted_nextBank (c : Cell) (i : Nat) (b : Bool) : (c.resulted i b).nextBank = c.nextBank := rfl

theorem resulted_res (c : Cell) (i : Nat) (b : Bool) {j : Nat} (hj : j < 2048) :
    (c.resulted i b).res.getLsbD j = if j = i then b else c.res.getLsbD j := getLsbD_setBit _ _ _ hj

@[simp] theorem stored_res (c : Cell) (on : Bool) (i : Nat) (b : Bool) : (c.stored on i b).res = c.res := by
  cases on <;> simp [stored]
@[simp] theorem stored_land (c : Cell) (on : Bool) (i : Nat) (b : Bool) : (c.stored on i b).land = c.land := by
  cases on <;> simp [stored]
@[simp] theorem stored_cur (c : Cell) (on : Bool) (i : Nat) (b : Bool) : (c.stored on i b).cur = c.cur := by
  cases on <;> simp [stored]
@[simp] theorem stored_curBank (c : Cell) (on : Bool) (i : Nat) (b : Bool) : (c.stored on i b).curBank = c.curBank := by
  cases on
  · rfl
  · exact c.setNext_curBank _

theorem stored_nextBank (c : Cell) (on : Bool) (i : Nat) (b : Bool) {j : Nat} (hj : j < 512) :
    (c.stored on i b).nextBank.getLsbD j = if on = true ∧ j = i then b else c.nextBank.getLsbD j := by
  cases on
  · simp [stored]
  · have next : (c.stored true i b).nextBank = setBit c.nextBank i b := c.setNext_nextBank _
    simp [next, getLsbD_setBit _ _ _ hj]

theorem stored_mask (c : Cell) (on : Bool) (i : Nat) (b : Bool) {j : Nat} (hj : j < 512) :
    (c.stored on i b).mask.getLsbD j = (c.mask.getLsbD j || (on && j == i)) := by
  cases on
  · simp [stored]
  · have mask : (c.stored true i b).mask = setBit c.mask i true := rfl
    rw [mask, getLsbD_setBit _ _ _ hj]
    by_cases h : j = i <;> simp [h]

end Cell

/-- A step of a cell: it captures, then takes its result slot, then stores (R36, R37). -/
theorem Design.cellStep_next (d : Design) (cab step : Nat) (lanes : BitVec 192) (key : Nat) :
    (d.cellStep cab step lanes [] key).next =
      (((d.cellAt key).captured (bitAt (d.insn key step) 72) (step % 1024)
          (d.capBit cab (benchOf key) step lanes (field (d.insn key step) 64 8))).resulted step
        (d.evalTT key (d.cellAt key) (d.insn key step))).stored (bitAt (d.insn key step) 74) (field (d.insn key step) 75 9)
        ((d.forced key (field (d.insn key step) 75 9)).getD (d.evalTT key (d.cellAt key) (d.insn key step))) := by
  simp only [Design.cellStep, List.contains_nil, Bool.xor_false]
  rfl

theorem cellComputes : Clauses.CellComputes := by
  rintro d cab step lanes key w c n r rfl rfl rfl - hr
  have tt : d.evalTT key (d.cellAt key) (d.insn key step) = r := hr.symm
  rw [d.cellStep_next, tt]
  refine ⟨fun i hi => ?_, fun i hi => ?_, by simp, by simp, fun i hi => ?_, fun i hi => ?_⟩
  · rw [Cell.stored_res, Cell.resulted_res _ _ _ hi, Cell.captured_res]
  · rw [Cell.stored_land, Cell.resulted_land, Cell.captured_land _ _ _ _ hi]
  · rw [Cell.stored_nextBank _ _ _ _ hi, Cell.resulted_nextBank, Cell.captured_nextBank]
    refine ite_congr rfl (fun ⟨_, slot⟩ => ?_) fun _ => rfl
    rw [slot]
  · rw [Cell.stored_mask _ _ _ _ hi, Cell.resulted_mask, Cell.captured_mask]

/-- The address map of an operand, range by range (R33, R34, R46). -/
theorem operandRanges : Clauses.Operands := by
  intro d key c a
  refine ⟨fun h => ?_, fun lo hi => ?_, fun lo hi hf => ?_, fun b lo hi hf => ?_, fun lo => ?_⟩
  · rw [Design.operand, if_pos h]
  · rw [Design.operand, if_neg (by omega), if_pos hi]
  · rw [Design.operand, if_neg (by omega), if_neg (by omega), if_pos hi, hf]; rfl
  · rw [Design.operand, if_neg (by omega), if_neg (by omega), if_pos hi, hf]; rfl
  · rw [Design.operand, if_neg (by omega), if_neg (by omega), if_neg (by omega)]

/-- What the flip makes the current bank of a cell. -/
theorem Cell.flip_curBank (c : Cell) (forced : List (Nat × Bool)) :
    (c.flip forced).curBank =
      forced.foldl (fun v f => setBit v f.1 f.2) ((c.nextBank &&& c.mask) ||| (c.curBank &&& ~~~c.mask)) := by
  cases h : c.cur <;> simp [Cell.flip, Cell.curBank, Cell.nextBank, Cell.setNext, h]

theorem stateFlip : Clauses.StateFlip := by
  intro c
  refine ⟨fun i hi => ?_, rfl, ?_, ?_, fun i b hi => ?_⟩
  · rw [Cell.flip_curBank]
    simp only [List.foldl_nil, BitVec.getLsbD_or, BitVec.getLsbD_and, BitVec.getLsbD_not, hi]
    cases c.mask.getLsbD i <;> simp
  · exact c.setNext_res _
  · exact c.setNext_land _
  · rw [Cell.flip_curBank]
    simp [getLsbD_setBit _ _ _ hi]

/-- Settles O38: the three stages of a cell's step bit by bit, the ranges of the operand addresses, and the banks after the flip. -/
theorem cellStep : Obligations.CellStep := ⟨cellComputes, operandRanges, stateFlip⟩

end Sys2Proof.Machine
end

section
/-! Repair by spares (R26, R56-R62, R332, R338): what the updates of dies, Cabinets and Benches leave to read, then the repairs. -/

namespace Sys2Proof.Machine

open Sys2Proof

/-! ### Dies, Cabinets and Benches after an update -/

namespace State

@[simp] theorem modDie_topo (s : State) (c : Ch) (die : Nat) (f : DieSt → DieSt) : (s.modDie c die f).topo = s.topo := s.modCh_topo c _
@[simp] theorem modDie_host (s : State) (c : Ch) (die : Nat) (f : DieSt → DieSt) : (s.modDie c die f).host = s.host := s.modCh_host c _
@[simp] theorem modDie_regs (s : State) (c : Ch) (die : Nat) (f : DieSt → DieSt) : (s.modDie c die f).regs = s.regs := s.modCh_regs c _
@[simp] theorem modDie_parts (s : State) (c : Ch) (die : Nat) (f : DieSt → DieSt) : (s.modDie c die f).parts = s.parts :=
  s.modCh_parts c _
@[simp] theorem modDie_designs (s : State) (c : Ch) (die : Nat) (f : DieSt → DieSt) : (s.modDie c die f).designs = s.designs :=
  s.modCh_designs c _

@[simp] theorem die_modDie_same (s : State) (c : Ch) (die : Nat) (f : DieSt → DieSt) : (s.modDie c die f).die c die = f (s.die c die) := by
  simp [State.die, State.modDie]

@[simp] theorem die_modDesign (s : State) (tag : Nat) (f : Design → Design) (c : Ch) (die : Nat) :
    (s.modDesign tag f).die c die = s.die c die := by cases c <;> rfl

@[simp] theorem die_countBy (s : State) (r : Reg) (x : Ch) (idx : List Nat) (n : Nat) (c : Ch) (die : Nat) :
    (s.countBy r x idx n).die c die = s.die c die := by cases c <;> rfl

@[simp] theorem die_healthLasting (s : State) (x : Ch) (c : Ch) (die : Nat) : (s.healthLasting x).die c die = s.die c die := by
  cases c <;> cases x <;> rfl

/-- What a channel update that keeps its dies leaves of them. -/
theorem die_modCh_of_dies (s : State) (x c : Ch) (die : Nat) (f : Channel → Channel) (hf : ∀ h, (f h).dies = h.dies) :
    (s.modCh x f).die c die = s.die c die := by
  cases x <;> cases c <;> simp [State.die, State.ch, State.modCh, hf]

theorem cab_of_die {s u : State} {c : Ch} {die : Nat} (h : u.die c die = s.die c die) (i : Nat) : u.cab c die i = s.cab c die i := by
  rw [State.cab, h, State.cab]

@[simp] theorem die_modCab (s : State) (c : Ch) (die i : Nat) (f : PhysCab → PhysCab) :
    (s.modCab c die i f).die c die = { s.die c die with cabs := KV.upd {} i f (s.die c die).cabs } := s.die_modDie_same c die _

@[simp] theorem cab_modCab_same (s : State) (c : Ch) (die i : Nat) (f : PhysCab → PhysCab) :
    (s.modCab c die i f).cab c die i = f (s.cab c die i) := by
  simp [State.cab]

theorem cab_modCab_other (s : State) (c : Ch) (die : Nat) {i j : Nat} (f : PhysCab → PhysCab) (h : j ≠ i) :
    (s.modCab c die i f).cab c die j = s.cab c die j := by
  simp [State.cab, KV.get_upd_other _ _ h]

@[simp] theorem modCab_topo (s : State) (c : Ch) (die i : Nat) (f : PhysCab → PhysCab) : (s.modCab c die i f).topo = s.topo := s.modDie_topo c die _
@[simp] theorem modCab_host (s : State) (c : Ch) (die i : Nat) (f : PhysCab → PhysCab) : (s.modCab c die i f).host = s.host :=
  s.modDie_host c die _
@[simp] theorem modCab_regs (s : State) (c : Ch) (die i : Nat) (f : PhysCab → PhysCab) : (s.modCab c die i f).regs = s.regs :=
  s.modDie_regs c die _
@[simp] theorem modCab_parts (s : State) (c : Ch) (die i : Nat) (f : PhysCab → PhysCab) : (s.modCab c die i f).parts = s.parts :=
  s.modDie_parts c die _
@[simp] theorem modCab_designs (s : State) (c : Ch) (die i : Nat) (f : PhysCab → PhysCab) : (s.modCab c die i f).designs = s.designs :=
  s.modDie_designs c die _

@[simp] theorem cab_modBench_same (s : State) (c : Ch) (die i b : Nat) (f : BenchSt → BenchSt) :
    (s.modBench c die i b f).cab c die i =
      { s.cab c die i with benches := KV.upd {} b f (s.cab c die i).benches } := s.cab_modCab_same c die i _
@[simp] theorem modBench_topo (s : State) (c : Ch) (die i b : Nat) (f : BenchSt → BenchSt) : (s.modBench c die i b f).topo = s.topo :=
  s.modCab_topo c die i _
@[simp] theorem modBench_host (s : State) (c : Ch) (die i b : Nat) (f : BenchSt → BenchSt) : (s.modBench c die i b f).host = s.host :=
  s.modCab_host c die i _
@[simp] theorem modBench_regs (s : State) (c : Ch) (die i b : Nat) (f : BenchSt → BenchSt) : (s.modBench c die i b f).regs = s.regs :=
  s.modCab_regs c die i _
@[simp] theorem countBy_topo (s : State) (r : Reg) (c : Ch) (idx : List Nat) (n : Nat) : (s.countBy r c idx n).topo = s.topo := rfl
@[simp] theorem countBy_host (s : State) (r : Reg) (c : Ch) (idx : List Nat) (n : Nat) : (s.countBy r c idx n).host = s.host := rfl
@[simp] theorem countBy_designs (s : State) (r : Reg) (c : Ch) (idx : List Nat) (n : Nat) : (s.countBy r c idx n).designs = s.designs := rfl

/-- A counter register of a state whose registers are those of a state that has just counted. -/
theorem reg_of_counted {s u : State} {r : Reg} {c : Ch} {idx : List Nat} (h : u.regs = (s.count r c idx).regs) :
    u.reg r c idx = satAdd (s.reg r c idx) 1 := by
  have counted : u.reg r c idx = (s.count r c idx).reg r c idx := by rw [State.reg, h, State.reg]
  rw [counted, State.count, State.countBy, State.reg_setReg_same]

/-- An update of the designs with a tag carries a property of all of them over. -/
theorem forall_modDesign {s : State} {tag : Nat} {f : Design → Design} {P Q : Design → Prop}
    (hs : ∀ x ∈ s.designs, x.tag = tag → P x) (hf : ∀ x, P x → Q (f x)) : ∀ x ∈ (s.modDesign tag f).designs, x.tag = tag → Q x := by
  intro x hx htag
  obtain ⟨y, hy, rfl⟩ := List.mem_map.mp hx
  by_cases h : y.tag = tag
  · rw [if_pos h]; exact hf y (hs y hy h)
  · rw [if_neg h] at htag; exact absurd htag h

end State

theorem PhysCab.bench_upd_same (p : PhysCab) (b : Nat) (f : BenchSt → BenchSt) :
    ({ p with benches := KV.upd {} b f p.benches } : PhysCab).bench b = f (p.bench b) := KV.get_upd_same _ _ _ _

@[simp] theorem Design.cab_modCab_same (d : Design) (l : Nat) (f : CabSt → CabSt) : (d.modCab l f).cab l = f (d.cab l) :=
  KV.get_upd_same _ _ _ _

theorem State.designEvent_told (s : State) (d : Design) (code : Nat) (args : List Nat) :
    Told code (1 + chNum d.ch) d.low d.slot true args s (s.designEvent d code args) := s.event_told ..

@[simp] theorem State.imageRead_good (s : State) (cab : Nat) : s.imageRead cab .good = s := rfl

/-! ### Tile reloads (R56, R57) -/

/-- A tile waits for its reload no longer. -/
def CabSt.dropTile (x : CabSt) (bench cell t : Nat) : CabSt :=
  { x with reload := x.reload.filter (fun u => u != (bench, cell, t)),
           later := x.later.filter (fun u => !(u.1 == bench && u.2.1 == cell && u.2.2.1 == t)) }

theorem CabSt.tileBad_dropTile (x : CabSt) (bench cell t : Nat) : (x.dropTile bench cell t).tileBad bench cell t = false := by
  have now : (x.dropTile bench cell t).reload.contains (bench, cell, t) = false := by simp [CabSt.dropTile]
  have ahead : (x.dropTile bench cell t).later.any (fun u => u.1 == bench && u.2.1 == cell && u.2.2.1 == t) = false :=
    List.any_eq_false.mpr fun u hu => by
      simpa only [Bool.not_eq_true, Bool.not_eq_true'] using (List.mem_filter.mp hu).2
  rw [CabSt.tileBad, now, ahead, Bool.or_false]

/-- A tile reload that passed, before its event (R56 step 2): it is counted, the tile is written and waits no longer. -/
def State.tileMended (s : State) (d : Design) (c : Ch) (die i cab bench cell t : Nat) : State :=
  let pb := (s.cab c die i).physBench bench
  ((s.reloadDone c die i pb (((s.cab c die i).bench pb).physCell cell)).reloadTile d cab bench cell t).modDesign d.tag fun x =>
    x.modCab cab fun y => y.dropTile bench cell t

theorem State.reloadTile_rest (s : State) (d : Design) (cab bench cell t : Nat) :
    s.reloadTile d cab bench cell t = { s with designs := (s.reloadTile d cab bench cell t).designs } := by
  unfold State.reloadTile; extract_lets; split <;> rfl

theorem State.cellAddr_of_topo {s u : State} (h : u.topo = s.topo) (cab bench cell : Nat) :
    u.cellAddr cab bench cell = s.cellAddr cab bench cell := by rw [State.cellAddr, h, State.cellAddr]

theorem State.tileMended_topo (s : State) (d : Design) (c : Ch) (die i cab bench cell t : Nat) :
    (s.tileMended d c die i cab bench cell t).topo = s.topo := by
  rw [State.tileMended, State.modDesign_topo, State.reloadTile_rest]
  simp [State.reloadDone, State.count]

/-- What TILE_RELOADED does for a tile that waits when the image copy can be read. -/
theorem exec_tileReloaded {s : State} {cab bench cell die i t : Nat} {d : Design} {c : Ch} (hp : s.physOf cab = some (c, die, i))
    (hd : s.designs.find? (fun x => x.span.contains cab && ((x.cab cab).waitingTile bench cell).isSome) = some d)
    (ht : (d.cab cab).waitingTile bench cell = some t) (ok : Bool) :
    exec (.tileReloaded cab bench cell .good ok) s = .next
      (if ok = false ∨ ((s.cab c die i).bench ((s.cab c die i).physBench bench)).reloadedLately
          (((s.cab c die i).bench ((s.cab c die i).physBench bench)).physCell cell) s.clock then s.askCellSwap d cab bench cell
      else (s.tileMended d c die i cab bench cell t).designEvent d 0x1002 (s.cellAddr cab bench cell ++ [t])) := by
  show execTileReloaded cab bench cell .good ok s = _
  unfold execTileReloaded
  rw [hd, hp, ← State.cellAddr_of_topo (s.tileMended_topo d c die i cab bench cell t)]
  simp only [ht, State.imageRead_good, ne_eq, not_true_eq_false, false_and, if_false]
  rfl

theorem State.tileMended_host (s : State) (d : Design) (c : Ch) (die i cab bench cell t : Nat) :
    (s.tileMended d c die i cab bench cell t).host = s.host := by
  rw [State.tileMended, State.modDesign_host, State.reloadTile_rest]
  simp [State.reloadDone, State.count]

theorem State.tileMended_regs (s : State) (d : Design) (c : Ch) (die i cab bench cell t : Nat) :
    (s.tileMended d c die i cab bench cell t).regs = (s.count .benchTileReload c [die, i, (s.cab c die i).physBench bench]).regs := by
  rw [State.tileMended, State.modDesign_regs, State.reloadTile_rest]
  simp [State.reloadDone]

theorem State.hbm_reloadDone (s : State) (c : Ch) (die i pb cell : Nat) (x : Ch) :
    ((s.reloadDone c die i pb cell).ch x).hbm = (s.ch x).hbm := by
  cases c <;> cases x <;> rfl

/-- Every design with the tag holds the tile of its image copy after the write (R56 step 2, R160). -/
theorem State.reloadTile_code (s : State) (d : Design) (cab bench cell t : Nat) {img : ImageSlot}
    (hi : img = KV.get {} (partOfCab cab % 4) (s.ch (chOfCab cab)).hbm.images) (hd : img.design = d.tag) :
    ∀ x ∈ (s.reloadTile d cab bench cell t).designs, x.tag = d.tag →
      KV.get 0 (cellKey cab bench cell * 128 + t) x.code = KV.get 0 (cellKey cab bench cell * 128 + t) img.tiles := by
  subst hi
  unfold State.reloadTile
  extract_lets i k
  rw [if_pos hd]
  exact State.forall_modDesign (P := fun _ => True) (fun _ _ _ => trivial) fun x _ => KV.get_put_same _ _ _ _

/-- The tile that has been reloaded waits no longer, and it is that of the image copy (R56 step 2). -/
theorem State.tileMended_designs (s : State) (d : Design) (c : Ch) (die i cab bench cell t : Nat) {img : ImageSlot}
    (hi : img = KV.get {} (partOfCab cab % 4) (s.ch (chOfCab cab)).hbm.images) :
    ∀ x ∈ (s.tileMended d c die i cab bench cell t).designs, x.tag = d.tag →
      (x.cab cab).tileBad bench cell t = false ∧ (img.design = d.tag →
        KV.get 0 (cellKey cab bench cell * 128 + t) x.code = KV.get 0 (cellKey cab bench cell * 128 + t) img.tiles) := by
  refine State.forall_modDesign (P := fun x => img.design = d.tag →
    KV.get 0 (cellKey cab bench cell * 128 + t) x.code = KV.get 0 (cellKey cab bench cell * 128 + t) img.tiles)
    (fun x hx hxt hd => ?_) fun x hx => ⟨?_, hx⟩
  · exact State.reloadTile_code _ d cab bench cell t (by rw [State.hbm_reloadDone]; exact hi) hd x hx hxt
  · rw [Design.cab_modCab_same, CabSt.tileBad_dropTile]

/-! ### Cell swaps (R58-R60) -/

/-- The pending repairs of a design without those that `keep` rejects, and `more`. -/
def Design.withRepairs (d : Design) (keep : Nat × Nat × Nat → Bool) (more : List (Nat × Nat × Nat)) : Design :=
  { d with repairs := d.repairs.filter keep ++ more }

/-- A cell swap, before its event (R59): the spare takes the cell, the swap is pending no longer, no tile of the cell waits. -/
def State.cellMoved (s : State) (d : Design) (c : Ch) (die i cab bench cell sp : Nat) : State :=
  ((s.modBench c die i ((s.cab c die i).physBench bench) fun b => b.swapCell cell sp).modDesign d.tag fun x =>
    x.withRepairs (fun r => r != (5, cab, 64 * bench + cell)) []).modDesign d.tag fun x =>
      x.modCab cab fun y => y.dropBad fun b k => b == bench && k == cell

theorem State.cellMoved_topo (s : State) (d : Design) (c : Ch) (die i cab bench cell sp : Nat) :
    (s.cellMoved d c die i cab bench cell sp).topo = s.topo := s.modBench_topo ..

/-- What CELL_SWAPPED does for a pending swap that may run when the image copy can be read. -/
theorem exec_cellSwapped {s : State} {cab bench cell die i : Nat} {d : Design} {c : Ch} (hp : s.physOf cab = some (c, die, i))
    (hd : s.designs.find? (fun x => x.repairs.contains (5, cab, 64 * bench + cell)) = some d)
    (hb : d.begun = true → d.tileRepair (5, cab, 64 * bench + cell) = true) :
    exec (.cellSwapped cab bench cell .good) s = .next
      (match ((s.cab c die i).bench ((s.cab c die i).physBench bench)).freeSpare with
      | none => s.modDesign d.tag fun x => x.withRepairs (fun r => r != (5, cab, 64 * bench + cell)) [(4, cab, bench)]
      | some sp => (s.cellMoved d c die i cab bench cell sp).designEvent d 0x1003 (s.cellAddr cab bench cell ++ [sp])) := by
  show execCellSwapped cab bench cell .good s = _
  unfold execCellSwapped
  rw [hd, hp]
  have runs : ¬ (d.begun = true ∧ d.tileRepair (5, cab, 64 * bench + cell) = false) := fun ⟨h, k⟩ => by simp [hb h] at k
  simp only [if_neg runs, State.imageRead_good, ne_eq, not_true_eq_false, false_and, if_false]
  cases ((s.cab c die i).bench ((s.cab c die i).physBench bench)).freeSpare with
  | none => rfl
  | some sp => rw [← State.cellAddr_of_topo (s.cellMoved_topo d c die i cab bench cell sp)]; rfl

theorem State.cellMoved_host (s : State) (d : Design) (c : Ch) (die i cab bench cell sp : Nat) :
    (s.cellMoved d c die i cab bench cell sp).host = s.host := s.modBench_host ..

theorem State.cab_cellMoved (s : State) (d : Design) (c : Ch) (die i cab bench cell sp : Nat) :
    (s.cellMoved d c die i cab bench cell sp).cab c die i = { s.cab c die i with
      benches := KV.upd {} ((s.cab c die i).physBench bench) (fun b => b.swapCell cell sp) (s.cab c die i).benches } := by
  rw [State.cellMoved, State.cab_of_die (State.die_modDesign ..), State.cab_of_die (State.die_modDesign ..), State.cab_modBench_same]

theorem State.cellMoved_designs (s : State) (d : Design) (c : Ch) (die i cab bench cell sp : Nat) :
    ∀ x ∈ (s.cellMoved d c die i cab bench cell sp).designs, x.tag = d.tag → (5, cab, 64 * bench + cell) ∉ x.repairs := by
  refine State.forall_modDesign (P := fun x => (5, cab, 64 * bench + cell) ∉ x.repairs)
    (State.forall_modDesign (P := fun _ => True) (fun _ _ _ => trivial) fun x _ => ?_) fun x hx => hx
  simp [Design.withRepairs]

/-! ### Bench swaps (R61, R62) -/

/-- Whether a pending repair is needless once the spare Bench carries a Bench (R62). -/
def benchCured (cab bench : Nat) (r : Nat × Nat × Nat) : Bool :=
  r.2.1 == cab && ((r.1 == 1 || r.1 == 4) && r.2.2 == bench || r.1 == 5 && r.2.2 / 64 == bench)

/-- A Bench swap, before its event (R61): the spare Bench carries the Bench, the repairs that it cures are pending no longer, no tile of the
Bench waits. -/
def State.benchMoved (s : State) (d : Design) (c : Ch) (die i cab bench : Nat) : State :=
  ((s.modCab c die i fun p =>
      { p with spareBench := some bench, benches := KV.upd {} bench (fun b => { b with retired := true }) p.benches }).modDesign d.tag fun x =>
    x.withRepairs (fun r => !benchCured cab bench r) []).modDesign d.tag fun x => x.modCab cab fun y => y.dropBad fun b _ => b == bench

/-- What BENCH_SWAPPED does with a healthy spare Bench when the image copy can be read. -/
theorem exec_benchSwapped {s : State} {cab bench die i : Nat} {d : Design} {c : Ch} (hp : s.physOf cab = some (c, die, i))
    (hd : s.designs.find? (fun x => x.repairs.any (fun r => (r.1 == 1 || r.1 == 4) && r.2 == (cab, bench))) = some d)
    (hs : (s.cab c die i).spareBench = none) (hu : ((s.cab c die i).bench 16).usable = true) :
    exec (.benchSwapped cab bench .good) s = .next ((s.benchMoved d c die i cab bench).designEvent d 0x1004
      [cab, bench, if d.repairs.any (fun r => r == (1, cab, bench)) then 2 else 1]) := by
  show execBenchSwapped cab bench .good s = _
  unfold execBenchSwapped
  rw [hd, hp]
  have free : ¬ ((s.cab c die i).spareBench.isSome = true ∨ ((s.cab c die i).bench 16).usable = false) := by simp [hs, hu]
  simp only [if_neg free, State.imageRead_good, ne_eq, not_true_eq_false, false_and, if_false]
  rfl

theorem State.benchMoved_host (s : State) (d : Design) (c : Ch) (die i cab bench : Nat) :
    (s.benchMoved d c die i cab bench).host = s.host := s.modCab_host ..

theorem State.cab_benchMoved (s : State) (d : Design) (c : Ch) (die i cab bench : Nat) :
    (s.benchMoved d c die i cab bench).cab c die i = { s.cab c die i with
      spareBench := some bench, benches := KV.upd {} bench (fun b => { b with retired := true }) (s.cab c die i).benches } := by
  rw [State.benchMoved, State.cab_of_die (State.die_modDesign ..), State.cab_of_die (State.die_modDesign ..), State.cab_modCab_same]

/-- Each command by its `exec_` lemma; the event's place and the state before it by the lemmas of that state. -/
theorem tilesCellsBenches : Clauses.TilesCellsBenches := by
  rintro s cab bench cell d c die i pb hp rfl
  refine ⟨fun t img hd ht hi => ⟨fun late => ?_, ?_⟩, fun hd hb => ⟨fun sp hsp => ?_, fun full => ?_⟩, fun hd hs hu => ?_⟩
  · refine ⟨_, s.tileMended d c die i cab bench cell t, exec_tileReloaded hp hd ht true, ?_, s.tileMended_host ..,
      s.tileMended_designs d c die i cab bench cell t hi, State.reg_of_counted (s.tileMended_regs ..)⟩
    rw [if_neg (by simp [late])]
    exact State.designEvent_told ..
  · rw [exec_tileReloaded hp hd ht false, if_pos (.inl rfl)]
  · refine ⟨_, s.cellMoved d c die i cab bench cell sp, by rw [exec_cellSwapped hp hd hb, hsp], State.designEvent_told .., ?_, ?_,
      s.cellMoved_host .., s.cellMoved_designs d c die i cab bench cell sp⟩
    · rw [State.cab_cellMoved, PhysCab.bench_upd_same]
    · rw [State.cab_cellMoved]
  · rw [exec_cellSwapped hp hd hb, full]; rfl
  · refine ⟨_, s.benchMoved d c die i cab bench, exec_benchSwapped hp hd hs hu, s.benchMoved_host .., State.designEvent_told .., ?_, ?_⟩
    · rw [State.cab_benchMoved]
    · rw [State.cab_benchMoved]
      simp [PhysCab.bench]

/-! ### Cabinet swaps (R26, R338) -/

theorem Quiet.die {s u : State} (h : Quiet s u) (c : Ch) (die : Nat) : u.die c die = s.die c die := by
  obtain ⟨rest, -⟩ := h
  rw [rest]; cases c <;> rfl

/-- A die with a healthy spare keeps its grade (R345). -/
theorem State.spareCheck_of_spare {s : State} {c : Ch} {die sp : Nat} (h : sp ∈ s.spares c die) : s.spareCheck c die = s := by
  have held : (s.spares c die).isEmpty = false := List.isEmpty_eq_false_iff.mpr (List.ne_nil_of_mem h)
  simp [State.spareCheck, held]

/-- Taking a spare for a repair (R26): the first healthy one, and the other stands. -/
theorem State.takeSpare_cons {s : State} {c : Ch} {die sp : Nat} {rest : List Nat} (h : s.spares c die = sp :: rest) :
    ∃ u, s.takeSpare c die = some (sp, u) ∧ (u.die c die).standing = rest.head? ∧ (u.die c die).rotating = none ∧
      (u.die c die).cabs = (s.die c die).cabs ∧ u.designs = s.designs ∧ u.parts = s.parts ∧ u.host = s.host := by
  unfold State.takeSpare
  rw [h]
  refine ⟨_, rfl, ?_, ?_, ?_, ?_, ?_, ?_⟩ <;> simp [State.die_modCh_of_dies]

/-- Moving a logical Cabinet onto another physical one (R24): the map names the new one, the old one has failed, and no third Cabinet and no
spare changes. -/
theorem State.moveCab_spec (s : State) (c : Ch) (die idx : Nat) {old new : Nat} (h : old ≠ new) :
    ((s.moveCab c die idx old new).die c die).phys idx = some new ∧
    ((s.moveCab c die idx old new).cab c die old).failed = true ∧ ((s.moveCab c die idx old new).cab c die old).repairDue = false ∧
    (∀ j, j ≠ old → j ≠ new → (s.moveCab c die idx old new).cab c die j = s.cab c die j) ∧
    ((s.moveCab c die idx old new).die c die).standing = (s.die c die).standing ∧
    ((s.moveCab c die idx old new).die c die).rotating = (s.die c die).rotating ∧
    (s.moveCab c die idx old new).designs = s.designs ∧ (s.moveCab c die idx old new).parts = s.parts ∧
    (s.moveCab c die idx old new).host = s.host := by
  unfold State.moveCab
  refine ⟨?_, ?_, ?_, fun j hj hn => ?_, ?_, ?_, ?_, ?_, ?_⟩
  · simp [DieSt.phys]
  · rw [State.cab_modCab_other _ _ _ _ h, State.cab_modCab_same]
  · rw [State.cab_modCab_other _ _ _ _ h, State.cab_modCab_same]
  · rw [State.cab_modCab_other _ _ _ _ hn, State.cab_modCab_other _ _ _ _ hj]
    simp [State.cab]
  all_goals simp

/-- What CABINET_REPAIRED does for a Cabinet of no design whose repair is due and which no load fills, with a spare (R26, R338). -/
theorem exec_cabinetRepaired {s v : State} {cab die i sp : Nat} {c : Ch} (hp : s.physOf cab = some (c, die, i))
    (hd : ∀ d ∈ s.designs, d.allCabs.contains cab = false) (due : (s.cab c die i).repairDue = true)
    (load : (s.part (partOfCab cab)).state ≠ .loading) (take : s.takeSpare c die = some (sp, v)) :
    exec (.cabinetRepaired cab .good) s = .next (((v.moveCab c die (cab % 32) i sp).hubEvent c 0x9002 [die, sp]).spareCheck c die) := by
  have unused : s.designs.find? (fun d => d.allCabs.contains cab) = none := by
    exact List.find?_eq_none.mpr fun d h => ne_of_eq_of_ne (hd d h) Bool.false_ne_true
  have idle : ((s.part (partOfCab cab)).state == .loading) = false := by simpa using load
  show execCabinetRepaired cab .good s = _
  unfold execCabinetRepaired
  rw [hp]
  simp only [unused, due, idle, take, Option.map_none, Option.getD_none, Bool.true_or, Bool.true_eq_false, Bool.false_eq_true, or_self, if_false]

theorem State.healthy_die (s : State) (c : Ch) (die i : Nat) :
    (s.die c die).healthy i = (!(s.cab c die i).failed && !(s.cab c die i).configBad) := rfl

theorem mem_healthy_of_spares {x : DieSt} {j : Nat} (h : j ∈ x.spares) : x.healthy j = true := (List.mem_filter.mp h).2

/-! ### Configuration cells (R332) -/

/-- A hard defect in the configuration cells of a Cabinet is marked and counted (R332). -/
def State.configFault (s : State) (c : Ch) (die i : Nat) : State :=
  ((s.modCab c die i fun p => { p with configBad := true }).count .cabLasting c [die, i]).healthLasting c

theorem State.configFault_designs (s : State) (c : Ch) (die i : Nat) : (s.configFault c die i).designs = s.designs := by
  simp [State.configFault, State.count, State.healthLasting]

theorem State.configFault_host (s : State) (c : Ch) (die i : Nat) : (s.configFault c die i).host = s.host := by
  simp [State.configFault, State.count, State.healthLasting]

theorem State.configFault_regs (s : State) (c : Ch) (die i : Nat) :
    (s.configFault c die i).regs = (s.count .cabLasting c [die, i]).regs := by
  simp [State.configFault, State.count, State.healthLasting, State.countBy, State.setReg, State.reg]

theorem State.die_configFault (s : State) (c : Ch) (die i : Nat) :
    (s.configFault c die i).die c die =
      { s.die c die with cabs := KV.upd {} i (fun p => { p with configBad := true }) (s.die c die).cabs } := by
  simp [State.configFault, State.count]

theorem State.cab_configFault (s : State) (c : Ch) (die i : Nat) :
    (s.configFault c die i).cab c die i = { s.cab c die i with configBad := true } := by
  simp [State.cab, State.die_configFault]

/-- A configuration fault leaves the map of logical Cabinets. -/
theorem State.logicalOf_configFault (s : State) (c : Ch) (die i : Nat) :
    (s.configFault c die i).logicalOf c die i = s.logicalOf c die i := by
  simp only [State.logicalOf, State.die_configFault, DieSt.phys]

/-- A hard defect in the configuration cells of a Cabinet in use that no design spans makes its repair due (R332). -/
theorem exec_configParityFail {s : State} {die i l : Nat} {c : Ch} (on : (s.pw c).state.arrayOn = true) (hdie : die < 2) (hi : i < 34)
    (good : (s.cab c die i).configBad = false) (hl : s.logicalOf c die i = some l) (hd : ∀ d ∈ s.designs, d.span.contains l = false) :
    exec (.configParityFail c die i) s = .next ((s.configFault c die i).modCab c die i fun p => { p with repairDue := true }) := by
  have runs : ¬ ((s.pw c).state.arrayOn = false ∨ 2 ≤ die ∨ 34 ≤ i ∨ (s.cab c die i).configBad = true) := by
    simp [on, good]; omega
  have place : (s.configFault c die i).logicalOf c die i = some l := (s.logicalOf_configFault c die i).trans hl
  have unused : ((s.configFault c die i).modCab c die i fun p => { p with repairDue := true }).designs.find?
      (fun d => d.span.contains l) = none := by
    rw [State.modCab_designs, State.configFault_designs]
    exact List.find?_eq_none.mpr fun d h => ne_of_eq_of_ne (hd d h) Bool.false_ne_true
  show execConfigParityFail c die i s = _
  unfold execConfigParityFail
  unfold State.configFault at place unused ⊢
  simp only [if_neg runs, place, unused]

/-- After the swap the other healthy spare stands, so the grade stays (R345) and the swap's event is the last change. -/
theorem cabinetSwaps : Clauses.CabinetSwaps := by
  intro s c die i cab sp rot
  refine ⟨fun hp hd due load spares hsi hri hrs => ?_, fun l on hdie hi good hl hd => ?_⟩
  · obtain ⟨v, take, stand, rotating, cabs, designs, parts, host⟩ := State.takeSpare_cons spares
    obtain ⟨phys, failed, cured, others, stand', rotating', designs', parts', host'⟩ := v.moveCab_spec c die (cab % 32) (Ne.symm hsi)
    generalize hw : v.moveCab c die (cab % 32) i sp = w at *
    have told := w.event_told 0x9002 (1 + chNum c) 0xFF 0 false [die, sp]
    have kept : w.cab c die rot = s.cab c die rot := by
      rw [others rot hri hrs, State.cab, cabs, State.cab]
    have healthy : (s.die c die).healthy rot = true := mem_healthy_of_spares (by rw [← State.spares, spares]; simp)
    have left : rot ∈ (w.hubEvent c 0x9002 [die, sp]).spares c die := by
      rw [State.spares, State.hubEvent, told.1.die]
      refine List.mem_filter.mpr ⟨by simp [stand', stand], ?_⟩
      rw [State.healthy_die, kept, ← State.healthy_die]; exact healthy
    refine ⟨w.hubEvent c 0x9002 [die, sp], w, ?_, told, phys, failed, cured, ?_, ?_, ?_, ?_, ?_⟩
    · rw [exec_cabinetRepaired hp hd due load take, hw, State.spareCheck_of_spare left]
    · rw [stand', stand]; rfl
    · rw [rotating', rotating]
    · rw [designs', designs]
    · rw [parts', parts]
    · rw [host', host]
  · refine ⟨_, exec_configParityFail on hdie hi good hl hd, ?_, ?_, ?_, ?_, ?_⟩
    · rw [State.cab_modCab_same, State.cab_configFault]
    · rw [State.cab_modCab_same]
    · rw [State.modCab_designs, State.configFault_designs]
    · rw [State.modCab_host, State.configFault_host]
    · exact State.reg_of_counted (by rw [State.modCab_regs, State.configFault_regs])

/-- Settles O42: each repair command leaves a named state that its event tells of, and what that state holds is read off update by update. -/
theorem arrayRepair : Obligations.ArrayRepair := ⟨tilesCellsBenches, cabinetSwaps⟩

end Sys2Proof.Machine
end

section
/-! What reading a design gives after an update, and what an event leaves alone. -/

namespace Sys2Proof.Machine

open Sys2Proof

/-! ### The design with a tag -/

theorem State.design_tag {s : State} {tag : Nat} {d : Design} (h : s.design tag = some d) : d.tag = tag := by
  simpa using List.find?_some h

theorem State.design_of_designs {s u : State} (h : u.designs = s.designs) (tag : Nat) : u.design tag = s.design tag := by
  rw [State.design, h, State.design]

/-- Updating the design with a tag, which the update keeps, is updating what is read under it. -/
theorem State.design_modDesign {s : State} {tag : Nat} {f : Design → Design} (hf : ∀ x, x.tag = tag → (f x).tag = tag) :
    (s.modDesign tag f).design tag = (s.design tag).map f := by
  simp only [State.design, State.modDesign_designs]
  induction s.designs with
  | nil => rfl
  | cons x l ih =>
    by_cases hx : x.tag = tag
    · simp [hx, hf x hx]
    · simpa [hx] using ih

theorem State.design_modDesign_some {s : State} {tag : Nat} {d : Design} {f : Design → Design} (h : s.design tag = some d)
    (hf : ∀ x, x.tag = tag → (f x).tag = tag) : (s.modDesign tag f).design tag = some (f d) := by
  rw [State.design_modDesign hf, h, Option.map_some]

/-- The design of a partition is found under its own tag. -/
theorem State.design_of_designAt {s : State} {p : Nat} {d : Design} (h : s.designAt p = some d) : s.design d.tag = some d := by
  unfold State.designAt at h
  split at h
  · exact absurd h (by simp)
  · rw [State.design_tag h]; exact h

@[simp] theorem State.modDesign_ch (s : State) (tag : Nat) (f : Design → Design) (c : Ch) : (s.modDesign tag f).ch c = s.ch c := by
  cases c <;> rfl

@[simp] theorem State.countBy_ch (s : State) (r : Reg) (x : Ch) (idx : List Nat) (n : Nat) (c : Ch) :
    (s.countBy r x idx n).ch c = s.ch c := by cases c <;> rfl

@[simp] theorem State.countBy_parts (s : State) (r : Reg) (x : Ch) (idx : List Nat) (n : Nat) :
    (s.countBy r x idx n).parts = s.parts := rfl

@[simp] theorem Design.tag_modCab (d : Design) (l : Nat) (f : CabSt → CabSt) : (d.modCab l f).tag = d.tag := rfl

theorem Design.cab_modCab_other (d : Design) {l m : Nat} (f : CabSt → CabSt) (h : m ≠ l) : (d.modCab l f).cab m = d.cab m :=
  KV.get_upd_other _ _ h _ _

/-! ### Events -/

theorem Quiet.designs {s u : State} (h : Quiet s u) : u.designs = s.designs := by rw [h.1]
theorem Quiet.parts {s u : State} (h : Quiet s u) : u.parts = s.parts := by rw [h.1]
theorem Quiet.ch {s u : State} (h : Quiet s u) (c : Ch) : u.ch c = s.ch c := by rw [h.1]; cases c <;> rfl

end Sys2Proof.Machine
end

section
/-! VALUE packets in the fabric of a channel (R165-R170): no packet but a MEM request acts where it lands, so a fabric without MEM packets
comes to rest without touching a design or the HBM. -/

namespace Sys2Proof.Machine

open Sys2Proof

/-! ### The class of a flit -/

/-- A flit whose class bits do not say MEM (R168, R169). -/
def NotMem (w : BitVec 256) : Prop := w.toNat % 8 ≠ 1

theorem mkFlit_class (w : Nat) : (mkFlit w).toNat % 8 = w % 8 := by
  rw [mkFlit, BitVec.toNat_ofNat]
  omega

/-- Stamping the age keeps the class: AGE stands above the class bits. -/
theorem NotMem.setAge {w : BitVec 256} (h : NotMem w) (age : Nat) : NotMem (setAge w age) := by
  have cls : (Machine.setAge w age).toNat % 8 = w.toNat % 8 := by
    unfold Machine.setAge
    rw [mkFlit_class]
    simp only [field, Nat.shiftRight_eq_div_pow]
    omega
  rw [NotMem, cls]; exact h

theorem notMem_valuePacket {dest src tag step group attempt frame index values : Nat} :
    ∀ w ∈ valuePacket dest src tag step group attempt frame index values, NotMem w := by
  intro w hw
  obtain rfl := List.mem_singleton.mp hw
  rw [NotMem, headFlit, mkFlit_class]
  omega

/-! ### A fabric that holds no MEM packet -/

/-- No packet at an input and none that has landed is of class MEM. -/
structure FabSt.NoMem (f : FabSt) : Prop where
  flows : ∀ x ∈ f.flows, ∀ w ∈ x.flits, NotMem w
  landed : ∀ e ∈ f.landed, ∀ w ∈ e.2, NotMem w

namespace FabSt

variable {f : FabSt}

theorem NoMem.of_eq {g : FabSt} (h : f.NoMem) (hf : g.flows = f.flows) (hl : g.landed = f.landed) : g.NoMem :=
  ⟨hf ▸ h.flows, hl ▸ h.landed⟩

@[simp] theorem owe_flows (f : FabSt) (input vc n : Nat) : (f.owe input vc n).flows = f.flows := by
  unfold owe; split <;> rfl

@[simp] theorem owe_landed (f : FabSt) (input vc n : Nat) : (f.owe input vc n).landed = f.landed := by
  unfold owe; split <;> rfl

theorem NoMem.owe (h : f.NoMem) (input vc n : Nat) : (f.owe input vc n).NoMem := h.of_eq (by simp) (by simp)

theorem NoMem.pushAll (h : f.NoMem) : f.pushAll.NoMem := by
  unfold FabSt.pushAll
  generalize f.links.filter _ = ends
  induction ends generalizing f with
  | nil => exact h
  | cons e ends ih => exact ih (h.of_eq rfl rfl)

/-- A grant marks and ages packets; their flits stay. -/
theorem NoMem.grant (h : f.NoMem) (out : Nat) : (f.grant out).NoMem := by
  unfold FabSt.grant
  extract_lets cs
  split
  · exact h
  · refine ⟨fun x hx => ?_, h.landed⟩
    obtain ⟨e, he, rfl⟩ := List.mem_map.mp hx
    have kept := h.flows e.2 (List.of_mem_zip he).2
    dsimp only
    split
    · exact kept
    · split <;> exact kept

/-- Removing a packet, or leaving it fewer flits, keeps the others. -/
theorem NoMem.shorten (h : f.NoMem) {x : Flow} (hx : ∀ w ∈ x.flits, NotMem w) (k : Nat) (done : Bool) :
    ({ f with flows := if done then f.flows.eraseIdx k else f.flows.set k x } : FabSt).NoMem := by
  refine ⟨fun y hy => ?_, h.landed⟩
  dsimp only at hy
  split at hy
  · exact h.flows y (List.mem_of_mem_eraseIdx hy)
  · rcases List.mem_or_eq_of_mem_set hy with hy | rfl
    · exact h.flows y hy
    · exact hx

theorem NoMem.pass (h : f.NoMem) {x : Flow} (hx : x ∈ f.flows) (k : Nat) : (f.pass k x).NoMem := by
  have own := h.flows x hx
  have sent : ∀ fl : List (BitVec 256), fl = (match x.flits with
      | [] => []
      | w :: ws => if x.begun then w :: ws else setAge w x.age :: ws) → ∀ w ∈ fl, NotMem w := by
    rintro fl rfl
    cases hf : x.flits with
    | nil => simp
    | cons w ws =>
      rw [hf] at own
      cases x.begun
      · simpa using ⟨(own w (by simp)).setAge _, fun v hv => own v (by simp [hv])⟩
      · exact own
  unfold FabSt.pass
  extract_lets fl
  replace sent := sent fl rfl
  clear_value fl
  split
  · refine NoMem.owe ⟨fun y hy => h.flows y (List.mem_of_mem_eraseIdx hy), fun e he => ?_⟩ _ _ _
    rcases List.mem_append.mp he with he | he
    · exact h.landed e he
    · obtain rfl := List.mem_singleton.mp he; exact sent
  · split
    · exact h
    · next w ws =>
      extract_lets last y g t
      have rest : g.NoMem := (h.shorten (x := y) (fun v hv => sent v (by simp [show v ∈ ws from hv])) k last).owe _ _ _
      split <;> exact rest.of_eq rfl rfl

theorem NoMem.move {g : FabSt} (h : f.NoMem) (hm : f.move = some g) : g.NoMem := by
  unfold FabSt.move at hm
  split at hm
  · next e he =>
    obtain rfl := Option.some.inj hm
    exact h.pass (List.of_mem_zip (List.mem_of_find?_eq_some he)).2 _
  · split at hm
    · obtain rfl := Option.some.inj hm
      exact h.grant _
    · exact absurd hm (by simp)

theorem NoMem.pump (h : f.NoMem) (n : Nat) : (f.pump n).NoMem := by
  induction n generalizing f with
  | zero => exact h.pushAll
  | succ n ih =>
    rw [FabSt.pump]
    split
    · next g hg => exact ih (h.move hg)
    · exact h.pushAll

end FabSt

/-! ### The module around it -/

/-- `u` is `s` after packets other than MEM have moved: no design, no partition and no HBM has changed, and no fabric holds a MEM packet. -/
structure State.Moved (s u : State) : Prop where
  designs : u.designs = s.designs
  parts : u.parts = s.parts
  hbm : ∀ c, (u.ch c).hbm = (s.ch c).hbm
  calm : ∀ c, (u.ch c).fab.NoMem

namespace State

variable {s u v : State}

theorem Moved.refl (h : ∀ c, (s.ch c).fab.NoMem) : s.Moved s := ⟨rfl, rfl, fun _ => rfl, h⟩

theorem Moved.trans (h : s.Moved u) (k : u.Moved v) : s.Moved v :=
  ⟨k.designs.trans h.designs, k.parts.trans h.parts, fun c => (k.hbm c).trans (h.hbm c), k.calm⟩

theorem Moved.modFab (h : s.Moved u) (c : Ch) {g : FabSt → FabSt} (hg : ∀ f : FabSt, f.NoMem → (g f).NoMem) :
    s.Moved (u.modFab c g) := by
  refine h.trans ⟨by simp [State.modFab], by simp [State.modFab], fun x => ?_, fun x => ?_⟩
  · cases c <;> cases x <;> rfl
  · have calm := h.calm x
    by_cases hx : x = c
    · subst hx; simpa [State.modFab] using hg _ calm
    · simpa [State.modFab, State.modCh_other _ _ hx] using calm

theorem Moved.links (h : s.Moved u) (c : Ch) (g : FabSt → KV FLink) : s.Moved (u.modFab c fun f => { f with links := g f }) :=
  h.modFab c fun _ n => n.of_eq rfl rfl

theorem Moved.quiet (h : s.Moved u) (q : Quiet u v) : s.Moved v :=
  h.trans ⟨q.designs, q.parts, fun c => by rw [q.ch], fun c => by rw [q.ch]; exact h.calm c⟩

theorem Moved.count (h : s.Moved u) (r : Reg) (c : Ch) (idx : List Nat) : s.Moved (u.count r c idx) :=
  h.trans ⟨rfl, rfl, fun x => by simp [State.count], fun x => by simpa [State.count] using h.calm x⟩

theorem Moved.injected (h : s.Moved u) (c : Ch) (i n : Nat) : s.Moved (u.injected c i n) := by
  unfold State.injected State.modStat
  exact h.modFab c fun _ k => k.of_eq rfl rfl

theorem Moved.enter (h : s.Moved u) (c : Ch) (pl : Place) (input : Nat) {flits : List (BitVec 256)} (hf : ∀ w ∈ flits, NotMem w)
    (left : Nat) : s.Moved (u.enter c pl input flits left) := by
  unfold State.enter
  cases flits with
  | nil => exact h
  | cons w ws =>
    dsimp only
    split
    · split
      · unfold State.modFlink State.hubEvent
        exact (((h.count ..).quiet (State.event_quiet ..)).modFab c fun _ n => n.owe _ _ _).links c _
      · exact h
    · refine h.modFab c fun _ n => ⟨fun x hx => ?_, n.landed⟩
      rcases List.mem_append.mp hx with hx | hx
      · exact n.flows x hx
      · obtain rfl := List.mem_singleton.mp hx; exact hf

/-- A packet that is no MEM packet does nothing where it lands. -/
theorem landPacket_of_notMem (s : State) (c : Ch) (out : Nat) {flits : List (BitVec 256)} (h : ∀ w ∈ flits, NotMem w) :
    s.landPacket c out flits = (true, s) := by
  unfold State.landPacket
  cases flits with
  | nil => rfl
  | cons w ws =>
    have cls : field w.toNat 0 3 ≠ 1 := by simpa [field, NotMem] using h w (by simp)
    dsimp only
    rw [if_pos (.inr (.inr (.inl cls)))]

theorem Moved.takeLanded (h : s.Moved u) (c : Ch) : s.Moved (u.takeLanded c) := by
  have taken : ∀ (l : List (Nat × List (BitVec 256))), (∀ e ∈ l, ∀ w ∈ e.2, NotMem w) → ∀ v : State,
      l.foldl (fun (a : State × List (Nat × List (BitVec 256))) e =>
        ((a.1.landPacket c e.1 e.2).2, if (a.1.landPacket c e.1 e.2).1 then a.2 else a.2 ++ [e])) (v, []) = (v, []) := by
    intro l hl v
    induction l with
    | nil => rfl
    | cons e l ih =>
      rw [List.foldl_cons]
      simp only [landPacket_of_notMem v c e.1 (hl e (by simp)), if_true]
      exact ih fun x hx => hl x (by simp [hx])
  unfold State.takeLanded
  extract_lets l r
  have rest : r = (u.modFab c fun f => { f with landed := [] }, []) := taken _ (h.calm c).landed _
  rw [rest]
  have emptied : s.Moved (u.modFab c fun f => { f with landed := [] }) := h.modFab c fun _ n => ⟨n.flows, by simp⟩
  exact emptied.modFab c fun _ n => ⟨n.flows, n.landed⟩

theorem Moved.crossBridge (h : s.Moved u) (c : Ch) : s.Moved (u.crossBridge c) := by
  unfold State.crossBridge
  extract_lets o l q n s1
  split
  · exact h
  · have left : s.Moved (u.modFab c fun f => { f with across := f.across.drop n }) := h.modFab c fun _ k => k.of_eq rfl rfl
    exact left.links o _

theorem Moved.fabSettle (h : s.Moved u) (c : Ch) : s.Moved (u.fabSettle c) := by
  unfold State.fabSettle
  extract_lets s1 s2
  have pumped : s.Moved s1 := h.modFab c fun _ n => n.pump _
  have landed : s.Moved s2 := by
    dsimp only [s2]
    split
    · exact pumped
    · exact (pumped.takeLanded c).modFab c fun _ n => n.pump _
  split
  · exact landed
  · exact landed.crossBridge c

theorem Moved.cabInject (h : s.Moved u) (l : Nat) {flits : List (BitVec 256)} (hf : ∀ w ∈ flits, NotMem w) :
    s.Moved (u.cabInject l flits) := by
  unfold State.cabInject
  split
  · exact ((h.enter _ _ _ hf 0).injected ..).fabSettle _
  · exact h

theorem Moved.cabInjects (h : s.Moved u) (l : Nat) {ps : List (List (BitVec 256))} (hp : ∀ p ∈ ps, ∀ w ∈ p, NotMem w) :
    s.Moved (ps.foldl (fun s p => s.cabInject l p) u) := by
  induction ps generalizing u with
  | nil => exact h
  | cons p ps ih => exact ih (h.cabInject l (hp p (by simp))) fun q hq => hp q (by simp [hq])

/-- The packets of a step are VALUE packets. -/
theorem notMem_valueFlits (s : State) (d : Design) (cab step : Nat) (pk : List VPacket) (outs : List (Nat × Nat × BitVec 16)) :
    ∀ p ∈ s.valueFlits d cab step pk outs, ∀ w ∈ p, NotMem w := by
  intro p hp
  rcases List.mem_append.mp hp with hp | hp <;> obtain ⟨x, -, rfl⟩ := List.mem_map.mp hp <;> exact notMem_valuePacket

end State

end Sys2Proof.Machine
end

section
/-! A Cabinet's step (R36, R66-R76, R124-R129): the parts of STEP_BEGIN one by one, and what each leaves to read. -/

namespace Sys2Proof.Machine

open Sys2Proof

/-! ### The parts of a step without observations -/

namespace State

/-- What the cells of a Cabinet do in its next step (R36). -/
def stepOuts (s : State) (d : Design) (cab : Nat) : List CellOut :=
  (d.cellKeys cab []).map (d.cellStep cab (d.cab cab).next (s.lanesIn d cab (d.cab cab).next) [])

/-- The module after the memory operations of a step (R70). -/
def stepOps (s : State) (d : Design) (cab : Nat) : State :=
  (opFields (d.memEntry cab (d.cab cab).next)).foldl (fun u x => u.memOp d.tag (d.cab cab) cab (d.cab cab).next x) s

/-- The packets to Cabinets and the outputs of a step (R67, R68). -/
def stepSends (s : State) (d : Design) (cab : Nat) : List VPacket × List (Nat × Nat × BitVec 16) :=
  d.sends cab (d.cab cab).next (outLanes (s.stepOuts d cab))

/-- The signature of a Cabinet after a step (R313). -/
def stepCrc (s : State) (d : Design) (cab : Nat) : Word64 :=
  if d.twin || s.mode.mode == .mirrored then
    (d.sigWords (d.cab cab) cab (d.cab cab).next (s.stepOuts d cab)).foldl crc64Feed (d.cab cab).crc
  else (d.cab cab).crc

/-- The hazards found in a step (R105). -/
def stepHazards (s : State) (d : Design) (cab : Nat) : List Hazard :=
  if s.mode.mode.isDebug then
    (s.stepOuts d cab).flatMap (d.cellHazards (d.cab cab).next) ++ d.gatherHazards (d.cab cab) cab (d.cab cab).next
  else []

/-- The Cabinet after its step, its memory operations done (R36, R47, R66). -/
def stepCab (s : State) (d : Design) (cab : Nat) (c : CabSt) : CabSt :=
  let n := (d.cab cab).next
  let os := s.stepOuts d cab
  let taps := (os.filter (fun o => bitAt o.insn 86)).map (·.res)
  { c with
    next := n + 1, lastStep := n, vals := c.vals.filter (fun v => v.step != n), rets := c.rets.filter (fun r => r.step != n),
    addrG := fillGather c.addrG os 1, dataG := fillGather c.dataG os 2, filledA := filled c.filledA os 1, filledD := filled c.filledD os 2,
    window := (d.units cab n :: c.window).take 256, taps := (c.taps ++ taps).take 262016, tapCount := c.tapCount + taps.length,
    toggles := c.toggles + (os.filter (fun o => (d.cellAt o.key).res.getLsbD n != o.res)).length, crc := s.stepCrc d cab,
    outputs := c.outputs ++ (s.stepSends d cab).2 }

/-- The design after a step of a Cabinet, the memory operations done: its cells, its packets and its Cabinet. -/
def stepDesign (s : State) (d : Design) (cab : Nat) (x : Design) : Design :=
  ({ x with
    cells := (s.stepOuts d cab).foldl (fun (t : KV Cell) (o : CellOut) => KV.put {} o.key o.next t) x.cells,
    packets := x.packets ++ (s.stepSends d cab).1, hazards := x.hazards ++ s.stepHazards d cab }).modCab cab (s.stepCab d cab)

/-- The module after a step, its packets not yet injected. -/
def stepInner (s : State) (d : Design) (cab : Nat) : State := (s.stepOps d cab).modDesign d.tag (s.stepDesign d cab)

/-- The packets of a step enter the fabric (R169). -/
def stepInject (s u : State) (d : Design) (cab : Nat) : State :=
  (u.valueFlits d cab (d.cab cab).next (s.stepSends d cab).1 (s.stepSends d cab).2).foldl (fun v p => v.cabInject cab p) u

/-- The register that keeps the longest undo log of a bank (R129). -/
def notePeak (s : State) (tag cab : Nat) : State :=
  match s.physOf cab, s.design tag with
  | some (c, die, i), some d =>
    let pk := (d.cab cab).undoPeak
    if (s.reg .cmemUndoPeak c [die, i]).toNat < pk then s.setReg .cmemUndoPeak c [die, i] (BitVec.ofNat 32 pk) else s
  | _, _ => s

theorem doStep_eq (s : State) (d : Design) (cab : Nat) {obs : StepObs} (tiles : obs.tiles = []) (parity : obs.parityBench = none)
    (wrong : obs.wrong = []) : s.doStep d cab obs = (s.stepInject (s.stepInner d cab) d cab).notePeak d.tag cab := by
  unfold State.doStep
  rw [tiles, parity, wrong]
  rfl

/-! ### What a step leaves to read -/

/-- Noting the longest undo log changes a register alone. -/
theorem notePeak_rest (s : State) (tag cab : Nat) : s.notePeak tag cab = { s with regs := (s.notePeak tag cab).regs } := by
  unfold State.notePeak
  split
  · dsimp only
    split <;> rfl
  · rfl

theorem notePeak_designs (s : State) (tag cab : Nat) : (s.notePeak tag cab).designs = s.designs := by rw [notePeak_rest]

theorem notePeak_parts (s : State) (tag cab : Nat) : (s.notePeak tag cab).parts = s.parts := by rw [notePeak_rest]

theorem notePeak_host (s : State) (tag cab : Nat) : (s.notePeak tag cab).host = s.host := by rw [notePeak_rest]

theorem notePeak_ch (s : State) (tag cab : Nat) (c : Ch) : (s.notePeak tag cab).ch c = s.ch c := by
  rw [notePeak_rest]; cases c <;> rfl

/-- The packets of a step move through a fabric at rest (R165-R170). -/
theorem stepInject_moved {s u : State} (calm : ∀ c, (u.ch c).fab.NoMem) (d : Design) (cab : Nat) : u.Moved (s.stepInject u d cab) :=
  (Moved.refl calm).cabInjects cab (notMem_valueFlits _ _ _ _ _ _)

/-- Without a destination in its port entry a step sends nothing (R67). -/
theorem stepInject_of_no_dest {s u : State} {d : Design} {cab : Nat} (h : destFields (d.portEntry cab (d.cab cab).next) = []) :
    s.stepInject u d cab = u := by
  simp [State.stepInject, State.stepSends, Design.sends, State.valueFlits, h]

/-- The design that a step leaves, from that after its memory operations. -/
theorem stepInner_design {s : State} {d x : Design} {cab : Nat} (h : (s.stepOps d cab).design d.tag = some x) :
    (s.stepInner d cab).design d.tag = some (s.stepDesign d cab x) :=
  design_modDesign_some h fun _ ht => ht

@[simp] theorem stepDesign_frame (s : State) (d : Design) (cab : Nat) (x : Design) : (s.stepDesign d cab x).frame = x.frame := rfl
@[simp] theorem stepDesign_rets (s : State) (d : Design) (cab : Nat) (x : Design) : (s.stepDesign d cab x).rets = x.rets := rfl

theorem stepDesign_cab (s : State) (d : Design) (cab : Nat) (x : Design) :
    (s.stepDesign d cab x).cab cab = s.stepCab d cab (x.cab cab) := Design.cab_modCab_same _ _ _

theorem stepDesign_cab_other (s : State) (d : Design) {cab l : Nat} (x : Design) (h : l ≠ cab) :
    (s.stepDesign d cab x).cab l = x.cab l := Design.cab_modCab_other _ _ h

end State

/-- Writing what each of some cells becomes into the table of cells. -/
theorem get_foldl_put_cells (g : Nat → CellOut) (hg : ∀ k, (g k).key = k) (keys : List Nat) (t : KV Cell) (k : Nat) :
    KV.get {} k ((keys.map g).foldl (fun (t : KV Cell) (o : CellOut) => KV.put {} o.key o.next t) t) =
      if k ∈ keys then (g k).next else KV.get {} k t := by
  induction keys generalizing t with
  | nil => rfl
  | cons a keys ih =>
    rw [List.map_cons, List.foldl_cons, ih, hg]
    by_cases hk : k ∈ keys
    · rw [if_pos hk, if_pos (List.mem_cons_of_mem _ hk)]
    · rw [if_neg hk]
      by_cases ha : k = a
      · subst ha; rw [KV.get_put_same, if_pos List.mem_cons_self]
      · rw [KV.get_put_other _ _ ha, if_neg (by simp [hk, ha])]

/-- Each cell of the Cabinet takes its step, and no other cell changes (R36). -/
theorem State.stepDesign_cellAt (s : State) (d : Design) (cab : Nat) (x : Design) (k : Nat) :
    (s.stepDesign d cab x).cellAt k =
      if k ∈ d.cellKeys cab [] then (d.cellStep cab (d.cab cab).next (s.lanesIn d cab (d.cab cab).next) [] k).next else x.cellAt k :=
  get_foldl_put_cells _ (fun _ => rfl) _ _ _

/-! ### The memory operation of a step (R70, R124-R129) -/

theorem Design.cab_of_cabs {d x : Design} (h : x.cabs = d.cabs) (l : Nat) : x.cab l = d.cab l := by rw [Design.cab, h, Design.cab]

@[simp] theorem Design.bankOp_tag (d : Design) (now cab step k f addr : Nat) (data : Word64) :
    (d.bankOp now cab step k f addr data).tag = d.tag := by
  unfold Design.bankOp
  extract_lets c old o new writes bank wait ret x
  show x.tag = d.tag
  dsimp only [x]
  split <;> rfl

/-- An access by an operation that writes nothing leaves the Cabinets, any other writes its word and logs the old one. -/
theorem Design.bankOp_cab (d : Design) (now cab step k f addr : Nat) (data : Word64) (stage : 2 ≤ d.stage) (op : field f 0 3 ∈ [1, 2, 3, 4]) :
    (d.bankOp now cab step k f addr data).cab cab =
      if field f 0 3 = 1 then d.cab cab
      else { d.cab cab with
        undo := (addr / 8192, addr, KV.get 0 addr (d.cab cab).mem) :: (d.cab cab).undo
        mem := KV.put 0 addr (if field f 0 3 = 3 then KV.get 0 addr (d.cab cab).mem + data else data) (d.cab cab).mem } := by
  simp only [List.mem_cons, List.not_mem_nil, or_false] at op
  unfold Design.bankOp
  extract_lets c old o new writes bank wait ret x
  have cabs : x.cab cab = if writes then { c with undo := (bank, addr, old) :: c.undo, mem := KV.put 0 addr new c.mem } else c := by
    dsimp only [x]
    split
    · exact d.cab_modCab_same _ _
    · rfl
  refine (Design.cab_of_cabs (d := x) rfl cab).trans (cabs.trans ?_)
  rcases op with op | op | op | op <;> simp [writes, new, o, op, stage, c, old, bank]

/-- An access waits for its bank with the word that it returns (R72, R126-R128). -/
theorem Design.bankOp_rets (d : Design) (now cab step k f addr : Nat) (data : Word64) (op : field f 0 3 ∈ [1, 2, 3, 4]) :
    ∃ x : MemRet, (d.bankOp now cab step k f addr data).rets = d.rets ++ [x] ∧ x.cab = cab ∧ x.addr = addr ∧ x.port = k ∧
      x.ret = if field f 0 3 = 2 then none
        else some { step := step + field f 30 11, slot := field f 11 1, word := KV.get 0 addr (d.cab cab).mem } := by
  simp only [List.mem_cons, List.not_mem_nil, or_false] at op
  unfold Design.bankOp
  extract_lets c old o new writes bank wait ret x words r
  have rets : x.rets = d.rets := by dsimp only [x]; split <;> rfl
  refine ⟨r, congrArg (· ++ [r]) rets, rfl, rfl, rfl, ?_⟩
  rcases op with op | op | op | op <;> simp [r, ret, old, c, opReturns, op]

/-- One operation on cabinet memory that acts in the phase is an access to its bank (R70, R71). -/
theorem State.memOp_of_bank {s : State} {d : Design} (found : s.design d.tag = some d) (before : CabSt) (cab step : Nat) {k f : Nat}
    (acts : d.opActs f = true) (op : field f 0 3 ∈ [1, 2, 3, 4]) :
    s.memOp d.tag before cab step (k, f) = s.modDesign d.tag fun x =>
      x.bankOp (s.ticks (chOfCab cab)) cab step k f ((KV.get 0 (field f 3 4) before.addrG).toNat % 2 ^ 17)
        (KV.get 0 (field f 7 4) before.dataG) := by
  unfold State.memOp
  simp only [List.mem_cons, List.not_mem_nil, or_false] at op
  simp only [found, acts, Bool.true_eq_false, if_false]
  rcases op with op | op | op | op <;> simp only [op]

/-! ### STEP_BEGIN -/

/-- What STEP_BEGIN does where no design's Cabinet may begin and find its tags. -/
theorem exec_stepBegin_idle {s : State} {cab : Nat} {obs : StepObs}
    (h : ∀ d ∈ s.designs, d.span.contains cab = false ∨ d.mayBegin cab = false ∨ s.tagsFree d cab = false) :
    exec (.stepBegin cab obs) s = .next s := by
  have none : s.designs.find? (fun d => d.span.contains cab && d.mayBegin cab && s.tagsFree d cab) = none := by
    refine List.find?_eq_none.mpr fun d hd => ?_
    rw [Bool.not_eq_true, Bool.and_eq_false_iff, Bool.and_eq_false_iff, or_assoc]
    exact h d hd
  show execStepBegin cab obs s = _
  rw [execStepBegin, none]

/-- What STEP_BEGIN does for a Cabinet that may begin, without observations. -/
theorem exec_stepBegin {s : State} {cab : Nat} {obs : StepObs} {d : Design}
    (h : s.designs.find? (fun x => x.span.contains cab && x.mayBegin cab && s.tagsFree x cab) = some d)
    (tiles : obs.tiles = []) (parity : obs.parityBench = none) (wrong : obs.wrong = []) :
    exec (.stepBegin cab obs) s = .next ((s.stepInject (s.stepInner d cab) d cab).notePeak d.tag cab) := by
  show execStepBegin cab obs s = _
  rw [execStepBegin, h, ← State.doStep_eq s d cab tiles parity wrong]

/-- The state after a step whose memory operations touch the design alone: its design, and what it leaves unchanged. -/
theorem State.step_spec {s : State} {d x : Design} {cab : Nat} (rest : ∀ c, (s.ch c).fab.flows = [] ∧ (s.ch c).fab.landed = [])
    {f : Design → Design} (ops : s.stepOps d cab = s.modDesign d.tag f) (after : (s.stepOps d cab).design d.tag = some x) :
    ((s.stepInject (s.stepInner d cab) d cab).notePeak d.tag cab).design d.tag = some (s.stepDesign d cab x) ∧
    ((s.stepInject (s.stepInner d cab) d cab).notePeak d.tag cab).parts = s.parts ∧
    ∀ c, (((s.stepInject (s.stepInner d cab) d cab).notePeak d.tag cab).ch c).hbm = (s.ch c).hbm := by
  have same : ∀ c, (s.stepInner d cab).ch c = s.ch c := fun c => by rw [stepInner, modDesign_ch, ops, modDesign_ch]
  have moved := stepInject_moved (s := s) (u := s.stepInner d cab) (fun c => by
    rw [same]; exact ⟨by simp [(rest c).1], by simp [(rest c).2]⟩) d cab
  refine ⟨?_, ?_, fun c => ?_⟩
  · rw [design_of_designs (notePeak_designs ..), design_of_designs moved.designs, stepInner_design after]
  · rw [notePeak_parts, moved.parts, stepInner, ops]; rfl
  · rw [notePeak_ch, moved.hbm, same]

/-- A step is its memory operations, its cells and its packets; the packets move without touching what the clause speaks of. -/
theorem stepRuns : Clauses.StepRuns := by
  intro s cab obs
  refine ⟨exec_stepBegin_idle, fun d n lanes first rest found tiles parity wrong hn hlanes => ?_⟩
  subst hn hlanes
  have runs := exec_stepBegin first tiles parity wrong
  refine ⟨fun noOps => ?_, fun k f addr old data ops acts op stage haddr hold hdata => ?_⟩
  · have same : s.stepOps d cab = s := by rw [State.stepOps, noOps]; rfl
    obtain ⟨design, parts, hbm⟩ := s.step_spec (f := id) rest (by rw [same]; simp [State.modDesign]) (by rw [same]; exact found)
    refine ⟨_, _, runs, design, parts, fun noDest => ?_, hbm .a, hbm .b, ?_, ?_, rfl, rfl, fun l hl => ?_, fun k hk => ?_, fun k hk => ?_⟩
    · rw [State.notePeak_host, State.stepInject_of_no_dest noDest, State.stepInner, same]; rfl
    · rw [State.stepDesign_cab]; rfl
    · rw [State.stepDesign_cab]; rfl
    · exact State.stepDesign_cab_other _ _ _ hl
    · rw [State.stepDesign_cellAt, if_pos hk]
    · rw [State.stepDesign_cellAt, if_neg hk]
  · subst haddr hold hdata
    have bank := State.memOp_of_bank found (d.cab cab) cab (d.cab cab).next (k := k) acts op
    have one : s.stepOps d cab = s.memOp d.tag (d.cab cab) cab (d.cab cab).next (k, f) := by rw [State.stepOps, ops]; rfl
    rw [bank] at one
    obtain ⟨design, parts, -⟩ := s.step_spec rest one (by rw [one]; exact State.design_modDesign_some found fun _ ht => (Design.bankOp_tag ..).trans ht)
    obtain ⟨x, rets, ret⟩ := d.bankOp_rets (s.ticks (chOfCab cab)) cab (d.cab cab).next k f
      ((KV.get 0 (field f 3 4) (d.cab cab).addrG).toNat % 2 ^ 17) (KV.get 0 (field f 7 4) (d.cab cab).dataG) op
    have cabs := d.bankOp_cab (s.ticks (chOfCab cab)) cab (d.cab cab).next k f
      ((KV.get 0 (field f 3 4) (d.cab cab).addrG).toNat % 2 ^ 17) (KV.get 0 (field f 7 4) (d.cab cab).dataG) stage op
    refine ⟨_, _, runs, design, parts, ?_, fun a ha => ?_, ?_, x, rets, ret⟩ <;> rw [State.stepDesign_cab, State.stepCab, cabs] <;>
      split
    · rfl
    · exact KV.get_put_same _ _ _ _
    · rfl
    · exact KV.get_put_other _ _ ha _ _
    · rfl
    · rfl

/-- Settles O39: STEP_BEGIN of a Cabinet that may begin is one named step, whose cells, memory operation and packets are read part by part. -/
theorem cabinetStep : Obligations.CabinetStep := stepRuns

end Sys2Proof.Machine
end

section
/-! Why a withheld step can touch a Cabinet all the same (R78, R104): CLEARANCE_GRANT reads the causes of a hold again once it has counted it,
and a message port may name a ring beyond the 512 of the ring table, whose RING_CTRL would stand at a counter of the array. -/

namespace Sys2Proof.Machine

open Sys2Proof

/-- A ring number beyond the ring table. -/
def strayRing : RingNo := 0x30040

/-- RING_CTRL of that ring would lie where CAB_HOLDS of the first Cabinet lies, so a counted hold enables the ring. -/
theorem regOff_strayRing : regOff .hpRingCtrl .a [strayRing] = regOff .cabHolds .a [0, 0] := by decide

/-- A running design at the start of a frame whose Cabinet 0 has used up its allowance of heavy units (R101). -/
def starvedDesign : Design :=
  { tag := 1, slot := 1, targets := [0], x := 0, nonce := 0, digest := 0, state := .running,
    header := { frameLen := 4, phases := 1, pclass := [0], regions := 0, slots := 0, msgPorts := 0, guestGroups := 0, imageId := 0,
                keyId := 0, modules := 0, topoHash := 0, mask := 1 },
    run := some { ring := 1, tag := 3, left := none, waitLaunch := false }, cabs := [(0, { window := [65] })] }

/-- The design in partition 0, with a message port whose window lies in Cabinet 0 and whose intake ring is the stray one. -/
def strayState : State :=
  { designs := [starvedDesign], parts := [(0, { owner := 1, state := .running, design := 1 })], pwr := { a := { state := .run } },
    chA := { mports := [(0, { design := some 1, inRing := some strayRing, inWin := some ⟨0, 0, 0, 0⟩ })] } }

/-- Power and a ring that is gone withhold the first step (R78, R104, R226). -/
theorem causes_strayState : strayState.causes starvedDesign false = 64 + 128 := by decide +kernel

/-- Counting the hold leaves power as the only cause. -/
theorem causes_beginHold_strayState : (strayState.beginHold starvedDesign false).causes starvedDesign false = 64 := by decide +kernel

/-- So the hold is one of the activity monitor, and Cabinet 0 gets a hold step (R104). -/
theorem clearance_strayState_changes_cabs :
    ((strayState.clearance starvedDesign false).design 1).map (·.cabs) ≠ some starvedDesign.cabs := by decide +kernel

theorem not_clearance : ¬ Clauses.Clearance := by
  intro h
  obtain ⟨grants, -⟩ := h strayState 0 starvedDesign false (by decide +kernel) rfl
  obtain ⟨-, -, withheld, -⟩ := grants (.inl rfl) rfl (by decide) (by decide +kernel) (fun _ _ => .inl (by decide)) (.inr (by decide +kernel))
  obtain ⟨u, d', runs, found, -, -, -, cabs, -⟩ := withheld (by rw [causes_strayState]; decide) (by rw [causes_strayState]; decide)
    (by decide +kernel) rfl rfl
  have granted : exec (.clearanceGrant 0) strayState = .next (strayState.clearance starvedDesign false) := by rfl
  obtain rfl : strayState.clearance starvedDesign false = u := Host.Outcome.next.inj (granted.symm.trans runs)
  refine clearance_strayState_changes_cabs ?_
  rw [show (1 : Nat) = starvedDesign.tag from rfl, found, Option.map_some, cabs]

/-- Refutes O40: in a state with a message port on a ring number beyond the ring table, counting a hold that power and the missing ring cause
enables that ring, so the hold counts as one of power alone and its Cabinet's activity window changes. -/
theorem not_clearanceAndArrivals : ¬ Obligations.ClearanceAndArrivals := fun h => not_clearance h.1

end Sys2Proof.Machine
end

section
/-! What the outputs of a frame leave alone (R84 step 5, R85): the core of the state, which no capture, trace, link, guest, outlet or pin
touches, said once for each operation that a commit goes through. -/

namespace Sys2Proof.Machine

open Sys2Proof

/-- A fold whose every step keeps a quantity keeps it. -/
theorem foldl_keeps {α β γ : Type} {f : β → α → β} (g : β → γ) (h : ∀ b a, g (f b a) = g b) (l : List α) (b : β) :
    g (l.foldl f b) = g b := by
  induction l generalizing b with
  | nil => rfl
  | cons a l ih => rw [List.foldl_cons, ih, h]

/-! ### The core of a design and of the state -/

/-- A design without its Cabinets and without what capture, trace and pending repairs keep of it. -/
def Design.core (d : Design) : Design :=
  { d with cabs := [], cap := {}, capA := {}, capB := {}, capReq := none, repairs := [] }

/-- What the end of a frame decides: partitions, mode, the cores of the designs, the contents of the HBM and its write buffers. -/
structure Core where
  parts : KV Part
  mode : ModeSt
  designs : List Design
  memA : Memory
  memB : Memory
  wbufA : List WEntry
  wbufB : List WEntry

/-- The core of the state. -/
def State.core (s : State) : Core :=
  { parts := s.parts, mode := s.mode, designs := s.designs.map Design.core, memA := s.chA.hbm.mem, memB := s.chB.hbm.mem,
    wbufA := s.chA.hbm.wbuf, wbufB := s.chB.hbm.wbuf }

namespace Design

@[simp] theorem core_modCab (d : Design) (l : Nat) (f : CabSt → CabSt) : (d.modCab l f).core = d.core := rfl
@[simp] theorem core_modCc (d : Design) (c : Ch) (f : CapCh → CapCh) : (d.modCc c f).core = d.core := by cases c <;> rfl
@[simp] theorem core_keepBody (d : Design) (l : Nat) : (d.keepBody l).core = d.core := rfl
theorem core_withCap (d : Design) (c : Capture) (q : Option CapReq) : ({ d with cap := c, capReq := q } : Design).core = d.core := rfl
@[simp] theorem core_core (d : Design) : d.core.core = d.core := rfl

/-- Changing Cabinets one after another keeps the core. -/
theorem core_foldl_modCab (d : Design) (l : List Nat) (f : CabSt → CabSt) :
    (l.foldl (fun (x : Design) k => x.modCab k f) d).core = d.core := foldl_keeps _ (fun x k => x.core_modCab k f) _ _

end Design

namespace State

variable {s u : State}

theorem parts_of_core (h : u.core = s.core) : u.parts = s.parts := congrArg Core.parts h
theorem mode_of_core (h : u.core = s.core) : u.mode = s.mode := congrArg Core.mode h

/-- A design is found under its tag in every state with the same core, up to its core. -/
theorem design_of_core (h : u.core = s.core) {tag : Nat} {d : Design} (found : s.design tag = some d) :
    ∃ x, u.design tag = some x ∧ x.core = d.core := by
  have read : ∀ v : State, (v.design tag).map Design.core = v.core.designs.find? (fun d => d.tag == tag) := fun v => by
    show _ = (v.designs.map Design.core).find? _
    rw [List.find?_map]; rfl
  have same := (read u).trans ((congrArg (fun k : Core => k.designs.find? (fun d => d.tag == tag)) h).trans (read s).symm)
  rw [found, Option.map_some] at same
  exact Option.map_eq_some_iff.mp same

/-! ### Updates that keep the core -/

@[simp] theorem core_countBy (s : State) (r : Reg) (c : Ch) (i : List Nat) (n : Nat) : (s.countBy r c i n).core = s.core := rfl
@[simp] theorem core_count (s : State) (r : Reg) (c : Ch) (i : List Nat) : (s.count r c i).core = s.core := rfl
@[simp] theorem core_freeNext (s : State) : s.freeNext.core = s.core := rfl

/-- A channel update that keeps the contents of the HBM and its write buffer keeps the core. -/
theorem core_modCh (s : State) (c : Ch) {f : Channel → Channel} (hm : ∀ h, (f h).hbm.mem = h.hbm.mem)
    (hw : ∀ h, (f h).hbm.wbuf = h.hbm.wbuf) : (s.modCh c f).core = s.core := by
  cases c <;> simp [State.core, hm, hw]

@[simp] theorem core_modFab (s : State) (c : Ch) (f : FabSt → FabSt) : (s.modFab c f).core = s.core := by cases c <;> rfl
@[simp] theorem core_modGuest (s : State) (c : Ch) (f : GuestSt → GuestSt) : (s.modGuest c f).core = s.core := by cases c <;> rfl
@[simp] theorem core_modLink (s : State) (c : Ch) (f : LinkSt → LinkSt) : (s.modLink c f).core = s.core := by cases c <;> rfl
@[simp] theorem core_modSched (s : State) (c : Ch) (f : SchedSt → SchedSt) : (s.modSched c f).core = s.core := by cases c <;> rfl
@[simp] theorem core_modAcq (s : State) (c : Ch) (f : AcqSt → AcqSt) : (s.modAcq c f).core = s.core := by cases c <;> rfl
@[simp] theorem core_modTrc (s : State) (c : Ch) (f : TrcSt → TrcSt) : (s.modTrc c f).core = s.core := by cases c <;> rfl
@[simp] theorem core_modTime (s : State) (c : Ch) (f : TimeSt → TimeSt) : (s.modTime c f).core = s.core := by cases c <;> rfl
@[simp] theorem core_modPort (s : State) (c : Ch) (p : Nat) (f : VPort → VPort) : (s.modPort c p f).core = s.core := by cases c <;> rfl
@[simp] theorem core_modMport (s : State) (c : Ch) (k : Nat) (f : MPort → MPort) : (s.modMport c k f).core = s.core := by cases c <;> rfl
@[simp] theorem core_modView (s : State) (c : Ch) (v : Nat) (f : View → View) : (s.modView c v f).core = s.core := by cases c <;> rfl

/-- Raising or lowering PANIC keeps the core. -/
@[simp] theorem core_panic (s : State) (c : Ch) (on : Bool) : (s.modHbm c fun h => { h with panic := on }).core = s.core := by
  cases c <;> rfl

/-- Clearing staged sections keeps the core. -/
@[simp] theorem core_staging (s : State) (c : Ch) (f : HbmSt → List (Nat × Nat × List Byte)) :
    (s.modHbm c fun h => { h with staging := f h }).core = s.core := by cases c <;> rfl

theorem core_modMode (s : State) {f : ModeSt → ModeSt} (h : f s.mode = s.mode) : (s.modMode f).core = s.core := by
  simp [State.core, h]

theorem core_modDesign (s : State) (tag : Nat) {f : Design → Design} (h : ∀ x, (f x).core = x.core) :
    (s.modDesign tag f).core = s.core := by
  have each : ∀ x : Design, (if x.tag = tag then f x else x).core = x.core := fun x => by split <;> simp [h]
  simp [State.core, each]

/-- An update of designs that looks at their cores alone carries equal cores to equal cores. -/
theorem core_modDesign_congr (h : u.core = s.core) (tag : Nat) {f : Design → Design} (hf : ∀ x, (f x).core = (f x.core).core) :
    (u.modDesign tag f).core = (s.modDesign tag f).core := by
  have read : ∀ v : State, (v.modDesign tag f).core =
      { v.core with designs := v.core.designs.map fun d => (if d.tag = tag then f d else d).core } := fun v => by
    have each : ∀ x : Design, (if x.tag = tag then f x else x).core = (if x.core.tag = tag then f x.core else x.core).core := fun x => by
      by_cases hx : x.tag = tag
      · rw [if_pos hx, if_pos (show x.core.tag = tag from hx), hf]
      · rw [if_neg hx, if_neg (show ¬ x.core.tag = tag from hx), Design.core_core]
    have cores : (v.modDesign tag f).designs.map Design.core = v.core.designs.map fun d => (if d.tag = tag then f d else d).core := by
      rw [modDesign_designs, List.map_map, show v.core.designs = v.designs.map Design.core from rfl, List.map_map]
      exact List.map_congr_left fun x _ => each x
    rw [← cores]; rfl
  rw [read, read, h]

theorem core_of_quiet (q : Quiet s u) : u.core = s.core := by rw [q.1]; rfl

@[simp] theorem core_event (s : State) (code src part owner : Nat) (sealed : Bool) (args : List Nat) :
    (s.event code src part owner sealed args).core = s.core := core_of_quiet (s.event_quiet ..)
@[simp] theorem core_hubEvent (s : State) (c : Ch) (code : Nat) (args : List Nat) : (s.hubEvent c code args).core = s.core := s.core_event ..
@[simp] theorem core_designEvent (s : State) (d : Design) (code : Nat) (args : List Nat) :
    (s.designEvent d code args).core = s.core := s.core_event ..
@[simp] theorem core_designPlain (s : State) (d : Design) (code : Nat) (args : List Nat) :
    (s.designPlain d code args).core = s.core := s.core_event ..

/-- A choice between two states with one core. -/
theorem core_ite {p : Prop} [Decidable p] {v : State} (hu : p → u.core = s.core) (hv : ¬ p → v.core = s.core) :
    (if p then u else v).core = s.core := by
  split
  · exact hu ‹_›
  · exact hv ‹_›

/-! ### Messages on links (R206-R213) -/

@[simp] theorem core_departed (s : State) (c : Ch) (m : Sent) : (s.departed c m).core = s.core := by
  unfold State.departed; split <;> simp

@[simp] theorem core_putFlits (s : State) (c : Ch) (p : Nat) (l : List (BitVec 256)) : (s.putFlits c p l).core = s.core := by
  cases c <;> rfl

@[simp] theorem core_flushPort (s : State) (c : Ch) (p : Nat) : (s.flushPort c p).core = s.core := by
  unfold State.flushPort
  extract_lets x y s1
  refine core_ite (fun _ => rfl) fun _ => ?_
  rw [core_freeNext, core_putFlits, core_modPort]
  exact foldl_keeps _ (fun s m => s.core_departed c m) _ _

@[simp] theorem core_sendOn (s : State) (c : Ch) (p : Nat) (m : Sent) : (s.sendOn c p m).core = s.core := by
  simp [State.sendOn]

@[simp] theorem core_sendTo (s : State) (c : Ch) (m : Nat) (x : Sent) : (s.sendTo c m x).core = s.core := by
  unfold State.sendTo
  refine core_ite (fun _ => rfl) fun _ => ?_
  split
  · simp
  · exact foldl_keeps _ (fun s p => s.core_sendOn c p x) _ _

@[simp] theorem core_sendRecs (s : State) (c : Ch) (tag m : Nat) (frame : BitVec 48) (recs : List LinkRec) :
    (s.sendRecs c tag m frame recs).core = s.core := by
  unfold State.sendRecs
  extract_lets k home
  refine core_ite (fun _ => by simp) fun _ => foldl_keeps _ (fun s rc => ?_) _ _
  extract_lets l s1
  have sent : s1.core = s.core := by
    dsimp only [s1]
    split
    · simp
    · exact foldl_keeps _ (fun s p => s.core_sendOn ..) _ _
  exact core_ite (fun _ => rfl) fun _ => (foldl_keeps _ (fun s t => s.core_modLink ..) _ _).trans sent

/-! ### Releasing the outputs (R84 step 5) -/

@[simp] theorem core_releaseLinks (s : State) (d : Design) (o : OutSet) : (s.releaseLinks d o).core = s.core := by
  unfold State.releaseLinks
  refine foldl_keeps _ (fun s c => ?_) _ _
  exact (foldl_keeps _ (fun s m => s.core_sendRecs ..) _ _).trans (s.core_modLink ..)

@[simp] theorem core_releaseGuest (s : State) (d : Design) (o : OutSet) : (s.releaseGuest d o).core = s.core := by
  unfold State.releaseGuest
  refine core_ite (fun _ => rfl) fun _ => foldl_keeps _ (fun s c => core_ite (fun _ => ?_) fun _ => rfl) _ _
  simp

@[simp] theorem core_modDesignPort (s : State) (d : Design) (k : Nat) (f : MPort → MPort) : (s.modDesignPort d k f).core = s.core := by
  unfold State.modDesignPort
  split <;> simp

@[simp] theorem core_releaseOutlets (s : State) (d : Design) (o : OutSet) : (s.releaseOutlets d o).core = s.core := by
  unfold State.releaseOutlets
  refine core_ite (fun _ => rfl) fun _ => foldl_keeps _ (fun s e => ?_) _ _
  split
  · rfl
  · extract_lets m r s1 s2 free short s3
    have released : s2.core = s.core := by simp [s2, s1]
    have told : s3.core = s2.core := core_ite (fun _ => by simp) fun _ => rfl
    simp [told, released]

@[simp] theorem core_releasePins (s : State) (o : OutSet) : (s.releasePins o).core = s.core := rfl

@[simp] theorem core_fifoPut (s : State) (d : Design) (frame : Nat) (r : Ch × List Byte × Option (List Byte)) :
    (s.fifoPut d frame r).core = s.core := by
  unfold State.fifoPut
  extract_lets x s1
  exact core_ite (fun _ => by simp [s1]) fun _ => s.core_modAcq ..

@[simp] theorem core_panicCheck (s : State) (c : Ch) : (s.panicCheck c).core = s.core := by
  unfold State.panicCheck
  extract_lets level kib f
  exact core_ite (fun _ => by simp) fun _ => core_ite (fun _ => by simp) fun _ => rfl

@[simp] theorem core_traceLost (s : State) (c : Ch) (keys : List Nat) : (s.traceLost c keys).core = s.core := by
  unfold State.traceLost
  refine core_ite (fun _ => rfl) fun _ => ?_
  extract_lets s1 s2 ms
  exact core_ite (fun _ => by simp [s2, s1]) fun _ => by simp [s2, s1]

@[simp] theorem core_stage (s : State) (c : Ch) (r : StreamRec) : (s.stage c r).core = s.core := by
  unfold State.stage
  extract_lets t n new
  exact core_ite (fun _ => by simp) fun _ => by simp

@[simp] theorem core_acceptEdge (s : State) (c : Ch) (l at' : Nat) : (s.acceptEdge c l at').core = s.core :=
  core_ite (fun _ => rfl) fun _ => s.core_modTime ..

@[simp] theorem core_drivePulse (s : State) (c : Ch) (l : Nat) : (s.drivePulse c l).core = s.core := by
  unfold State.drivePulse
  refine core_ite (fun _ => rfl) fun _ => ?_
  extract_lets driving s1
  refine core_ite (fun _ => s.core_modTime ..) fun _ => ?_
  exact (foldl_keeps _ (fun s h => s.core_acceptEdge ..) _ _).trans (s.core_modTime ..)

@[simp] theorem core_releaseFires (s : State) (d : Design) (o : OutSet) : (s.releaseFires d o).core = s.core := by
  unfold State.releaseFires
  refine core_ite (fun _ => rfl) fun _ => foldl_keeps _ (fun s f => ?_) _ _
  obtain ⟨c, k, line, msg⟩ := f
  refine core_ite (fun _ => rfl) fun _ => ?_
  extract_lets s1
  have driven : s1.core = s.core := by
    dsimp only [s1]
    cases line <;> simp
  exact core_ite (fun _ => (foldl_keeps _ (fun s m => s.core_sendTo ..) _ _).trans driven) fun _ => driven

/-- Releasing the outputs of a frame keeps the core. -/
@[simp] theorem core_release (s : State) (d : Design) (o : OutSet) : (s.release d o).core = s.core := by
  unfold State.release
  extract_lets s1 s2 s3 s4 s5 s6 s7
  have ports : s4.core = s.core := by simp [s4, s3, s2, s1]
  have recs : s5.core = s4.core := foldl_keeps _ (fun s r => s.core_fifoPut ..) _ _
  have checked : s6.core = s5.core := by simp [s6]
  have trace : s7.core = s6.core := foldl_keeps _ (fun s r => s.core_stage ..) _ _
  rw [core_releaseFires, trace, checked, recs, ports]

/-! ### Collecting the outputs (R351-R376) -/

@[simp] theorem core_dropEnds (s : State) (d : Design) (c : Ch) : (s.dropEnds d c).core = s.core := by
  unfold State.dropEnds
  extract_lets n
  exact core_ite (fun _ => rfl) fun _ => (core_modDesign _ _ fun x => by simp).trans (s.core_hubEvent ..)

@[simp] theorem core_captureTrunc (s : State) (d : Design) : (s.captureTrunc d).core = s.core := by
  unfold State.captureTrunc
  refine foldl_keeps _ (fun s l => ?_) _ _
  exact core_ite (fun _ => (core_modDesign _ _ fun _ => by simp).trans (s.core_designEvent ..)) fun _ => rfl

@[simp] theorem core_captureCh (s : State) (d : Design) (c : Ch) : (s.captureCh d c).1.core = s.core := by
  unfold State.captureCh
  extract_lets recs fits ended marked s1 s2 s3
  have bodies : s1.core = s.core := by
    refine core_ite (fun _ => rfl) fun _ => core_ite (fun _ => ?_) fun _ => ?_
    · refine (core_modDesign _ _ fun x => ?_).trans (s.core_dropEnds ..)
      exact (Design.core_modCc ..).trans (foldl_keeps _ (fun x l => x.core_keepBody l) _ _)
    · refine (core_modDesign _ _ fun x => ?_).trans (s.core_count ..)
      exact (Design.core_modCc ..).trans (x.core_foldl_modCab ..)
  have sums : s2.core = s1.core := core_modDesign _ _ fun x => by
    split
    · exact (Design.core_modCc ..).trans (x.core_foldl_modCab ..)
    · split
      · exact (Design.core_modCc ..).trans (x.core_foldl_modCab ..)
      · rfl
  exact (core_modTime ..).trans (sums.trans bodies)

@[simp] theorem core_dataTrace (s : State) (d : Design) (c : Ch) : (s.dataTrace d c).1.core = s.core := by
  unfold State.dataTrace
  split
  · rfl
  · exact core_modDesign _ _ fun x => x.core_modCc ..

@[simp] theorem core_pruneEdges (s : State) (c : Ch) : (s.pruneEdges c).core = s.core := s.core_modTime ..

theorem core_foldl_fst {α β : Type} {f : State × β → α → State × β} (h : ∀ x a, (f x a).1.core = x.1.core) (l : List α) (x : State × β) :
    (l.foldl f x).1.core = x.1.core := foldl_keeps (fun x : State × β => x.1.core) h l x

/-- Collecting the outputs of a frame keeps the core. -/
@[simp] theorem core_collect (s : State) (d : Design) : (s.collect d).1.core = s.core := by
  unfold State.collect
  extract_lets chans outs prods pins fires s0 s1
  split
  next s2 recs hrecs =>
  split
  next s3 trace htrace =>
  have kept2 : s2.core = s1.core := by
    rw [← show _ = s2 from congrArg Prod.fst hrecs]
    refine core_foldl_fst (fun x c => ?_) _ _
    exact x.1.core_captureCh d c
  have kept3 : s3.core = s2.core := by
    rw [← show _ = s3 from congrArg Prod.fst htrace]
    refine core_foldl_fst (fun x c => ?_) _ _
    exact x.1.core_dataTrace d c
  extract_lets s4 s5 s6
  have units : s4.core = s3.core := by
    refine foldl_keeps _ (fun s c => ?_) _ _
    exact core_modCh _ _ (fun _ => rfl) fun _ => rfl
  have times : s5.core = s4.core := core_modDesign _ _ fun x => foldl_keeps _ (fun x c => x.core_modCc ..) _ _
  calc s6.core = s5.core := by simp [s6]
    _ = s.core := by rw [times, units, kept3, kept2]; exact s.core_captureTrunc d

/-! ### What follows a commit (R106, R134, R185, R378) -/

@[simp] theorem core_guestsOut (s : State) (d : Design) : (s.guestsOut d).core = s.core := by
  unfold State.guestsOut
  refine foldl_keeps _ (fun s c => ?_) _ _
  exact core_ite (fun _ => s.core_modGuest ..) fun _ => rfl

@[simp] theorem core_hazardEvents (s : State) (d : Design) : (s.hazardEvents d).core = s.core := by
  unfold State.hazardEvents
  extract_lets all brk hz addr t1 t2 t3
  have breaks : t1.core = s.core := foldl_keeps _ (fun s h => s.core_designEvent ..) _ _
  have more : t2.core = t1.core := core_ite (fun _ => core_designEvent ..) fun _ => rfl
  have hazards : t3.core = t2.core := foldl_keeps _ (fun s h => s.core_designEvent ..) _ _
  have kept : t3.core = s.core := hazards.trans (more.trans breaks)
  exact core_ite (fun _ => (core_designEvent ..).trans kept) fun _ => kept

@[simp] theorem core_captureChange (s : State) (tag : Nat) : (s.captureChange tag).core = s.core := by
  unfold State.captureChange
  split
  · rfl
  · split
    · rfl
    · split
      · refine core_modDesign _ _ fun x => ?_
        extract_lets x1 fresh y
        have cabs : x1.core = x.core := x.core_foldl_modCab ..
        have streams : y.core = x1.core := (Design.core_modCc ..).trans (Design.core_modCc ..)
        exact (Design.core_withCap ..).trans (streams.trans cabs)
      · refine (core_modDesign _ _ fun x => ?_).trans (foldl_keeps _ (fun s c => s.core_dropEnds ..) _ _)
        exact (Design.core_withCap ..).trans ((Design.core_modCc ..).trans (Design.core_modCc ..))

@[simp] theorem core_dueRepairs (s : State) (tag : Nat) : (s.dueRepairs tag).core = s.core := core_modDesign _ _ fun _ => rfl

end State
end Sys2Proof.Machine
end

section
/-! FRAME_COMMIT (R84, R88, R146, R153, R236): what it waits for, the flip, the commit behind it, and the end of a run. -/

namespace Sys2Proof.Machine

open Sys2Proof

/-! ### Outside a pair (R322) -/

namespace State

variable {s : State}

theorem pairRuns_of_mode (h : s.mode.mode ≠ .mirrored) : s.pairRuns = false := by
  simp [State.pairRuns, h]

theorem sendSigs_of_mode (h : s.mode.mode ≠ .mirrored) (d : Design) : s.sendSigs d = s := by
  simp [State.sendSigs, pairRuns_of_mode h]

theorem compared_of_mode (h : s.mode.mode ≠ .mirrored) {d : Design} (single : d.twin = false) : s.compared d = true := by
  simp [State.compared, single, pairRuns_of_mode h]

theorem tellStop_of_mode (h : s.mode.mode ≠ .mirrored) (d : Design) : s.tellStop d = s := by
  simp [State.tellStop, pairRuns_of_mode h]

end State

/-! ### The flip (R84 steps 3 and 4, R146) -/

/-- A design past step 4 of its commit: its cells have flipped and its undo logs are empty. -/
def Design.flipOver (d : Design) : Design :=
  { d with cells := d.commitCells, cabs := (d.cabs.map (fun e => (e.1, { e.2 with undo := [] }))).filter (fun e => e.2 ≠ {}), flipped := true }

/-- A design with one frame less to run. -/
def Design.countRun (d : Design) : Design := { d with run := d.run.map (fun r => { r with left := r.left.map (· - 1) }) }

/-- The write buffer holds no provisional entry of a design. -/
def AllCommitted (tag : Nat) (l : List WEntry) : Prop := ∀ e ∈ l, e.design = tag → e.committed = true

theorem AllCommitted.append {tag : Nat} {l m : List WEntry} (hl : AllCommitted tag l) (hm : AllCommitted tag m) :
    AllCommitted tag (l ++ m) := fun e he => (List.mem_append.mp he).elim (hl e) (hm e)

/-- A commit leaves no provisional entry of its design (R146). -/
theorem HbmSt.commit_wbuf (h : HbmSt) (d : Design) (now : Nat) : AllCommitted d.tag (h.commit d now).wbuf := by
  refine AllCommitted.append (fun e he tag => ?_) fun e he _ => ?_
  · simpa [tag] using (List.mem_filter.mp he).2
  · obtain ⟨x, -, rfl⟩ := List.mem_map.mp he; rfl

namespace State

variable {s : State} {d : Design}

/-- The flip as three updates. -/
theorem flipFrame_eq (h : d.flipped = false) : s.flipFrame d =
    ((s.modHbm .a fun h => h.commit d s.clock).modHbm .b fun h => h.commit d s.clock).modDesign d.tag Design.flipOver := by
  rw [State.flipFrame, h]; rfl

theorem flipFrame_design (h : d.flipped = false) (found : s.design d.tag = some d) :
    (s.flipFrame d).design d.tag = some d.flipOver := by
  rw [flipFrame_eq h]
  exact design_modDesign_some found fun _ ht => ht

/-- The flip touches HBM, where nothing but the write buffer and the reads change, and designs. -/
theorem flipFrame_rest (h : d.flipped = false) :
    (s.flipFrame d).host = s.host ∧ (s.flipFrame d).parts = s.parts ∧ (s.flipFrame d).mode = s.mode ∧
    (s.flipFrame d).chA.hbm.mem = s.chA.hbm.mem ∧ (s.flipFrame d).chB.hbm.mem = s.chB.hbm.mem ∧
    AllCommitted d.tag ((s.flipFrame d).chA.hbm.wbuf ++ (s.flipFrame d).chB.hbm.wbuf) := by
  rw [flipFrame_eq h]
  exact ⟨rfl, rfl, rfl, rfl, rfl, AllCommitted.append (HbmSt.commit_wbuf _ d _) (HbmSt.commit_wbuf _ d _)⟩

/-- Whether records hold a commit does not depend on the HBM, nor on what the flip changes of a design. -/
theorem flipFrame_captureHolds (h : d.flipped = false) : (s.flipFrame d).captureHolds d = s.captureHolds d := by
  have queued : ∀ c, (s.flipFrame d).queuedFill c = s.queuedFill c := fun c => by
    rw [flipFrame_eq h]
    have each : ∀ x : Design, (if x.tag = d.tag then x.flipOver else x).outQ = x.outQ := fun x => by split <;> rfl
    simp [State.queuedFill, State.modHbm, Function.comp_def, each]
  have fits : ∀ c, (s.flipFrame d).captureFits d c = s.captureFits d c := fun c => by
    have recs : (s.flipFrame d).records d c = s.records d c := by
      rw [flipFrame_eq h]; cases c <;> rfl
    have acq : ((s.flipFrame d).ch c).acq = (s.ch c).acq := by
      rw [flipFrame_eq h]; cases c <;> rfl
    rw [State.captureFits, State.captureFits, recs, acq, queued]
  simp [State.captureHolds, fits]

/-! ### Step 5 and what follows it -/

/-- A frame past its flip: the state when its outputs have left and its run may end (R84 step 5). -/
def outputsLeft (s : State) (d : Design) : State :=
  let (s, o) := (s.transientFault d).collect d
  let queue := s.pairRuns
  let s := s.modDesign d.tag Design.committed
  let s := s.modMode fun x => if x.referee = .verify ∧ d.twin then { x with referee := .armed } else x
  let s := [Ch.a, Ch.b].foldl (fun s c => if d.capChans.contains c then s.modAcq c fun a => { a with holding := false } else s) s
  let s :=
    if queue && s.mode.primary then s.modDesign d.tag fun x => { x with outQ := x.outQ ++ [o] }
    else if queue then
      let s := s.sendTwin d.home (.confirm (BitVec.ofNat 48 d.frame) 0)
      s.modDesign d.tag fun x => { x with outQ := (x.outQ ++ [o]).drop (x.outQ.length + 1 - 3) }
    else s.release d o
  let s := if d.lastPhase ∧ d.stage < 3 then
      let k := min 3 (d.cycle + 1)
      (if k = 1 then s.guestsOut d else s).designPlain d 0x7005 [d.low, k]
    else s
  let s := (s.hazardEvents d).captureChange d.tag
  let s := if s.mode.mode == .mirrored then
      (s.applyInputs (BitVec.ofNat 48 d.frame)).modMode fun x => { x with sigs := x.sigs.filter (fun e => laterFrame e.1 (BitVec.ofNat 48 d.frame)) }
    else s
  s.dueRepairs d.tag

/-- Once a run may have ended: staged sections of a design in stage 3 go (R161), and a design cycle ends. -/
def afterRun (s : State) (d : Design) : State :=
  let s := match s.design d.tag with
    | some n => if n.stage = 3 then d.chans.foldl (fun s c => s.modHbm c fun h => { h with staging := h.staging.filter (fun e => e.1 != d.tag) }) s else s
    | none => s
  if d.lastPhase then s.boundary d.tag else s

theorem commitFrame_eq (s : State) (d : Design) : s.commitFrame d = ((s.outputsLeft d).endRun d).afterRun d := rfl

/-- The commit of a design looks at its core alone. -/
theorem committed_core (x : Design) : x.committed.core = x.core.committed.core := rfl

/-- The outputs of a frame without an earlier error leave, outside a pair and twins, with the commit of the design alone. -/
theorem outputsLeft_core (single : d.twin = false) (mode : s.mode.mode ≠ .mirrored) (clean : d.lastErr = none) :
    (s.outputsLeft d).core = (s.modDesign d.tag Design.committed).core := by
  have noFault : s.transientFault d = s := by rw [State.transientFault, clean]
  unfold outputsLeft
  rw [noFault]
  split
  next s1 o collected =>
  have kept : s1.core = s.core := by
    rw [← show (s.collect d).1 = s1 from congrArg Prod.fst collected]
    exact s.core_collect d
  have alone : s1.mode.mode ≠ .mirrored := by rw [mode_of_core kept]; exact mode
  extract_lets queue s2 s3 s4 told s5 k s6 s7 s8
  have c2 : s2.core = (s.modDesign d.tag Design.committed).core := core_modDesign_congr kept _ committed_core
  have c3 : s3.core = s2.core := core_modMode _ (by simp [single])
  have c4 : s4.core = s3.core := by
    refine foldl_keeps _ (fun s c => ?_) _ _
    exact core_ite (fun _ => s.core_modAcq ..) fun _ => rfl
  have free : queue = false := pairRuns_of_mode alone
  have c5 : s5.core = s4.core := by
    have released : s5 = s4.release d o := by simp [s5, free]
    rw [released]; exact s4.core_release d o
  have c6 : s6.core = s5.core := by
    refine core_ite (fun _ => (core_designPlain ..).trans ?_) fun _ => rfl
    exact core_ite (fun _ => s5.core_guestsOut d) fun _ => rfl
  have c7 : s7.core = s6.core := (core_captureChange ..).trans (core_hazardEvents ..)
  have upTo7 : s7.core = (s.modDesign d.tag Design.committed).core := by rw [c7, c6, c5, c4, c3, c2]
  have c8 : s8.core = s7.core := by
    have single7 : (s7.mode.mode == .mirrored) = false := by
      rw [mode_of_core upTo7]; simpa using mode
    simp [s8, single7]
  rw [core_dueRepairs, c8, upTo7]

/-! ### The end of a design cycle (R320, R326) -/

/-- No final hold begins for a design without a twin while no member joins. -/
theorem boundary_idle {tag : Nat} (single : ∀ x, s.design tag = some x → x.twin = false) (other : s.mode.other ≠ .joining) :
    s.boundary tag = s := by
  unfold State.boundary
  split
  · rfl
  · next x found => simp [single x found, State.joinReady, other]

/-- Where no final hold begins, what follows the end of a run keeps the core and the host port. -/
theorem afterRun_core (single : ∀ x, s.design d.tag = some x → x.twin = false) (other : s.mode.other ≠ .joining) :
    (s.afterRun d).core = s.core ∧ (s.afterRun d).host = s.host := by
  unfold afterRun
  extract_lets s1
  have cleared : s1.core = s.core ∧ s1.host = s.host := by
    dsimp only [s1]
    split
    · split
      · refine ⟨foldl_keeps State.core (fun s c => ?_) _ _, foldl_keeps State.host (fun s c => ?_) _ _⟩
        · exact s.core_staging c _
        · exact s.modCh_host c _
      · exact ⟨rfl, rfl⟩
    · exact ⟨rfl, rfl⟩
  have idle : s1.boundary d.tag = s1 := by
    refine boundary_idle (fun x found => ?_) (by rw [mode_of_core cleared.1]; exact other)
    obtain ⟨y, before, same⟩ := design_of_core cleared.1.symm found
    have twins : y.core.twin = x.core.twin := by rw [same]
    exact twins.symm.trans (single y before)
  rw [idle, ite_self]
  exact cleared

/-! ### The end of a run (R80, R236) -/

/-- A run goes on while nothing ends it: no hazard, no last frame, no stop. -/
theorem endRun_goes_on {n : Design} {r : RunRec} (found : s.design d.tag = some n) (run : n.run = some r) (left : r.left ≠ some 1)
    (hazards : d.hazards = []) (stops : n.stops = []) (after : n.stopAfter = none) :
    s.endRun d = s.modDesign d.tag Design.countRun := by
  unfold State.endRun
  simp only [found, run, left, hazards, stops, after]
  rfl

/-- The last frame of a run stops the design. -/
theorem endRun_ends {n : Design} {r : RunRec} (found : s.design d.tag = some n) (run : n.run = some r) (left : r.left = some 1)
    (hazards : d.hazards = []) :
    s.endRun d = (((s.modDesign d.tag Design.countRun).tellStop n).stopAt d.tag .ok 4).finishStops d.tag := by
  unfold State.endRun
  simp only [found, run, left, hazards]
  rfl

/-- Completing the command of a ring and TAG leaves it outstanding no longer, and changes neither designs nor mode. -/
theorem completeTag_spec (s : State) (r : RingNo) (t : Tag) (st : Status) (dt : BitVec 128) :
    (s.completeTag r t st dt).designs = s.designs ∧ (s.completeTag r t st dt).mode = s.mode ∧ (s.completeTag r t st dt).cmd r t = none := by
  unfold State.completeTag
  cases found : s.cmd r t with
  | none => exact ⟨rfl, rfl, found⟩
  | some m =>
    obtain ⟨ring, tag⟩ := State.cmd_found found
    have only := s.complete_host m st dt
    obtain ⟨-, cmds, -⟩ := s.complete_done m st dt
    show (s.complete m st dt).designs = _ ∧ (s.complete m st dt).mode = _ ∧ (s.complete m st dt).cmd r t = none
    refine ⟨by rw [only], by rw [only], ?_⟩
    rw [State.cmd, cmds, List.find?_eq_none]
    intro x hx
    have other := (List.mem_filter.mp hx).2
    simpa [Cmd.is, ring, tag, ← not_and_or] using other

/-- Setting the state of a design changes designs and partitions. -/
theorem setDesignState_designs (s : State) (d : Design) (st : PartState) :
    (s.setDesignState d st).designs = (s.modDesign d.tag fun d => { d with state := st }).designs ∧
    (s.setDesignState d st).mode = s.mode := by
  unfold State.setDesignState
  exact ⟨by rw [State.modParts_rest], by rw [State.modParts_rest]; rfl⟩

end State

/-- What a stop ends of a design: its run, its attempt and what waited for the frame; a repair goes on unless an error stops the design. -/
def Design.runEnded (kind : Nat) (d : Design) : Design :=
  { d with run := none, attempt := 1, lastErr := none, trA := {}, trB := {}, waitPartner := false, stopAfter := none,
           repairs := if kind = 1 then [] else d.repairs.filter (fun r => r.1 != 3 && r.1 != 6), twinRepaired := false }

/-- A design with its run ended in the state STOPPED. -/
def Design.halted (d : Design) (kind : Nat) : Design := { d with state := .stopped }.runEnded kind

namespace State

variable {s : State} {d : Design}

/-- A design stopped between two frames, before its event. -/
def runAnswered (s : State) (n : Design) (r : RunRec) (st : Status) (kind : Nat) : State :=
  (((s.modDesign n.tag Design.stand).setDesignState n .stopped).completeTag r.ring r.tag st 0).modDesign n.tag (Design.runEnded kind)

/-- A stop between two frames rolls nothing back. -/
theorem stopAt_eq {tag : Nat} {n : Design} {r : RunRec} (found : s.design tag = some n) (begun : n.begun = false) (run : n.run = some r)
    (st : Status) (kind : Nat) : s.stopAt tag st kind = if n.state = .running ∨ n.state = .stopping then
      (s.runAnswered n r st kind).designPlain n 0x1103 [st.code, kind] else s.runAnswered n r st kind := by
  obtain rfl := State.design_tag found
  unfold State.stopAt State.stopDetail
  simp only [found, begun, run]
  rfl

/-- The stopped design keeps its frame number, and its run is answered. -/
theorem runAnswered_spec {n : Design} {r : RunRec} (found : s.design n.tag = some n) (flipped : n.flipped = false) (st : Status) (kind : Nat) :
    (s.runAnswered n r st kind).design n.tag = some (n.halted kind) ∧
    (s.runAnswered n r st kind).mode = s.mode ∧ (s.runAnswered n r st kind).cmd r.ring r.tag = none := by
  unfold runAnswered
  have stood : n.stand = n := by simp [Design.stand, flipped]
  have f1 : (s.modDesign n.tag Design.stand).design n.tag = some n := by
    have := design_modDesign_some (f := Design.stand) found fun x hx => by unfold Design.stand; split <;> exact hx
    rwa [stood] at this
  obtain ⟨set, mode1⟩ := (s.modDesign n.tag Design.stand).setDesignState_designs n .stopped
  have f2 : ((s.modDesign n.tag Design.stand).setDesignState n .stopped).design n.tag = some { n with state := .stopped } := by
    rw [design_of_designs set]
    exact design_modDesign_some f1 fun _ ht => ht
  obtain ⟨designs, mode2, answered⟩ :=
    ((s.modDesign n.tag Design.stand).setDesignState n .stopped).completeTag_spec r.ring r.tag st 0
  exact ⟨design_modDesign_some ((design_of_designs designs _).trans f2) fun _ ht => ht, mode2.trans mode1, answered⟩

/-- Stopping a design between two frames answers its run and keeps its frame number. -/
theorem stopAt_between {tag : Nat} {n : Design} {r : RunRec} (found : s.design tag = some n) (begun : n.begun = false)
    (flipped : n.flipped = false) (run : n.run = some r) (st : Status) (kind : Nat) :
    (s.stopAt tag st kind).design tag = some (n.halted kind) ∧
    (s.stopAt tag st kind).mode = s.mode ∧ (s.stopAt tag st kind).cmd r.ring r.tag = none := by
  rw [stopAt_eq found begun run]
  obtain rfl := State.design_tag found
  obtain ⟨stopped, mode, answered⟩ := runAnswered_spec (r := r) found flipped st kind
  split
  · have quiet := (s.runAnswered n r st kind).event_quiet 0x1103 (1 + chNum n.ch) n.low n.slot false [st.code, kind]
    refine ⟨(design_of_designs quiet.designs _).trans stopped, ?_, ?_⟩
    · rw [← mode, designPlain, quiet.1]
    · rw [designPlain, quiet.1]; exact answered
  · exact ⟨stopped, mode, answered⟩

/-- With no stop request waiting, a stop is all there is. -/
theorem finishStops_none {tag : Nat} {n : Design} (found : s.design tag = some n) (stops : n.stops = []) :
    s.finishStops tag = s.modDesign tag fun x => { x with stops := [] } := by
  unfold State.finishStops
  simp only [found, stops]
  rfl

end State
end Sys2Proof.Machine
end

section
/-! FRAME_COMMIT settled: a commit that waits, a commit that records hold behind the flip, and one that goes through. -/

namespace Sys2Proof.Machine

open Sys2Proof

namespace State

variable {s : State} {p : Nat} {d : Design}

/-! ### What the command does -/

theorem frameCommit_misses (found : s.designAt p = some d) (flipped : d.flipped = false)
    (missing : d.stepsDone = false ∨ s.macsDone d = false) : exec (.frameCommit p) s = .next s := by
  show execFrameCommit p s = _
  simp [execFrameCommit, found, flipped, missing]

theorem frameCommit_held (found : s.designAt p = some d) (flipped : d.flipped = true) (held : s.captureHolds d ≠ []) :
    exec (.frameCommit p) s = .next s := by
  show execFrameCommit p s = _
  simp [execFrameCommit, found, flipped, held]

/-- Every channel of a list waits for room. -/
def waitForRoom (s : State) (l : List Ch) : State := l.foldl (fun s c => s.modAcq c fun a => { a with holding := true }) s

/-- Outside a pair and twins a frame with every step and check done flips, and then commits unless records hold it (R84, R153). -/
theorem frameCommit_flips (found : s.designAt p = some d) (flipped : d.flipped = false) (steps : d.stepsDone = true)
    (macs : s.macsDone d = true) (single : d.twin = false) (mode : s.mode.mode ≠ .mirrored) : exec (.frameCommit p) s = .next
      (if s.captureHolds d ≠ [] then (s.flipFrame d).waitForRoom (s.captureHolds d) else (s.flipFrame d).commitFrame d.flipOver) := by
  show execFrameCommit p s = _
  have past := flipFrame_design flipped (State.design_of_designAt found)
  simp only [execFrameCommit, found, flipped, steps, macs, sendSigs_of_mode mode, pairRuns_of_mode mode, compared_of_mode mode single,
    flipFrame_captureHolds flipped, past]
  by_cases room : s.captureHolds d = [] <;> simp [room, waitForRoom]

/-! ### Records that do not fit -/

/-- The write buffers stand in the core. -/
theorem committed_of_core {u : State} (h : u.core = s.core) {tag : Nat} (all : AllCommitted tag (s.chA.hbm.wbuf ++ s.chB.hbm.wbuf)) :
    AllCommitted tag (u.chA.hbm.wbuf ++ u.chB.hbm.wbuf) := by
  rwa [show u.chA.hbm.wbuf = s.chA.hbm.wbuf from congrArg Core.wbufA h, show u.chB.hbm.wbuf = s.chB.hbm.wbuf from congrArg Core.wbufB h]

theorem waitForRoom_rest (s : State) (l : List Ch) : (s.waitForRoom l).core = s.core ∧ (s.waitForRoom l).host = s.host :=
  ⟨foldl_keeps State.core (fun s c => s.core_modAcq c _) l s, foldl_keeps State.host (fun s c => s.modCh_host c _) l s⟩

theorem waitForRoom_holding (l : List Ch) (s : State) (c : Ch) (h : c ∈ l ∨ (s.ch c).acq.holding = true) :
    ((s.waitForRoom l).ch c).acq.holding = true := by
  induction l generalizing s with
  | nil => simpa [waitForRoom] using h
  | cons x l ih =>
    refine ih (s.modAcq x fun a => { a with holding := true }) ?_
    by_cases same : c = x
    · exact .inr (by rw [same, State.modAcq, State.modCh_ch])
    · refine h.imp (fun mem => (List.mem_cons.mp mem).resolve_left same) fun held => ?_
      rw [State.modAcq, State.modCh_other _ _ same]; exact held

/-! ### A commit that goes through -/

/-- What a frame without an error or a hazard meets at its commit outside a pair and twins. -/
structure Clean (s : State) (d : Design) : Prop where
  single : d.twin = false
  mode : s.mode.mode ≠ .mirrored
  other : s.mode.other ≠ .joining
  noError : d.lastErr = none
  hazards : d.hazards = []
  stops : d.stops = []
  stopAfter : d.stopAfter = none

/-- The outputs of the frame have left: the design is committed, and nothing of the partitions, the mode or the HBM has changed. -/
theorem outputsLeft_design (clean : Clean s d) (found : s.design d.tag = some d) :
    ∃ n, (s.outputsLeft d).design d.tag = some n ∧ n.core = d.committed.core :=
  design_of_core (outputsLeft_core clean.single clean.mode clean.noError) (design_modDesign_some found fun _ ht => ht)

theorem outputsLeft_mode (clean : Clean s d) : (s.outputsLeft d).mode = s.mode :=
  congrArg Core.mode (outputsLeft_core clean.single clean.mode clean.noError)

/-- With frames left to run a commit counts one of them, and nothing more. -/
theorem commitFrame_goes_on {r : RunRec} (clean : Clean s d) (found : s.design d.tag = some d) (run : d.run = some r)
    (left : r.left ≠ some 1) :
    (s.commitFrame d).core = ((s.modDesign d.tag Design.committed).modDesign d.tag Design.countRun).core := by
  obtain ⟨n, next, same⟩ := outputsLeft_design clean found
  have ends : (s.outputsLeft d).endRun d = (s.outputsLeft d).modDesign d.tag Design.countRun :=
    endRun_goes_on next ((congrArg Design.run same).trans run) left clean.hazards ((congrArg Design.stops same).trans clean.stops)
      ((congrArg Design.stopAfter same).trans clean.stopAfter)
  rw [commitFrame_eq, ends]
  have counted : ((s.outputsLeft d).modDesign d.tag Design.countRun).design d.tag = some n.countRun :=
    design_modDesign_some next fun _ ht => ht
  have alone : ∀ x, ((s.outputsLeft d).modDesign d.tag Design.countRun).design d.tag = some x → x.twin = false := fun x hx => by
    obtain rfl := Option.some.inj (counted.symm.trans hx)
    exact (congrArg Design.twin same).trans clean.single
  have joins : ((s.outputsLeft d).modDesign d.tag Design.countRun).mode.other ≠ .joining := by
    show (s.outputsLeft d).mode.other ≠ _
    rw [outputsLeft_mode clean]; exact clean.other
  rw [(afterRun_core alone joins).1]
  exact core_modDesign_congr (outputsLeft_core clean.single clean.mode clean.noError) _ fun _ => rfl

/-- Between two frames a stop with no request waiting stops the design, keeps its frame number and answers its command. -/
theorem stopAt_finished {n : Design} {r : RunRec} (found : s.design d.tag = some n) (begun : n.begun = false) (flipped : n.flipped = false)
    (run : n.run = some r) (stops : n.stops = []) (single : n.twin = false) (other : s.mode.other ≠ .joining) (st : Status) (kind : Nat) :
    ∃ x, (((s.stopAt d.tag st kind).finishStops d.tag).afterRun d).design d.tag = some x ∧ x.frame = n.frame ∧ x.state = .stopped ∧
      x.run = none ∧ (((s.stopAt d.tag st kind).finishStops d.tag).afterRun d).cmd r.ring r.tag = none := by
  obtain ⟨stopped, mode, answered⟩ := stopAt_between found begun flipped run st kind
  rw [finishStops_none stopped (show Design.stops _ = [] from stops)]
  generalize s.stopAt d.tag st kind = v at *
  have final := design_modDesign_some (f := fun x => { x with stops := [] }) stopped fun _ ht => ht
  have alone : ∀ x, (v.modDesign d.tag fun x => { x with stops := [] }).design d.tag = some x → x.twin = false := fun x hx => by
    obtain rfl := Option.some.inj (final.symm.trans hx)
    exact single
  obtain ⟨core, host⟩ := afterRun_core alone fun joins => other ((congrArg ModeSt.other mode).symm.trans joins)
  obtain ⟨x, there, like⟩ := design_of_core core final
  refine ⟨x, there, (congrArg Design.frame like :), (congrArg Design.state like :), (congrArg Design.run like :), ?_⟩
  rw [State.cmd, host]; exact answered

/-- At the last frame of its run a commit stops the design and answers its command. -/
theorem commitFrame_last {r : RunRec} (clean : Clean s d) (found : s.design d.tag = some d) (run : d.run = some r)
    (left : r.left = some 1) :
    ∃ x, (s.commitFrame d).design d.tag = some x ∧ x.frame = d.frame + 1 ∧ x.state = .stopped ∧ x.run = none ∧
      (s.commitFrame d).cmd r.ring r.tag = none := by
  obtain ⟨n, next, same⟩ := outputsLeft_design clean found
  have running : n.run = some r := (congrArg Design.run same).trans run
  have counted : ((s.outputsLeft d).modDesign d.tag Design.countRun).design d.tag = some n.countRun :=
    design_modDesign_some next fun _ ht => ht
  have running' : n.countRun.run = some { r with left := r.left.map (· - 1) } := by rw [Design.countRun, running]; rfl
  have mode : ((s.outputsLeft d).modDesign d.tag Design.countRun).mode = s.mode := outputsLeft_mode clean
  rw [commitFrame_eq, endRun_ends next running left clean.hazards, tellStop_of_mode (by rw [mode]; exact clean.mode)]
  obtain ⟨x, there, frame, rest⟩ := stopAt_finished counted (congrArg Design.begun same) (congrArg Design.flipped same) running'
    ((congrArg Design.stops same).trans clean.stops) ((congrArg Design.twin same).trans clean.single) (by rw [mode]; exact clean.other) .ok 4
  exact ⟨x, there, frame.trans (congrArg Design.frame same), rest⟩

end State

/-! ### The clauses of a commit -/

/-- Records that do not fit make the commit wait behind the flip (R153). -/
theorem frameCommit_waits {s : State} {p : Nat} {d : Design} (found : s.designAt p = some d) (flipped : d.flipped = false)
    (steps : d.stepsDone = true) (macs : s.macsDone d = true) (single : d.twin = false) (mode : s.mode.mode ≠ .mirrored)
    (held : s.captureHolds d ≠ []) :
    ∃ u d', exec (.frameCommit p) s = .next u ∧ u.design d.tag = some d' ∧ d'.flipped = true ∧ d'.frame = d.frame ∧ d'.cells = d.commitCells ∧
      (∀ e ∈ u.chA.hbm.wbuf ++ u.chB.hbm.wbuf, e.design = d.tag → e.committed = true) ∧
      (∀ c ∈ s.captureHolds d, (u.ch c).acq.holding = true) ∧ u.host = s.host ∧ u.parts = s.parts := by
  obtain ⟨host, parts, -, -, -, wbuf⟩ := s.flipFrame_rest flipped
  obtain ⟨core, same⟩ := (s.flipFrame d).waitForRoom_rest (s.captureHolds d)
  obtain ⟨d', there, like⟩ := State.design_of_core core (State.flipFrame_design flipped (State.design_of_designAt found))
  refine ⟨_, d', (State.frameCommit_flips found flipped steps macs single mode).trans (by rw [if_pos held]), there,
    (congrArg Design.flipped like :), (congrArg Design.frame like :), (congrArg Design.cells like :),
    State.committed_of_core core wbuf, fun c mem => State.waitForRoom_holding _ _ c (.inl mem), same.trans host,
    (State.parts_of_core core).trans parts⟩

/-- FRAME_COMMIT settled: a commit that goes through leaves the core of the flipped state with the design committed. -/
theorem frameCommits : Clauses.FrameCommits := by
  intro s p d found
  refine ⟨State.frameCommit_misses found, State.frameCommit_held found, frameCommit_waits found, ?_⟩
  intro flipped steps macs single mode other noError room hazards stops stopAfter r run
  have goes : exec (.frameCommit p) s = .next ((s.flipFrame d).commitFrame d.flipOver) := by
    rw [State.frameCommit_flips found flipped steps macs single mode, if_neg (not_not_intro room)]
  obtain ⟨-, parts, mode', memA, memB, wbuf⟩ := s.flipFrame_rest flipped
  have past : (s.flipFrame d).design d.flipOver.tag = some d.flipOver := State.flipFrame_design flipped (State.design_of_designAt found)
  have clean : (s.flipFrame d).Clean d.flipOver := ⟨single, by rwa [mode'], by rwa [mode'], noError, hazards, stops, stopAfter⟩
  constructor
  · intro left
    have core := State.commitFrame_goes_on clean past run left
    have counted : (((s.flipFrame d).modDesign d.tag Design.committed).modDesign d.tag Design.countRun).design d.tag =
        some d.flipOver.committed.countRun :=
      State.design_modDesign_some (State.design_modDesign_some past fun _ ht => ht) fun _ ht => ht
    obtain ⟨d', there, like⟩ := State.design_of_core core counted
    refine ⟨_, d', goes, there, (congrArg Design.frame like :), (congrArg Design.cells like :), (congrArg Design.state like :),
      (congrArg Design.begun like :), (congrArg Design.trA like :), (congrArg Design.trB like :), (congrArg Design.flipped like :),
      (congrArg Design.attempt like :), (congrArg Design.errs like :), (congrArg Design.packets like :), ?_, (congrArg Design.stage like :),
      (congrArg Core.memA core).trans memA, (congrArg Core.memB core).trans memB,
      State.committed_of_core core wbuf, (congrArg Core.parts core).trans parts⟩
    refine (congrArg Design.run like).trans ?_
    show d.run.map _ = _
    rw [run]; rfl
  · intro left
    obtain ⟨x, there, frame, state, ended, answered⟩ := State.commitFrame_last clean past run left
    exact ⟨_, x, goes, there, frame, state, ended, answered⟩

end Sys2Proof.Machine
end

section
/-! FRAME_ABORTED (R89, R90): a frame's first error rolls it back and starts it again. -/

namespace Sys2Proof.Machine

open Sys2Proof

/-- An event stands as well in a state with the same host port and keys. -/
theorem Wrote.of_same {code src part owner : Nat} {sealed : Bool} {args : List Nat} {s u : State} (h : Wrote code src part owner sealed args s)
    (host : u.host = s.host) (key : ∀ o k i, u.key o k i = s.key o k i) : Wrote code src part owner sealed args u := by
  unfold Wrote State.ring at *
  simpa only [host, key] using h

/-- A design whose frame is tried again after an error. -/
def Design.tryAgain (d : Design) (e : ErrSrc × Nat × Nat) (x : Design) : Design := { x with attempt := d.attempt + 1, lastErr := some e }

namespace State

variable {s : State} {p : Nat} {d : Design}

/-- An abort rolls the design back. -/
theorem abortFrame_design {tag : Nat} (found : s.design tag = some d) : (s.abortFrame tag).design tag = some d.rollback := by
  unfold State.abortFrame
  exact design_modDesign_some found fun _ ht => ht

/-- An abort discards the provisional writes of its design, and leaves the contents of the HBM, the host port, the partitions and the keys. -/
theorem abortFrame_rest (s : State) (tag : Nat) :
    (s.abortFrame tag).host = s.host ∧ (s.abortFrame tag).parts = s.parts ∧ (∀ o k i, (s.abortFrame tag).key o k i = s.key o k i) ∧
    (s.abortFrame tag).chA.hbm.mem = s.chA.hbm.mem ∧ (s.abortFrame tag).chB.hbm.mem = s.chB.hbm.mem ∧
    AllCommitted tag ((s.abortFrame tag).chA.hbm.wbuf ++ (s.abortFrame tag).chB.hbm.wbuf) := by
  have kept : ∀ l : List WEntry, AllCommitted tag (l.filter fun e => e.design != tag || e.committed) := fun l e he same => by
    simpa [same] using (List.mem_filter.mp he).2
  exact ⟨rfl, rfl, fun _ _ _ => rfl, rfl, rfl, (kept _).append (kept _)⟩

/-- A frame without an error, or past its flip, is not aborted. -/
theorem frameAborted_clean (found : s.designAt p = some d) (clean : d.errs = [] ∨ d.flipped = true) (undo : UndoRead) :
    exec (.frameAborted p undo) s = .next s := by
  have none : (if d.flipped then [] else d.errs) = [] := by
    rcases clean with errs | flipped
    · rw [errs, ite_self]
    · rw [if_pos flipped]
  show execFrameAborted p undo s = _
  simp only [execFrameAborted, found, none]

/-- The retry rule on the first error of a frame: another attempt (R90). -/
theorem retry_first {e : ErrSrc × Nat × Nat} (attempt : d.attempt < 4) (first : d.lastErr = none) (source : e.1 ≠ .twin) :
    s.retry d e = s.modDesign d.tag (d.tryAgain e) := by
  unfold State.retry
  simp only [first, sameSource, source, Nat.not_le.mpr attempt, false_and, Bool.false_eq_true, if_false]
  rfl

/-- The first error of a frame: its event, the rollback, another attempt. -/
theorem frameAborted_first {e : ErrSrc × Nat × Nat} {es : List (ErrSrc × Nat × Nat)} (found : s.designAt p = some d)
    (flipped : d.flipped = false) (errs : d.errs = e :: es) (attempt : d.attempt < 4) (first : d.lastErr = none) (source : e.1 ≠ .twin) :
    exec (.frameAborted p ⟨[], none⟩) s = .next
      (((s.designEvent d 0x1101 [e.1.code, d.attempt, e.2.1, d.frame % 2 ^ 32]).abortFrame d.tag).modDesign d.tag (d.tryAgain e)) := by
  show execFrameAborted p ⟨[], none⟩ s = _
  simp [execFrameAborted, found, flipped, errs, retry_first attempt first source]

end State

/-- FRAME_ABORTED settled: the event is written first, and the rollback and the next attempt keep it. -/
theorem frameAborts : Clauses.FrameAborts := by
  intro s p d found
  refine ⟨State.frameAborted_clean found, fun e es flipped errs attempt first source _ => ?_⟩
  obtain ⟨quiet, wrote⟩ := s.designEvent_told d 0x1101 [e.1.code, d.attempt, e.2.1, d.frame % 2 ^ 32]
  have goes := State.frameAborted_first found flipped errs attempt first source
  generalize s.designEvent d 0x1101 [e.1.code, d.attempt, e.2.1, d.frame % 2 ^ 32] = v at quiet wrote goes
  obtain ⟨host, parts, key, memA, memB, wbuf⟩ := v.abortFrame_rest d.tag
  have there : v.design d.tag = some d := (State.design_of_designs quiet.designs _).trans (State.design_of_designAt found)
  have again := State.design_modDesign_some (f := d.tryAgain e) (State.abortFrame_design there) fun _ ht => ht
  exact ⟨_, _, goes, again, rfl, rfl, rfl, rfl, rfl, rfl, rfl, rfl, rfl, rfl, rfl, fun _ => ⟨rfl, rfl⟩, wbuf,
    memA.trans (congrArg (fun c : Channel => c.hbm.mem) (quiet.ch .a)), memB.trans (congrArg (fun c : Channel => c.hbm.mem) (quiet.ch .b)),
    parts.trans quiet.parts, fun on => (wrote on).of_same host key⟩

/-- Settles O41: what a commit decides is the core of the state, which its outputs leave alone, and an abort is the rollback alone. -/
theorem frameEnds : Obligations.FrameEnds := ⟨frameCommits, frameAborts⟩

end Sys2Proof.Machine
end

section
/-! Loading, the state around it: what an update leaves of the state seen through a mask of its channels, and the slots of the image copy. -/

namespace Sys2Proof.Machine

open Sys2Proof

/-! ### The state behind a mask -/

/-- The state with its registers seen through `k` and its channels through `g`, without the count of free values. -/
def State.masked (k : RegSt → RegSt) (g : Channel → Channel) (s : State) : State :=
  { s with regs := k s.regs, chA := g s.chA, chB := g s.chB, freeCtr := 0 }

/-- A channel without its image copies, what it stages, its Hutch and its dies. -/
def Channel.besideImages (h : Channel) : Channel :=
  { h with hbm := { h.hbm with images := [], staging := [] }, hutch := {}, dies := [] }

/-- The key ranges and the HBM of a channel. -/
def Channel.memories (h : Channel) : Channel := { ranges := h.ranges, hbm := h.hbm }

/-- The key ranges and the HBM of a channel, without its image copies and what it stages: tenant memory. -/
def Channel.tenantMemory (h : Channel) : Channel := h.besideImages.memories

/-- The state but for image copies, staging, Hutches, dies and the count of free values: what filing a load leaves alone. -/
def State.besideImages (s : State) : State := s.masked (fun r => r) Channel.besideImages

/-- The state but for registers, and of the channels the memories alone: what traffic and counters leave alone. -/
def State.besideTraffic (s : State) : State := s.masked (fun _ => {}) Channel.memories

/-- The slot of a partition as the image copy of a design (R122): it keeps its key and its body. -/
def Design.slotImage (d : Design) (q : Nat) (i : ImageSlot) : ImageSlot :=
  { i with design := d.tag, tiles := d.code.filter (fun e => partOfCab (e.1 / 131072) == q),
           ports := d.ports.filter (fun e => partOfCab (e.1 / 2048) == q), memops := d.memops.filter (fun e => partOfCab (e.1 / 2048) == q) }

theorem Quiet.loads {s u : State} (h : Quiet s u) : u.loads = s.loads := by rw [h.1]
theorem Quiet.cmds {s u : State} (h : Quiet s u) : u.host.cmds = s.host.cmds := by rw [h.1]

namespace State

variable {k : RegSt → RegSt} {g : Channel → Channel} {s u : State}

theorem ch_of_masked (h : u.masked k g = s.masked k g) (c : Ch) : g (u.ch c) = g (s.ch c) := by
  cases c
  · exact congrArg State.chA h
  · exact congrArg State.chB h

theorem host_of_masked (h : u.masked k g = s.masked k g) : u.host = s.host := (congrArg State.host h :)
theorem mode_of_masked (h : u.masked k g = s.masked k g) : u.mode = s.mode := (congrArg State.mode h :)
theorem designs_of_masked (h : u.masked k g = s.masked k g) : u.designs = s.designs := (congrArg State.designs h :)
theorem loads_of_masked (h : u.masked k g = s.masked k g) : u.loads = s.loads := (congrArg State.loads h :)
theorem part_of_masked (h : u.masked k g = s.masked k g) (p : Nat) : u.part p = s.part p := (congrArg (fun x : State => x.part p) h :)

/-- A coarser mask hides what a finer one hides. -/
theorem masked_mono {k' : RegSt → RegSt} {g' : Channel → Channel} (h : u.masked k g = s.masked k g) (hk : ∀ r, k' (k r) = k' r)
    (hg : ∀ x, g' (g x) = g' x) : u.masked k' g' = s.masked k' g' := by
  have finer : ∀ v : State, (v.masked k g).masked k' g' = v.masked k' g' := fun v => by simp [State.masked, hk, hg]
  rw [← finer u, h, finer]

/-- A channel update that the mask hides. -/
theorem masked_modCh (s : State) (c : Ch) {f : Channel → Channel} (hf : ∀ h, g (f h) = g h) :
    (s.modCh c f).masked k g = s.masked k g := by
  cases c <;> simp [State.masked, hf]

theorem masked_ite {p : Prop} [Decidable p] {v : State} (hu : u.masked k g = s.masked k g) (hv : v.masked k g = s.masked k g) :
    (if p then u else v).masked k g = s.masked k g := by
  split
  · exact hu
  · exact hv

/-! ### Traffic and counters -/

theorem memories_of_besideTraffic (h : u.besideTraffic = s.besideTraffic) (c : Ch) :
    (u.ch c).hbm = (s.ch c).hbm ∧ (u.ch c).ranges = (s.ch c).ranges :=
  ⟨(congrArg (fun x : Channel => x.hbm) (ch_of_masked h c) :), (congrArg (fun x : Channel => x.ranges) (ch_of_masked h c) :)⟩

@[simp] theorem besideTraffic_setReg (s : State) (r : Reg) (c : Ch) (i : List Nat) (v : Word32) :
    (s.setReg r c i v).besideTraffic = s.besideTraffic := rfl
@[simp] theorem besideTraffic_count (s : State) (r : Reg) (c : Ch) (i : List Nat) : (s.count r c i).besideTraffic = s.besideTraffic := rfl
@[simp] theorem besideTraffic_freeNext (s : State) : s.freeNext.besideTraffic = s.besideTraffic := rfl
@[simp] theorem besideTraffic_modFab (s : State) (c : Ch) (f : FabSt → FabSt) : (s.modFab c f).besideTraffic = s.besideTraffic := by
  cases c <;> rfl
@[simp] theorem besideTraffic_modGuest (s : State) (c : Ch) (f : GuestSt → GuestSt) : (s.modGuest c f).besideTraffic = s.besideTraffic := by
  cases c <;> rfl
@[simp] theorem besideTraffic_modPort (s : State) (c : Ch) (p : Nat) (f : VPort → VPort) : (s.modPort c p f).besideTraffic = s.besideTraffic := by
  cases c <;> rfl
@[simp] theorem besideTraffic_modMport (s : State) (c : Ch) (p : Nat) (f : MPort → MPort) :
    (s.modMport c p f).besideTraffic = s.besideTraffic := by
  cases c <;> rfl
@[simp] theorem besideTraffic_modView (s : State) (c : Ch) (v : Nat) (f : View → View) : (s.modView c v f).besideTraffic = s.besideTraffic := by
  cases c <;> rfl

@[simp] theorem besideTraffic_modDesignPort (s : State) (d : Design) (p : Nat) (f : MPort → MPort) :
    (s.modDesignPort d p f).besideTraffic = s.besideTraffic := by
  unfold State.modDesignPort
  split <;> simp

@[simp] theorem besideTraffic_departed (s : State) (c : Ch) (m : Sent) : (s.departed c m).besideTraffic = s.besideTraffic := by
  unfold State.departed; split <;> simp

@[simp] theorem besideTraffic_putFlits (s : State) (c : Ch) (p : Nat) (l : List (BitVec 256)) :
    (s.putFlits c p l).besideTraffic = s.besideTraffic := by
  cases c <;> rfl

@[simp] theorem besideTraffic_flushPort (s : State) (c : Ch) (p : Nat) : (s.flushPort c p).besideTraffic = s.besideTraffic := by
  unfold State.flushPort
  extract_lets x y s1
  have left : s1.besideTraffic = s.besideTraffic := foldl_keeps State.besideTraffic (fun s m => s.besideTraffic_departed c m) _ _
  have sent : ((s1.modPort c p fun x => x.takeTx y).putFlits c p ((y.unacked.drop x.unacked.length).map (·.flit))).freeNext.besideTraffic =
      s.besideTraffic := by simp [left]
  exact masked_ite rfl sent

@[simp] theorem besideTraffic_sendOn (s : State) (c : Ch) (p : Nat) (m : Sent) : (s.sendOn c p m).besideTraffic = s.besideTraffic := by
  simp [State.sendOn]

@[simp] theorem besideTraffic_sendTo (s : State) (c : Ch) (m : Nat) (x : Sent) : (s.sendTo c m x).besideTraffic = s.besideTraffic := by
  unfold State.sendTo
  refine masked_ite rfl ?_
  split
  · rfl
  · exact foldl_keeps State.besideTraffic (fun s p => s.besideTraffic_sendOn c p x) _ _

@[simp] theorem besideTraffic_sendSlotHome (s : State) (d : Design) (c : Ch) : (s.sendSlotHome d c).besideTraffic = s.besideTraffic :=
  foldl_keeps State.besideTraffic (fun s _ => s.besideTraffic_sendTo ..) _ _

@[simp] theorem besideTraffic_clearCounters (s : State) (d : Design) : (s.clearCounters d).besideTraffic = s.besideTraffic := by
  unfold State.clearCounters
  refine foldl_keeps State.besideTraffic (fun s l => ?_) _ _
  cases s.physOf l with
  | none => rfl
  | some x =>
    obtain ⟨c, die, i⟩ := x
    dsimp only
    refine (foldl_keeps State.besideTraffic (fun s m => ?_) _ _).trans ?_
    · simp
    · simp

/-! ### Image copies, staging and Hutches -/

/-- An update of image copies and staging. -/
theorem masked_images (s : State) (c : Ch) {f : HbmSt → HbmSt}
    (hf : ∀ h, { f h with images := [], staging := [] } = { h with images := [], staging := [] }) :
    (s.modHbm c f).masked k Channel.besideImages = s.masked k Channel.besideImages :=
  s.masked_modCh c fun h => by simp [Channel.besideImages, hf]

theorem masked_modHutch (s : State) (c : Ch) (f : Hutch → Hutch) :
    (s.modHutch c f).masked k Channel.besideImages = s.masked k Channel.besideImages := s.masked_modCh c fun _ => rfl

theorem masked_clearImages (s : State) (c : Ch) (id : Nat) :
    (s.clearImages c id).masked k Channel.besideImages = s.masked k Channel.besideImages := by
  unfold State.clearImages
  extract_lets s1 drop
  have cleared : s1.masked k Channel.besideImages = s.masked k Channel.besideImages := s.masked_images c fun _ => rfl
  refine masked_ite cleared ?_
  rw [masked_modHutch, masked_modHutch, cleared]

theorem memory_of_besideImages (h : u.besideImages = s.besideImages) (c : Ch) :
    (u.ch c).hbm.mem = (s.ch c).hbm.mem ∧ (u.ch c).hbm.wbuf = (s.ch c).hbm.wbuf ∧ (u.ch c).ranges = (s.ch c).ranges :=
  ⟨(congrArg (fun x : Channel => x.hbm.mem) (ch_of_masked h c) :), (congrArg (fun x : Channel => x.hbm.wbuf) (ch_of_masked h c) :),
    (congrArg (fun x : Channel => x.ranges) (ch_of_masked h c) :)⟩

theorem sched_of_besideImages (h : u.besideImages = s.besideImages) (c : Ch) : (u.ch c).sched = (s.ch c).sched :=
  (congrArg (fun x : Channel => x.sched) (ch_of_masked h c) :)

theorem besideImages_fileImages (s : State) (l : Load) : (s.fileImages l).besideImages = s.besideImages := by
  unfold State.fileImages
  extract_lets id ps key s1 s2
  have filed : s1.besideImages = s.besideImages :=
    foldl_keeps State.besideImages (fun s _ => s.masked_images _ (by intro; rfl)) _ _
  have staged : s2.besideImages = s1.besideImages :=
    foldl_keeps State.besideImages (fun s _ => s.masked_images _ (by intro; rfl)) _ _
  refine Eq.trans ?_ (staged.trans filed)
  exact foldl_keeps State.besideImages (fun s c => masked_ite (s.masked_modHutch ..) rfl) s2.channels s2

theorem besideImages_keepImages (s : State) (d : Design) : (s.keepImages d).besideImages = s.besideImages := by
  unfold State.keepImages
  extract_lets id mine s1 s2 own
  have kept : s1.besideImages = s.besideImages :=
    foldl_keeps State.besideImages (fun s _ => s.masked_images _ (by intro; rfl)) _ _
  have staged : s2.besideImages = s1.besideImages :=
    foldl_keeps State.besideImages (fun s _ => s.masked_images _ (by intro; rfl)) _ _
  exact (masked_modHutch ..).trans ((masked_modHutch ..).trans (staged.trans kept))

theorem masked_modDie (s : State) (c : Ch) (die : Nat) (f : DieSt → DieSt) :
    (s.modDie c die f).masked k Channel.besideImages = s.masked k Channel.besideImages := s.masked_modCh c fun _ => rfl

theorem hbm_modDie (s : State) (x : Ch) (die : Nat) (f : DieSt → DieSt) (c : Ch) : ((s.modDie x die f).ch c).hbm = (s.ch c).hbm := by
  cases c <;> cases x <;> rfl

/-- The slices of rolling test stand in the dies. -/
theorem besideImages_dropSlices (s : State) (ps : List Nat) : (s.dropSlices ps).besideImages = s.besideImages := by
  refine foldl_keeps State.besideImages (fun s c => ?_) _ _
  refine foldl_keeps State.besideImages (fun s die => ?_) _ _
  exact s.masked_modDie ..

theorem hbm_dropSlices (s : State) (ps : List Nat) (c : Ch) : ((s.dropSlices ps).ch c).hbm = (s.ch c).hbm := by
  refine foldl_keeps (fun u : State => (u.ch c).hbm) (fun s x => ?_) _ _
  refine foldl_keeps (fun u : State => (u.ch c).hbm) (fun s die => ?_) _ _
  exact s.hbm_modDie ..

theorem hbm_modSched (s : State) (x : Ch) (f : SchedSt → SchedSt) (c : Ch) : ((s.modSched x f).ch c).hbm = (s.ch c).hbm := by
  cases c <;> cases x <;> rfl

/-! ### The slots of the image copy (R160) -/

/-- The slot of a partition in the image copy of its channel. -/
def image (s : State) (p : Nat) : ImageSlot := KV.get {} (p % 4) (s.ch (chOfPart p)).hbm.images

/-- Update the slot of a partition in the image copy of its channel. -/
def modImage (s : State) (p : Nat) (f : ImageSlot → ImageSlot) : State :=
  s.modHbm (chOfPart p) fun h => { h with images := KV.upd {} (p % 4) f h.images }

theorem image_of_images (h : ∀ c, (u.ch c).hbm.images = (s.ch c).hbm.images) (p : Nat) : u.image p = s.image p := by
  rw [State.image, h, State.image]

theorem image_dropSlices (s : State) (ps : List Nat) (p : Nat) : (s.dropSlices ps).image p = s.image p :=
  image_of_images (fun c => by rw [hbm_dropSlices]) p

theorem image_modImage (s : State) (p q : Nat) (f : ImageSlot → ImageSlot) :
    (s.modImage p f).image q = if chOfPart p = chOfPart q ∧ p % 4 = q % 4 then f (s.image q) else s.image q := by
  unfold State.image State.modImage State.modHbm
  by_cases hc : chOfPart q = chOfPart p
  · rw [hc, modCh_ch]
    by_cases hp : q % 4 = p % 4
    · rw [hp, KV.get_upd_same, if_pos ⟨rfl, rfl⟩]
    · rw [KV.get_upd_other _ _ hp, if_neg fun h => hp h.2.symm]
  · rw [modCh_other _ _ hc, if_neg fun h => hc h.1.symm]

/-- Updating the slots of several partitions: a slot is updated once and for all, if those that share it agree on what it becomes. -/
theorem image_foldl_modImage {ps : List Nat} {F : Nat → ImageSlot → ImageSlot} {q : Nat} (s : State)
    (agree : ∀ p ∈ ps, chOfPart p = chOfPart q ∧ p % 4 = q % 4 → F p = F q) (idem : ∀ x, F q (F q x) = F q x) :
    (ps.foldl (fun s p => s.modImage p (F p)) s).image q =
      if ∃ p ∈ ps, chOfPart p = chOfPart q ∧ p % 4 = q % 4 then F q (s.image q) else s.image q := by
  induction ps generalizing s with
  | nil => simp
  | cons p ps ih =>
    rw [List.foldl_cons, ih _ fun x hx => agree x (List.mem_cons_of_mem _ hx), image_modImage]
    by_cases hp : chOfPart p = chOfPart q ∧ p % 4 = q % 4
    · simp [hp, agree p List.mem_cons_self hp, idem]
    · simp [hp]

theorem hbm_modHutch (s : State) (x : Ch) (f : Hutch → Hutch) (c : Ch) : ((s.modHutch x f).ch c).hbm = (s.ch c).hbm := by
  cases c <;> cases x <;> rfl

theorem freeNext_ch (s : State) (c : Ch) : s.freeNext.ch c = s.ch c := by cases c <;> rfl

theorem images_staging (s : State) (x : Ch) (f : HbmSt → List (Nat × Nat × List Byte)) (c : Ch) :
    ((s.modHbm x fun h => { h with staging := f h }).ch c).hbm.images = (s.ch c).hbm.images := by
  cases c <;> cases x <;> rfl

/-- A load's body stands in the slot of each of its partitions, under one fresh key (R120, R160). -/
theorem image_fileImages {s : State} {l : Load} {p : Nat} (hp : p ∈ s.loadParts l.targets) :
    (s.fileImages l).image p = { key := s.free, design := 256 + l.targets.headD 0, body := l.body } := by
  unfold State.fileImages
  extract_lets id ps key s1 s2
  have filed : s1.image p = { key := key, design := id, body := l.body } :=
    (s.image_foldl_modImage (F := fun _ _ => { key := key, design := id, body := l.body }) (fun _ _ _ => rfl) fun _ => rfl).trans
      (if_pos ⟨p, hp, rfl, rfl⟩)
  have staged : ∀ c, (s2.ch c).hbm.images = (s1.ch c).hbm.images := fun c =>
    foldl_keeps (fun u : State => (u.ch c).hbm.images) (fun s x => s.images_staging x _ c) _ _
  refine (image_of_images (fun c => ?_) p).trans filed
  rw [freeNext_ch]
  refine (foldl_keeps (fun u : State => (u.ch c).hbm.images) (fun s x => ?_) _ _).trans (staged c)
  split
  · rw [hbm_modHutch]
  · rfl

/-- The partitions of the module have one slot each. -/
theorem part_eq_of_slot : ∀ p < 8, ∀ q < 8, chOfPart p = chOfPart q ∧ p % 4 = q % 4 → p = q := by decide

/-- The image copy of a load becomes that of its design. -/
theorem image_keepImages {s : State} {d : Design} (range : ∀ q ∈ d.allParts, q < 8) {q : Nat} (hq : q ∈ d.allParts) :
    (s.keepImages d).image q = d.slotImage q (s.image q) := by
  unfold State.keepImages
  extract_lets id mine s1 s2 own
  have agree : ∀ p ∈ d.allParts, chOfPart p = chOfPart q ∧ p % 4 = q % 4 → d.slotImage p = d.slotImage q :=
    fun p hp same => by rw [part_eq_of_slot p (range p hp) q (range q hq) same]
  have kept : s1.image q = d.slotImage q (s.image q) :=
    (s.image_foldl_modImage agree fun _ => rfl).trans (if_pos ⟨q, hq, rfl, rfl⟩)
  refine (image_of_images (s := s1) (fun c => ?_) q).trans kept
  rw [hbm_modHutch, hbm_modHutch]
  exact foldl_keeps (fun u : State => (u.ch c).hbm.images) (fun s x => s.images_staging x _ c) _ _

end State

end Sys2Proof.Machine
end

section
/-! LOAD (R119-R122): its checks in their order, and what a load that goes on files. -/

namespace Sys2Proof.Machine

open Sys2Proof

namespace State

variable {s : State}

/-- The partitions of a load that goes on are LOADING, and its command has started. -/
def loadTaken (s : State) (m : Cmd) (l : Load) : State :=
  (s.start m).modParts (s.loadParts l.targets) fun p => { p with state := .loading }

/-- A load that goes on waits for an engine of its home hub. -/
def loadQueued (s : State) (m : Cmd) (l : Load) (r : RingNo) (t : Tag) : State :=
  (s.loadTaken m l).modSched (chOfPart (l.targets.headD 0)) fun q =>
    { q with waiting := q.waiting ++ [{ group := (s.loadTaken m l).regField .schCtrl (chOfPart (l.targets.headD 0)) [] 1 3, work := .module r t }] }

/-- What a load that goes on leaves, but for its entry among the loads. -/
def loadFiled (s : State) (m : Cmd) (l : Load) (r : RingNo) (t : Tag) : State :=
  ((s.loadQueued m l r t).fileImages l).dropSlices ((s.loadQueued m l r t).loadParts l.targets)

/-- A load that waits for an engine has changed the host port, the partitions and the queue of the scheduler. -/
theorem loadQueued_spec (s : State) (m : Cmd) (l : Load) (r : RingNo) (t : Tag) :
    (∃ ps, s.loadQueued m l r t = ({ s.start m with parts := ps } : State).modSched (chOfPart (l.targets.headD 0)) fun q =>
      { q with waiting := q.waiting ++ [{ group := s.regField .schCtrl (chOfPart (l.targets.headD 0)) [] 1 3, work := .module r t }] }) ∧
    ∀ p, (s.loadQueued m l r t).part p = if p ∈ s.loadParts l.targets then { s.part p with state := .loading } else s.part p := by
  have part : ∀ p, (s.loadTaken m l).part p = if p ∈ s.loadParts l.targets then { s.part p with state := .loading } else s.part p :=
    (s.start m).part_modParts _ _ fun _ => rfl
  have rest : s.loadTaken m l = { s.start m with parts := (s.loadTaken m l).parts } := modParts_rest ..
  refine ⟨⟨(s.loadTaken m l).parts, ?_⟩, fun p => (part p ▸ ?_)⟩
  · rw [loadQueued, rest]; rfl
  · unfold loadQueued State.part State.modSched
    rw [modCh_parts]

theorem exec_load {r : RingNo} {t : Tag} {image : List Byte} {m : Cmd} {l : Load} (ready : Ready s r t 0x40 m)
    (idle : s.base.delivery = none) (pass : s.loadChecks m image = .ok l) :
    exec (.load r t image) s = .next { s.loadFiled m l r t with loads := s.loads ++ [l] } := by
  obtain ⟨⟨ps, queued⟩, -⟩ := s.loadQueued_spec m l r t
  have loads : (s.loadQueued m l r t).loads = s.loads := by rw [queued, State.modSched, modCh_loads]; rfl
  rw [← loads]
  show execLoad r t image s = _
  rw [execLoad, State.withCmd_ready _ ready, pass]
  simp only [idle]
  rfl

/-- A load that goes on changes nothing but what it files beyond its wait for an engine (R120). -/
theorem loadFiled_spec (s : State) (m : Cmd) (l : Load) (r : RingNo) (t : Tag) :
    (s.loadFiled m l r t).host = (s.start m).host ∧ (s.loadFiled m l r t).designs = s.designs ∧ (s.loadFiled m l r t).regs = s.regs ∧
    (∀ c, ((s.loadFiled m l r t).ch c).hbm.mem = (s.ch c).hbm.mem) ∧
    (∀ p, (s.loadFiled m l r t).part p = if p ∈ s.loadParts l.targets then { s.part p with state := .loading } else s.part p) ∧
    ((s.loadFiled m l r t).ch (chOfPart (l.targets.headD 0))).sched.waiting = (s.ch (chOfPart (l.targets.headD 0))).sched.waiting ++
      [{ group := s.regField .schCtrl (chOfPart (l.targets.headD 0)) [] 1 3, work := .module r t }] := by
  obtain ⟨⟨ps, queued⟩, part⟩ := s.loadQueued_spec m l r t
  have rest : (s.loadFiled m l r t).besideImages = (s.loadQueued m l r t).besideImages :=
    (besideImages_dropSlices ..).trans (besideImages_fileImages ..)
  have before : ∀ c, ({ s.start m with parts := ps } : State).ch c = s.ch c := fun c => by cases c <;> rfl
  refine ⟨(host_of_masked rest).trans (queued ▸ modCh_host ..), (designs_of_masked rest).trans (queued ▸ modCh_designs ..),
    (congrArg State.regs rest).trans (queued ▸ modCh_regs ..), fun c => ?_, fun p => (part_of_masked rest p).trans (part p), ?_⟩
  · rw [(memory_of_besideImages rest c).1, queued, hbm_modSched, before]
  · rw [sched_of_besideImages rest, queued, State.modSched, modCh_ch, before]

theorem loadFiled_image (s : State) (m : Cmd) {l : Load} (r : RingNo) (t : Tag) {p : Nat} (hp : p ∈ s.loadParts l.targets) :
    (s.loadFiled m l r t).image p = { key := s.free, design := 256 + l.targets.headD 0, body := l.body } := by
  obtain ⟨⟨ps, queued⟩, -⟩ := s.loadQueued_spec m l r t
  have mode : (s.loadQueued m l r t).mode = s.mode := by rw [queued, State.modSched, modCh_mode]; rfl
  have free : (s.loadQueued m l r t).free = s.free := by rw [queued, State.modSched, State.free, modCh_freeCtr]; rfl
  have same : p ∈ (s.loadQueued m l r t).loadParts l.targets := by rw [State.loadParts, mode]; exact hp
  rw [loadFiled, image_dropSlices, image_fileImages same, free]

theorem exec_load_refused {r : RingNo} {t : Tag} {image : List Byte} {m : Cmd} {f : LoadFail} (ready : Ready s r t 0x40 m)
    (idle : s.base.delivery = none) (fails : s.loadChecks m image = .error f) :
    exec (.load r t image) s = .next (s.refuseLoad m f) := by
  show execLoad r t image s = _
  rw [execLoad, State.withCmd_ready _ ready, fails]
  simp only [idle]
  rfl

/-- What a refused load leaves before its completion: the event and the counts. -/
def loadRefusal (s : State) (m : Cmd) (f : LoadFail) : State :=
  let ts := maskParts (m.desc.par 24 1)
  let src := match ts.head? with | some p => 1 + chNum (chOfPart p) | none => 0
  let u := s.event 0x7006 src (ts.head?.getD 0xFF) (s.ringOwner m.ring) false [f.check]
  (chansOf (u.loadParts ts)).foldl (fun s c => s.count .ptnRefusals c []) u

theorem refuseLoad_done (s : State) (m : Cmd) (f : LoadFail) :
    Done m f.status 0 (BitVec.ofNat 128 (f.check + 2 ^ 8 * f.item + 2 ^ 16 * (f.index % 2 ^ 16))) (s.loadRefusal m f) (s.refuseLoad m f) :=
  (s.loadRefusal m f).completeAt_done ..

/-- Counting in a register of several channels changes registers alone. -/
theorem foldl_count_rest (s : State) (r : Reg) (i : List Nat) (l : List Ch) :
    l.foldl (fun s c => s.count r c i) s = { s with regs := (l.foldl (fun s c => s.count r c i) s).regs } := by
  induction l generalizing s with
  | nil => rfl
  | cons c l ih => rw [List.foldl_cons, ih]; rfl

/-- A refused load changes no partition, no design, no load and no command, and its event is written. -/
theorem loadRefusal_spec (s : State) (m : Cmd) (f : LoadFail) :
    (s.loadRefusal m f).parts = s.parts ∧ (s.loadRefusal m f).designs = s.designs ∧ (s.loadRefusal m f).loads = s.loads ∧
    (s.loadRefusal m f).host.cmds = s.host.cmds ∧
    (s.pwr.hostOn = true → ∃ src part, Wrote 0x7006 src part (s.ringOwner m.ring) false [f.check] (s.loadRefusal m f)) := by
  unfold loadRefusal
  extract_lets ts src u
  obtain ⟨quiet, wrote⟩ : Told 0x7006 src (ts.head?.getD 0xFF) (s.ringOwner m.ring) false [f.check] s u := s.event_told ..
  rw [foldl_count_rest]
  exact ⟨quiet.parts, quiet.designs, quiet.loads, quiet.cmds, fun on => ⟨_, _, (wrote on).of_same rfl fun _ _ _ => rfl⟩⟩

end State

/-- LOAD: a load that passes is filed and waits, one that fails is told and answered, and the checks come in their order. -/
theorem loadChecked : Clauses.LoadChecked := by
  intro s r t image m ready idle
  refine ⟨fun l c pass hc => ?_, fun f fails => ?_, fun targets ht first => ?_⟩
  · subst hc
    obtain ⟨host, designs, regs, memory, part, waiting⟩ := s.loadFiled_spec m l r t
    refine ⟨_, State.exec_load ready idle pass, host, designs, rfl, regs, memory .a, memory .b, part, fun p hp => ?_, ?_⟩
    · rw [← s.loadFiled_image m r t hp, State.image]; cases chOfPart p <;> rfl
    · rw [← waiting]; cases chOfPart (l.targets.headD 0) <;> rfl
  · obtain ⟨parts, designs, loads, cmds, wrote⟩ := s.loadRefusal_spec m f
    exact ⟨_, _, State.exec_load_refused ready idle fails, s.refuseLoad_done m f, parts, designs, loads, cmds, wrote⟩
  · subst ht
    refine ⟨fun outer => ?_, fun outer fields => ⟨fun noKey => ?_, fun ik key => ⟨fun tag => ?_, fun b k v tag hb hk body patches => ?_⟩⟩⟩
    · simp only [State.loadChecks, first, outer, if_true]
    · simp only [State.loadChecks, first, outer, fields, noKey]; rfl
    · simp only [State.loadChecks, first, outer, fields, key, tag]; rfl
    · subst hb hk
      refine ⟨fun fits => ?_, fun above => ?_⟩
      · simp only [State.loadChecks, first, outer, fields, key, tag, body, patches, fits]; rfl
      · simp only [State.loadChecks, first, outer, fields, key, tag, body, patches, above]; rfl

end Sys2Proof.Machine
end

section
/-! LOAD_COMPLETE (R122, R141, R305): a load becomes a design, or it is dropped. -/

namespace Sys2Proof.Machine

open Sys2Proof

namespace State

variable {s : State}

/-! ### A load that is dropped (R141) -/

/-- What a dropped load leaves before its completion: its partitions EMPTY, its image copies and what it staged gone. -/
def loadDropped (s : State) (l : Load) : State :=
  let u := ((s.modParts (s.loadParts l.targets) fun p => { p with state := .empty }).clearImages .a (256 + l.targets.headD 0)).clearImages .b
    (256 + l.targets.headD 0)
  (chansOf (s.loadParts l.targets)).foldl (fun s c => s.count .ptnRefusals c [])
    { u with loads := u.loads.filter (fun x => !(x.ring == l.ring && x.tag == l.tag)) }

theorem cancelLoad_eq {l : Load} {m : Cmd} (found : (s.loadDropped l).cmd l.ring l.tag = some m) (st : Status) :
    s.cancelLoad l st = (s.loadDropped l).complete m st 0 := by
  show (s.loadDropped l).completeTag l.ring l.tag st 0 = _
  rw [State.completeTag, found]

/-- Dropping a load touches no design, no command and no memory. -/
theorem loadDropped_spec (s : State) (l : Load) :
    (s.loadDropped l).host = s.host ∧ (s.loadDropped l).designs = s.designs ∧
    (∀ q ∈ s.loadParts l.targets, ((s.loadDropped l).part q).state = .empty) ∧
    (s.loadDropped l).loads = s.loads.filter (fun x => !(x.ring == l.ring && x.tag == l.tag)) ∧
    ∀ c, ((s.loadDropped l).ch c).hbm.mem = (s.ch c).hbm.mem := by
  have part := s.part_modParts (s.loadParts l.targets) (fun p => { p with state := .empty }) fun _ => rfl
  have rest := s.modParts_rest (s.loadParts l.targets) fun p => { p with state := .empty }
  unfold loadDropped
  generalize s.modParts (s.loadParts l.targets) (fun p => { p with state := .empty }) = v at part rest
  have same : ((v.clearImages .a (256 + l.targets.headD 0)).clearImages .b (256 + l.targets.headD 0)).besideImages = v.besideImages :=
    (masked_clearImages ..).trans (masked_clearImages ..)
  rw [foldl_count_rest]
  generalize (v.clearImages .a (256 + l.targets.headD 0)).clearImages .b (256 + l.targets.headD 0) = u at same
  have before : ∀ c, v.ch c = s.ch c := fun c => by rw [rest]; cases c <;> rfl
  refine ⟨?_, ?_, fun q hq => ?_, ?_, fun c => ?_⟩
  · exact (host_of_masked same).trans (rest ▸ rfl)
  · exact (designs_of_masked same).trans (rest ▸ rfl)
  · exact congrArg Part.state ((part_of_masked same q).trans ((part q).trans (if_pos hq)))
  · exact congrArg (List.filter _) ((loads_of_masked same).trans (rest ▸ rfl))
  · rw [← before, ← (memory_of_besideImages same c).1]; cases c <;> rfl

/-! ### A load that becomes a design (R122, R305) -/

/-- The design of a load stands in its partitions, in place of the load. -/
def designMade (s : State) (l : Load) (d : Design) : State :=
  ({ s with designs := s.designs ++ [d], freeCtr := s.freeCtr + 1,
            loads := s.loads.filter (fun x => !(x.ring == l.ring && x.tag == l.tag)) } : State).modParts d.allParts
    fun q => { q with state := .stopped, design := d.tag }

theorem designMade_spec (s : State) (l : Load) (d : Design) :
    (∃ ps, s.designMade l d = { s with designs := s.designs ++ [d], freeCtr := s.freeCtr + 1, parts := ps,
                                       loads := s.loads.filter (fun x => !(x.ring == l.ring && x.tag == l.tag)) }) ∧
    ∀ q, (s.designMade l d).part q = if q ∈ d.allParts then { s.part q with state := .stopped, design := d.tag } else s.part q :=
  ⟨⟨(s.designMade l d).parts, modParts_rest ..⟩, part_modParts _ _ _ fun _ => rfl⟩

/-- The message ports of a load are bound to its design (R246). -/
def portsBound (s : State) (l : Load) (d : Design) : State :=
  l.binds.foldl (fun s y => s.modDesignPort d y.hub fun q => q.bind d.tag y) s

/-- A new design takes its guests, clears the counters of its Cabinets, announces its slots and is counted (R180, R182, R217). -/
def designServed (s : State) (d : Design) : State :=
  let s := d.guests.foldl (fun s c => s.modGuest c fun g => { g with owner := some d.tag, rstLow := true }) s
  d.chans.foldl (fun s c => s.count .ptnLoads c []) ((s.clearCounters d).sendSlotHome d d.home)

/-- What a completed load leaves before its completion. -/
def loadEnded (s : State) (l : Load) (d : Design) : State := (((s.designMade l d).portsBound l d).keepImages d).designServed d

theorem portsBound_rest (s : State) (l : Load) (d : Design) : (s.portsBound l d).besideTraffic = s.besideTraffic :=
  foldl_keeps State.besideTraffic (fun s _ => s.besideTraffic_modDesignPort ..) _ _

theorem designServed_rest (s : State) (d : Design) : (s.designServed d).besideTraffic = s.besideTraffic := by
  unfold designServed
  extract_lets u
  have taken : u.besideTraffic = s.besideTraffic := foldl_keeps State.besideTraffic (fun s c => s.besideTraffic_modGuest ..) _ _
  refine (foldl_keeps State.besideTraffic (fun s c => s.besideTraffic_count ..) _ _).trans ?_
  simp [taken]

/-- What a completed load leaves: its design in its partitions, no memory and no command touched. -/
theorem loadEnded_spec (s : State) (l : Load) (d : Design) :
    (s.loadEnded l d).host = s.host ∧ (s.loadEnded l d).mode = s.mode ∧ (s.loadEnded l d).designs = s.designs ++ [d] ∧
    (s.loadEnded l d).loads = s.loads.filter (fun x => !(x.ring == l.ring && x.tag == l.tag)) ∧
    (∀ q, (s.loadEnded l d).part q = if q ∈ d.allParts then { s.part q with state := .stopped, design := d.tag } else s.part q) ∧
    ∀ c, ((s.loadEnded l d).ch c).hbm.mem = (s.ch c).hbm.mem ∧ ((s.loadEnded l d).ch c).hbm.wbuf = (s.ch c).hbm.wbuf ∧
      ((s.loadEnded l d).ch c).ranges = (s.ch c).ranges := by
  obtain ⟨⟨ps, made⟩, part⟩ := s.designMade_spec l d
  have bound := masked_mono (k' := fun _ => {}) (g' := Channel.tenantMemory) ((s.designMade l d).portsBound_rest l d) (fun _ => rfl) fun _ => rfl
  have kept := masked_mono (k' := fun _ => {}) (g' := Channel.tenantMemory) (((s.designMade l d).portsBound l d).besideImages_keepImages d)
    (fun _ => rfl) fun _ => rfl
  have served := masked_mono (k' := fun _ => {}) (g' := Channel.tenantMemory)
    ((((s.designMade l d).portsBound l d).keepImages d).designServed_rest d) (fun _ => rfl) fun _ => rfl
  have same := served.trans (kept.trans bound)
  refine ⟨(host_of_masked same).trans (made ▸ rfl), (mode_of_masked same).trans (made ▸ rfl), (designs_of_masked same).trans (made ▸ rfl),
    (loads_of_masked same).trans (made ▸ rfl), fun q => (part_of_masked same q).trans (part q), fun c => ?_⟩
  have before : (s.designMade l d).ch c = s.ch c := by rw [made]; cases c <;> rfl
  have memory := before ▸ ch_of_masked same c
  exact ⟨(congrArg (fun x : Channel => x.hbm.mem) memory :), (congrArg (fun x : Channel => x.hbm.wbuf) memory :),
    (congrArg (fun x : Channel => x.ranges) memory :)⟩

/-- The image copy of a completed load is that of its design. -/
theorem loadEnded_image (s : State) (l : Load) {d : Design} (range : ∀ q ∈ d.allParts, q < 8) {q : Nat} (hq : q ∈ d.allParts) :
    (s.loadEnded l d).image q = d.slotImage q (s.image q) := by
  have served := memories_of_besideTraffic ((((s.designMade l d).portsBound l d).keepImages d).designServed_rest d)
  have bound := memories_of_besideTraffic ((s.designMade l d).portsBound_rest l d)
  obtain ⟨⟨ps, made⟩, -⟩ := s.designMade_spec l d
  have before : ((s.designMade l d).portsBound l d).image q = s.image q :=
    image_of_images (fun c => by rw [(bound c).1, made]; cases c <;> rfl) q
  exact (image_of_images (fun c => by rw [loadEnded, (served c).1]) q).trans (before ▸ image_keepImages range hq)

theorem loadDone_eq {p tag : Nat} {l : Load} {m : Cmd} (found : s.loadAt p = some l) (free : s.freeTag = some tag)
    (command : s.cmd l.ring l.tag = some m) (mode : s.mode.mode ≠ .mirrored) :
    s.loadDone p = (s.loadEnded l (s.makeDesign l tag)).completeAt m .ok 0 (BitVec.ofNat 128 (2 ^ 32 * s.free.toNat)) := by
  obtain ⟨host, kept, -⟩ := s.loadEnded_spec l (s.makeDesign l tag)
  unfold State.loadDone
  simp -zeta only [found, free]
  extract_lets d s1 s2 s3 s4 s5 s6 s7 s8
  have same : s6.mode = s.mode := by
    rw [← kept]
    show s6.mode = (d.chans.foldl (fun s c => s.count .ptnLoads c []) s6).mode
    rw [foldl_count_rest]
  have single : s7 = s6 := if_neg (by rw [same, beq_iff_eq]; exact mode)
  have ended : s8 = s.loadEnded l d := by
    show d.chans.foldl _ s7 = _
    rw [single]; rfl
  have waits : s8.cmd l.ring l.tag = some m := by rw [ended, State.cmd, host]; exact command
  rw [waits, ended]
  rfl

end State

/-- The one reset value of an image stands in state bank 0 of its cell (R305). -/
theorem initCells_single (x : Reset) :
    (KV.get {} (cellKey x.cab x.bench x.cell) (initCells [x])).bank0 = setBit ({} : Cell).bank0 x.sti x.value := by
  unfold initCells
  rw [List.foldl_cons, List.foldl_nil, KV.get_upd_same, KV.get]

/-- LOAD_COMPLETE: staged words that are lost drop the load, otherwise its design is made, bound, kept and served. -/
theorem loadCompletes : Clauses.LoadCompletes := by
  intro s p tag l m d found free command
  refine ⟨?_, fun mode made => ?_⟩
  · have quiet : Quiet s (s.hubEvent (chOfPart p) 0x2006 [chNum (chOfPart p), 2]) := s.event_quiet ..
    have runs : exec (.loadComplete ⟨p, .scratch⟩) s =
        .next ((s.hubEvent (chOfPart p) 0x2006 [chNum (chOfPart p), 2]).cancelLoad l .memoryError) := by
      show execLoadComplete ⟨p, .scratch⟩ s = _
      rw [execLoadComplete, found]
    have there : (s.hubEvent (chOfPart p) 0x2006 [chNum (chOfPart p), 2]).cmd l.ring l.tag = some m := by
      rw [State.cmd, quiet.cmds]; exact command
    have mode : (s.hubEvent (chOfPart p) 0x2006 [chNum (chOfPart p), 2]).loadParts l.targets = s.loadParts l.targets := by
      rw [quiet.1]; rfl
    generalize s.hubEvent (chOfPart p) 0x2006 [chNum (chOfPart p), 2] = u at quiet runs there mode
    obtain ⟨host, designs, empty, loads, memory⟩ := u.loadDropped_spec l
    rw [State.cancelLoad_eq (by rw [State.cmd, host]; exact there)] at runs
    exact ⟨_, _, runs, State.complete_done .., designs.trans quiet.designs, mode ▸ empty, quiet.loads ▸ loads,
      (memory .a).trans (congrArg (·.hbm.mem) (quiet.ch .a)), (memory .b).trans (congrArg (·.hbm.mem) (quiet.ch .b))⟩
  · subst made
    have runs : exec (.loadComplete ⟨p, .ok⟩) s = .next (s.loadDone p) := by
      show execLoadComplete ⟨p, .ok⟩ s = _
      rw [execLoadComplete, found]
    obtain ⟨-, -, designs, loads, parts, memory⟩ := s.loadEnded_spec l (s.makeDesign l tag)
    refine ⟨_, _, runs, State.loadDone_eq found free command mode ▸ State.completeAt_done .., designs, rfl, rfl, rfl, rfl, rfl, rfl, rfl,
      fun x hx hsti => ?_, parts, loads, memory, fun range q hq => ?_⟩
    · have cells : (s.makeDesign l tag).cells = initCells [x] := by rw [← hx]; rfl
      rw [cells, initCells_single]
      exact (getLsbD_setBit _ _ _ hsti).trans (if_pos rfl)
    · exact s.loadEnded_image l range hq

/-- Settles O22: the checks in their order, and each end of a load as a chain of updates read behind a mask that hides what the other
updates of the chain touch. -/
theorem loading : Obligations.Loading := ⟨loadChecked, loadCompletes⟩

end Sys2Proof.Machine
end

section
/-! What every command keeps: the queue, the model's clock and the canonical form of both HBM memories (R143-R160). One lemma for each
operation of the model that gives a state, in the order of the model's files: it keeps them where the operations that it calls do. The few
operations that write the HBM do so by `Memory.write`, `Memory.writeBytes` and `Memory.zero`. -/

namespace Sys2Proof

theorem Memory.wf_nil : Memory.wf [] := ⟨.nil, by simp⟩

theorem Memory.wf_foldl_write {α : Type} {l : List α} {m : Memory} {a : α → Nat} {b : α → Byte} (h : Memory.wf m) :
    Memory.wf (l.foldl (fun m e => Memory.write m (a e) (b e)) m) := by
  induction l generalizing m with
  | nil => exact h
  | cons x l ih => exact ih (Memory.wf_write _ _ h)

end Sys2Proof

namespace Sys2Proof.Machine

open Sys2Proof

-- One proof after the other: the threads of so many lemmas at once take more memory than a build may have.
set_option Elab.async false

variable {t s : State}

/-- `s` has the queue and the clock of `t`, and memories in canonical form where those of `t` are. -/
structure Kept (t s : State) : Prop where
  queue : s.pending = t.pending
  clock : s.clock = t.clock
  memory : t.memWf → s.memWf

/-- Every state that an outcome goes on with has kept what `t` has. -/
def Keeps (t : State) (o : Host.Outcome State Fault Refusal) : Prop := ∀ u, o = .next u → Kept t u

/-! ### How an operation is put together -/

theorem Kept.refl (s : State) : Kept s s := ⟨rfl, rfl, id⟩

/-- A state that is used more than once: shown once. -/
theorem Kept.bind {v w : State} (hv : Kept t v) (hw : Kept t v → Kept t w) : Kept t w := hw hv

theorem Kept.ite {p : Prop} [Decidable p] {a b : State} (ha : Kept t a) (hb : Kept t b) : Kept t (if p then a else b) := by
  split <;> assumption

theorem Kept.foldl {α : Type} {l : List α} {f : State → α → State} (h : Kept t s) (hf : ∀ s x, Kept t s → Kept t (f s x)) :
    Kept t (l.foldl f s) := by
  induction l generalizing s with
  | nil => exact h
  | cons x l ih => exact ih (hf s x h)

theorem Kept.pair {α : Type} {x : α} (h : Kept t s) : Kept t (s, x).1 := h

theorem Kept.iteFst {α : Type} {p : Prop} [Decidable p] {a b : State × α} (ha : Kept t a.1) (hb : Kept t b.1) :
    Kept t (if p then a else b).1 := by
  split <;> assumption

theorem Kept.foldlFst {α β : Type} {l : List α} {f : State × β → α → State × β} {p : State × β} (h : Kept t p.1)
    (hf : ∀ p x, Kept t p.1 → Kept t (f p x).1) : Kept t (l.foldl f p).1 := by
  induction l generalizing p with
  | nil => exact h
  | cons x l ih => exact ih (hf p x h)

theorem Kept.of_fst {α : Type} {p : State × α} {u : State} {x : α} (h : Kept t p.1) (e : p = (u, x)) : Kept t u := by
  subst e
  exact h

theorem Keeps.next (h : Kept t s) : Keeps t (.next s) := by
  rintro u ⟨⟩
  exact h

theorem Keeps.fault {r : Fault} : Keeps t (.fault r) := by
  rintro u ⟨⟩

theorem Keeps.ite {p : Prop} [Decidable p] {a b : Host.Outcome State Fault Refusal} (ha : Keeps t a) (hb : Keeps t b) :
    Keeps t (if p then a else b) := by
  split <;> assumption

/-! ### Operations of Machine/Ops.lean -/

theorem Kept.modHost (h : Kept t s) {f} : Kept t (s.modHost f) := ⟨h.queue, h.clock, h.memory⟩
theorem Kept.modRegs (h : Kept t s) {f} : Kept t (s.modRegs f) := ⟨h.queue, h.clock, h.memory⟩
theorem Kept.modSec (h : Kept t s) {f} : Kept t (s.modSec f) := ⟨h.queue, h.clock, h.memory⟩
theorem Kept.modBase (h : Kept t s) {f} : Kept t (s.modBase f) := ⟨h.queue, h.clock, h.memory⟩
theorem Kept.modMode (h : Kept t s) {f} : Kept t (s.modMode f) := ⟨h.queue, h.clock, h.memory⟩
theorem Kept.modPwr (h : Kept t s) {f} : Kept t (s.modPwr f) := ⟨h.queue, h.clock, h.memory⟩

theorem Kept.modCh (h : Kept t s) {c : Ch} {f : Channel → Channel}
    (hm : Memory.wf (s.ch c).hbm.mem → Memory.wf (f (s.ch c)).hbm.mem := by exact fun w => w) : Kept t (s.modCh c f) := by
  cases c
  · exact ⟨h.queue, h.clock, fun w => ⟨hm (h.memory w).1, (h.memory w).2⟩⟩
  · exact ⟨h.queue, h.clock, fun w => ⟨(h.memory w).1, hm (h.memory w).2⟩⟩

theorem Kept.modHbm (h : Kept t s) {c : Ch} {f : HbmSt → HbmSt}
    (hm : Memory.wf (s.ch c).hbm.mem → Memory.wf (f (s.ch c).hbm).mem := by exact fun w => w) : Kept t (s.modHbm c f) := h.modCh hm

theorem Kept.modFab (h : Kept t s) {c f} : Kept t (s.modFab c f) := h.modCh
theorem Kept.modGuest (h : Kept t s) {c f} : Kept t (s.modGuest c f) := h.modCh
theorem Kept.modHutch (h : Kept t s) {c f} : Kept t (s.modHutch c f) := h.modCh
theorem Kept.modLink (h : Kept t s) {c f} : Kept t (s.modLink c f) := h.modCh
theorem Kept.modSched (h : Kept t s) {c f} : Kept t (s.modSched c f) := h.modCh
theorem Kept.modAcq (h : Kept t s) {c f} : Kept t (s.modAcq c f) := h.modCh
theorem Kept.modTrc (h : Kept t s) {c f} : Kept t (s.modTrc c f) := h.modCh
theorem Kept.modTime (h : Kept t s) {c f} : Kept t (s.modTime c f) := h.modCh
theorem Kept.modPort (h : Kept t s) {c p f} : Kept t (s.modPort c p f) := h.modCh
theorem Kept.modLane (h : Kept t s) {c l f} : Kept t (s.modLane c l f) := h.modCh
theorem Kept.modMport (h : Kept t s) {c k f} : Kept t (s.modMport c k f) := h.modCh
theorem Kept.modRange (h : Kept t s) {c r f} : Kept t (s.modRange c r f) := h.modCh
theorem Kept.modView (h : Kept t s) {c v f} : Kept t (s.modView c v f) := h.modTime
theorem Kept.modDie (h : Kept t s) {c d f} : Kept t (s.modDie c d f) := h.modCh
theorem Kept.modCab (h : Kept t s) {c d i f} : Kept t (s.modCab c d i f) := h.modDie
theorem Kept.modBench (h : Kept t s) {c d i b f} : Kept t (s.modBench c d i b f) := h.modCab
theorem Kept.modRing (h : Kept t s) {r f} : Kept t (s.modRing r f) := h.modHost
theorem Kept.modPart (h : Kept t s) {p f} : Kept t (s.modPart p f) := ⟨h.queue, h.clock, h.memory⟩
theorem Kept.modParts (h : Kept t s) {ps f} : Kept t (s.modParts ps f) := h.foldl fun _ _ h1 => h1.modPart
theorem Kept.modDesign (h : Kept t s) {tag f} : Kept t (s.modDesign tag f) := ⟨h.queue, h.clock, h.memory⟩
theorem Kept.setReg (h : Kept t s) {r c idx v} : Kept t (s.setReg r c idx v) := h.modRegs
theorem Kept.countBy (h : Kept t s) {r c idx n} : Kept t (s.countBy r c idx n) := h.setReg
theorem Kept.count (h : Kept t s) {r c idx} : Kept t (s.count r c idx) := h.countBy
theorem Kept.freeNext (h : Kept t s) : Kept t s.freeNext := ⟨h.queue, h.clock, h.memory⟩

theorem Kept.modPw (h : Kept t s) {c f} : Kept t (s.modPw c f) := by
  unfold State.modPw
  split
  exacts [h.modPwr, h.modPwr]

theorem Kept.hostWrite (h : Kept t s) {addr data} : Kept t (s.hostWrite addr data) := h.modHost

theorem Kept.signal (h : Kept t s) {r} : Kept t (s.signal r) := by
  unfold State.signal
  exact .bind h.modRing fun h1 => h1.modHost

theorem Kept.maskVector (h : Kept t s) {v mask} : Kept t (s.maskVector v mask) := h.modHost
theorem Kept.writeEntry (h : Kept t s) {r e} : Kept t (s.writeEntry r e) := .bind h.hostWrite.modRing fun h1 => .ite h1.signal h1
theorem Kept.loseEvent (h : Kept t s) : Kept t s.loseEvent := h.modHost.count

theorem Kept.putEvent (h : Kept t s) {code source part owner sealed args} :
    Kept t (s.putEvent code source part owner sealed args) := h.modHost.writeEntry

theorem Kept.event (h : Kept t s) {code source part owner sealed args} : Kept t (s.event code source part owner sealed args) :=
  .ite h (.ite h.loseEvent (.ite h.putEvent (.bind h.modHost.putEvent fun h1 => .ite h1.putEvent h1.loseEvent)))

theorem Kept.hostEvent (h : Kept t s) {code args} : Kept t (s.hostEvent code args) := h.event
theorem Kept.hubEvent (h : Kept t s) {c code args} : Kept t (s.hubEvent c code args) := h.event
theorem Kept.designEvent (h : Kept t s) {d code args} : Kept t (s.designEvent d code args) := h.event
theorem Kept.designPlain (h : Kept t s) {d code args} : Kept t (s.designPlain d code args) := h.event
theorem Kept.hostDesignEvent (h : Kept t s) {d code args} : Kept t (s.hostDesignEvent d code args) := h.event

theorem Kept.putCpl (h : Kept t s) {cring c rc} : Kept t (s.putCpl cring c rc) := by
  unfold State.putCpl
  refine Kept.writeEntry ?_
  split
  exacts [h.hostWrite, h]

theorem Kept.post (h : Kept t s) {arb cring c rc accepted} : Kept t (s.post arb cring c rc accepted) := .ite h.putCpl h.modHost
theorem Kept.completeAt (h : Kept t s) {m st frame detail} : Kept t (s.completeAt m st frame detail) := .bind h.modHost fun h1 => h1.post
theorem Kept.complete (h : Kept t s) {m st detail} : Kept t (s.complete m st detail) := h.completeAt

theorem Kept.completeTag (h : Kept t s) {r tag st detail} : Kept t (s.completeTag r tag st detail) := by
  unfold State.completeTag
  split
  exacts [h.complete, h]

theorem Kept.start (h : Kept t s) {m} : Kept t (s.start m) := h.modHost

theorem Kept.withCmd (h : Kept t s) {r tag op f} (hf : ∀ s1 x2, Kept t s1 → Kept t (f s1 x2)) : Kept t (s.withCmd r tag op f) := by
  unfold State.withCmd
  split
  exacts [.ite h (.ite h.complete (hf _ _ h)), h]

/-! ### Operations of Machine/Designs.lean -/

theorem Kept.abortFrame (h : Kept t s) {tag} : Kept t (s.abortFrame tag) := h.modHbm.modHbm.modDesign
theorem Kept.setDesignState (h : Kept t s) {d st} : Kept t (s.setDesignState d st) := .bind h.modDesign fun h1 => h1.modParts

theorem Kept.stopDetail (h : Kept t s) {tag st kind dt} : Kept t (s.stopDetail tag st kind dt) := by
  unfold State.stopDetail
  split
  · exact h
  · extract_lets s1 s2 s3 s4
    have h1 : Kept t s1 := (Kept.ite h.abortFrame h).modDesign
    have h2 : Kept t s2 := h1.setDesignState
    have h3 : Kept t s3 := by
      unfold s3
      split
      exacts [h2.completeTag, h2]
    have h4 : Kept t s4 := h3.modDesign
    exact .ite h4.designPlain h4

theorem Kept.stopAt (h : Kept t s) {tag st kind} : Kept t (s.stopAt tag st kind) := h.stopDetail

theorem Kept.traceLost (h : Kept t s) {c keys} : Kept t (s.traceLost c keys) :=
  .ite h (.bind h.modTrc fun h1 => .bind h1.countBy fun h2 => .ite h2 h2.modTrc.hubEvent)

theorem Kept.stage (h : Kept t s) {c r} : Kept t (s.stage c r) := .ite h.traceLost h.modTrc
theorem Kept.tracePkt (h : Kept t s) {c stream b} : Kept t (s.tracePkt c stream b) := h.stage
theorem Kept.traceRate (h : Kept t s) {c sp} : Kept t (s.traceRate c sp) := h.foldl fun _ _ h1 => .ite h1.tracePkt h1
theorem Kept.traceHold (h : Kept t s) {d cs step held} : Kept t (s.traceHold d cs step held) := h.foldl fun _ _ h1 => .ite h1.modDesign h1
theorem Kept.modDesignPort (h : Kept t s) {d k f} : Kept t (s.modDesignPort d k f) := .bind h.modMport fun h1 => .ite h1.modMport h1

theorem Kept.writeOutlet (h : Kept t s) {d k} : Kept t (s.writeOutlet d k) := by
  unfold State.writeOutlet
  extract_lets _ _
  split
  · exact .bind h.hostWrite.writeEntry fun h1 => h1.modDesignPort
  · exact h

theorem Kept.drainOutlets (h : Kept t s) {d n} : Kept t (s.drainOutlets d n) := by
  induction n generalizing s with
  | zero => exact h
  | succ n ih =>
    unfold State.drainOutlets
    split
    exacts [ih h.writeOutlet, h]

theorem Kept.abortMsgs (h : Kept t s) {ms} : Kept t (s.abortMsgs ms) := h.foldl fun _ _ h1 => h1.completeTag

theorem Kept.abortUnread (h : Kept t s) {p} : Kept t (s.abortUnread p) := by
  unfold State.abortUnread
  split
  · exact h.foldl fun _ _ h1 => h1.complete
  · exact h

theorem Kept.releasePorts (h : Kept t s) {c d} : Kept t (s.releasePorts c d) :=
  h.foldl fun _ _ h1 => .ite (.bind h1.abortMsgs.abortUnread fun h2 => .bind (.ite h2 h2.designEvent) fun h3 => h3.modMport) h1

theorem Kept.unbindPorts (h : Kept t s) {c d} : Kept t (s.unbindPorts c d) := h.foldl fun _ _ h1 => .ite h1.modMport h1
theorem Kept.clearImages (h : Kept t s) {c id} : Kept t (s.clearImages c id) := .bind h.modHbm fun h1 => .ite h1 h1.modHutch.modHutch
theorem Kept.linkUpAgain (h : Kept t s) {c ends} : Kept t (s.linkUpAgain c ends) := h.modFab
theorem Kept.leaveGuest (h : Kept t s) {c} : Kept t (s.leaveGuest c) := .bind h.modGuest fun h1 => .ite h1.modGuest.linkUpAgain h1

theorem Kept.releaseChannel (h : Kept t s) {c d} : Kept t (s.releaseChannel c d) :=
  .bind h.modCh fun h1 => .bind h1.modHbm fun h2 => .bind h2.clearImages fun h3 => .ite h3.leaveGuest h3

theorem Kept.abortLaunches (h : Kept t s) {c sel} : Kept t (s.abortLaunches c sel) := by
  unfold State.abortLaunches
  refine h.foldl fun _ _ h1 => ?_
  split
  exacts [.ite h1.completeTag.modTime h1, h1]

theorem Kept.dropEnds (h : Kept t s) {d c} : Kept t (s.dropEnds d c) := .ite h h.hubEvent.modDesign

theorem Kept.removeDesign (h : Kept t s) {d} : Kept t (s.removeDesign d) := by
  unfold State.removeDesign
  extract_lets s1 s2 s3 s4 s5 s6 s7
  have h1 : Kept t s1 := h.drainOutlets
  have h2 : Kept t s2 := .ite h1.unbindPorts.releasePorts h1.releasePorts.releasePorts
  have h3 : Kept t s3 := h2.releaseChannel.releaseChannel
  have h4 : Kept t s4 := h3.abortLaunches.abortLaunches
  have h5 : Kept t s5 := h4.foldl fun _ _ h5 => h5.complete
  have h6 : Kept t s6 := .ite (h5.foldl fun _ _ h6 => h6.dropEnds) h5
  have h7 : Kept t s7 := ⟨h6.queue, h6.clock, h6.memory⟩
  exact h7.modParts

theorem Kept.finishStops (h : Kept t s) {tag} : Kept t (s.finishStops tag) := by
  unfold State.finishStops
  split
  · exact h
  · extract_lets s1 _ _ s2
    have h1 : Kept t s1 := h.modDesign
    have h2 : Kept t s2 := .ite h1.removeDesign h1
    refine h2.foldl fun _ _ h3 => ?_
    split
    · split
      exacts [h3.completeAt, h3]
    · exact h3

theorem Kept.cancelLoad (h : Kept t s) {l st} : Kept t (s.cancelLoad l st) := by
  unfold State.cancelLoad
  extract_lets _ s1 s2 s3 s4
  have h1 : Kept t s1 := h.modParts
  have h2 : Kept t s2 := h1.clearImages.clearImages
  have h3 : Kept t s3 := ⟨h2.queue, h2.clock, h2.memory⟩
  have h4 : Kept t s4 := h3.foldl fun _ _ h4 => h4.count
  exact h4.completeTag

theorem Kept.fence (h : Kept t s) {c cause} : Kept t (s.fence c cause) :=
  .ite h (.bind h.modCh fun h1 => .bind h1.event fun h2 => .bind (h2.foldl fun _ _ h3 => h3.cancelLoad) fun h3 => .bind (h3.foldl fun _ _ h4 =>
    .ite h4.stopAt.modDesign.modParts (.ite (.bind h4.modDesign fun h5 => h5.modParts) (.ite (.bind h4.stopAt fun h5 =>
      h5.setDesignState) h4))) fun h4 => .ite h4.modMode h4)

theorem Kept.gradeDown (h : Kept t s) {c die cause} : Kept t (s.gradeDown c die cause) := by
  have marked : Kept t { s with id := { s.id with reduced := true } } := ⟨h.queue, h.clock, h.memory⟩
  exact .ite h marked.modDie.hubEvent

theorem Kept.spareCheck (h : Kept t s) {c die} : Kept t (s.spareCheck c die) := .ite h.gradeDown h
theorem Kept.spareFailed (h : Kept t s) {c die} : Kept t (s.spareFailed c die) := h.modDie.spareCheck
theorem Kept.stopWhere (h : Kept t s) {sel st} : Kept t (s.stopWhere sel st) := h.foldl fun _ _ h1 => .ite h1.stopAt h1

theorem Kept.wipeHutch (h : Kept t s) {c} : Kept t (s.wipeHutch c) := by
  unfold State.wipeHutch
  exact .bind h.modHutch fun h1 => h1.modCh

theorem Kept.hutchWiped (h : Kept t s) {c cause} : Kept t (s.hutchWiped c cause) := h.wipeHutch.modSec.hubEvent

/-! ### Operations of Machine/Keys.lean -/

theorem Kept.endSession (h : Kept t s) {w} : Kept t (s.endSession w) := by
  unfold State.endSession
  split
  exacts [h.modSec.hostEvent, h]

theorem Kept.endSessions (h : Kept t s) : Kept t s.endSessions := h.foldl fun _ _ h1 => h1.endSession
theorem Kept.openSession (h : Kept t s) {x} : Kept t (s.openSession x) := .bind h.endSession fun h1 => h1.modSec.hostEvent
theorem Kept.reply (h : Kept t s) {r} : Kept t (s.reply r) := h.modSec
theorem Keeps.getVersion (h : Kept t s) : Keeps t (execGetVersion s) := .next (.ite h h.modSec.reply)
theorem Keeps.getCapabilities (h : Kept t s) : Keeps t (execGetCapabilities s) := .next (.ite h h.reply)

theorem Keeps.negotiateAlgorithms (h : Kept t s) {offer} : Keeps t (execNegotiateAlgorithms offer s) :=
  .next (.ite h (.ite h.modSec.reply h.modSec.reply))

theorem Keeps.getDigests (h : Kept t s) : Keeps t (execGetDigests s) := .next (.ite h h.reply)

theorem Keeps.getCertificate (h : Kept t s) {slot offset length} : Keeps t (execGetCertificate slot offset length s) :=
  .next (.ite h (.ite h.reply h.reply))

theorem Keeps.challenge (h : Kept t s) {slot nonce} : Keeps t (execChallenge slot nonce s) := .next (.ite h (.ite h.reply h.reply))

theorem Keeps.getMeasurements (h : Kept t s) {sess index nonce} : Keeps t (execGetMeasurements sess index nonce s) :=
  .next (.ite h (.ite h.reply (.ite h.reply h.reply)))

theorem Keeps.keyExchange (h : Kept t s) {eph nonce} : Keeps t (execKeyExchange eph nonce s) :=
  .next (.ite h (.ite h.reply (.bind h.freeNext fun h1 => h1.modSec.reply)))

theorem Keeps.finish (h : Kept t s) {leafKey sig} : Keeps t (execFinish leafKey sig s) := by
  unfold execFinish
  refine .next ?_
  split
  · exact h
  · split
    · exact h.reply
    · exact .bind h.modSec fun h1 => .ite h1.openSession.reply h1.hostEvent.reply

theorem Keeps.spdmHeartbeat (h : Kept t s) {sess} : Keeps t (execSpdmHeartbeat sess s) := .next (.ite h (.ite h.reply h.reply))
theorem Keeps.keyUpdate (h : Kept t s) {sess} : Keeps t (execKeyUpdate sess s) := .next (.ite h (.ite h.reply h.reply))

theorem Kept.vendor (h : Kept t s) {sess f} (hf : ∀ s1 x2, Kept t s1 → Kept t (f s1 x2)) : Kept t (s.vendor sess f) := by
  unfold State.vendor
  split
  · exact h
  · split
    exacts [h.reply, .ite h.reply (.ite h.reply (hf _ _ h))]

theorem Kept.promoteSession (h : Kept t s) {x} : Kept t (s.promoteSession x) := by
  unfold State.promoteSession
  exact .bind (.ite h h.endSession) fun h1 => h1.modSec

theorem Keeps.claim (h : Kept t s) {sess transfer} : Keeps t (execClaim sess transfer s) := by
  unfold execClaim
  refine .next ?_
  split
  · exact h
  · split
    · exact h.reply
    · extract_lets s1
      have h1 : Kept t s1 := h.reply
      split
      · exact h1
      · split
        · exact h.modSec.promoteSession.hostEvent.reply
        · split
          · exact h1
          · split
            · exact h.modSec.promoteSession.hostEvent.reply
            · split
              exacts [h1, .ite h.modSec.promoteSession.hostEvent.reply h1]

theorem Kept.installKey (h : Kept t s) {k} : Kept t (s.installKey k) := h.foldl fun _ _ h1 => .ite h1.modHutch h1

theorem Keeps.keySet (h : Kept t s) {sess kind index material} : Keeps t (execKeySet sess kind index material s) :=
  .next (h.vendor fun _ _ h1 => .ite h1.reply (.ite h1.reply h1.installKey.reply))

theorem Keeps.keyDrop (h : Kept t s) {sess kind index} : Keeps t (execKeyDrop sess kind index s) :=
  .next (h.vendor fun _ _ h1 => .ite h1.reply (.ite h1.reply h1.modHutch.modHutch.reply))

theorem Keeps.keyList (h : Kept t s) {sess} : Keeps t (execKeyList sess s) := .next (h.vendor fun _ _ h1 => h1.reply)

theorem Keeps.debugToken (h : Kept t s) {sess token} : Keeps t (execDebugToken sess token s) :=
  .next (h.vendor fun _ _ h1 => .ite h1.reply (.ite h1.reply (.ite h1.reply h1.modSec.reply)))

theorem Keeps.debugTokenExpiry (h : Kept t s) : Keeps t (execDebugTokenExpiry s) := by
  unfold execDebugTokenExpiry
  refine .next ?_
  split
  exacts [.ite h.modSec h, h]

theorem Kept.closeSlot (h : Kept t s) {slot} : Kept t (s.closeSlot slot) := by
  unfold State.closeSlot
  exact .bind h.endSession fun h1 => h1.modHutch.modHutch.modSec

theorem Kept.clearTenants (h : Kept t s) : Kept t s.clearTenants := by
  unfold State.clearTenants
  exact .bind (h.foldl fun _ _ h1 => h1.closeSlot) fun h1 => .bind h1.modParts fun h2 => h2.modCh.modCh

theorem Kept.lifecycleEffect (h : Kept t s) {target} : Kept t (s.lifecycleEffect target) := by
  unfold State.lifecycleEffect
  split
  · exact h.modSec
  · exact .ite h.modSec h.modSec
  · exact ((h.clearTenants.modHbm fun _ => Memory.wf_nil).modHbm fun _ => Memory.wf_nil).modSec
  · exact h.modSec
  · exact h

theorem Keeps.lifecycle (h : Kept t s) {sess target serial auth byOperator} : Keeps t (execLifecycle sess target serial auth byOperator s) :=
  .next (.ite h (.ite h.reply (.ite h.reply (.ite h.reply (.ite h.reply (.bind h.lifecycleEffect fun h1 => .bind (h1.foldl fun _ _ h2 =>
    h2.hutchWiped) fun h2 => .bind h2.modSec fun h3 => h3.endSessions.hostEvent.reply))))))

theorem Keeps.openSlot (h : Kept t s) {r tag} : Keeps t (execOpenSlot r tag s) :=
  .next (h.withCmd fun _ _ h1 => .ite h1.complete h1.modSec.complete)

theorem Kept.clearRange (h : Kept t s) {c r owner mode job} : Kept t (s.clearRange c r owner mode job) := h.modRange.freeNext

theorem Keeps.closeSlot (h : Kept t s) {r tag} : Keeps t (execCloseSlot r tag s) :=
  .next (h.withCmd fun _ _ h1 => .ite h1.complete (.ite h1 (.bind (h1.foldl fun _ _ h2 => h2.foldl fun _ _ h3 => .ite h3.clearRange h3) fun h2 =>
    h2.closeSlot.complete)))

theorem Keeps.assignRange (h : Kept t s) {r tag} : Keeps t (execAssignRange r tag s) := by
  unfold execAssignRange
  refine .next (h.withCmd fun _ _ h1 => ?_)
  extract_lets _ _
  split
  · exact h1.complete
  · exact .ite h1.complete (.ite h1 (.ite h1.complete (.bind h1.start.modRange fun h2 => h2.clearRange)))

theorem Keeps.releaseRange (h : Kept t s) {r tag} : Keeps t (execReleaseRange r tag s) := by
  unfold execReleaseRange
  refine .next (h.withCmd fun _ _ h1 => ?_)
  extract_lets _
  split
  exacts [h1.complete, .ite h1.complete (.ite h1.complete (.ite h1 h1.start.clearRange))]

theorem Keeps.setRangeMode (h : Kept t s) {r tag} : Keeps t (execSetRangeMode r tag s) := by
  unfold execSetRangeMode
  refine .next (h.withCmd fun _ _ h1 => ?_)
  extract_lets _ _
  split
  exacts [h1.complete, .ite h1.complete (.ite h1.complete (.ite h1 h1.start.clearRange))]

theorem Keeps.rangeClearDone (h : Kept t s) {c r} : Keeps t (execRangeClearDone c r s) := by
  unfold execRangeClearDone
  refine .next ?_
  extract_lets _ _ _ s1
  have h1 : Kept t s1 := h.modHbm fun w => Memory.wf_zero _ _ w
  split
  · exact h
  · exact .ite h (.bind h1.modRange fun h2 => .ite h2.completeTag h2)

/-! ### Operations of Machine/LinkIo.lean -/

theorem Kept.sendBlocks (h : Kept t s) {c l} : Kept t (s.sendBlocks c l) := by
  unfold State.sendBlocks
  exact h.modCh

theorem Kept.wholeColumn (h : Kept t s) {c p type content} : Kept t (s.wholeColumn c p type content) := h.sendBlocks
theorem Kept.putFlits (h : Kept t s) {c p l} : Kept t (s.putFlits c p l) := h.sendBlocks
theorem Kept.sendCtl (h : Kept t s) {c p code} : Kept t (s.sendCtl c p code) := h.modPort.putFlits
theorem Kept.sendFault (h : Kept t s) {c p reason} : Kept t (s.sendFault c p reason) := h.modPort.wholeColumn
theorem Kept.resend (h : Kept t s) {c p} : Kept t (s.resend c p) := .ite h h.modPort.putFlits

theorem Kept.departed (h : Kept t s) {c m} : Kept t (s.departed c m) := by
  unfold State.departed
  split
  exacts [h.modView, h]

theorem Kept.flushPort (h : Kept t s) {c p} : Kept t (s.flushPort c p) :=
  .ite h (.bind (h.foldl fun _ _ h1 => h1.departed) fun h1 => h1.modPort.putFlits.freeNext)

theorem Kept.sendOn (h : Kept t s) {c p m} : Kept t (s.sendOn c p m) := h.modPort.flushPort
theorem Kept.closeGroup (h : Kept t s) {c p} : Kept t (s.closeGroup c p) := h.modPort.putFlits

theorem Kept.sendHello (h : Kept t s) {c p} : Kept t (s.sendHello c p) := by
  unfold State.sendHello
  split
  exacts [h.sendOn, h]

theorem Kept.arrive (h : Kept t s) {c p l} : Kept t (s.arrive c p l) := h.modPort
theorem Kept.takeOut (h : Kept t s) {c p h'} : Kept t (s.takeOut c p h') := h.modPort

theorem Kept.withMsg (h : Kept t s) {c p src m f} (hf : ∀ s1 x2, Kept t s1 → Kept t (f s1 x2)) : Kept t (s.withMsg c p src m f) := by
  unfold State.withMsg
  split
  exacts [.ite (hf _ _ h.takeOut) h, h]

theorem Kept.withMsgOn (h : Kept t s) {c ps src m f} (hf : ∀ s1 x2 x3, Kept t s1 → Kept t (f s1 x2 x3)) : Kept t (s.withMsgOn c ps src m f) := by
  unfold State.withMsgOn
  split
  · exact h.withMsg fun _ _ h2 => hf _ _ _ h2
  · exact h

theorem Kept.withAuth (h : Kept t s) {c p lead f} (hf : ∀ s1, Kept t s1 → Kept t (f s1)) : Kept t (s.withAuth c p lead f) := by
  unfold State.withAuth
  split
  exacts [.ite (hf _ h.takeOut) h, h]

/-! ### Operations of Machine/BaseImage.lean -/

theorem Kept.expire (h : Kept t s) : Kept t s.expire := .bind h.modBase fun h1 => .ite h1 h1.hostEvent
theorem Keeps.configRequest (h : Kept t s) : Keeps t (execConfigRequest s) := .next (.ite h h.modBase)
theorem Keeps.configWaitTimeout (h : Kept t s) : Keeps t (execConfigWaitTimeout s) := .next (.ite h h.setReg.modBase)
theorem Keeps.baseDeadlineWrite (h : Kept t s) {value} : Keeps t (execBaseDeadlineWrite value s) := .next (.ite h (.ite h h.setReg))

theorem Keeps.deadlineExpired (h : Kept t s) : Keeps t (execDeadlineExpired s) := by
  unfold execDeadlineExpired
  refine .next ?_
  split
  · exact h
  · split
    exacts [h.modBase, h.expire]

theorem Kept.countAttempt (h : Kept t s) : Kept t s.countAttempt := h.modBase

theorem Kept.baseRefused (h : Kept t s) {reason timely} : Kept t (s.baseRefused reason timely) :=
  .bind h.modBase.hostEvent fun h1 => .ite h1 h1.expire

theorem Kept.beginDelivery (h : Kept t s) {d} : Kept t (s.beginDelivery d) := .bind h.countAttempt fun h1 => .ite h1.baseRefused h1.modBase
theorem Kept.baseCtrl (h : Kept t s) {value} : Kept t (s.baseCtrl value) := h.setReg

theorem Keeps.baseGo (h : Kept t s) {value} : Keeps t (execBaseGo value s) :=
  .next (.ite h (.bind h.baseCtrl fun h1 => .ite h1.beginDelivery h1))

theorem Keeps.chainStart (h : Kept t s) {value} : Keeps t (execChainStart value s) :=
  .next (.ite h (.bind h.baseCtrl fun h1 => .ite h1.beginDelivery h1))

theorem Kept.wakeHub (h : Kept t s) {c} : Kept t (s.wakeHub c) :=
  .bind (h.foldl fun _ _ h1 => .ite h1.modPort h1) fun h1 => .ite h1.modGuest.linkUpAgain h1

theorem Kept.takeImage (h : Kept t s) {l chained} : Kept t (s.takeImage l chained) :=
  .bind h.modBase fun h1 => .bind h1.modSec fun h2 => .bind h2.modCh.modCh fun h3 => .bind (h3.foldl fun _ _ h4 => h4.wakeHub) fun h4 =>
    h4.hostEvent

theorem Kept.serviceUpdate (h : Kept t s) {l} : Kept t (s.serviceUpdate l) :=
  .bind (.ite h h.modBase) fun h1 => .bind (.ite h1.modBase h1) fun h2 => .bind h2.modBase fun h3 => h3.endSessions

theorem Kept.openChain (h : Kept t s) {l} : Kept t (s.openChain l) := by
  unfold State.openChain
  split
  · exact .bind h.setReg fun h1 => h1.modPort.modBase
  · exact h

theorem Kept.sendDown (h : Kept t s) {m} : Kept t (s.sendDown m) := by
  unfold State.sendDown
  split
  exacts [h.sendOn, h]

theorem Kept.sendUp (h : Kept t s) {m} : Kept t (s.sendUp m) := h.sendOn

theorem Kept.passOn (h : Kept t s) {off data} : Kept t (s.passOn off data) := by
  unfold State.passOn
  exact .bind h.sendDown fun h1 => h1.modBase

theorem Kept.baseOutcome (h : Kept t s) {d l given readOk chained} : Kept t (s.baseOutcome d l given readOk chained).1 := by
  unfold State.baseOutcome
  split
  exacts [h.baseRefused, .ite h.takeImage.serviceUpdate h.takeImage]

theorem Keeps.baseVerifyDone (h : Kept t s) {image readOk} : Keeps t (execBaseVerifyDone image readOk s) := by
  unfold execBaseVerifyDone
  refine .next ?_
  split
  · exact h
  · extract_lets _ _ _ p1 _ _ _ p2 s3 _ _ s4
    have h1 : Kept t p1.1 := h.baseOutcome
    have h2 : Kept t p2.1 := h.baseOutcome
    have h3 : Kept t s3 := h2.sendUp
    have h4 : Kept t s4 := h3.openChain.modBase
    split
    · exact h.baseOutcome
    · exact .ite h.baseRefused (.ite h1 (.ite h1.openChain.modBase h1))
    · split
      exacts [h2.modBase.sendUp, .ite h4 h4.passOn]

/-- Taking up a piece of the chain on the port that carries it. -/
theorem Kept.takeChain (h : Kept t s) {m} {g : State → State} (hg : ∀ s, Kept t s → Kept t (g s)) :
    Kept t (s.withMsg .a 0 (some 0) m fun s h => if h.isChain then g s else s) :=
  h.withMsg fun _ _ h1 => .ite (hg _ h1) h1

theorem Keeps.chainData (h : Kept t s) {offset data} : Keeps t (execChainData offset data s) := by
  unfold execChainData
  exact .next (.ite h (.ite (h.takeChain fun _ h1 => h1) (.ite (.ite (h.takeChain fun _ h1 => h1.passOn) h)
    (.ite h (h.takeChain fun _ h1 => .ite h1.modBase.beginDelivery h1.modBase)))))

theorem Keeps.chainEnd (h : Kept t s) {length} : Keeps t (execChainEnd length s) := by
  unfold execChainEnd
  exact .next (.ite h (.ite (h.takeChain fun _ h1 => h1) (.ite (.ite (h.takeChain fun _ h1 => h1.sendDown) h)
    (.ite h (.ite (h.takeChain fun _ h1 => h1) (h.takeChain fun _ h1 => h1.countAttempt.baseRefused.modBase.sendUp))))))

theorem Keeps.chainStatus (h : Kept t s) {index status} : Keeps t (execChainStatus index status s) := by
  unfold execChainStatus
  refine .next ?_
  split
  · exact h
  · exact h.withMsg fun _ _ h1 => .ite h1 (.ite h1.sendUp h1.hostEvent)

theorem Kept.forwardPiece (h : Kept t s) {off} : Kept t (s.forwardPiece off) :=
  .bind h.sendDown fun h1 => .bind h1.modBase fun h2 => .ite h2.sendDown h2

theorem Kept.forwardChain (h : Kept t s) {n} : Kept t (s.forwardChain n) := by
  induction n generalizing s with
  | zero => exact h
  | succ n ih =>
    unfold State.forwardChain
    split
    exacts [.ite (ih h.forwardPiece) h, h]

theorem Kept.chainOn (h : Kept t s) {c p} : Kept t (s.chainOn c p) := .ite h.forwardChain h

end Sys2Proof.Machine
end

section
/-! What every command keeps: rings, topology, the commands of the host, the fabric and the steps. -/

namespace Sys2Proof.Machine

open Sys2Proof

set_option Elab.async false

variable {t s : State}

/-! ### Operations of Machine/Rings.lean -/

theorem Kept.flushList (h : Kept t s) {arb r l} : Kept t (s.flushList arb r l).1 := by
  induction l generalizing s with
  | nil => exact h
  | cons e l ih => exact .iteFst (ih h.putCpl) (ih h.modHost)

theorem Kept.flushArb (h : Kept t s) {r arb} : Kept t (s.flushArb r arb) := .bind h.modHost.flushList fun h1 => .ite h1 h1.hubEvent
theorem Kept.flush (h : Kept t s) {r} : Kept t (s.flush r) := .ite (h.foldl fun _ _ h1 => h1.flushArb) h
theorem Kept.badAccess (h : Kept t s) : Kept t s.badAccess := h.count
theorem Kept.timedOut (h : Kept t s) {off} : Kept t (s.timedOut off) := .bind h.count fun h1 => .ite h1 h1.modHost.hostEvent
theorem Kept.storeBits (h : Kept t s) {r c idx v} : Kept t (s.storeBits r c idx v) := h.setReg
theorem Kept.roundOwners (h : Kept t s) {c} : Kept t (s.roundOwners c) := h.modSched

theorem Kept.trimSched (h : Kept t s) {c} : Kept t (s.trimSched c) := by
  unfold State.trimSched
  exact h.modTrc

theorem Kept.afterWrite (h : Kept t s) {r c idx v} : Kept t (s.afterWrite r c idx v) := by
  unfold State.afterWrite
  split
  exacts [h.trimSched, (Kept.ite h.roundOwners h).trimSched, h.flush, h.maskVector, h]

theorem Kept.write32 (h : Kept t s) {off v} : Kept t (s.write32 off v) := by
  unfold State.write32
  split
  · exact h.badAccess
  · split
    · exact h.timedOut
    · split
      · exact h
      · split
        exacts [h.storeBits.afterWrite, h.modRegs, h.storeBits.storeBits.modRegs]

theorem Kept.writeReg (h : Kept t s) {off v wide} : Kept t (s.writeReg off v wide) := by
  unfold State.writeReg
  extract_lets _ _
  split
  · exact h.write32
  · split
    exacts [.ite h.write32.write32 h.write32.write32, h.write32.write32]

theorem Keeps.registerWrite (h : Kept t s) {offset value wide} : Keeps t (execRegisterWrite offset value wide s) :=
  .next (.ite h (.ite h.badAccess h.writeReg))

theorem Keeps.badAccess (h : Kept t s) {offset bytes write} : Keeps t (execBadAccess offset bytes write s) :=
  .next (.ite h (.bind h.countBy fun h1 => .ite h1 h1.modRegs))

theorem Keeps.busTimeout (h : Kept t s) {offset write} : Keeps t (execBusTimeout offset write s) :=
  .next (.ite h (.bind h.timedOut fun h1 => .ite h1 h1.modRegs))

theorem Kept.useMseq (h : Kept t s) {r q} : Kept t (s.useMseq r q) := by
  unfold State.useMseq
  split
  · exact h
  · split
    · exact h
    · split
      exacts [h.modDesignPort, h]

theorem Keeps.ringEnable (h : Kept t s) {r value} : Keeps t (execRingEnable r value s) :=
  .next (.ite h (.ite h.badAccess (.bind h.setReg fun h1 => .bind (.ite h1 h1.modRing.modHost) fun h2 => h2.flush)))

theorem Keeps.ringDisable (h : Kept t s) {r value} : Keeps t (execRingDisable r value s) := .next (.ite h (.ite h.badAccess h.setReg))
theorem Kept.refuse (h : Kept t s) {r count d st} : Kept t (s.refuse r count d st) := .ite h.post (.ite h.post h.hostEvent)

theorem Kept.takeDesc (h : Kept t s) {r count d} : Kept t (s.takeDesc r count d) := by
  unfold State.takeDesc
  split
  · exact .bind (.ite h.useMseq h) fun h1 => h1.refuse
  · exact h.modHost

theorem Kept.takeDescs (h : Kept t s) {r count l} : Kept t (s.takeDescs r count l) := by
  induction l generalizing s count with
  | nil => exact h
  | cons d l ih => exact ih h.takeDesc

theorem Kept.ringError (h : Kept t s) {r} : Kept t (s.ringError r) := h.modRing.hostEvent

theorem Kept.produce (h : Kept t s) {r count entries} : Kept t (s.produce r count entries) :=
  .ite h.ringError (.ite h.modRing.count.hostEvent (.bind h.modRing fun h1 => h1.takeDescs))

theorem Kept.consume (h : Kept t s) {r count} : Kept t (s.consume r count) := .ite h.ringError (.bind h.modRing fun h1 => h1.flush)

theorem Keeps.doorbell (h : Kept t s) {page offset value _wide entries} : Keeps t (execDoorbell page offset value _wide entries s) :=
  .next (.ite h (.ite h.badAccess (.ite h.produce h.consume)))

theorem Keeps.interruptTimer (h : Kept t s) {r} : Keeps t (execInterruptTimer r s) := .next (.ite h.signal h)

/-! ### Operations of Machine/Topology.lean -/

theorem Kept.withRoutes (h : Kept t s) {f} (hf : ∀ s, Kept t s → Kept t (f s)) : Kept t (s.withRoutes f) := by
  unfold State.withRoutes
  refine (hf s h).foldl fun u c hu => .bind (hu.foldl fun v x hv => ?_) fun h1 => .ite h1 h1.hubEvent
  dsimp only
  split
  exacts [.ite hv hv.sendOn, hv]

theorem Kept.sendTo (h : Kept t s) {c m x} : Kept t (s.sendTo c m x) := by
  unfold State.sendTo
  split
  · exact h
  · split
    · exact h.count
    · exact h.foldl fun _ _ h1 => h1.sendOn

theorem Kept.loseSent (h : Kept t s) {c p m} : Kept t (s.loseSent c p m) := by
  unfold State.loseSent
  split
  · exact h.count
  · exact h.count
  · exact h.count
  · exact .ite h.count h
  · exact .ite h.modMport.hubEvent.freeNext h
  · exact .ite h h.modPort.hubEvent
  · exact h.modBase
  · exact h.modBase
  · exact h

theorem Kept.loseTraffic (h : Kept t s) {c p} : Kept t (s.loseTraffic c p) := h.modPort.foldl fun _ _ h1 => h1.loseSent
theorem Kept.sendSlotHome (h : Kept t s) {d c} : Kept t (s.sendSlotHome d c) := h.foldl fun _ _ h1 => h1.sendTo

theorem Kept.sendTwin (h : Kept t s) {c m} : Kept t (s.sendTwin c m) := by
  unfold State.sendTwin
  split
  exacts [h.sendOn, h]

theorem Kept.sendDescriptor (h : Kept t s) {d} : Kept t (s.sendDescriptor d) := h.sendTwin

theorem Kept.tellStop (h : Kept t s) {d} : Kept t (s.tellStop d) := by
  unfold State.tellStop
  split
  · split
    exacts [h.sendTwin, h]
  · exact h

theorem Kept.tellAlarm (h : Kept t s) {d} : Kept t (s.tellAlarm d) := by
  unfold State.tellAlarm
  split
  · split
    exacts [h.sendTwin, h]
  · exact h

theorem Kept.alarmWhere (h : Kept t s) {sel} : Kept t (s.alarmWhere sel) := h.foldl fun _ _ h1 => .ite h1.tellAlarm.stopAt h1

theorem Kept.requestStop (h : Kept t s) {d q} : Kept t (s.requestStop d q) :=
  .bind h.modDesign fun h1 => .ite h1.tellStop.stopAt.finishStops h1.setDesignState

theorem Kept.fenceOff (h : Kept t s) {c cause} : Kept t (s.fenceOff c cause) :=
  .ite h (.bind h.fence fun h1 => h1.foldl fun _ _ h2 => .ite (.ite h2.sendSlotHome h2.stopAt) h2)

theorem Keeps.setTopology (h : Kept t s) {r tag table} : Keeps t (execSetTopology r tag table s) := by
  unfold execSetTopology
  refine .next (h.withCmd fun _ _ h1 => ?_)
  split
  · exact h1.complete
  · split
    · exact h1.complete
    · extract_lets s2
      have h2 : Kept t s2 := by
        unfold s2
        refine h1.withRoutes fun _ h2 => ?_
        extract_lets s3
        have h3 : Kept t s3 := ⟨h2.queue, h2.clock, h2.memory⟩
        exact h3.foldl fun _ _ h4 => h4.foldl fun _ _ h5 => .bind h5.modPort fun h6 => .ite h6.loseTraffic h6
      exact h2.hostEvent.complete

/-! ### Operations of Machine/HostCmds.lean -/

theorem Keeps.nop (h : Kept t s) {r tag} : Keeps t (execNop r tag s) := .next (h.withCmd fun _ _ h1 => h1.complete)
theorem Kept.enterMode (h : Kept t s) {m} : Kept t (s.enterMode m) := h.modMode

theorem Keeps.setMode (h : Kept t s) {r tag} : Keeps t (execSetMode r tag s) := by
  unfold execSetMode
  refine .next (h.withCmd fun _ _ h1 => ?_)
  extract_lets _
  split
  · exact h1.complete
  · split
    exacts [h1.complete, h1.enterMode.hostEvent.complete]

theorem Kept.powerReached (h : Kept t s) {c ring tag} : Kept t (s.powerReached c ring tag) :=
  .bind h.modPw fun h1 => .bind h1.hostEvent fun h2 => .ite h2 h2.completeTag

theorem Kept.beginWalk (h : Kept t s) {c w} : Kept t (s.beginWalk c w) :=
  .ite h.powerReached (.bind h.modPw fun h1 => .ite (h1.foldl fun _ _ h2 => .ite h2.requestStop h2) h1)

theorem Keeps.setPower (h : Kept t s) {r tag} : Keeps t (execSetPower r tag s) := by
  unfold execSetPower
  refine .next (h.withCmd fun _ _ h1 => ?_)
  extract_lets _ _ s2
  have h2 : Kept t s2 := h1.start
  split
  · exact h1.complete
  · exact .ite h1 (.ite h1.complete (.ite h1.complete (.bind (h2.foldl fun _ _ h3 => h3.modPw) fun h3 => h3.foldl fun _ _ h4 => h4.beginWalk)))

theorem Keeps.assign (h : Kept t s) {r tag} : Keeps t (execAssign r tag s) :=
  .next (h.withCmd fun _ _ h1 => .ite h1.modParts.complete h1.complete)

theorem Keeps.reclaim (h : Kept t s) {r tag} : Keeps t (execReclaim r tag s) :=
  .next (h.withCmd fun _ _ h1 => .ite h1.modParts.complete h1.complete)

theorem Kept.doStop (h : Kept t s) {m} : Kept t (s.doStop m) := by
  unfold State.doStop
  split
  exacts [.ite h.start.requestStop h.complete, h.complete]

theorem Kept.doUnload (h : Kept t s) {m} : Kept t (s.doUnload m) := by
  unfold State.doUnload
  split
  · exact h.cancelLoad.completeAt
  · split
    exacts [h.completeAt, .ite h.start.requestStop h.removeDesign.completeAt]

theorem Keeps.operatorStop (h : Kept t s) {r tag} : Keeps t (execOperatorStop r tag s) := .next (h.withCmd fun _ _ h1 => h1.doStop)
theorem Keeps.operatorUnload (h : Kept t s) {r tag} : Keeps t (execOperatorUnload r tag s) := .next (h.withCmd fun _ _ h1 => h1.doUnload)
theorem Keeps.tenantStop (h : Kept t s) {r tag} : Keeps t (execTenantStop r tag s) := .next (h.withCmd fun _ _ h1 => h1.doStop)
theorem Keeps.tenantUnload (h : Kept t s) {r tag} : Keeps t (execTenantUnload r tag s) := .next (h.withCmd fun _ _ h1 => h1.doUnload)

theorem Kept.startDesign (h : Kept t s) {d m n wait} : Kept t (s.startDesign d m n wait) :=
  .bind h.start.setDesignState fun h1 => h1.modDesign

theorem Keeps.run (h : Kept t s) {r tag} : Keeps t (execRun r tag s) := by
  unfold execRun
  refine .next (h.withCmd fun _ _ h1 => ?_)
  split
  exacts [h1.complete, .ite h1.startDesign h1.complete]

theorem Keeps.step (h : Kept t s) {r tag} : Keeps t (execStep r tag s) := by
  unfold execStep
  refine .next (h.withCmd fun _ _ h1 => ?_)
  split
  · exact h1.complete
  · split
    exacts [h1.complete, .ite h1.startDesign h1.complete]

theorem Keeps.stats (h : Kept t s) {r tag} : Keeps t (execStats r tag s) := by
  unfold execStats
  refine .next (h.withCmd fun _ _ h1 => ?_)
  extract_lets _ _
  split
  · split
    exacts [h1.hostWrite.complete, h1.complete]
  · exact h1.complete

theorem Keeps.marchOk (h : Kept t s) {r tag} : Keeps t (execMarchOk r tag s) := by
  unfold execMarchOk
  refine .next (h.withCmd fun _ _ h1 => ?_)
  split
  · exact h1.complete
  · extract_lets _
    split
    · refine h1.start.modDesign.foldl fun _ _ h2 => ?_
      split
      exacts [h2.modCab, h2]
    · exact h1.complete

/-! ### Operations of Machine/Fabric.lean -/

theorem Kept.modFlink (h : Kept t s) {c link f} : Kept t (s.modFlink c link f) := h.modFab
theorem Kept.modStat (h : Kept t s) {c i f} : Kept t (s.modStat c i f) := h.modFab
theorem Kept.injected (h : Kept t s) {c i n} : Kept t (s.injected c i n) := h.modStat

theorem Kept.enter (h : Kept t s) {c pl input flits left} : Kept t (s.enter c pl input flits left) := by
  unfold State.enter
  split
  · exact h
  · extract_lets _ _
    split
    · split
      · exact .bind h.count.hubEvent fun h1 => h1.modFab.modFlink
      · exact h
    · exact h.modFab

theorem Kept.bankRequests (h : Kept t s) {d cab master words} : Kept t (s.bankRequests d cab master words) := by
  unfold State.bankRequests
  split
  · exact h
  · exact h.foldl fun _ _ h1 => .ite h1 h1.count.countBy

theorem Kept.fabBank (h : Kept t s) {d l op addr count data} : Kept t (s.fabBank d l op addr count data).1 :=
  .iteFst h.bankRequests (.iteFst h.bankRequests (.iteFst h.bankRequests.modDesign h.bankRequests))

theorem Kept.landPacket (h : Kept t s) {c out flits} : Kept t (s.landPacket c out flits).2 := by
  unfold State.landPacket
  split
  · exact h
  · extract_lets _ _ _ answer
    have answers : ∀ s status ws, Kept t s → Kept t (answer s status ws) := fun _ _ _ h1 => h1.enter.injected
    clear_value answer
    split
    · exact h
    · split
      · exact answers _ _ _ h
      · split
        exacts [h, answers _ _ _ h.fabBank]

theorem Kept.takeLanded (h : Kept t s) {c} : Kept t (s.takeLanded c) := by
  unfold State.takeLanded
  exact .modFab (.foldlFst (.pair h.modFab) fun _ _ h1 => .pair h1.landPacket)

theorem Kept.crossBridge (h : Kept t s) {c} : Kept t (s.crossBridge c) := .ite h (.bind h.modFab fun h1 => h1.modFab)

theorem Kept.fabSettle (h : Kept t s) {c} : Kept t (s.fabSettle c) :=
  .bind h.modFab fun h1 => .bind (.ite h1 h1.takeLanded.modFab) fun h2 => .ite h2 h2.crossBridge

theorem Kept.inject (h : Kept t s) {c pl input stat flits} : Kept t (s.inject c pl input stat flits) := h.enter.injected.fabSettle

theorem Kept.cabInject (h : Kept t s) {l flits} : Kept t (s.cabInject l flits) := by
  unfold State.cabInject
  split
  exacts [h.inject, h]

theorem Kept.hubInject (h : Kept t s) {c node flits} : Kept t (s.hubInject c node flits) := h.inject

/-! ### Operations of Machine/Steps.lean -/

theorem Kept.sendOuter (h : Kept t s) {d c kind idx v} : Kept t (s.sendOuter d c kind idx v) :=
  h.foldl fun _ _ h1 => .ite h1 (h1.foldl fun _ _ h2 => h2.hubInject)

theorem Kept.frameErr (h : Kept t s) {tag e} : Kept t (s.frameErr tag e) := h.modDesign

theorem Kept.takeLanding (h : Kept t s) {d cab lbo n} : Kept t (s.takeLanding d cab lbo n) := by
  unfold State.takeLanding
  extract_lets _ _ bad s1
  have h1 : Kept t s1 := h.modHbm
  clear_value bad
  split
  exacts [h1.frameErr, h1]

theorem Kept.hubMem (h : Kept t s) {c node stack tag addr n data} : Kept t (s.hubMem c node stack tag addr n data) :=
  .bind h.hubInject fun h1 => .bind h1.inject fun h2 => h2.modStat.freeNext

theorem Kept.hbmOp (h : Kept t s) {tag before cab step k f addr data} : Kept t (s.hbmOp tag before cab step k f addr data) := by
  unfold State.hbmOp
  split
  · exact h
  · extract_lets _ _ _ _ _ _ _ _ _ _
    split
    · exact h
    · split
      · exact h.frameErr
      · exact .ite h.frameErr (.ite (.bind h.modHbm fun h1 => h1.modDesign.cabInject) (.bind h.modHbm fun h1 => .bind
          (.ite h1 h1.takeLanding) fun h2 => h2.modDesign.cabInject))

theorem Kept.memOp (h : Kept t s) {tag before cab step x} : Kept t (s.memOp tag before cab step x) := by
  unfold State.memOp
  split
  · exact h
  · extract_lets _ _ _
    split
    · exact h
    · split
      exacts [h.hbmOp, h.hbmOp, h.modDesign.takeLanding, h.modDesign]

theorem Kept.tileCheck (h : Kept t s) {d cab step tag} : Kept t (s.tileCheck d cab step tag) := by
  unfold State.tileCheck
  split
  exacts [h, h, .ite h (.ite h.count.designEvent h.modDesign)]

theorem Kept.parityFail (h : Kept t s) {d cab bench} : Kept t (s.parityFail d cab bench) := by
  unfold State.parityFail
  split
  exacts [h, h.count.designEvent.frameErr]

theorem Kept.doStep (h : Kept t s) {d cab obs} : Kept t (s.doStep d cab obs) := by
  unfold State.doStep
  extract_lets _ _ _ _ _ _ _ _ _ s1
  have h1 : Kept t s1 := h.foldl fun _ _ h1 => h1.memOp
  split
  · extract_lets s2 s3 s4 s5
    have h2 : Kept t s2 := h1.modDesign
    have h3 : Kept t s3 := h2.foldl fun _ _ h3 => h3.cabInject
    have h4 : Kept t s4 := by
      unfold s4
      split
      exacts [.ite h3.setReg h3, h3]
    have h5 : Kept t s5 := h4.foldl fun _ _ h5 => h5.tileCheck
    split
    exacts [h5.parityFail, h5]

theorem Keeps.stepBegin (h : Kept t s) {cab obs} : Keeps t (execStepBegin cab obs s) := by
  unfold execStepBegin
  refine .next ?_
  split
  exacts [h.doStep, h]

theorem Kept.grant (h : Kept t s) {d b} : Kept t (s.grant d b) := .bind (.ite h.traceHold h) fun h1 => h1.modDesign

theorem Kept.countHold (h : Kept t s) {d b} : Kept t (s.countHold d b) := by
  unfold State.countHold
  refine h.foldl fun _ _ h1 => ?_
  extract_lets _ _
  split
  · exact h1
  · split
    · exact .bind h1.count fun h2 => .bind (.ite h2.count h2) fun h3 => .ite h3.count h3
    · exact h1

theorem Kept.holdStep (h : Kept t s) {d b} : Kept t (s.holdStep d b) :=
  .bind (h.foldl fun _ _ h1 => .bind h1.count.modPart fun h2 => .ite h2 h2.event) fun h1 => h1.modDesign

theorem Kept.beginHold (h : Kept t s) {d b} : Kept t (s.beginHold d b) :=
  .bind h.countHold.traceHold fun h1 => .bind h1.modDesign fun h2 => .ite h2 h2.stopAt.finishStops

theorem Kept.clearance (h : Kept t s) {d b} : Kept t (s.clearance d b) :=
  .ite h (.ite h.grant (.ite (.bind (.ite h h.beginHold) fun h1 => .ite h1.holdStep h1) h))

theorem Keeps.clearanceGrant (h : Kept t s) {p} : Keeps t (execClearanceGrant p s) := by
  unfold execClearanceGrant
  refine .next ?_
  split
  exacts [h.clearance, h]

theorem Keeps.holdLong (h : Kept t s) {p} : Keeps t (execHoldLong p s) := by
  unfold execHoldLong
  refine .next ?_
  split
  exacts [.ite h.modDesign.designPlain h, h]

theorem Keeps.valuePacketArrival (h : Kept t s) {p k} : Keeps t (execValuePacketArrival p k s) := by
  unfold execValuePacketArrival
  refine .next ?_
  split
  · exact h
  · split
    · exact h
    · split
      · exact h
      · extract_lets s1 _ _ s2
        have h1 : Kept t s1 := h.modDesign
        have h2 : Kept t s2 := h1.modDesign
        split
        · exact h1
        · split
          · exact h1.count.hubEvent
          · split
            exacts [h2.modStat, h2]

theorem Kept.countConflict (h : Kept t s) {c die i x} : Kept t (s.countConflict c die i x) := .ite h h.count.countBy

theorem Kept.corrected (h : Kept t s) {d part c die i addr} : Kept t (s.corrected d part c die i addr) :=
  .ite (.ite h h.modCab.event) h.modCab

theorem Keeps.memoryReturn (h : Kept t s) {p k ecc} : Keeps t (execMemoryReturn p k ecc s) := by
  unfold execMemoryReturn
  refine .next ?_
  split
  · exact h
  · split
    · exact h
    · split
      · exact h
      · exact .ite h (.bind h.modDesign.countConflict fun h1 => .ite h1 (.ite h1.count.frameErr (.bind (.ite h1
          (.ite h1.count.corrected h1.modCab)) fun h2 => h2.modDesign)))

end Sys2Proof.Machine
end

section
/-! What every command keeps: the HBM, the ends of frames, capture and trace. -/

namespace Sys2Proof.Machine

open Sys2Proof

set_option Elab.async false

variable {t s : State}

/-! ### Operations of Machine/HbmMem.lean -/

theorem Kept.spareTick (h : Kept t s) {c} : Kept t (s.spareTick c) := .ite h.modHbm.freeNext h
theorem Kept.sparePc (h : Kept t s) {c pc} : Kept t (s.sparePc c pc) := .ite h.modHbm.hubEvent (.ite h.modHbm h.modHbm.hubEvent)

theorem Kept.hbmUncorrected (h : Kept t s) {c addr requester kind} : Kept t (s.hbmUncorrected c addr requester kind) :=
  .bind h.count.freeNext fun h1 => .bind h1.setReg fun h2 => .bind h2.setReg fun h3 => .bind h3.event fun h4 => .bind h4.modHbm fun h5 =>
    .ite h5 h5.sparePc

theorem Kept.alarm (h : Kept t s) {c kind port part owner} : Kept t (s.alarm c kind port part owner) := h.count.event

theorem Kept.rebuildSubtree (h : Kept t s) {c d lo hi} : Kept t (s.rebuildSubtree c d lo hi) := by
  unfold State.rebuildSubtree
  refine h.foldl fun _ _ h1 => ?_
  split
  · split
    · exact h1.modHbm fun w => Memory.wf_foldl_write (Memory.wf_zero _ _ w)
    · exact h1
  · exact h1

theorem Kept.hutchLost (h : Kept t s) {c} : Kept t (s.hutchLost c) := h.hubEvent.hutchWiped.stopWhere

theorem Kept.nodeLost (h : Kept t s) {c addr level owner} : Kept t (s.nodeLost c addr level owner) :=
  .bind h.hbmUncorrected fun h1 => .bind h1.alarm.event fun h2 => h2.modHbm.freeNext

theorem Kept.subtreeLost (h : Kept t s) {c addr level} : Kept t (s.subtreeLost c addr level) := by
  unfold State.subtreeLost
  split
  · exact h
  · split
    · exact h
    · split
      · exact h.hutchLost
      · extract_lets _ _ _ s1 _ s2 s3
        have h1 : Kept t s1 := h.nodeLost
        have h2 : Kept t s2 := h1.modHbm
        have h3 : Kept t s3 := h2.modRange
        split
        exacts [h1.rebuildSubtree, h3.stopWhere]

theorem Kept.land (h : Kept t s) {r bytes} : Kept t (s.land r bytes) := h.modDesign

theorem Kept.readErr (h : Kept t s) {r src} : Kept t (s.readErr r src) := by
  unfold State.readErr
  split
  · exact .ite h (.ite h.frameErr (.bind h.modHbm fun h1 => .ite h1.frameErr h1))
  · exact h

theorem Kept.eccNode (h : Kept t s) {c addr x2} : Kept t (s.eccNode c addr x2) := by
  unfold State.eccNode
  split
  exacts [h.subtreeLost, h]

theorem Keeps.hbmReadReturn (h : Kept t s) {c k ecc node} : Keeps t (execHbmReadReturn c k ecc node s) := by
  unfold execHbmReadReturn
  refine .next ?_
  split
  · exact h
  · split
    · exact h
    · extract_lets s1 s2 _ _ _ s3 _ _ s4 s5
      have h1 : Kept t s1 := h.modHbm
      have h2 : Kept t s2 := h1.eccNode
      have h3 : Kept t s3 := .ite h2.count h2
      have h4 : Kept t s4 := h3.land.inject
      have h5 : Kept t s5 := by
        unfold s5
        split
        exacts [h4.modStat, h4]
      exact .ite h3.hbmUncorrected.readErr (.ite h3 (.ite h3.readErr (.ite h5.modHbm h5)))

theorem Kept.lockRange (h : Kept t s) {c r} : Kept t (s.lockRange c r) := .bind h.modRange fun h1 => h1.alarmWhere.hubEvent

theorem Kept.macFailed (h : Kept t s) {c m} : Kept t (s.macFailed c m) := by
  unfold State.macFailed
  extract_lets _ rg s1 s2 s3
  have h1 : Kept t s1 := h.alarm
  have h2 : Kept t s2 := by
    unfold s2
    split
    exacts [.ite h1.frameErr h1.modHbm, h1]
  have h3 : Kept t s3 := h2.modHbm
  split
  · clear_value rg
    split
    exacts [h3.lockRange, h3]
  · exact h2.modHbm

theorem Kept.drainOne (h : Kept t s) {c ecc} : Kept t (s.drainOne c ecc) := by
  unfold State.drainOne
  split
  · exact h
  · split
    · exact h
    · exact .bind (h.modHbm fun w => Memory.wf_writeBytes _ _ w) fun h1 => .bind (.ite h1.modHbm h1) fun h2 => .ite h2.hbmUncorrected.modHbm
        (.ite h2.count h2)

theorem Kept.drainMacs (h : Kept t s) {c addr n} : Kept t (s.drainMacs c addr n) := by
  unfold State.drainMacs
  split
  · exact .ite h (.bind h.alarm fun h1 => .ite h1 h1.alarm.lockRange)
  · exact h

theorem Keeps.wbufDrain (h : Kept t s) {c met} : Keeps t (execWbufDrain c met s) := by
  unfold execWbufDrain
  refine .next ?_
  split
  exacts [h, .ite h.eccNode.drainMacs.drainOne h]

theorem Kept.makeRoom (h : Kept t s) {c p n fuel} : Kept t (s.makeRoom c p n fuel) := by
  induction fuel generalizing s with
  | zero => exact h
  | succ fuel ih => exact .ite h (ih h.drainOne)

theorem Kept.commitWrite (h : Kept t s) {c d addr data} : Kept t (s.commitWrite c d addr data) :=
  h.foldl fun _ _ h1 => .bind h1.makeRoom fun h2 => h2.modHbm

theorem Keeps.hbmSpareStart (h : Kept t s) {c value} : Keeps t (execHbmSpareStart c value s) :=
  .next (.ite h (.ite h.timedOut (.bind h.storeBits fun h1 => .ite h1 (.ite h1.hubEvent (.ite h1.sparePc h1.modHbm)))))

theorem Keeps.pcSparingDone (h : Kept t s) {c unreadable} : Keeps t (execPcSparingDone c unreadable s) := by
  unfold execPcSparingDone
  refine .next ?_
  split
  · exact h
  · exact .bind h.modHbm fun h1 => .bind h1.hubEvent fun h2 => h2.foldl fun _ _ h3 => .ite h3.hubEvent h3.sparePc

theorem Keeps.refresh (h : Kept t s) {c} : Keeps t (execRefresh c s) := .next (.ite h.modHbm h)
theorem Keeps.hbmHot (h : Kept t s) {c degC} : Keeps t (execHbmHot c degC s) := .next (.ite h (.ite h.modHbm (.ite h.modHbm h)))
theorem Kept.replyPoison (h : Kept t s) : Kept t s.replyPoison := h.modRegs.freeNext
theorem Kept.captureLost (h : Kept t s) {c b} : Kept t (s.captureLost c b) := .ite h (.bind h.modAcq fun h1 => h1.count.hubEvent)
theorem Kept.blocksLost (h : Kept t s) {c lo hi} : Kept t (s.blocksLost c lo hi) := h.foldl fun _ _ h1 => .ite h1.captureLost h1

theorem Kept.ringNode (h : Kept t s) {c addr x2} : Kept t (s.ringNode c addr x2) := by
  unfold State.ringNode
  split
  exacts [.ite h (.ite h.hutchLost h.nodeLost.blocksLost), h]

theorem Kept.ringMacFailed (h : Kept t s) {c addr kind} : Kept t (s.ringMacFailed c addr kind).1 :=
  .iteFst (.pair h.alarm.modHbm.alarmWhere) (.pair h.alarm.modHbm)

theorem Keeps.hdmRead (h : Kept t s) {c addr ecc macOk} : Keeps t (execHdmRead c addr ecc macOk s) := by
  unfold execHdmRead
  split
  · exact .next h
  · split
    · exact .fault
    · refine .next ?_
      extract_lets _ s1 _ _ s2 s3 s4
      have h1 : Kept t s1 := h.ringNode
      have h2 : Kept t s2 := h1.hbmUncorrected.replyPoison
      have h3 : Kept t s3 := .ite h1.count h1
      have h4 : Kept t s4 := h3.modHbm.hubMem
      split
      · exact h.replyPoison
      · split
        · exact h1.replyPoison
        · split
          · split
            exacts [.ite h2.captureLost h2, h2]
          · exact .ite h1.ringMacFailed.replyPoison (.ite h4.modRegs.freeNext h4.modRegs)

theorem Keeps.hdmWrite (h : Kept t s) {c addr _value} : Keeps t (execHdmWrite c addr _value s) :=
  .ite (.next h) (.ite .fault (.next h.hubEvent))

theorem Keeps.marchStart (h : Kept t s) {c die cab value} : Keeps t (execMarchStart c die cab value s) :=
  .next (.ite h (.ite h.badAccess (.ite h.timedOut (.bind h.storeBits fun h1 => .ite h1 (.ite h1.hubEvent (.ite h1 h1.modCab))))))

theorem Kept.marchesDone (h : Kept t s) {tag} : Kept t (s.marchesDone tag) := by
  unfold State.marchesDone
  split
  · exact h
  · extract_lets _
    split
    · exact h
    · split
      exacts [h.complete, h]

theorem Keeps.marchDone (h : Kept t s) {c die cab fail} : Keeps t (execMarchDone c die cab fail s) := by
  unfold execMarchDone
  refine .next ?_
  split
  · exact h
  · extract_lets s1 s2
    have h1 : Kept t s1 := h.modCab
    have h2 : Kept t s2 := by
      unfold s2
      split
      · exact h1
      · extract_lets s2 s3 _
        have h3 : Kept t s3 := h1.modCab.hubEvent
        split
        · extract_lets s4
          have h4 : Kept t s4 := h3.stopWhere.modDesign
          have drawn : ∀ n, Kept t { s4 with freeCtr := n } := fun _ => ⟨h4.queue, h4.clock, h4.memory⟩
          exact (drawn _).modCab
        · exact h3.modCab
        · exact h3.spareFailed
    split
    exacts [h2.marchesDone, h2]

/-! ### Operations of Machine/Outputs.lean -/

theorem Kept.panicCheck (h : Kept t s) {c} : Kept t (s.panicCheck c) := .ite h.modHbm.hubEvent (.ite h.modHbm.hubEvent h)

theorem Kept.captureCh (h : Kept t s) {d c} : Kept t (s.captureCh d c).1 := by
  unfold State.captureCh
  dsimp only
  exact (Kept.modDesign (.ite h (.ite h.dropEnds.modDesign h.count.modDesign))).modTime

theorem Kept.captureTrunc (h : Kept t s) {d} : Kept t (s.captureTrunc d) := h.foldl fun _ _ h1 => .ite h1.designEvent.modDesign h1
theorem Kept.dataTrace (h : Kept t s) {d c} : Kept t (s.dataTrace d c).1 := .iteFst h h.modDesign

theorem Kept.pruneEdges (h : Kept t s) {c} : Kept t (s.pruneEdges c) := by
  unfold State.pruneEdges
  exact h.modTime

theorem Kept.collect (h : Kept t s) {d} : Kept t (s.collect d).1 := by
  unfold State.collect
  dsimp only
  refine .pruneEdges (.pruneEdges (.modDesign (.foldl ?_ fun _ _ h1 => h1.modCh)))
  exact .foldlFst (.pair (.foldlFst (.pair h.captureTrunc) fun _ _ h1 => .pair h1.captureCh)) fun _ _ h1 => .pair h1.dataTrace

theorem Kept.sendRecs (h : Kept t s) {c tag m frame recs} : Kept t (s.sendRecs c tag m frame recs) := by
  unfold State.sendRecs
  extract_lets _ _
  split
  · exact h.modLink
  · refine h.foldl fun _ _ h1 => ?_
    extract_lets _ s2
    have h2 : Kept t s2 := by
      unfold s2
      split
      · exact h1.count
      · exact h1.foldl fun _ _ h2 => h2.sendOn
    exact .ite h1 (h2.foldl fun _ _ h3 => h3.modLink)

theorem Kept.releaseLinks (h : Kept t s) {d o} : Kept t (s.releaseLinks d o) :=
  h.foldl fun _ _ h1 => .bind h1.modLink fun h2 => h2.foldl fun _ _ h3 => h3.sendRecs

theorem Kept.releaseGuest (h : Kept t s) {d o} : Kept t (s.releaseGuest d o) :=
  .ite h (h.foldl fun _ _ h1 => .ite (.bind h1.modGuest fun h2 => h2.modFab) h1)

theorem Kept.releaseOutlets (h : Kept t s) {d o} : Kept t (s.releaseOutlets d o) := by
  unfold State.releaseOutlets
  split
  · exact h
  · refine h.foldl fun _ _ h1 => ?_
    split
    · exact h1
    · exact .bind h1.modDesignPort fun h2 => .bind h2.modSched fun h3 => .bind (.ite h3.designEvent h3) fun h4 => h4.modDesignPort

theorem Kept.releasePins (h : Kept t s) {o} : Kept t (s.releasePins o) := ⟨h.queue, h.clock, h.memory⟩
theorem Kept.acceptEdge (h : Kept t s) {c l atag} : Kept t (s.acceptEdge c l atag) := .ite h h.modTime

theorem Kept.drivePulse (h : Kept t s) {c l} : Kept t (s.drivePulse c l) :=
  .ite h (.bind h.modTime fun h1 => .ite h1 (h1.foldl fun _ _ h2 => h2.acceptEdge))

theorem Kept.releaseFires (h : Kept t s) {d o} : Kept t (s.releaseFires d o) := by
  unfold State.releaseFires
  split
  · exact h
  · refine h.foldl fun _ _ h1 => ?_
    split
    · split
      · exact h1
      · extract_lets s2
        have h2 : Kept t s2 := by
          unfold s2
          split
          exacts [h1.drivePulse, h1]
        exact .ite (h2.foldl fun _ _ h3 => h3.sendTo) h2

theorem Kept.fifoPut (h : Kept t s) {d frame r} : Kept t (s.fifoPut d frame r) := .bind h.modAcq fun h1 => .ite h1.modSched h1

theorem Kept.release (h : Kept t s) {d o} : Kept t (s.release d o) :=
  .bind h.releaseLinks fun h1 => .bind h1.releaseGuest fun h2 => .bind h2.releaseOutlets fun h3 => .bind h3.releasePins fun h4 => .bind
    (h4.foldl fun _ _ h5 => h5.fifoPut) fun h5 => .bind h5.panicCheck.panicCheck fun h6 => .bind (h6.foldl fun _ _ h7 => h7.stage) fun h7 =>
      h7.releaseFires

/-! ### Operations of Machine/Pair.lean -/

theorem Kept.releaseQueue (h : Kept t s) {tag sel} : Kept t (s.releaseQueue tag sel) := by
  unfold State.releaseQueue
  split
  · exact h
  · exact .bind h.modDesign fun h1 => h1.foldl fun _ _ h2 => h2.release

theorem Kept.releaseAll (h : Kept t s) : Kept t s.releaseAll := h.foldl fun _ _ h1 => h1.releaseQueue

theorem Kept.setSeq (h : Kept t s) {n cab} : Kept t (s.setSeq n cab) :=
  h.foldl fun _ _ h1 => h1.modCh fun w => by split <;> exact w

theorem Kept.runSolo (h : Kept t s) {other cause} : Kept t (s.runSolo other cause) := h.modMode.releaseAll.setSeq.hostEvent

theorem Kept.promote (h : Kept t s) {other} : Kept t (s.promote other) := by
  unfold State.promote
  extract_lets s1 _ s2 s3
  have h1 : Kept t s1 := h.modMode
  have h2 : Kept t s2 := h1.setSeq.hostEvent
  have h3 : Kept t s3 := Kept.releaseAll ⟨h2.queue, h2.clock, h2.memory⟩
  split
  · exact h3
  · exact h3.foldl fun _ _ h4 => h4.sendTo

theorem Kept.leavePair (h : Kept t s) {fault} : Kept t (s.leavePair fault) :=
  .bind (.ite (h.foldl fun _ _ h1 => h1.sendTwin) h) fun h1 => .bind (.ite (h1.foldl fun _ _ h2 => h2.abortLaunches) h1) fun h2 =>
    .bind h2.modMode fun h3 => h3.stopWhere

theorem Kept.lastingStop (h : Kept t s) {tag st dt} : Kept t (s.lastingStop tag st dt) := .ite h.alarmWhere (.ite h.leavePair h.stopDetail)
theorem Kept.healthLasting (h : Kept t s) {c} : Kept t (s.healthLasting c) := h.modCh
theorem Kept.healthTransient (h : Kept t s) {c} : Kept t (s.healthTransient c) := h.modCh

theorem Kept.copyRegion (h : Kept t s) {d c g} : Kept t (s.copyRegion d c g) := by
  unfold State.copyRegion
  split
  · exact h
  · exact h.modHbm fun w => Memory.wf_foldl_write (Memory.wf_zero _ _ w)

theorem Kept.rejoinFinal (h : Kept t s) {c} : Kept t (s.rejoinFinal c) := by
  unfold State.rejoinFinal
  extract_lets _ s1 s2 s3 s4 s5 s6
  have h1 : Kept t s1 := h.foldl fun _ _ h1 => h1.foldl fun _ _ h2 => h2.copyRegion
  have h2 : Kept t s2 := ⟨h1.queue, h1.clock, h1.memory⟩
  have h3 : Kept t s3 := h2.foldl fun _ _ h3 => h3.modParts
  have h4 : Kept t s4 := h3.modCh
  have h5 : Kept t s5 := h4.modMode
  have h6 : Kept t s6 := h5.event.freeNext
  split
  · refine h6.foldl fun _ _ h7 => ?_
    split
    exacts [h7.sendSlotHome, h7]
  · exact h6

theorem Kept.joinFinal (h : Kept t s) {d} : Kept t (s.joinFinal d) :=
  .bind (h.foldl fun _ _ h1 => h1.sendTwin) fun h1 => .bind h1.modMode fun h2 => h2.setSeq.hostEvent.freeNext

theorem Kept.boundary (h : Kept t s) {tag} : Kept t (s.boundary tag) := by
  unfold State.boundary
  split
  exacts [h, .ite h.rejoinFinal (.ite h.joinFinal h)]

theorem Kept.applyInput (h : Kept t s) {port kind writes} : Kept t (s.applyInput port kind writes) := by
  unfold State.applyInput
  extract_lets _ _ _
  split
  · extract_lets s1
    have h1 : Kept t s1 := h.modDesign
    split
    exacts [h1, .ite h1.modDesignPort h1.modDesignPort]
  · exact h

theorem Kept.applyInputs (h : Kept t s) {frame} : Kept t (s.applyInputs frame) :=
  .bind h.modMode fun h1 => h1.foldl fun _ _ h2 => h2.applyInput

theorem Kept.pairRecurs (h : Kept t s) : Kept t s.pairRecurs := .bind h.freeNext fun h1 => .ite h1.leavePair (.ite h1.runSolo h1.promote)

/-! ### Operations of Machine/Commit.lean -/

theorem Kept.flipFrame (h : Kept t s) {d} : Kept t (s.flipFrame d) := .ite h h.modHbm.modHbm.modDesign
theorem Kept.sendSigs (h : Kept t s) {d} : Kept t (s.sendSigs d) := .ite ((h.foldl fun _ _ h1 => h1.sendTwin).modDesign) h

theorem Kept.countCab (h : Kept t s) {r l} : Kept t (s.countCab r l) := by
  unfold State.countCab
  split
  exacts [h.count, h]

theorem Kept.transientFault (h : Kept t s) {d} : Kept t (s.transientFault d) := by
  unfold State.transientFault
  split
  · exact h
  · exact .bind (h.foldl fun _ _ h1 => .ite h1.countCab.countCab h1.countCab) fun h1 => .ite h1.count.hostDesignEvent.modMode h1
  · exact h.countCab.healthTransient

theorem Kept.hazardEvents (h : Kept t s) {d} : Kept t (s.hazardEvents d) :=
  .bind (h.foldl fun _ _ h1 => h1.designEvent) fun h1 => .bind (.ite h1.designEvent h1) fun h2 => .bind (h2.foldl fun _ _ h3 =>
    h3.designEvent) fun h3 => .ite h3.designEvent h3

theorem Kept.captureChange (h : Kept t s) {tag} : Kept t (s.captureChange tag) := by
  unfold State.captureChange
  split
  · exact h
  · split
    · exact h
    · split
      · exact h.modDesign
      · exact (h.foldl fun _ _ h1 => h1.dropEnds).modDesign

theorem Kept.guestsOut (h : Kept t s) {d} : Kept t (s.guestsOut d) := h.foldl fun _ _ h1 => .ite h1.modGuest h1

theorem Kept.endRun (h : Kept t s) {d} : Kept t (s.endRun d) := by
  unfold State.endRun
  split
  · exact h
  · extract_lets _ s1 _ stop
    have h1 : Kept t s1 := h.modDesign
    clear_value stop
    split
    exacts [h1.tellStop.stopAt.finishStops, h1]

theorem Kept.dueRepairs (h : Kept t s) {tag} : Kept t (s.dueRepairs tag) := h.modDesign

theorem Kept.commitFrame (h : Kept t s) {d} : Kept t (s.commitFrame d) := by
  unfold State.commitFrame
  extract_lets s1
  have h1 : Kept t s1 := h.transientFault
  split
  next s2 o collected =>
  have h2 : Kept t s2 := h1.collect.of_fst collected
  extract_lets queue s3 s4 s5 s6 s7 s8 s9 s10 s11 s12 s13
  have h5 : Kept t s5 := h2.modDesign.modMode.foldl fun _ _ h => .ite h.modAcq h
  have h7 : Kept t s7 := .ite h5.modDesign (.ite h5.sendTwin.modDesign h5.release)
  have h8 : Kept t s8 := .ite (Kept.designPlain (.ite h7.guestsOut h7)) h7
  have h10 : Kept t s10 := h8.hazardEvents.captureChange
  have h12 : Kept t s12 := (Kept.ite h10.applyInputs.modMode h10).dueRepairs.endRun
  have h13 : Kept t s13 := by
    unfold s13
    split
    · exact .ite (h12.foldl fun _ _ h => h.modHbm) h12
    · exact h12
  exact .ite h13.boundary h13

theorem Kept.pairDiffers (h : Kept t s) {d} : Kept t (s.pairDiffers d) := h.sendTwin.modDesign.frameErr

theorem Keeps.frameCommit (h : Kept t s) {p} : Keeps t (execFrameCommit p s) := by
  unfold execFrameCommit
  refine .next ?_
  split
  · exact h
  · split
    · exact .ite h.commitFrame h
    · split
      · exact h
      · extract_lets s1 s2
        have h1 : Kept t s1 := h.sendSigs
        have h2 : Kept t s2 := h1.flipFrame
        split
        · exact h1.pairDiffers
        · split
          · exact h1
          · split
            · exact h2.foldl fun _ _ h3 => h3.modAcq
            · split
              exacts [h2.commitFrame, h2]

theorem Kept.twinLine (h : Kept t s) {d cab addr} : Kept t (s.twinLine d cab addr) := by
  unfold State.twinLine
  extract_lets _ _
  split
  · exact h
  · split
    · exact h
    · exact h.foldl fun _ _ h1 => h1.modHbm fun w => Memory.wf_writeBytes _ _ w

theorem Kept.twinLasting (h : Kept t s) {d} : Kept t (s.twinLasting d) :=
  .bind (.ite h h.count) fun h1 => .ite h1.fenceOff.modDesign (.bind h1.modMode fun h2 => .bind h2.setSeq fun h3 => h3.modDesign)

theorem Kept.lastingNoted (h : Kept t s) {d e} : Kept t (s.lastingNoted d e) := h.countCab.healthLasting.designEvent

theorem Kept.lastingFault (h : Kept t s) {d e} : Kept t (s.lastingFault d e) := by
  obtain ⟨src, l, place⟩ := e
  unfold State.lastingFault
  dsimp only
  split
  · exact h.lastingNoted.modDesign
  · refine .ite h.lastingNoted.designEvent.modDesign (.lastingStop ?_)
    split
    exacts [h.lastingNoted.designEvent.modCab, h.lastingNoted.designEvent]
  · exact .ite h.lastingNoted.twinLine.modDesign h.lastingNoted.lastingStop
  · exact h.lastingNoted.lastingStop

theorem Kept.pairLasting (h : Kept t s) {d} : Kept t (s.pairLasting d) := .ite h.pairRecurs h.modDesign.setSeq

theorem Kept.retry (h : Kept t s) {d e} : Kept t (s.retry d e) :=
  .ite ((Kept.ite h.lastingNoted h).lastingStop) (.ite h.twinLasting (.ite h.pairLasting (.ite h.lastingFault (.bind (.ite h.modMode h) fun h1 =>
    h1.modDesign))))

theorem Kept.undoLost (h : Kept t s) {d cab bank word} : Kept t (s.undoLost d cab bank word) :=
  .bind h.countCab.designEvent fun h1 => .ite h1.modDesign h1.modDesign.freeNext.lastingStop

theorem Keeps.frameAborted (h : Kept t s) {p undo} : Keeps t (execFrameAborted p undo s) := by
  unfold execFrameAborted
  refine .next ?_
  split
  · exact h
  · split
    · exact h
    · extract_lets s1 s2 lost s3
      have h1 : Kept t s1 := h.designEvent
      have h2 : Kept t s2 := h1.foldl fun _ _ h2 => h2.countCab
      have h3 : Kept t s3 := h2.abortFrame
      clear_value lost
      split
      · exact .bind h3.undoLost fun h4 => .ite h4.retry h4
      · exact h3.retry

/-! ### Operations of Machine/CaptureTrace.lean -/

theorem Keeps.captureStart (h : Kept t s) {r tag} : Keeps t (execCaptureStart r tag s) := by
  unfold execCaptureStart
  refine .next (h.withCmd fun _ _ h1 => ?_)
  split
  exacts [h1.complete, .ite h1.complete (.ite h1.complete h1.modDesign.complete)]

theorem Keeps.captureStop (h : Kept t s) {r tag} : Keeps t (execCaptureStop r tag s) := by
  unfold execCaptureStop
  refine .next (h.withCmd fun _ _ h1 => ?_)
  split
  exacts [h1.complete, .ite h1.modDesign.complete (.ite h1.modDesign.complete h1.complete)]

theorem Kept.setUnit (h : Kept t s) {c d k u'} : Kept t (s.setUnit c d k u') := by
  unfold State.setUnit
  extract_lets _ s1 s2
  have h1 : Kept t s1 := .ite ⟨h.queue, h.clock, h.memory⟩ h
  have h2 : Kept t s2 := h1.modCh
  exact h2.modDesign

theorem Keeps.trigSet (h : Kept t s) {r tag sealedBuf} : Keeps t (execTrigSet r tag sealedBuf s) := by
  unfold execTrigSet
  refine .next (h.withCmd fun _ _ h1 => ?_)
  extract_lets _
  split
  · exact h1.complete
  · split
    · exact h1.complete
    · extract_lets _
      split
      · exact h1.complete
      · split
        · exact h1.complete
        · split
          · exact h1.complete
          · split
            exacts [h1.complete, h1.setUnit.complete]

theorem Keeps.trigClear (h : Kept t s) {r tag} : Keeps t (execTrigClear r tag s) := by
  unfold execTrigClear
  refine .next (h.withCmd fun _ _ h1 => ?_)
  extract_lets _ _
  split
  exacts [h1.complete, .ite h1.modCh.complete h1.complete]

theorem Keeps.probeSet (h : Kept t s) {r tag sealedBuf} : Keeps t (execProbeSet r tag sealedBuf s) := by
  unfold execProbeSet
  refine .next (h.withCmd fun _ _ h1 => ?_)
  extract_lets _
  split
  · exact h1.complete
  · split
    · exact h1.complete
    · split
      · exact h1.complete
      · extract_lets s2
        have h2 : Kept t s2 := h1.foldl fun _ _ h2 => ⟨h2.queue, h2.clock, h2.memory⟩
        exact h2.complete

theorem Kept.dropPins (h : Kept t s) {sel} : Kept t (s.dropPins sel) := ⟨h.queue, h.clock, h.memory⟩

theorem Keeps.modProbeGroupWrite (h : Kept t s) {value} : Keeps t (execModProbeGroupWrite value s) :=
  .next (.ite h (.bind h.setReg fun h1 => h1.dropPins))

theorem Keeps.modProbeTraceWrite (h : Kept t s) {value} : Keeps t (execModProbeTraceWrite value s) :=
  .next (.ite h (.bind h.setReg fun h1 => .ite h1.setReg.dropPins h1))

theorem Keeps.traceSet (h : Kept t s) {r tag sealedBuf} : Keeps t (execTraceSet r tag sealedBuf s) := by
  unfold execTraceSet
  refine .next (h.withCmd fun _ _ h1 => ?_)
  extract_lets _ _ _ _
  split
  · exact h1.complete
  · split
    · exact h1.complete
    · split
      · exact h1.complete
      · split
        · exact h1.complete
        · exact .ite h1.complete (.ite h1.complete (.bind h1.modCh fun h2 => h2.modDesign.complete))

theorem Keeps.traceStop (h : Kept t s) {r tag} : Keeps t (execTraceStop r tag s) := by
  unfold execTraceStop
  refine .next (h.withCmd fun _ _ h1 => ?_)
  extract_lets _
  split
  · exact h1.complete
  · exact .ite (.bind h1.modCh fun h2 => h2.modDesign.complete) h1.complete

theorem Kept.ringFreed (h : Kept t s) {c} : Kept t (s.ringFreed c) := h.modAcq

theorem HbmSt.wf_ringWrite {x : HbmSt} (h : Memory.wf x.mem) {pos data} : Memory.wf (x.ringWrite pos data).mem := by
  have written : ∀ a b l r, Memory.wf ((x.mem.writeBytes a l).writeBytes b r) := fun _ _ _ _ =>
    Memory.wf_writeBytes _ _ (Memory.wf_writeBytes _ _ h)
  unfold HbmSt.ringWrite
  dsimp only
  split
  exacts [written _ _ _ _, written _ _ _ _]

theorem Keeps.captureBlockClose (h : Kept t s) {c design} : Keeps t (execCaptureBlockClose c design s) := by
  unfold execCaptureBlockClose
  refine .next ?_
  extract_lets _ _ _
  split
  · exact h
  · split
    · exact h
    · extract_lets _ _
      split
      · exact h
      · split
        · exact h
        · exact .ite (.ite h h.modAcq.hubEvent) (.bind (h.modHbm fun w => HbmSt.wf_ringWrite w) fun h1 => h1.modAcq.panicCheck)

theorem Kept.bufWrite (h : Kept t s) {base units produced data} : Kept t (s.bufWrite base units produced data) :=
  .bind h.hostWrite fun h1 => .ite h1 h1.hostWrite

theorem Keeps.captureDelivery (h : Kept t s) {c read} : Keeps t (execCaptureDelivery c read s) := by
  unfold execCaptureDelivery
  refine .next ?_
  dsimp only
  refine .ite h ?_
  split
  · exact h
  · refine .bind (.iteFst h.ringMacFailed (.pair h)) fun h1 => .ite h1 (.bind h1.ringNode fun h2 => .ite h2 ?_)
    exact .ringFreed (.modAcq (.bufWrite (.bind (.ite h2.hbmUncorrected h2) fun h3 => .ite h3.captureLost h3)))

theorem Keeps.deliveryChange (h : Kept t s) {c value} : Keeps t (execDeliveryChange c value s) := .next (.ite h (.ite h.setReg h))
theorem Keeps.deliveryModeApplied (h : Kept t s) {c} : Keeps t (execDeliveryModeApplied c s) := .next (.ite h h.modAcq.setReg)

theorem Keeps.acqConsumedWrite (h : Kept t s) {c value} : Keeps t (execAcqConsumedWrite c value s) :=
  .next (.ite h (.ite h (.ite h.hubEvent (.bind h.setReg fun h1 => .ite h1.modAcq.ringFreed h1))))

theorem Keeps.trcConsumedWrite (h : Kept t s) {c value} : Keeps t (execTrcConsumedWrite c value s) :=
  .next (.ite h (.ite h (.ite h.setReg h.hubEvent)))

theorem Kept.sendBlock (h : Kept t s) {c r bytes keys} : Kept t (s.sendBlock c r bytes keys).1 := by
  unfold State.sendBlock
  dsimp only
  split
  exacts [.pair h.modTrc, .iteFst (.pair h.sendOn.modTrc) (.pair h.traceLost), .iteFst (.pair h) (.pair h.bufWrite.modTrc)]

theorem Kept.traceBlock (h : Kept t s) {c key} : Kept t (s.traceBlock c key) := by
  unfold State.traceBlock
  dsimp only
  split
  · exact h
  · split
    exacts [h, .ite h.sendBlock h.sendBlock.modTrc]

theorem Keeps.traceBlockDelivery (h : Kept t s) {c} : Keeps t (execTraceBlockDelivery c s) :=
  .next (.ite h (h.foldl fun _ _ h1 => h1.traceBlock))

theorem Keeps.traceOverflow (h : Kept t s) {c packets} : Keeps t (execTraceOverflow c packets s) := .next h.modTrc.traceLost

end Sys2Proof.Machine
end

section
/-! What every command keeps: loading, repair, recovery, self-test and the fabric of the guests. -/

namespace Sys2Proof.Machine

open Sys2Proof

set_option Elab.async false

variable {t s : State}

/-! ### Operations of Machine/LoadImage.lean -/

theorem Kept.dropSlices (h : Kept t s) {ps} : Kept t (s.dropSlices ps) := h.foldl fun _ _ h1 => h1.foldl fun _ _ h2 => h2.modDie

theorem Kept.fileImages (h : Kept t s) {l} : Kept t (s.fileImages l) :=
  .bind (h.foldl fun _ _ h1 => h1.modHbm) fun h1 => .bind (h1.foldl fun _ _ h2 => h2.modHbm) fun h2 => (h2.foldl fun _ _ h3 =>
    .ite h3.modHutch h3).freeNext

theorem Kept.keepImages (h : Kept t s) {d} : Kept t (s.keepImages d) := by
  unfold State.keepImages
  exact .bind (h.foldl fun _ _ h1 => h1.modHbm) fun h1 => .bind (h1.foldl fun _ _ h2 => h2.modHbm) fun h2 => h2.modHutch.modHutch

theorem Kept.refuseLoad (h : Kept t s) {m f} : Kept t (s.refuseLoad m f) :=
  .bind h.event fun h1 => .bind (h1.foldl fun _ _ h2 => h2.count) fun h2 => h2.completeAt

theorem Keeps.load (h : Kept t s) {r tag image} : Keeps t (execLoad r tag image s) := by
  unfold execLoad
  refine .next (h.withCmd fun _ _ h1 => ?_)
  split
  · exact h1
  · split
    · exact h1.refuseLoad
    · extract_lets s2 _ s3 s4
      have h2 : Kept t s2 := h1.start.modParts
      have h3 : Kept t s3 := h2.modSched
      have h4 : Kept t s4 := h3.fileImages.dropSlices
      exact ⟨h4.queue, h4.clock, h4.memory⟩

theorem Kept.clearCounters (h : Kept t s) {d} : Kept t (s.clearCounters d) := by
  unfold State.clearCounters
  refine h.foldl fun _ _ h1 => ?_
  split
  · exact .bind h1.modFab fun h2 => .bind h2.setReg fun h3 => h3.foldl fun _ _ h4 => h4.setReg.setReg
  · exact h1

theorem Kept.loadDone (h : Kept t s) {p} : Kept t (s.loadDone p) := by
  unfold State.loadDone
  split
  · extract_lets _ s1 s2 s3 s4 s5 s6 s7 s8
    have h1 : Kept t s1 := ⟨h.queue, h.clock, h.memory⟩
    have h2 : Kept t s2 := h1.modParts
    have h3 : Kept t s3 := h2.foldl fun _ _ h3 => h3.modDesignPort
    have h4 : Kept t s4 := h3.keepImages
    have h5 : Kept t s5 := h4.foldl fun _ _ h5 => h5.modGuest
    have h6 : Kept t s6 := h5.clearCounters.sendSlotHome
    have h7 : Kept t s7 := .ite h6.modMode.sendDescriptor h6
    have h8 : Kept t s8 := h7.foldl fun _ _ h8 => h8.count
    split
    exacts [h8.completeAt, h8]
  · exact h

/-! ### Operations of Machine/Repair.lean -/

theorem Kept.retirePart (h : Kept t s) {p} : Kept t (s.retirePart p) :=
  .ite h (.bind h.modPart fun h1 => .bind h1.modDie fun h2 => h2.hubEvent.gradeDown)

theorem Kept.takeSpare (h : Kept t s) {c die n u} (e : s.takeSpare c die = some (n, u)) : Kept t u := by
  unfold State.takeSpare at e
  split at e
  · cases e
  · cases e
    exact h.modDie.modCh

theorem Kept.moveCab (h : Kept t s) {c die idx old new} : Kept t (s.moveCab c die idx old new) :=
  .bind h.modDie fun h1 => .bind h1.modCab fun h2 => h2.modCab

theorem Kept.imageRead (h : Kept t s) {cab x1} : Kept t (s.imageRead cab x1) := by
  unfold State.imageRead
  split
  exacts [.ite h.hbmUncorrected (.ite h.hutchLost h.nodeLost), h]

theorem Kept.imageLost (h : Kept t s) {d} : Kept t (s.imageLost d) := h.lastingStop
theorem Kept.noSpareCab (h : Kept t s) {d l} : Kept t (s.noSpareCab d l) := .bind h.retirePart fun h1 => .ite h1.fenceOff h1.lastingStop

theorem Keeps.cabinetRepaired (h : Kept t s) {cab image} : Keeps t (execCabinetRepaired cab image s) := by
  unfold execCabinetRepaired
  refine .next ?_
  dsimp only
  split
  · exact h
  · refine .ite h ?_
    split
    · split
      · exact h.retirePart
      next taken => exact (h.takeSpare taken).moveCab.hubEvent.spareCheck
    · refine .ite h.imageRead.lastingStop (.ite h.imageRead.imageLost ?_)
      split
      · exact h.imageRead.noSpareCab
      next taken => exact (h.imageRead.takeSpare taken).moveCab.modDesign.designEvent.spareCheck

theorem Keeps.benchSwapped (h : Kept t s) {cab bench image} : Keeps t (execBenchSwapped cab bench image s) := by
  unfold execBenchSwapped
  refine .next ?_
  split
  · exact .bind h.imageRead fun h1 => .ite h1.imageLost (.ite h1.modDesign h1.modCab.modDesign.modDesign.designEvent)
  · exact h

theorem Kept.askCellSwap (h : Kept t s) {d cab bench cell} : Kept t (s.askCellSwap d cab bench cell) := h.modDesign
theorem Kept.reloadDone (h : Kept t s) {c die i pb cell} : Kept t (s.reloadDone c die i pb cell) := h.count.modBench
theorem Kept.reloadTile (h : Kept t s) {d cab bench cell tile} : Kept t (s.reloadTile d cab bench cell tile) := .ite h.modDesign h

theorem Keeps.tileReloaded (h : Kept t s) {cab bench cell image tileOk} : Keeps t (execTileReloaded cab bench cell image tileOk s) := by
  unfold execTileReloaded
  refine .next ?_
  split
  · split
    · exact h
    · exact .bind h.imageRead fun h1 => .ite h1.imageLost (.ite h1.askCellSwap (.bind h1.reloadDone.reloadTile fun h2 => .bind h2.modDesign
        fun h3 => h3.designEvent))
  · exact h

theorem Keeps.cellSwapped (h : Kept t s) {cab bench cell image} : Keeps t (execCellSwapped cab bench cell image s) := by
  unfold execCellSwapped
  refine .next ?_
  dsimp only
  split
  · refine .ite h (.ite h.imageRead.imageLost ?_)
    split
    exacts [h.imageRead.modDesign, h.imageRead.modBench.modDesign.modDesign.designEvent]
  · exact h

theorem Keeps.loadComplete (h : Kept t s) {load} : Keeps t (execLoadComplete load s) := by
  unfold execLoadComplete
  refine .next ?_
  split
  · exact h
  · extract_lets _ _
    split
    · exact h.loadDone
    · exact h.count.loadDone
    · exact h.freeNext.hbmUncorrected.cancelLoad
    · exact h.hubEvent.cancelLoad
    · exact .ite h.loadDone (.bind (.ite h.hutchLost h.freeNext.nodeLost) fun h1 => h1.foldl fun _ _ h2 => h2.cancelLoad)

theorem Keeps.configParityFail (h : Kept t s) {c die cab} : Keeps t (execConfigParityFail c die cab s) := by
  unfold execConfigParityFail
  refine .next ?_
  split
  · exact h
  · extract_lets s1 s2 s3
    have h1 : Kept t s1 := h.modCab
    have h2 : Kept t s2 := h1.count.healthLasting
    have h3 : Kept t s3 := h2.modCab
    split
    · exact h2.spareFailed
    · split
      exacts [h3, .ite h3 h3.dueRepairs]

/-! ### Operations of Machine/Recovery.lean -/

theorem Keeps.twinVerdict (h : Kept t s) {p} : Keeps t (execTwinVerdict p s) := by
  unfold execTwinVerdict
  refine .next ?_
  split
  · exact h
  · split
    · exact h
    · extract_lets bad
      clear_value bad
      split
      exacts [h.modDesign, h.modDesign.frameErr]

theorem Kept.cabFailed (h : Kept t s) {l} : Kept t (s.cabFailed l) := h.countCab.healthLasting

theorem Kept.twinSwap (h : Kept t s) {tag l src u} (e : s.twinSwap tag l src = some u) : Kept t u := by
  unfold State.twinSwap at e
  split at e
  · cases e
  · obtain ⟨⟨n, v⟩, taken, rfl⟩ := Option.map_eq_some_iff.mp e
    exact (h.takeSpare taken).moveCab.modDesign.spareCheck

theorem Kept.twinSwap_getD (h : Kept t s) {tag l src u} (hu : Kept t u) : Kept t ((s.twinSwap tag l src).getD u) := by
  cases e : s.twinSwap tag l src with
  | none => exact hu
  | some v => exact h.twinSwap e

theorem Kept.twinEvent (h : Kept t s) {tag code args} : Kept t (s.twinEvent tag code args) := by
  unfold State.twinEvent
  split
  exacts [h.hostDesignEvent, h]

theorem Kept.decidePair (h : Kept t s) {tag l failA failB} : Kept t (s.decidePair tag l failA failB) := by
  unfold State.decidePair
  extract_lets what s1 s2 s3
  have h1 : Kept t s1 := h.twinEvent
  have h2 : Kept t s2 := .ite h1.cabFailed h1
  have h3 : Kept t s3 := .ite h2.cabFailed h2
  clear_value s3
  refine .ite ?_ (.ite (h3.twinSwap_getD h3.retirePart.fenceOff) (.ite (h3.twinSwap_getD h3.retirePart.fenceOff)
    h3.twinEvent.modMode.modDesign))
  split
  next sa swapped =>
    split
    next sb again => exact (h3.twinSwap swapped).twinSwap again
    · exact (h3.twinSwap swapped).retirePart.fenceOff
  · split
    next sb again => exact (h3.twinSwap again).retirePart.fenceOff
    · exact h3.retirePart.retirePart.stopAt

theorem Kept.repairDone (h : Kept t s) {tag} : Kept t (s.repairDone tag) := by
  unfold State.repairDone
  split
  · exact h
  · exact .ite h.setSeq (.bind h.setSeq fun h1 => h1.modMode)

theorem Kept.twinTested (h : Kept t s) {d ls fails} : Kept t (s.twinTested d ls fails) :=
  .bind h.modDesign fun h1 => .bind (h1.foldl fun _ _ h2 => h2.decidePair) fun h2 => h2.repairDone

theorem Kept.pairTested (h : Kept t s) {d ls fails} : Kept t (s.pairTested d ls fails) :=
  .bind h.modDesign.setSeq fun h1 => .bind (h1.foldl fun _ _ h2 => h2.cabFailed) fun h2 => .ite (.ite h2.runSolo.modDesign h2.leavePair) (.ite
    (.ite h2.leavePair h2.promote) h2.modMode.modDesign)

theorem Kept.reloadCopy (h : Kept t s) {c} : Kept t (s.reloadCopy c) := ⟨h.queue, h.clock, h.memory⟩

/-- What a chain of moves that may run out of spares leaves, when it does not. -/
theorem Kept.foldlBind {α : Type} {l : List α} {f : State → α → Option State} (hf : ∀ s x u, Kept t s → f s x = some u → Kept t u)
    {o : Option State} (ho : ∀ u, o = some u → Kept t u) {u : State} (e : l.foldl (fun o x => o.bind fun s => f s x) o = some u) :
    Kept t u := by
  induction l generalizing o with
  | nil => exact ho u e
  | cons x l ih =>
    refine ih (fun v hv => ?_) e
    obtain ⟨w, found, moved⟩ := Option.bind_eq_some_iff.mp hv
    exact hf w x v (ho w found) moved

theorem Kept.rejoinTest (h : Kept t s) {fails} : Kept t (s.rejoinTest fails) := by
  unfold State.rejoinTest
  dsimp only
  split
  · exact Kept.hostEvent (Kept.modCh h.modMode)
  next u moved =>
    have h1 : Kept t u := by
      refine Kept.foldlBind (fun v l w hv e => ?_) (fun v e => ?_) moved
      · split at e
        · exact hv.cabFailed.twinSwap e
        · cases e
          exact hv
      · cases e
        exact h
    have unqueued : Kept t { u with designs := u.designs.map fun (d : Design) =>
        if d.twin then { d with repairs := d.repairs.filter (fun r => r.1 != 6) } else d } := ⟨h1.queue, h1.clock, h1.memory⟩
    exact unqueued.reloadCopy.modMode.modCh

theorem Keeps.quickSliceTestDone (h : Kept t s) {p fails} : Keeps t (execQuickSliceTestDone p fails s) := by
  unfold execQuickSliceTestDone
  refine .next ?_
  split
  exacts [h, .ite (.ite h.rejoinTest h) (.ite h (.ite h.twinTested (.ite h.pairTested h)))]

theorem Keeps.twinStateCopyDone (h : Kept t s) {p} : Keeps t (execTwinStateCopyDone p s) := by
  unfold execTwinStateCopyDone
  refine .next ?_
  split
  · exact h
  · exact .ite h (.bind h.modDesign fun h1 => h1.repairDone)

theorem Keeps.modTwinRejoin (h : Kept t s) {value} : Keeps t (execModTwinRejoin value s) := .next (.ite h (.ite h h.modMode.modCh))

theorem Keeps.rejoinPrecopyPass (h : Kept t s) {residue} : Keeps t (execRejoinPrecopyPass residue s) :=
  .next (.ite h (.bind h.modMode fun h1 => .ite h1.rejoinFinal h1))

theorem Keeps.modPairReplace (h : Kept t s) {value} : Keeps t (execModPairReplace value s) := by
  unfold execModPairReplace
  refine .next ?_
  split
  · exact h
  · split
    exacts [h, .ite h.modMode.setSeq h]

theorem Keeps.joinPrecopyPass (h : Kept t s) {residue} : Keeps t (execJoinPrecopyPass residue s) := by
  unfold execJoinPrecopyPass
  refine .next ?_
  split
  · exact h
  · exact .ite h (.bind h.modMode fun h1 => .ite h1.joinFinal h1)

theorem Kept.loseReferee (h : Kept t s) {c} : Kept t (s.loseReferee c) := h.modCh

theorem Keeps.refereeLost (h : Kept t s) : Keeps t (execRefereeLost s) :=
  .next (.ite h ((h.modMode.foldl fun _ _ h1 => h1.loseReferee).hostEvent))

theorem Kept.choiceIgnored (h : Kept t s) {c} : Kept t (s.choiceIgnored c) := h.hubEvent.freeNext

theorem Kept.recovery (h : Kept t s) {c f} (hf : ∀ s1, Kept t s1 → Kept t (f s1)) : Kept t (s.recovery c f) :=
  .ite h.choiceIgnored (hf _ h.modCh)

theorem Kept.selfFence (h : Kept t s) {c} : Kept t (s.selfFence c) := h.fenceOff

theorem Keeps.recoveryContinue (h : Kept t s) {c} : Keeps t (execRecoveryContinue c s) :=
  .next (h.recovery fun _ h1 => .ite h1.selfFence ⟨h1.queue, h1.clock, h1.memory⟩)

theorem Keeps.recoveryFence (h : Kept t s) {c} : Keeps t (execRecoveryFence c s) := .next (h.recovery fun _ h1 => h1.selfFence)
theorem Keeps.recoveryStop (h : Kept t s) {c} : Keeps t (execRecoveryStop c s) := .next (h.recovery fun _ h1 => h1.stopWhere)

theorem Keeps.sequencerLost (h : Kept t s) {c} : Keeps t (execSequencerLost c s) := by
  unfold execSequencerLost
  refine .next (.ite h ?_)
  extract_lets s1
  have h1 : Kept t s1 := h.modMode.hostEvent
  split
  exacts [h1.fenceOff, .ite h1.sendTwin.leavePair h1, h1]

theorem Keeps.controllerHeartbeat (h : Kept t s) {who} : Keeps t (execControllerHeartbeat who s) := by
  unfold execControllerHeartbeat
  refine .next ?_
  split
  · exact h.modMode.foldl fun _ _ h1 => h1.modCh
  · exact h.modMode
  · exact h.modMode
  · exact h

theorem Keeps.twinHeartbeatSend (h : Kept t s) {c p} : Keeps t (execTwinHeartbeatSend c p s) := .next (.ite h.sendOn h)

theorem Kept.withTwin (h : Kept t s) {c m f} (hf : ∀ s1, Kept t s1 → Kept t (f s1)) :
    Kept t (s.withTwin c m f) := h.withMsgOn fun _ _ _ h2 => hf _ h2

theorem Kept.twinHeard (h : Kept t s) : Kept t s.twinHeard := h.modMode

theorem Keeps.twinHeartbeat (h : Kept t s) {c p} : Keeps t (execTwinHeartbeat c p s) :=
  .next (.ite (h.withMsg fun _ _ h1 => .ite h1.twinHeard h1) h)

theorem Kept.startPartner (h : Kept t s) {frame} : Kept t (s.startPartner frame) := by
  unfold State.startPartner
  split
  exacts [h, .ite h.setDesignState.modDesign h]

theorem Keeps.twinSignature (h : Kept t s) {c frame first sigs} : Keeps t (execTwinSignature c frame first sigs s) :=
  .next (h.withTwin fun _ h1 => .ite (.bind h1.twinHeard.modMode fun h2 => h2.startPartner) h1)

theorem Keeps.twinInput (h : Kept t s) {c frame port kind writes} : Keeps t (execTwinInput c frame port kind writes s) := by
  unfold execTwinInput
  refine .next ?_
  refine h.withTwin fun _ h1 => ?_
  split
  · extract_lets s2
    have h2 : Kept t s2 := h1.twinHeard
    split
    exacts [h2, .ite h2.applyInput h2.modMode]
  · exact h1

theorem Kept.primaryTests (h : Kept t s) {mask} : Kept t (s.primaryTests mask) := by
  unfold State.primaryTests
  extract_lets _
  split
  exacts [h, .ite h.pairRecurs h.modDesign.setSeq]

theorem Keeps.confirm (h : Kept t s) {c frame mask} : Keeps t (execConfirm c frame mask s) := by
  unfold execConfirm
  refine .next ?_
  refine h.withTwin fun _ h1 => ?_
  split
  · extract_lets s2 s3
    have h2 : Kept t s2 := h1.twinHeard
    have h3 : Kept t s3 := h2.modMode
    split
    · split
      exacts [h3, h3.releaseQueue]
    · exact .ite h2.primaryTests h2.modMode
  · exact h1

theorem Kept.otherLost (h : Kept t s) {cause} : Kept t (s.otherLost cause) := .ite h (.ite h.promote h.runSolo)
theorem Keeps.twinFault (h : Kept t s) {c} : Keeps t (execTwinFault c s) := .next (h.withTwin fun _ h1 => h1.twinHeard.otherLost)
theorem Keeps.partnerLost (h : Kept t s) : Keeps t (execPartnerLost s) := .next (.ite h.otherLost h)

theorem Kept.putState (h : Kept t s) {tag a b} : Kept t (s.putState tag a b) := by
  unfold State.putState
  extract_lets _
  split
  · exact h.modDesign
  · exact h.modDesign
  · split
    · exact h.modHbm fun w => Memory.wf_write _ _ w
    · exact h
  · exact h.modDesign
  · exact h

theorem Kept.becomePartner (h : Kept t s) {d frame} : Kept t (s.becomePartner d frame) :=
  .bind h.modMode fun h1 => .bind h1.modDesign fun h2 => h2.setDesignState

theorem Keeps.twinState (h : Kept t s) {c frame offset data} : Keeps t (execTwinState c frame offset data s) := by
  unfold execTwinState
  refine .next ?_
  refine h.withTwin fun _ h1 => ?_
  split
  · exact h1
  · extract_lets s2 news s3
    have h2 : Kept t s2 := h1.twinHeard
    have h3 : Kept t s3 := h2.modMode
    split
    · clear_value news
      split
      exacts [h3.sendDescriptor.modMode, h3]
    · split
      · exact h2
      · exact .ite h2 (.bind (h2.foldl fun _ _ h4 => h4.putState) fun h4 => .ite h4.becomePartner h4)

theorem Keeps.pairPrimary (h : Kept t s) {src member} : Keeps t (execPairPrimary src member s) :=
  .next (h.withMsgOn fun _ _ _ h1 => h1.modMode)

theorem Keeps.stopAt (h : Kept t s) {c src frame} : Keeps t (execStopAt c src frame s) :=
  .next (h.withMsgOn fun _ _ _ h1 => h1.foldl fun _ _ h2 => .ite (.ite h2.stopAt.finishStops h2.modDesign) h2)

/-! ### Operations of Machine/SelfTest.lean -/

theorem Kept.startSlice (h : Kept t s) {c die} : Kept t (s.startSlice c die) := by
  unfold State.startSlice
  extract_lets _
  split
  · exact h
  · split
    exacts [h, h.modDie]

theorem Keeps.sliceStart (h : Kept t s) {c die} : Keeps t (execSliceStart c die s) := .next h.startSlice
theorem Kept.dropSlice (h : Kept t s) {c die} : Kept t (s.dropSlice c die) := h.modDie

theorem Keeps.slicePreloadDone (h : Kept t s) {c spare} : Keeps t (execSlicePreloadDone c spare s) := by
  unfold execSlicePreloadDone
  refine .next ?_
  split
  · split
    · extract_lets _ s1
      have h1 : Kept t s1 := h.imageRead
      split
      exacts [h.dropSlice, .ite h1.dropSlice.imageLost h1.modDie]
    · exact h

theorem Keeps.sliceSwap (h : Kept t s) {c die holdNs} : Keeps t (execSliceSwap c die holdNs s) := by
  unfold execSliceSwap
  refine .next ?_
  split
  · extract_lets _ d _
    split
    · exact h
    · extract_lets _ s1 s2 s3 s4
      have h1 : Kept t s1 := h.modDie
      have h2 : Kept t s2 := .ite h1.modCh h1
      have h3 : Kept t s3 := by
        unfold s3
        clear_value d
        split
        exacts [h2.modDesign, h2]
      have h4 : Kept t s4 := h3.modCab
      exact .ite h (.ite h.dropSlice h4.modCab)
  · exact h

theorem Keeps.cabinetTestDone (h : Kept t s) {c die obs} : Keeps t (execCabinetTestDone c die obs s) := by
  unfold execCabinetTestDone
  refine .next ?_
  split
  · extract_lets x _ _ s1 _ s2 s3 fin s4 s5
    have h1 : Kept t s1 := h.modCab
    have h3 : Kept t s3 := (Kept.ite h1.hubEvent h1).count
    have done : ∀ u, Kept t u → Kept t (fin u) := fun _ h => h.modDie
    have h5 : Kept t s5 := by
      unfold s5
      split
      exacts [h3.modCab.count.designEvent, h3.modCab.count.hubEvent]
    exact .ite (done _ h5).spareFailed (done _ h3.modCab.modDie)
  · exact h

theorem Kept.bstWrite (h : Kept t s) {c value} : Kept t (s.bstWrite c value) :=
  .bind h.storeBits fun h1 => .ite h1 (h1.foldl fun _ _ h2 => h2.modDie)

theorem Keeps.sliceNow (h : Kept t s) {c value} : Keeps t (execSliceNow c value s) :=
  .next (.ite h (.ite h.timedOut (.bind h.bstWrite fun h1 => .ite h1.startSlice.startSlice h1)))

theorem Keeps.patrolRestart (h : Kept t s) {c value} : Keeps t (execPatrolRestart c value s) := .next (.ite h (.ite h.timedOut h.bstWrite))

theorem Keeps.wireRotation (h : Kept t s) {c link} : Keeps t (execWireRotation c link s) := by
  unfold execWireRotation
  refine .next ?_
  extract_lets _ _
  split
  · exact h
  · split
    exacts [h, h.modFlink]

theorem Keeps.wireTestDone (h : Kept t s) {c link passed} : Keeps t (execWireTestDone c link passed s) := by
  unfold execWireTestDone
  refine .next ?_
  split
  · exact h
  · exact .bind h.modFlink fun h1 => .ite h1.modFlink (.bind h1.modFlink fun h2 => .bind h2.count.hubEvent fun h3 => .ite (h3.foldl fun _ _ h4 =>
      h4.retirePart) h3)

theorem Kept.swapIdleCell (h : Kept t s) {c die i bench cell} : Kept t (s.swapIdleCell c die i bench cell) := by
  unfold State.swapIdleCell
  extract_lets _
  split
  · exact h
  · split
    · exact h.modBench.hubEvent
    · split
      · exact h.modCab.hubEvent
      · split
        exacts [h.modCab, h.modCab.spareFailed]

theorem Kept.patrolTile (h : Kept t s) {c die o} : Kept t (s.patrolTile c die o) := by
  unfold State.patrolTile
  extract_lets s1 _ _ _ _ _
  have h1 : Kept t s1 := h.count
  split
  · exact h1
  · split
    · exact .ite h1.count.designEvent (.ite h1.imageRead.imageLost (.bind h1.imageRead fun h2 => .ite h2.reloadDone.designEvent h2.askCellSwap))
    · exact .ite h1.count.hubEvent (.ite h1.reloadDone.hubEvent (.ite h1.modBench h1.swapIdleCell))

theorem Keeps.patrolPass (h : Kept t s) {c die bad disagreements} : Keeps t (execPatrolPass c die bad disagreements s) :=
  .next (.ite h (.bind (h.foldl fun _ _ h1 => h1.patrolTile) fun h1 => .bind h1.countBy fun h2 => .bind h2.modDie fun h3 =>
    .ite h3.modDie.hubEvent h3))

theorem Keeps.storeBlockRetired (h : Kept t s) {store block} : Keeps t (execStoreBlockRetired store block s) := by
  unfold execStoreBlockRetired
  refine .next ?_
  extract_lets _ ev
  have told : ∀ u, Kept t u → Kept t (ev u) := fun _ h => .ite h.event h.event
  exact .ite h (.ite (told _ ⟨h.queue, h.clock, h.memory⟩) (told _ h.modCh))

/-! ### Operations of Machine/FabricGuest.lean -/

theorem Kept.loseTag (h : Kept t s) {c tag} : Kept t (s.loseTag c tag) := by
  unfold State.loseTag
  split
  exacts [h, .ite h.frameErr h]

theorem Kept.loseEngine (h : Kept t s) {c flit} : Kept t (s.loseEngine c flit) := h.foldl fun _ _ h1 => .ite h1.modSched h1

theorem Kept.loseFlits (h : Kept t s) {c l} : Kept t (s.loseFlits c l) :=
  .bind (h.foldl fun _ _ h1 => h1.loseTag) fun h1 => h1.foldl fun _ _ h2 => .ite h2 h2.loseEngine

theorem Kept.partCut (h : Kept t s) {c die p} : Kept t (s.partCut c die p) := by
  unfold State.partCut
  extract_lets _ s1
  have h1 : Kept t s1 := by
    unfold s1
    split
    exacts [h, .ite h.fenceOff h.lastingStop]
  exact h1.retirePart

theorem Kept.hostLinkDown (h : Kept t s) {c} : Kept t (s.hostLinkDown c) :=
  .bind (h.foldl fun _ _ h1 => .ite h1.lastingStop h1) fun h1 => .ite h1.fenceOff h1

theorem Kept.rerouted (h : Kept t s) {c} : Kept t (s.rerouted c) := h.modFab

theorem Kept.linkFails (h : Kept t s) {c link} : Kept t (s.linkFails c link) :=
  .bind (h.foldl fun _ _ h1 => h1.modFlink) fun h1 => .bind h1.modFab fun h2 => .bind h2.hubEvent fun h3 => .bind h3.loseFlits fun h4 => .bind
    (.ite (.ite h4.partCut h4) (.ite h4.hostLinkDown (.ite h4.modGuest (.ite (h4.foldl fun _ _ h5 => h5.retirePart) h4)))) fun h5 =>
      h5.rerouted.fabSettle

theorem Kept.flitFailed (h : Kept t s) {c link} : Kept t (s.flitFailed c link) :=
  .bind h.count fun h1 => .ite h1.modFlink (.ite h1.linkFails (.bind h1.count.modFlink fun h2 => h2.foldl fun _ _ h3 => h3.modFlink))

theorem Kept.checkOver (h : Kept t s) {c link} : Kept t (s.checkOver c link) := h.modFlink

theorem Kept.linkCode (h : Kept t s) {c link w} : Kept t (s.linkCode c link w) :=
  .ite h.modFlink (.bind (.ite h.freeNext h) fun h1 => h1.modFlink.checkOver)

theorem Kept.takeBody (h : Kept t s) {c k x flit} : Kept t (s.takeBody c k x flit) :=
  .ite (.bind h.count fun h1 => h1.modFab.modFlink) h.modFab

theorem Kept.flitPassed (h : Kept t s) {c link flit} : Kept t (s.flitPassed c link flit) := by
  unfold State.flitPassed
  extract_lets _ _ s1
  have h1 : Kept t s1 := h.count.modFlink
  split
  exacts [h.takeBody.fabSettle, .ite h.modFlink.fabSettle (.ite h1.modFab.fabSettle (.ite h.linkCode.fabSettle h.enter.fabSettle))]

theorem Kept.guestFlit (h : Kept t s) {c flit} : Kept t (s.guestFlit c flit) := .ite (.ite h.count h.linkCode) (.ite h.modGuest h.count)

theorem Kept.takeFlit (h : Kept t s) {c link flit parity} : Kept t (s.takeFlit c link flit parity) :=
  .ite (.ite h.linkCode h) (.ite h.flitFailed (.ite h.modFlink (.bind (.ite h.count h) fun h1 => .bind h1.modFlink fun h2 =>
    .ite h2.guestFlit h2.flitPassed)))

theorem Keeps.flitReceive (h : Kept t s) {c link flit side} : Keeps t (execFlitReceive c link flit side s) :=
  .next (.ite h (.bind (.ite h.modFlink.checkOver.modFab h) fun h1 => .bind (.ite h1 (.ite h1.takeFlit (.ite
    (.ite h1 h1.modFlink) h1.modFlink))) fun h2 => h2.fabSettle))

theorem Keeps.laneCheckDone (h : Kept t s) {c link failed side} : Keeps t (execLaneCheckDone c link failed side s) :=
  .next (.ite h (.ite h.linkFails (.bind h.modFlink fun h1 => .bind h1.checkOver fun h2 => .bind (.ite h2 h2.hubEvent) fun h3 => .ite
    (h3.foldl fun _ _ h4 => h4.retirePart) h3)))

theorem Keeps.guestRailsWrite (h : Kept t s) {c value} : Keeps t (execGuestRailsWrite c value s) :=
  .next (.ite h (.ite h (.bind h.setReg fun h1 => .ite h1.hubEvent (.ite (.ite h1 h1.modGuest.linkUpAgain) h1.modGuest))))

theorem Keeps.guestRailFault (h : Kept t s) {c current} : Keeps t (execGuestRailFault c current s) :=
  .next (.ite h (.bind h.modGuest fun h1 => h1.hubEvent))

theorem Keeps.guestPulses (h : Kept t s) {c} : Keeps t (execGuestPulses c s) := .next (.ite h h.modGuest)

theorem Kept.sendGuestOut (h : Kept t s) {c payload} : Kept t (s.sendGuestOut c payload) := by
  unfold State.sendGuestOut
  split
  · exact h
  · exact h.foldl fun _ _ h1 => h1.sendOuter

theorem Keeps.goutReceive (h : Kept t s) {c payload} : Keeps t (execGoutReceive c payload s) := by
  unfold execGoutReceive
  refine .next ?_
  extract_lets _ _
  split
  · exact h
  · exact .ite h (.bind h.modGuest fun h1 => .ite h1 (.bind h1.modGuest.sendGuestOut fun h2 => .ite h2.modGuest h2))

theorem Keeps.guestResetOutputs (h : Kept t s) {c payload} : Keeps t (execGuestResetOutputs c payload s) := by
  unfold execGuestResetOutputs
  refine .next ?_
  extract_lets _
  split
  · exact h
  · exact .ite h (.bind h.modGuest fun h1 => .ite h1 h1.modGuest.sendGuestOut)

theorem Keeps.guestLate (h : Kept t s) {c} : Keeps t (execGuestLate c s) := .next (.ite h h.modGuest.hubEvent)

end Sys2Proof.Machine
end

section
/-! What every command keeps: the links, their messages and the work items. -/

namespace Sys2Proof.Machine

open Sys2Proof

set_option Elab.async false

variable {t s : State}

/-! ### Operations of Machine/Lanes.lean -/

theorem Kept.portUp (h : Kept t s) {c p} : Kept t (s.portUp c p) :=
  .bind (h.withRoutes fun _ h1 => h1.modPort) fun h1 => .bind (.ite h1.modPort.sendCtl h1) fun h2 => .bind h2.flushPort.chainOn fun h3 =>
    .ite h3 h3.sendHello

theorem Kept.portLocks (h : Kept t s) {c p} : Kept t (s.portLocks c p) := .ite h.modPort h

theorem Kept.portLoss (h : Kept t s) {c p cause} : Kept t (s.portLoss c p cause) :=
  .ite (.bind (h.withRoutes fun _ h1 => h1.modPort) fun h1 => .bind (.ite h1.hubEvent.sendFault h1) fun h2 => h2.portLocks) h

theorem Kept.laneFailed (h : Kept t s) {c lane cause} : Kept t (s.laneFailed c lane cause) := h.modLane.hubEvent

theorem Kept.fallBack (h : Kept t s) {c p hint} : Kept t (s.fallBack c p hint) := by
  unfold State.fallBack
  extract_lets _ _ s1 _ half
  have h1 : Kept t s1 := h.foldl fun _ _ h1 => h1.laneFailed
  clear_value half
  split
  · exact .bind h1.modPort fun h2 => h2.hubEvent.portLocks
  · exact ((h1.withRoutes fun _ h2 => h2.modPort).loseTraffic).hubEvent

theorem Kept.askSpare (h : Kept t s) {c p i k} : Kept t (s.askSpare c p i k) := .bind h.modLane fun h1 => h1.modPort

theorem Kept.repairLane (h : Kept t s) {c p i} : Kept t (s.repairLane c p i) := by
  unfold State.repairLane
  split
  exacts [h.askSpare, h.laneFailed.fallBack]

theorem Kept.laneLost (h : Kept t s) {c p i} : Kept t (s.laneLost c p i) := by
  unfold State.laneLost
  extract_lets _
  split
  exacts [h.repairLane, .ite h.modPort.repairLane (.ite h.repairLane h.modPort)]

theorem Kept.nextHealth (h : Kept t s) {c p} : Kept t (s.nextHealth c p) := by
  unfold State.nextHealth
  extract_lets _
  split
  exacts [h.modPort.askSpare, h.modPort]

theorem Kept.swapDone (h : Kept t s) {c p} : Kept t (s.swapDone c p) := by
  unfold State.swapDone
  extract_lets s1 _
  have h1 : Kept t s1 := .ite h h.nextHealth
  split
  exacts [h1.modPort.repairLane, h1]

theorem Kept.dropLanes (h : Kept t s) {c p} : Kept t (s.dropLanes c p) := h.foldl fun _ _ h1 => h1.modLane

theorem Kept.endTest (h : Kept t s) {c p} : Kept t (s.endTest c p) := by
  unfold State.endTest
  split
  exacts [h.modLane.modPort, h]

theorem Kept.portCtrl (h : Kept t s) {c p value} : Kept t (s.portCtrl c p value) :=
  .bind h.setReg fun h1 => .ite h1 (.ite (.bind h1.sendFault.loseTraffic.endTest fun h2 => (h2.withRoutes fun _ h3 => h3.modPort).dropLanes)
    (.ite h1.modPort.portLocks (.ite (.bind (h1.sendFault.endTest.withRoutes fun _ h2 => h2.modPort) fun h2 => h2.dropLanes) h1)))

theorem Keeps.portEnable (h : Kept t s) {c p value} : Keeps t (execPortEnable c p value s) := .next (.ite h (.ite h.portCtrl h))
theorem Keeps.portDisable (h : Kept t s) {c p value} : Keeps t (execPortDisable c p value s) := .next (.ite h (.ite h.portCtrl h))
theorem Keeps.portRateChange (h : Kept t s) {c p value} : Keeps t (execPortRateChange c p value s) := .next (.ite h (.ite h.portCtrl h))
theorem Keeps.laneCdrLock (h : Kept t s) {c lane} : Keeps t (execLaneCdrLock c lane s) := .next (.ite h.modLane h)

theorem Keeps.laneBlockLock (h : Kept t s) {c lane} : Keeps t (execLaneBlockLock c lane s) := by
  unfold execLaneBlockLock
  refine .next ?_
  split
  · split
    · extract_lets s1
      have h1 : Kept t s1 := h.countBy.modLane
      split
      exacts [h1.portLocks, h1]
    · exact h

theorem Keeps.laneLockLost (h : Kept t s) {c lane cdr} : Keeps t (execLaneLockLost c lane cdr s) := by
  unfold execLaneLockLost
  refine .next ?_
  split
  · extract_lets _ s1 s2
    have h1 : Kept t s1 := h.modLane
    have h2 : Kept t s2 := h1.countBy
    split
    · exact h
    · split
      · exact h2
      · exact .ite h2 (.bind h2.portLoss fun h3 => .ite (.ite h3 h3.laneLost) h3)

theorem Keeps.laneNoSignal (h : Kept t s) {c lane} : Keeps t (execLaneNoSignal c lane s) := .next (.ite h.modLane h)

theorem Kept.deskew (h : Kept t s) {c p ams} : Kept t (s.deskew c p ams) := by
  unfold State.deskew
  extract_lets _ _ got _ s1
  have h1 : Kept t s1 := h.modCh
  clear_value got
  split
  exacts [h, .ite h1.modPort h]

theorem Kept.checkAms (h : Kept t s) {c p ams} : Kept t (s.checkAms c p ams) := .bind h.modPort fun h1 => .ite h1.portLoss h1

theorem Kept.spareRequest (h : Kept t s) {c p a} : Kept t (s.spareRequest c p a) :=
  .ite h.modPort (.ite (.ite (.ite h.modCh.modPort h) h.modPort) h)

theorem Kept.heedAm (h : Kept t s) {c p a ls} : Kept t (s.heedAm c p a ls) :=
  .bind h.modPort fun h1 => .bind h1.spareRequest fun h2 => .ite h2.modPort.hubEvent h2

theorem Keeps.amReceive (h : Kept t s) {c p ams} : Keeps t (execAmReceive c p ams s) := by
  unfold execAmReceive
  refine .next ?_
  extract_lets _ valid s1 _ good s2 s3 _
  have h1 : Kept t s1 := by
    unfold s1
    clear_value valid
    split
    exacts [h.modPort, h]
  have h2 : Kept t s2 := by
    unfold s2
    clear_value good
    split
    exacts [h1.heedAm, h1]
  have h3 : Kept t s3 := h2.checkAms
  exact .ite h (.ite h2.deskew (.ite h3 (.ite h3.portLoss (.ite h3.portUp h3))))

theorem Kept.sendAm (h : Kept t s) {c p} : Kept t (s.sendAm c p) := .bind h.modPort.sendBlocks fun h1 => .ite h1.swapDone h1
theorem Keeps.amSend (h : Kept t s) {c p} : Keeps t (execAmSend c p s) := .next (.ite h.sendAm h)

theorem Keeps.fillSend (h : Kept t s) {c column} : Keeps t (execFillSend c column s) := by
  unfold execFillSend
  refine .next ?_
  split
  · exact .ite (.bind (.ite h.sendAm h) fun h1 => h1.modPort.wholeColumn) h

theorem Keeps.spareAssignWrite (h : Kept t s) {c value} : Keeps t (execSpareAssignWrite c value s) :=
  .next (.ite h (.ite h (.bind h.setReg fun h1 => h1.foldl fun _ _ h2 => h2.hubEvent)))

theorem Kept.takeLane (h : Kept t s) {c p i k} : Kept t (s.takeLane c p i k) := h.modCh.modPort

theorem Keeps.spareSwitch (h : Kept t s) {c p agree} : Keeps t (execSpareSwitch c p agree s) := by
  unfold execSpareSwitch
  refine .next ?_
  extract_lets _
  split
  · exact h
  · exact .ite h (.ite (.ite h.modPort.swapDone h.takeLane.laneFailed.modPort) (.ite h (.bind h.takeLane fun h1 =>
      .ite h1.laneFailed.portLocks h1.modLane.modPort)))

theorem Keeps.laneRotation (h : Kept t s) {c p} : Keeps t (execLaneRotation c p s) := by
  unfold execLaneRotation
  refine .next ?_
  extract_lets _
  split
  · exact h
  · split
    exacts [h.modPort, h]

theorem Keeps.rotationTestDone (h : Kept t s) {c p mismatches h' mv} : Keeps t (execRotationTestDone c p mismatches h' mv s) := by
  unfold execRotationTestDone
  refine .next ?_
  split
  · exact h
  · exact .bind h.modPort.modLane fun h1 => .ite h1 h1.laneFailed

theorem Keeps.eyeScanStart (h : Kept t s) {c value} : Keeps t (execEyeScanStart c value s) :=
  .next (.ite h (.ite h (.bind h.setReg fun h1 => .ite h1.modCh h1)))

theorem Keeps.eyeScanDone (h : Kept t s) {c h' v} : Keeps t (execEyeScanDone c h' v s) := .next (.ite h.modCh h)

/-! ### Operations of Machine/LinkTraffic.lean -/

theorem Kept.dropRecords (h : Kept t s) {c ms} : Kept t (s.dropRecords c ms) := by
  unfold State.dropRecords
  exact .bind (h.foldl fun _ _ h1 => h1.modDesign) fun h1 => h1.modHbm

theorem Kept.portAttacked (h : Kept t s) {c p ds} : Kept t (s.portAttacked c p ds) := .bind h.portCtrl.hubEvent fun h1 => h1.stopWhere
theorem Kept.linkNak (h : Kept t s) {c p} : Kept t (s.linkNak c p) := .ite h (.bind h.dropRecords fun h1 => h1.count.modPort.sendCtl)

theorem Kept.sealFailed (h : Kept t s) {c p} : Kept t (s.sealFailed c p) :=
  .bind h.count.alarm fun h1 => .bind (h1.foldl fun _ _ h2 => h2.frameErr) fun h2 => .bind h2.dropRecords.modPort fun h3 =>
    .ite h3.portAttacked h3.linkNak

theorem Kept.sealPassed (h : Kept t s) {c p} : Kept t (s.sealPassed c p) := h.modHbm.modPort

theorem Keeps.macVerdict (h : Kept t s) {c k pass} : Keeps t (execMacVerdict c k pass s) := by
  unfold execMacVerdict
  refine .next ?_
  split
  · exact h
  · split
    · exact .ite h.sealPassed h.sealFailed
    · exact .bind h.modHbm fun h1 => .ite h1.modHbm h1.macFailed

theorem Kept.readBlocks (h : Kept t s) {c l} : Kept t (s.readBlocks c l).1 := by
  induction l generalizing s with
  | nil => exact h
  | cons e l ih => exact ih (.ite h.modLane.count h.modLane)

theorem Kept.hearTest (h : Kept t s) {c lane b} : Kept t (s.hearTest c lane b) := by
  unfold State.hearTest
  split
  · exact .bind h.modLane fun h1 => .ite h1.count h1
  · exact h.modLane
  · exact h

theorem Kept.hearFill (h : Kept t s) {c p} : Kept t (s.hearFill c p) := h.modPort.freeNext

theorem Kept.hearControl (h : Kept t s) {c p bs} : Kept t (s.hearControl c p bs) := by
  unfold State.hearControl
  split
  exacts [.ite h.modPort h, .ite h.hearFill h, h]

theorem Kept.countAck (h : Kept t s) {c p} : Kept t (s.countAck c p) := .bind h.modPort fun h1 => .ite h1.sendCtl h1

theorem Kept.outOfTraffic (h : Kept t s) {c p} : Kept t (s.outOfTraffic c p) :=
  .bind (h.withRoutes fun _ h1 => h1.modPort) fun h1 => h1.loseTraffic.hubEvent

theorem Kept.healthCheck (h : Kept t s) {c p slot} : Kept t (s.healthCheck c p slot) := by
  unfold State.healthCheck
  extract_lets _ s1
  have h1 : Kept t s1 := h.modPort
  split
  exacts [h1.fallBack, h1.modPort.askSpare]

theorem Kept.linkFlitBad (h : Kept t s) {c p slot} : Kept t (s.linkFlitBad c p slot) :=
  .bind h.modPort fun h1 => .bind h1.linkNak fun h2 => .ite h2 (.ite h2.outOfTraffic h2.healthCheck)

theorem Kept.takeSeal (h : Kept t s) {c p w} : Kept t (s.takeSeal c p w) :=
  .ite (.bind h.modPort fun h1 => h1.arrive.sealPassed) h.sealFailed

theorem Kept.takeData (h : Kept t s) {c p f} : Kept t (s.takeData c p f) := .ite h.modPort h.modPort.arrive

theorem Kept.hearFlit (h : Kept t s) {c p slot flit} : Kept t (s.hearFlit c p slot flit) :=
  .ite h.linkFlitBad (.bind h.modPort fun h1 => .ite h1.linkNak (.bind h1.modPort fun h2 => .bind (.ite (.ite h2.takeSeal h2) h2.takeData)
    fun h3 => .ite h3 h3.countAck))

theorem Keeps.linkFlitReceive (h : Kept t s) {c p arrived} : Keeps t (execLinkFlitReceive c p arrived s) := by
  unfold execLinkFlitReceive
  refine .next ?_
  split
  · split
    · exact h
    · extract_lets _ p1
      have h1 : Kept t p1.1 := h.readBlocks
      split
      · exact h1.hearTest
      · split
        exacts [h1.hearControl, .ite h1 (.ite h h1.hearFlit)]

theorem Kept.takeCtl (h : Kept t s) {c p w} : Kept t (s.takeCtl c p w) :=
  .bind h.modPort fun h1 => .bind (.ite h1.resend h1) fun h2 => h2.flushPort.chainOn

theorem Keeps.linkctlReceive (h : Kept t s) {c p arrived} : Keeps t (execLinkctlReceive c p arrived s) := by
  unfold execLinkctlReceive
  refine .next ?_
  split
  · split
    · exact h
    · extract_lets p1 _
      have h1 : Kept t p1.1 := h.readBlocks
      split
      exacts [h, .ite h (.ite h1 h1.takeCtl)]

theorem Keeps.ackTimer (h : Kept t s) {c p} : Keeps t (execAckTimer c p s) := .next (.ite h h.sendCtl)
theorem Keeps.nakRepeat (h : Kept t s) {c p} : Keeps t (execNakRepeat c p s) := .next (.ite h h.count.modPort.sendCtl)
theorem Keeps.groupClose (h : Kept t s) {c p} : Keeps t (execGroupClose c p s) := .next (.ite h h.closeGroup)

theorem Keeps.messageForward (h : Kept t s) {c p dst src type ttl flits} : Keeps t (execMessageForward c p dst src type ttl flits s) := by
  unfold execMessageForward
  refine .next ?_
  split
  · exact h
  · exact .ite h (.bind h.takeOut fun h1 => .ite h1.count (h1.foldl fun _ _ h2 => h2.sendOn))

theorem Kept.takeRecord {p : State × Bool} (h : Kept t p.1) {c port src frame sure r} :
    Kept t (s.takeRecord c port src frame sure p r).1 := by
  obtain ⟨u, stale⟩ := p
  unfold State.takeRecord
  dsimp only
  split
  · exact .pair (Kept.count h)
  · refine .iteFst (.pair (Kept.count h)) (.iteFst (.pair (Kept.count h)) (.iteFst (.pair h) (.pair ?_)))
    exact .bind (Kept.sendOuter (Kept.modDesign h)) fun h1 => .ite h1 h1.modHbm

theorem Kept.takeValue (h : Kept t s) {c p src frame recs sure} : Kept t (s.takeValue c p src frame recs sure) :=
  .bind (.foldlFst (.pair h) fun _ _ h1 => h1.takeRecord) fun h1 => .ite h1.hubEvent h1

theorem Keeps.valueMessageReceive (h : Kept t s) {c p src frame recs} : Keeps t (execValueMessageReceive c p src frame recs s) := by
  unfold execValueMessageReceive
  refine .next ?_
  extract_lets _
  split
  · exact h
  · split
    · exact h.withMsg fun _ _ h1 => h1.takeValue
    · split
      exacts [.ite h.modPort.takeValue h, h]

theorem Keeps.slotHome (h : Kept t s) {c src map} : Keeps t (execSlotHome c src map s) :=
  .next (h.withMsgOn fun _ _ _ h1 => h1.foldl fun _ _ h2 => .bind h2.modLink fun h3 => h3.foldl fun _ _ h4 => h4.sendRecs)

theorem Keeps.slotHomeTimer (h : Kept t s) {c} : Keeps t (execSlotHomeTimer c s) := .next (h.foldl fun _ _ h1 => .ite h1.sendSlotHome h1)
theorem Kept.memAnswer (h : Kept t s) {c m op st data} : Kept t (s.memAnswer c m op st data) := h.sendTo

theorem Kept.memWrite (h : Kept t s) {c m d gs} : Kept t (s.memWrite c m d gs) :=
  .bind (h.foldl fun _ _ h1 => h1.hubMem.commitWrite) fun h1 => .bind (.ite h1.sendTwin h1) fun h2 => h2.memAnswer

theorem Kept.serveMem (h : Kept t s) {c} : Kept t (s.serveMem c) := by
  unfold State.serveMem
  extract_lets _ _ s1
  have h1 : Kept t s1 := h.modLink
  refine h1.foldl fun _ _ h2 => ?_
  split
  exacts [h2.memWrite, h2.memAnswer]

theorem Keeps.memMessageReceive (h : Kept t s) {c p m} : Keeps t (execMemMessageReceive c p m s) := by
  unfold execMemMessageReceive
  refine .next ?_
  split
  · exact h
  · refine h.withMsg fun _ _ h1 => ?_
    split
    · split
      · exact h1.memAnswer
      · split
        · exact h1.memAnswer
        · exact .bind h1.hubMem fun h2 => .ite h2.hbmUncorrected.memAnswer (.ite h2.memAnswer h2.memAnswer)
    · split
      exacts [h1.memAnswer, .ite h1.modLink h1.memWrite]
    · split
      exacts [h1, h1.modLink.completeTag]
    · split
      exacts [h1, h1.modLink.completeTag]
    · exact h1

theorem Keeps.memTimeout (h : Kept t s) {c tag} : Keeps t (execMemTimeout c tag s) := by
  unfold execMemTimeout
  refine .next ?_
  split
  exacts [h, h.modLink.completeTag]

theorem Kept.startAuth (h : Kept t s) {c p} : Kept t (s.startAuth c p) := h.modPort.sendOn.freeNext

theorem Keeps.hello (h : Kept t s) {c p remotePort remoteCh remoteModule hash} :
    Keeps t (execHello c p remotePort remoteCh remoteModule hash s) :=
  .next (.ite h (h.withMsg fun _ _ h1 => .bind (.ite h1.sendHello h1) fun h2 => .bind (h2.withRoutes fun _ h3 => h3.modPort) fun h3 => .bind
    (.ite h3.loseTraffic h3) fun h4 => .ite h4.startAuth h4))

theorem Kept.rejectAuth (h : Kept t s) {c p reason} : Kept t (s.rejectAuth c p reason) := h.modPort.sendOn.hubEvent

theorem Kept.keysInForce (h : Kept t s) {c p secret} : Kept t (s.keysInForce c p secret) :=
  .bind (h.withRoutes fun _ h1 => h1.modPort) fun h1 => .ite (h1.foldl fun _ _ h2 => .ite h2.sendDescriptor h2) h1

theorem Keeps.offer (h : Kept t s) {c p m} : Keeps t (execOffer c p m s) := by
  unfold execOffer
  refine .next ?_
  extract_lets _
  split
  · exact h
  · refine h.withAuth fun _ h1 => ?_
    split
    · exact h1.rejectAuth
    · exact .bind ((Kept.ite h1.closeGroup h1).withRoutes fun _ h2 => h2.modPort) fun h2 => .bind (.ite h2.loseTraffic h2) fun h3 =>
        .bind h3.modPort fun h4 => h4.sendOn.freeNext

theorem Keeps.accept (h : Kept t s) {c p m} : Keeps t (execAccept c p m s) := by
  unfold execAccept
  refine .next ?_
  extract_lets _
  split
  · exact h
  · split
    · exact h
    · refine h.withAuth fun _ h1 => ?_
      split
      exacts [h1.rejectAuth, .ite h1.rejectAuth h1.sendOn.keysInForce]

theorem Keeps.authFinish (h : Kept t s) {c p m} : Keeps t (execAuthFinish c p m s) := by
  unfold execAuthFinish
  refine .next ?_
  extract_lets _
  split
  · exact .ite h (h.withAuth fun _ h1 => .ite h1.rejectAuth h1.keysInForce)
  · exact h

theorem Keeps.reject (h : Kept t s) {c p reason} : Keeps t (execReject c p reason s) :=
  .next (.ite h (h.withAuth fun _ h1 => h1.modPort.hubEvent))

theorem Keeps.linkAuthTimeout (h : Kept t s) {c p} : Keeps t (execLinkAuthTimeout c p s) := .next (.ite h h.modPort.hubEvent)
theorem Keeps.linkAuthRetry (h : Kept t s) {c p} : Keeps t (execLinkAuthRetry c p s) := .next (.ite h.startAuth h)

theorem Keeps.epochRollover (h : Kept t s) {c p} : Keeps t (execEpochRollover c p s) := by
  unfold execEpochRollover
  refine .next ?_
  extract_lets _
  split
  exacts [.ite h h.modPort.sendOn, h]

theorem Keeps.update (h : Kept t s) {c p epoch} : Keeps t (execUpdate c p epoch s) := by
  unfold execUpdate
  refine .next ?_
  extract_lets _
  split
  · exact h.withAuth fun _ h1 => .ite (.bind h1.sendOn fun h2 => .ite h2 h2.modPort.sendOn) (.ite h1.sendOn h1)
  · exact h

theorem Keeps.updateAck (h : Kept t s) {c p epoch} : Keeps t (execUpdateAck c p epoch s) := by
  unfold execUpdateAck
  refine .next ?_
  extract_lets _
  split
  · exact .ite h (h.withAuth fun _ h1 => h1.closeGroup.modPort)
  · exact h

/-! ### Operations of Machine/Messages.lean -/

theorem Kept.winWrite (h : Kept t s) {d k kind w ws} : Kept t (s.winWrite d k kind w ws) := .bind h.modDesign fun h1 => .ite h1.sendTwin h1
theorem Kept.unitDone (h : Kept t s) {c w} : Kept t (s.unitDone c w) := h.modSched

theorem Kept.deliver (h : Kept t s) {d k} : Kept t (s.deliver d k) := by
  unfold State.deliver
  extract_lets _
  split
  · extract_lets _ _ s1 _ s2
    have h1 : Kept t s1 := h.winWrite
    have h2 : Kept t s2 := h1.foldl fun _ _ h2 => h2.hubInject
    split
    · extract_lets s3 s4
      have h3 : Kept t s3 := h2.modDesign
      have h4 : Kept t s4 := h3.modDesignPort.unitDone
      split
      exacts [h4.completeAt, h4]
  · exact h

theorem Kept.deliverAll (h : Kept t s) {tag n} : Kept t (s.deliverAll tag n) := by
  induction n generalizing s with
  | zero => exact h
  | succ n ih =>
    unfold State.deliverAll
    split
    · exact h
    · split
      exacts [ih h.deliver, h]

theorem Kept.writeCons (h : Kept t s) {tag} : Kept t (s.writeCons tag) := by
  unfold State.writeCons
  split
  · exact h
  · refine h.foldl fun _ _ h1 => ?_
    split
    exacts [h1, .ite h1 h1.winWrite]

theorem Keeps.intakeDelivery (h : Kept t s) {p} : Keeps t (execIntakeDelivery p s) := by
  unfold execIntakeDelivery
  refine .next ?_
  split
  exacts [h, .ite h h.deliverAll.writeCons]

theorem Kept.proxyIn (h : Kept t s) {m dst port} : Kept t (s.proxyIn m dst port) := .bind h.sendTo fun h1 => h1.freeNext.complete
theorem Kept.proxyOut (h : Kept t s) {g m} : Kept t (s.proxyOut g m) := h.hostWrite.writeEntry.freeNext

theorem Keeps.msgIn (h : Kept t s) {r tag cipher} : Keeps t (execMsgIn r tag cipher s) := by
  unfold execMsgIn
  refine .next ?_
  split
  · exact h
  · split
    · exact h
    · split
      · exact h.complete
      · split
        · split
          exacts [h.complete, h.proxyIn]
        · split
          · exact h.complete
          · extract_lets _ _ s1 s2
            have h1 : Kept t s1 := h.modDesignPort
            have h2 : Kept t s2 := h1.start.modDesign
            split
            · exact h.designEvent.complete
            · split
              · exact h1.complete
              · exact .ite h1.complete (.bind h2.modDesignPort fun h3 => h3.modSched)

theorem Kept.outletOne (h : Kept t s) {d k} : Kept t (s.outletOne d k) := by
  unfold State.outletOne
  extract_lets s1 s2 _
  have h1 : Kept t s1 := by
    unfold s1
    split
    · exact h.writeOutlet
    · split
      · exact h
      · exact .bind h.modDesignPort fun h1 => h1.sendTo
  have h2 : Kept t s2 := h1.unitDone
  split
  exacts [h2.modDesignPort, h2]

theorem Kept.outletAll (h : Kept t s) {d k n} : Kept t (s.outletAll d k n) := by
  induction n generalizing s with
  | zero => exact h
  | succ n ih => exact .ite (ih h.outletOne) h

theorem Keeps.outletWriteOut (h : Kept t s) {c port} : Keeps t (execOutletWriteOut c port s) := by
  unfold execOutletWriteOut
  refine .next ?_
  split
  · exact h
  · exact .ite h (.bind h.outletAll fun h1 => .ite h1 h1.writeCons)

theorem Keeps.msgMessageReceive (h : Kept t s) {c p m} : Keeps t (execMsgMessageReceive c p m s) := by
  unfold execMsgMessageReceive
  refine .next ?_
  split
  · exact h
  · split
    · exact .ite (h.withMsg fun _ _ h1 => h1.proxyOut) h
    · refine h.withMsg fun _ _ h1 => ?_
      extract_lets _ _
      split
      · exact h1
      · exact .ite h1 (.bind h1.modDesign fun h2 => .bind h2.modDesignPort fun h3 => h3.modSched)

theorem Kept.areaWrite (h : Kept t s) {d a off data} : Kept t (s.areaWrite d a off data) :=
  .ite h (.ite (.bind h.modDesign fun h1 => .ite h1.sendTwin h1) (.bind (h.foldl fun _ _ h1 => h1.commitWrite) fun h1 => .ite h1.sendTwin h1))

theorem Kept.areaWriteAll (h : Kept t s) {tag a off data} : Kept t (s.areaWriteAll tag a off data) := by
  unfold State.areaWriteAll
  refine h.foldl fun _ _ h1 => ?_
  split
  exacts [h1.areaWrite, h1]

theorem Kept.workItem (h : Kept t s) {m} : Kept t (s.workItem m) := by
  unfold State.workItem
  split
  exacts [h.complete, .ite h (.ite h.complete (.ite h.complete (.ite h.complete h.start.modSched)))]

theorem Keeps.copyIn (h : Kept t s) {r tag} : Keeps t (execCopyIn r tag s) := .next (h.withCmd fun _ _ h1 => h1.workItem)
theorem Keeps.copyOut (h : Kept t s) {r tag} : Keeps t (execCopyOut r tag s) := .next (h.withCmd fun _ _ h1 => h1.workItem)
theorem Keeps.copy (h : Kept t s) {r tag} : Keeps t (execCopy r tag s) := .next (h.withCmd fun _ _ h1 => h1.workItem)
theorem Keeps.fill (h : Kept t s) {r tag} : Keeps t (execFill r tag s) := .next (h.withCmd fun _ _ h1 => h1.workItem)
theorem Keeps.gather (h : Kept t s) {r tag} : Keeps t (execGather r tag s) := .next (h.withCmd fun _ _ h1 => h1.workItem)
theorem Keeps.scatter (h : Kept t s) {r tag} : Keeps t (execScatter r tag s) := .next (h.withCmd fun _ _ h1 => h1.workItem)
theorem Keeps.checksum (h : Kept t s) {r tag} : Keeps t (execChecksum r tag s) := .next (h.withCmd fun _ _ h1 => h1.workItem)
theorem Kept.endItem (h : Kept t s) {c m st} : Kept t (s.endItem c m st) := h.modSched.complete

theorem Kept.itemError (h : Kept t s) {d a mac} : Kept t (s.itemError d a mac).1 := by
  unfold State.itemError
  split
  · split
    exacts [h.count, h]
  · split
    exacts [h, .iteFst h.macFailed h.hbmUncorrected]

theorem Kept.itemBanks (h : Kept t s) {d m reads ecc} : Kept t (s.itemBanks d m reads ecc) := by
  unfold State.itemBanks
  split
  · split
    · split
      exacts [h.count, h]
    · exact h
  · extract_lets _ words s1
    have h1 : Kept t s1 := h.bankRequests
    clear_value words
    split
    exacts [.ite h1.count.corrected h1.modCab, h1]

theorem Kept.itemEnds (h : Kept t s) {c d m b1} : Kept t (s.itemEnds c d m b1) := .ite h (.ite h.complete h.hostWrite.complete)

theorem Kept.itemNode (h : Kept t s) {d a first ecc} : Kept t (s.itemNode d a first ecc) := by
  unfold State.itemNode
  split
  · exact h
  · split
    exacts [h, h.eccNode]

theorem Kept.runItem (h : Kept t s) {c m first n buf1 buf2 ecc macOk} : Kept t (s.runItem c m first n buf1 buf2 ecc macOk) := by
  unfold State.runItem
  dsimp only
  split
  · exact h.endItem
  · refine .ite h ?_
    split
    · refine .ite h.endItem (.ite h.hubEvent.endItem (.bind h.itemNode fun h1 => .ite h1.itemError.endItem
        (.ite h1.endItem (.ite h1.itemError.endItem ?_))))
      exact (Kept.unitDone (h1.itemBanks.foldl fun _ _ h2 => h2.areaWriteAll)).itemEnds
    · exact h.endItem

theorem Kept.cutItem (h : Kept t s) {c m first n} : Kept t (s.cutItem c m first n) := by
  unfold State.cutItem
  extract_lets _ _ _ s1
  have h1 : Kept t s1 := h.freeNext
  split
  · exact h1.endItem
  · extract_lets _ s2 s3
    have h2 : Kept t s2 := h1.foldl fun _ _ h2 => h2.areaWriteAll
    have h3 : Kept t s3 := .ite (.ite h1 (.ite ⟨h1.queue, h1.clock, h1.memory⟩ ⟨h2.queue, h2.clock, h2.memory⟩)) (.ite h1.hostWrite h1)
    exact h3.endItem

theorem Kept.modEngine (h : Kept t s) {c e f} : Kept t (s.modEngine c e f) := h.modSched

theorem Kept.traceDispatch (h : Kept t s) {c g bytes} : Kept t (s.traceDispatch c g bytes) :=
  .ite h (.bind (.ite h h.modTrc.freeNext) fun h1 => h1.tracePkt)

theorem Kept.dispatch (h : Kept t s) {c e g u' credits} : Kept t (s.dispatch c e g u' credits) :=
  .bind h.modSched fun h1 => .bind (.ite h1.roundOwners h1) fun h2 => h2.modEngine.traceDispatch

theorem Kept.beginRound (h : Kept t s) {c} : Kept t (s.beginRound c) := h.modSched.roundOwners

theorem Keeps.engineDispatch (h : Kept t s) {c} : Keeps t (execEngineDispatch c s) := by
  unfold execEngineDispatch
  refine .next ?_
  extract_lets s1 _ s2
  have h1 : Kept t s1 := h.modSched
  have h2 : Kept t s2 := h1.beginRound
  split
  · exact h1
  · split
    · exact h1.dispatch
    · split
      exacts [h2.dispatch, h2]

theorem Kept.engineTraffic (h : Kept t s) {c e} : Kept t (s.engineTraffic c e) :=
  .bind h.injected fun h1 => .bind h1.freeNext fun h2 => h2.modStat.freeNext

theorem Keeps.unitComplete (h : Kept t s) {c e buf1 buf2 ecc macOk} : Keeps t (execUnitComplete c e buf1 buf2 ecc macOk s) := by
  unfold execUnitComplete
  refine .next ?_
  split
  · exact h
  · extract_lets free
    have freed : ∀ u, Kept t u → Kept t (free u) := fun _ h => h.modEngine
    clear_value free
    split
    · exact freed _ h
    · exact freed _ h.modAcq
    · split
      · exact freed _ h
      · refine .ite (freed _ h) (.ite h (.bind (freed _ h.deliver) fun h1 => .ite (h1.foldl fun _ _ h2 => ?_) h1))
        split
        exacts [.ite h2.deliver h2, h2]
    · split
      · exact freed _ h
      · exact .ite (freed _ h) (.ite h (.bind (.ite (freed _ h.outletOne).outletAll (freed _ h.outletOne)) fun h1 =>
          .ite h1 h1.writeCons))
    · split
      exacts [freed _ h, .ite h.modEngine.endItem h.engineTraffic.runItem]

theorem Kept.requeue (h : Kept t s) {c e} : Kept t (s.requeue c e) := by
  unfold State.requeue
  split
  exacts [h, h.modEngine.modSched]

theorem Keeps.engineReplaced (h : Kept t s) {c e failed} : Keeps t (execEngineReplaced c e failed s) := by
  unfold execEngineReplaced
  refine .next ?_
  split
  · exact h
  · extract_lets s1 s2
    have h1 : Kept t s1 := h.requeue
    have h2 : Kept t s2 := h1.modEngine
    split
    · exact h1
    · split
      exacts [h2, h2.modEngine.hubEvent]

theorem Keeps.spareEngineCheck (h : Kept t s) {c e passed} : Keeps t (execSpareEngineCheck c e passed s) := .next (.ite h.modEngine h)

end Sys2Proof.Machine
end

section
/-! What every command keeps: time, functions, power and registers. -/

namespace Sys2Proof.Machine

open Sys2Proof

set_option Elab.async false

variable {t s : State}

/-! ### Operations of Machine/TimeBus.lean -/

theorem Kept.sendBound (h : Kept t s) {c d x} : Kept t (s.sendBound c d x) := h.foldl fun _ _ h1 => h1.sendTo
theorem Kept.beginLaunch (h : Kept t s) {tag} : Kept t (s.beginLaunch tag) := h.modDesign

theorem Kept.launchEffect (h : Kept t s) {c e l} : Kept t (s.launchEffect c e l).1 := by
  have pulsed : Kept t (((List.range 4).filter fun k => bitAt l.lines k).foldl (fun s k => s.drivePulse c k) s) :=
    h.foldl fun _ _ h1 => h1.drivePulse
  unfold State.launchEffect
  dsimp only
  split
  · split
    exacts [.pair h, .pair h.beginLaunch.sendBound]
  · split
    exacts [.iteFst (.pair pulsed.sendBound) (.pair pulsed), .pair pulsed]

theorem Kept.fireLaunch (h : Kept t s) {c e late} : Kept t (s.fireLaunch c e late) := by
  unfold State.fireLaunch
  split
  · exact h
  · split
    next fired => exact (h.launchEffect.of_fst fired).modTime.completeTag

theorem Kept.fireDue (h : Kept t s) {c v} : Kept t (s.fireDue c v) := by
  unfold State.fireDue
  refine h.foldl fun _ _ h1 => ?_
  split
  exacts [.ite h1.fireLaunch h1, h1]

theorem Kept.stepView (h : Kept t s) {c v d cause} : Kept t (s.stepView c v d cause) := .bind h.modView fun h1 => h1.hubEvent.fireDue

theorem Kept.placeLaunch (h : Kept t s) {m tenant} : Kept t (s.placeLaunch m tenant) := by
  unfold State.placeLaunch
  extract_lets _ _ _
  split
  · exact h.complete
  · split
    · exact h.complete
    · split
      exacts [h.complete, h.start.modTime]

theorem Keeps.operatorLaunch (h : Kept t s) {r tag} : Keeps t (execOperatorLaunch r tag s) := .next (h.withCmd fun _ _ h1 => h1.placeLaunch)
theorem Keeps.tenantLaunch (h : Kept t s) {r tag} : Keeps t (execTenantLaunch r tag s) := .next (h.withCmd fun _ _ h1 => h1.placeLaunch)

theorem Keeps.launchFire (h : Kept t s) {c e} : Keeps t (execLaunchFire c e s) := by
  unfold execLaunchFire
  refine .next ?_
  split
  exacts [.ite h.fireLaunch h, h]

theorem Keeps.runStart (h : Kept t s) {c src frame launch} : Keeps t (execRunStart c src frame launch s) :=
  .next (h.withMsgOn fun _ _ _ h1 => .ite h1.hubEvent (h1.foldl fun _ _ h2 => h2.beginLaunch))

theorem Keeps.permitStep (h : Kept t s) {r tag} : Keeps t (execPermitStep r tag s) :=
  .next (h.withCmd fun _ _ h1 => .ite h1.stepView.complete h1.complete)

theorem Keeps.viewWrite (h : Kept t s) {r tag} : Keeps t (execViewWrite r tag s) :=
  .next (h.withCmd fun _ _ h1 => .ite h1.complete (.bind (h1.foldl fun _ _ h2 => .bind h2.modView fun h3 => h3.fireDue) fun h2 => h2.complete))

theorem Keeps.timSnap (h : Kept t s) {c value} : Keeps t (execTimSnap c value s) :=
  .next (.ite h (.ite h (.bind (h.foldl fun _ _ h1 => h1.setReg.setReg) fun h1 => h1.modTime)))

theorem Kept.startView (h : Kept t s) {c v} : Kept t (s.startView c v) := by
  unfold State.startView
  extract_lets _ _ _
  split
  exacts [h.modView, h.modView, h.modView, h.modView.freeNext, h.modView]

theorem Keeps.viewEnable (h : Kept t s) {c v value} : Keeps t (execViewEnable c v value s) :=
  .next (.ite h (.ite h (.bind h.setReg fun h1 => .ite h1.startView.fireDue h1.modView.abortLaunches)))

theorem Kept.withTime (h : Kept t s) {c p src m f} (hf : ∀ s1 x2, Kept t s1 → Kept t (f s1 x2)) : Kept t (s.withTime c p src m f) :=
  .ite (h.withMsg fun _ _ h2 => .ite h2 (hf _ _ h2)) h

theorem Keeps.sync (h : Kept t s) {c p m} : Keeps t (execSync c p m s) := by
  unfold execSync
  refine .next ?_
  refine h.withTime fun _ _ h1 => ?_
  extract_lets _ _ _ s2
  have h2 : Kept t s2 := h1.freeNext.modView
  split
  · exact h1
  · split
    · exact h2
    · exact .bind h2.modView fun h3 => .ite h3.stepView (.ite (.bind h3.modView fun h4 => .ite h4 h4.hubEvent) h3.modView)

theorem Keeps.syncTimeout (h : Kept t s) {c v} : Keeps t (execSyncTimeout c v s) := .next (.ite h.modView.hubEvent h)

theorem Keeps.announce (h : Kept t s) {c p m ds} : Keeps t (execAnnounce c p m ds s) :=
  .next (h.withTime fun _ _ h1 => .ite h1 (.ite h1.modView (.ite h1.modView.hubEvent h1)))

theorem Keeps.masterTimeout (h : Kept t s) {c v} : Keeps t (execMasterTimeout c v s) := .next (.ite h.modView h)

theorem Keeps.pdelayTimer (h : Kept t s) {c v} : Keeps t (execPdelayTimer c v s) :=
  .next (.ite (.bind h.freeNext.modView fun h1 => h1.sendTo) h)

theorem Keeps.pdelayReq (h : Kept t s) {c p m} : Keeps t (execPdelayReq c p m s) :=
  .next (h.withTime fun _ _ h1 => .ite h1.freeNext.sendTo h1)

theorem Keeps.pdelayResp (h : Kept t s) {c p m turnaround} : Keeps t (execPdelayResp c p m turnaround s) := by
  unfold execPdelayResp
  refine .next ?_
  refine h.withTime fun _ _ h1 => ?_
  extract_lets _ _ _
  split
  exacts [h1, .ite h1 h1.freeNext.modView]

theorem Keeps.announceSend (h : Kept t s) {c v} : Keeps t (execAnnounceSend c v s) :=
  .next (.ite (h.modView.foldl fun _ _ h1 => h1.sendTo) h)

theorem Keeps.syncSend (h : Kept t s) {c v} : Keeps t (execSyncSend c v s) :=
  .next (.ite (h.modView.foldl fun _ _ h1 => h1.sendTo.freeNext) h)

theorem Keeps.viewExchange (h : Kept t s) {c v} : Keeps t (execViewExchange c v s) :=
  .next (.ite h (.ite (.ite h.modView.hubEvent h) (.bind h.modView fun h1 => .ite h1.stepView (.ite h1.modView.fireDue h1))))

theorem Kept.modSysViews (h : Kept t s) {c f} : Kept t (s.modSysViews c f) := h.foldl fun _ _ h1 => .ite h1.modView h1
theorem Keeps.sysclkLost (h : Kept t s) {c} : Keeps t (execSysclkLost c s) := .next (.ite h h.modTime.hubEvent.modSysViews)
theorem Keeps.sysclkReturn (h : Kept t s) {c} : Keeps t (execSysclkReturn c s) := .next (.ite h h.modTime.freeNext.modSysViews)

theorem Keeps.oscCheck (h : Kept t s) {site differs} : Keeps t (execOscCheck site differs s) := by
  have switched : ∀ o, Kept t { s with hostOsc := o } := fun _ => ⟨h.queue, h.clock, h.memory⟩
  unfold execOscCheck
  refine .next ?_
  split
  · exact h
  · split
    · exact .ite h (.ite (switched _).event (switched _))
    · exact .ite h (.ite h.modTime.hubEvent h.modTime)
    · exact .ite h (.ite h.modTime.hubEvent h.modTime)
    · exact h

theorem Keeps.trigEdge (h : Kept t s) {c line highNs} : Keeps t (execTrigEdge c line highNs s) :=
  .next (.ite h (.ite h h.freeNext.acceptEdge))

theorem Keeps.trigMessage (h : Kept t s) {c src unit frame eventTime} : Keeps t (execTrigMessage c src unit frame eventTime s) :=
  .next (h.withMsgOn fun _ _ _ h1 => h1.modTime)

/-! ### Operations of Machine/Functions.lean -/

theorem Kept.linkFunction (h : Kept t s) {c p on} : Kept t (s.linkFunction c p on) := h.portCtrl

theorem Kept.engineOff (h : Kept t s) {c e} : Kept t (s.engineOff c e).1 := by
  unfold State.engineOff
  dsimp only
  split
  · split
    exacts [.pair h.cutItem.modEngine, .pair h.modEngine]
  · split
    exacts [.pair h.modDesignPort.abortMsgs.modEngine, .pair h.modEngine]
  · exact .pair h.requeue.modEngine
  · exact .pair h.requeue.modEngine
  · exact .pair h.requeue.modEngine
  · exact .pair h.modEngine

theorem Kept.abortOne (h : Kept t s) {m} : Kept t (s.abortOne m) := h.useMseq.complete

theorem Kept.mportOff (h : Kept t s) {c k} : Kept t (s.mportOff c k).1 := by
  unfold State.mportOff
  dsimp only
  refine .abortMsgs ?_
  split
  · exact Kept.modDesignPort (h.foldl fun _ _ h1 => h1.abortOne)
  · exact Kept.modMport (h.foldl fun _ _ h1 => h1.abortOne)

theorem Kept.mportOn (h : Kept t s) {c k} : Kept t (s.mportOn c k) := by
  unfold State.mportOn
  extract_lets _
  split
  exacts [h.modDesignPort, h.modMport]

theorem Kept.setFunc (h : Kept t s) {kind c index on} : Kept t (s.setFunc kind c index on).1 := by
  unfold State.setFunc
  split
  · exact .pair h.linkFunction
  · exact .iteFst (.pair h.modEngine) h.engineOff
  · exact .iteFst (.pair h.mportOn) h.mportOff
  · exact .pair h.modAcq
  · exact .pair h.modTrc
  · exact .pair h.modGuest

theorem Keeps.setFunction (h : Kept t s) {r tag} : Keeps t (execSetFunction r tag s) :=
  .next (h.withCmd fun _ _ h1 => .ite h1.complete (.bind h1.setFunc fun h2 => h2.complete))

theorem Kept.abortRun (h : Kept t s) {m} : Kept t (s.abortRun m) := by
  unfold State.abortRun
  split
  exacts [h.tellStop.stopAt.finishStops, h.complete]

theorem Kept.abortItem (h : Kept t s) {m} : Kept t (s.abortItem m) := by
  unfold State.abortItem
  extract_lets _
  split
  · exact h.complete
  · split
    exacts [h.cutItem, h.endItem]

theorem Kept.abortMessage (h : Kept t s) {m} : Kept t (s.abortMessage m) := h.modCh.modCh.complete
theorem Kept.abortLaunch (h : Kept t s) {m} : Kept t (s.abortLaunch m) := h.modTime.modTime.complete
theorem Kept.abortRange (h : Kept t s) {m} : Kept t (s.abortRange m) := h.modCh.modCh.complete

theorem Kept.abortCmd (h : Kept t s) {m} : Kept t (s.abortCmd m) := by
  unfold State.abortCmd
  split
  · exact .ite h.abortOne h.complete
  · extract_lets _
    split
    · split
      exacts [h.cancelLoad, h.complete]
    · exact .ite h.abortRun (.ite h.abortItem (.ite h.abortMessage (.ite h.abortLaunch (.ite h.abortRange h.complete))))

theorem Kept.doAbort (h : Kept t s) {m} : Kept t (s.doAbort m) := by
  unfold State.doAbort
  extract_lets _
  split
  · exact h.complete
  · split
    exacts [h.complete, .ite h.complete h.abortCmd.complete]

theorem Keeps.operatorAbort (h : Kept t s) {r tag} : Keeps t (execOperatorAbort r tag s) := .next (h.withCmd fun _ _ h1 => h1.doAbort)
theorem Keeps.tenantAbort (h : Kept t s) {r tag} : Keeps t (execTenantAbort r tag s) := .next (h.withCmd fun _ _ h1 => h1.doAbort)

/-! ### Operations of Machine/PowerReset.lean -/

theorem Kept.resetRegs (h : Kept t s) {lo hi} : Kept t (s.resetRegs lo hi) := h.modRegs

theorem Kept.leaveHub (h : Kept t s) {c} : Kept t (s.leaveHub c) := by
  unfold State.leaveHub
  extract_lets s1 _ s2 s3 s4
  have h1 : Kept t s1 := h.abortLaunches
  have h2 : Kept t s2 := by
    unfold s2
    refine h1.foldl fun _ _ h2 => ?_
    split
    exacts [h2.completeTag, h2]
  have h3 : Kept t s3 := h2.foldl fun _ _ h3 => h3.abortMsgs.abortUnread
  have h4 : Kept t s4 := h3.foldl fun _ _ h4 => h4.completeTag
  exact .ite h4.modHost h4

theorem Kept.hubOff (h : Kept t s) {c} : Kept t (s.hubOff c) :=
  (h.leaveHub.withRoutes fun _ h1 => h1.modCh fun _ => Memory.wf_nil).resetRegs

theorem Kept.railLost (h : Kept t s) {c} : Kept t (s.railLost c) := .bind h.wipeHutch.modHutch.modSec fun h1 => .ite h1 h1.modSec
theorem Kept.railBack (h : Kept t s) {c} : Kept t (s.railBack c) := .bind h.modHutch fun h1 => .ite h1.hubEvent.modHutch h1
theorem Kept.passKeys (h : Kept t s) {c} : Kept t (s.passKeys c) := .ite h.modHutch h

theorem Kept.hubBoot (h : Kept t s) {c} : Kept t (s.hubBoot c) :=
  .bind h.modTime.resetRegs fun h1 => .bind h1.linkUpAgain fun h2 => h2.passKeys

theorem Kept.hubChecks (h : Kept t s) {c fwMatches mapValid} : Kept t (s.hubChecks c fwMatches mapValid) := by
  unfold State.hubChecks
  extract_lets s1 w s2 s3
  have h1 : Kept t s1 := .ite h h.modCh.hubEvent
  have h2 : Kept t s2 := h1.modCh.modPw
  have h3 : Kept t s3 := h2.hostEvent
  split
  · exact h1
  · split
    · exact h1.modCh
    · clear_value w
      split
      exacts [h3.completeTag, h3]

theorem Kept.applyLayout (h : Kept t s) {c} : Kept t (s.applyLayout c) := by
  unfold State.applyLayout
  extract_lets _ _
  split
  exacts [h.hubEvent, h.modHbm]

theorem Kept.freshKeys (h : Kept t s) {c} : Kept t (s.freshKeys c) := .bind h.freeNext fun h1 => h1.modHutch.freeNext
theorem Kept.emptyRing (h : Kept t s) {c} : Kept t (s.emptyRing c) := .bind h.modAcq fun h1 => .ite h1.setReg h1
theorem Kept.rekeyRanges (h : Kept t s) {c} : Kept t (s.rekeyRanges c) := h.foldl fun _ _ h1 => .ite h1 h1.clearRange
theorem Kept.marchUnowned (h : Kept t s) {c} : Kept t (s.marchUnowned c) := h.foldl fun _ _ h1 => h1.foldl fun _ _ h2 => .ite h2 h2.modCab
theorem Kept.endFence (h : Kept t s) {c} : Kept t (s.endFence c) := .bind h.modCh fun h1 => .ite h1.modMode h1
theorem Kept.portsUp (h : Kept t s) {c} : Kept t (s.portsUp c) := h.linkUpAgain

theorem Kept.enterReady (h : Kept t s) {c} : Kept t (s.enterReady c) := by
  unfold State.enterReady
  exact .bind h.applyLayout.freshKeys fun h1 => .bind h1.emptyRing.rekeyRanges.resetRegs fun h2 => .bind h2.marchUnowned.portsUp.endFence
    fun h3 => h3.modCh

theorem Kept.powerStep (h : Kept t s) {c old new spChanged fwMatches mapValid} : Kept t (s.powerStep c old new spChanged fwMatches mapValid) := by
  unfold State.powerStep
  split
  · exact h.railBack
  · exact h.hubBoot.hubChecks
  · exact h.enterReady
  · exact h.modCh fun _ => Memory.wf_nil
  · exact h.hubOff
  · exact h.railLost
  · exact .ite h.traceRate h
  · exact h

theorem Keeps.powerStateReached (h : Kept t s) {c fwMatches mapValid} : Keeps t (execPowerStateReached c fwMatches mapValid s) := by
  unfold execPowerStateReached
  refine .next ?_
  split
  · exact h
  · exact .ite h (.bind h.modPw fun h1 => .bind h1.powerStep fun h2 => .ite h2.powerReached h2)

theorem Kept.tamperDesign (h : Kept t s) {d} : Kept t (s.tamperDesign d) := by
  unfold State.tamperDesign
  extract_lets s1 s2
  have h1 : Kept t s1 := h.stopAt
  have h2 : Kept t s2 := h1.foldl fun _ _ h2 => h2.complete
  split
  exacts [h2.removeDesign, h2]

theorem Kept.clearScratch (h : Kept t s) {c} : Kept t (s.clearScratch c) := .ite h.modHutch.freeNext h

theorem Kept.tamperAct (h : Kept t s) {cause} : Kept t (s.tamperAct cause) :=
  .bind (h.foldl fun _ _ h1 => .ite h1.tellAlarm h1) fun h1 => .bind (h1.foldl fun _ _ h2 => .ite h2.hutchWiped h2) fun h2 => .bind (h2.foldl
    fun _ _ h3 => h3.clearScratch) fun h3 => .bind (h3.foldl fun _ _ h4 => h4.cancelLoad) fun h4 => .bind (h4.foldl fun _ _ h5 =>
      h5.tamperDesign) fun h5 => .bind h5.endSessions.clearTenants.modSec fun h6 => h6.hostEvent

theorem Keeps.tamper (h : Kept t s) {cause} : Keeps t (execTamper cause s) := .next (.ite h h.tamperAct)
theorem Kept.hostPortReset (h : Kept t s) : Kept t s.hostPortReset := h.modHost.resetRegs
theorem Keeps.hostReset (h : Kept t s) {_cxl} : Keeps t (execHostReset _cxl s) := .next (.ite h h.hostPortReset)
theorem Keeps.linkDown (h : Kept t s) : Keeps t (execLinkDown s) := .next (.ite h h.modHost.hostPortReset)
theorem Keeps.linkUp (h : Kept t s) {width speed} : Keeps t (execLinkUp width speed s) := .next (.ite h h.modHost)
theorem Keeps.ideKm (h : Kept t s) {stream start} : Keeps t (execIdeKm stream start s) := .next (.ite h h.modHost)

theorem Keeps.perstAssert (h : Kept t s) : Keeps t (execPerstAssert s) := by
  unfold execPerstAssert
  refine .next ?_
  split
  · exact h
  · extract_lets s1 s2 s3 s4
    have h1 : Kept t s1 := h.modHost.hostPortReset
    have h2 : Kept t s2 := h1.resetRegs.resetRegs
    have h3 : Kept t s3 := h2.modSec
    have h4 : Kept t s4 := h3.modBase
    exact ⟨h4.queue, h4.clock, h4.memory⟩

theorem Keeps.perstRelease (h : Kept t s) : Keeps t (execPerstRelease s) :=
  .next (.ite h (.bind h.modHost.modBase fun h1 => h1.foldl fun _ _ h2 => h2.complete))

theorem Kept.moduleOff (h : Kept t s) : Kept t s.moduleOff := by
  unfold State.moduleOff
  extract_lets _ s1 s2 _ s3
  have h1 : Kept t s1 := ⟨h.queue, h.clock, h.memory⟩
  have h2 : Kept t s2 := h1.modSec
  have h3 : Kept t s3 := (h2.modCh fun _ => Memory.wf_nil).modCh fun _ => Memory.wf_nil
  exact h3.modPwr

theorem Kept.powerUp (h : Kept t s) : Kept t s.powerUp :=
  .bind h.modPwr fun h1 => .bind h1.modBase fun h2 => h2.foldl fun _ _ h3 => h3.modPw.railBack.hubBoot

theorem Keeps.auxPresent (h : Kept t s) {meshFault} : Keeps t (execAuxPresent meshFault s) :=
  .next (.ite h (.bind h.modPwr fun h1 => .bind (h1.foldl fun _ _ h2 => h2.modPw.railBack) fun h2 => .ite h2.tamperAct h2))

theorem Keeps.auxLost (h : Kept t s) : Keeps t (execAuxLost s) :=
  .next (.ite h (.bind (h.moduleOff.foldl fun _ _ h1 => h1.railLost) fun h1 => h1.modPwr))

theorem Keeps.powerEnable (h : Kept t s) {fwA fwB} : Keeps t (execPowerEnable fwA fwB s) := by
  unfold execPowerEnable
  refine .next ?_
  split
  · exact h
  · extract_lets why s1 s2
    have h1 : Kept t s1 := h.modBase
    have h2 : Kept t s2 := h1.powerUp.modPwr
    clear_value why
    split
    exacts [h2.hostEvent, h2]

theorem Keeps.inputLost (h : Kept t s) {pwrEnLow} : Keeps t (execInputLost pwrEnLow s) :=
  .next (.bind h.modPwr fun h1 => .ite h1 h1.moduleOff.modPwr)

theorem Kept.latchCause (h : Kept t s) {cause site scope} : Kept t (s.latchCause cause site scope) := h.modPwr

theorem Keeps.emergencyOff (h : Kept t s) {cause site} : Keeps t (execEmergencyOff cause site s) :=
  .next (.ite h h.moduleOff.latchCause.modPwr)

theorem Keeps.emergencyOffRestart (h : Kept t s) : Keeps t (execEmergencyOffRestart s) :=
  .next (.ite h (.bind h.powerUp.modPwr fun h1 => h1.hostEvent))

theorem Kept.loseDesign (h : Kept t s) {d} : Kept t (s.loseDesign d) := by
  unfold State.loseDesign
  extract_lets s1 s2
  have h1 : Kept t s1 := h.foldl fun _ _ h1 => h1.modMport
  have h2 : Kept t s2 := h1.stopAt.finishStops
  split
  exacts [h2.removeDesign, h2]

theorem Kept.cutDesign (h : Kept t s) {c d} : Kept t (s.cutDesign c d) :=
  .ite h.fenceOff (.ite (.bind (.ite h.leavePair h.stopAt) fun h1 => h1.setDesignState) ((Kept.ite h.leavePair h).loseDesign))

theorem Keeps.channelEmergencyOff (h : Kept t s) {c cause site} : Keeps t (execChannelEmergencyOff c cause site s) := by
  unfold execChannelEmergencyOff
  refine .next ?_
  split
  · exact h
  · extract_lets s1 s2 s3 s4 s5 s6 s7
    have h1 : Kept t s1 := by
      unfold s1
      split
      exacts [h.completeTag, h]
    have h2 : Kept t s2 := h1.modPw
    have h3 : Kept t s3 := h2.foldl fun _ _ h3 => h3.cancelLoad
    have h4 : Kept t s4 := h3.foldl fun _ _ h4 => h4.cutDesign
    have h5 : Kept t s5 := h4.hubOff.modPw
    have h6 : Kept t s6 := h5.foldl fun _ _ h6 => h6.complete
    have h7 : Kept t s7 := h6.latchCause
    exact h7.hostEvent

theorem Keeps.phaseFailure (h : Kept t s) {group phase limit} : Keeps t (execPhaseFailure group phase limit s) := by
  unfold execPhaseFailure
  refine .next ?_
  split
  · exact h
  · extract_lets _ s1
    have h1 : Kept t s1 := h.modPwr.hostEvent
    split
    · split
      exacts [h.modPwr, h.modPwr, h]
    · exact .ite h1.hostEvent h1

theorem Keeps.tempWarn (h : Kept t s) {die degC} : Keeps t (execTempWarn die degC s) := by
  unfold execTempWarn
  refine .next ?_
  split
  · exact h
  · extract_lets _ s1 s2
    have h1 : Kept t s1 := h.modPwr
    have h2 : Kept t s2 := by
      unfold s2
      split
      exacts [.ite h1.modPwr h1, h1]
    split
    exacts [.ite h2.modPwr.hostEvent h2, h2]

/-! ### Operations of Machine/Registers.lean -/

theorem Kept.readReg (h : Kept t s) {off} : Kept t (s.readReg off) := by
  unfold State.readReg
  split
  exacts [h.badAccess.modRegs, .ite h.timedOut.modRegs h.freeNext.modRegs]

theorem Keeps.lowWordRead (h : Kept t s) {offset} : Keeps t (execLowWordRead offset s) :=
  .next (.ite h (.ite h.badAccess.modRegs h.readReg))

theorem Keeps.modArrayBudgetWrite (h : Kept t s) {value} : Keeps t (execModArrayBudgetWrite value s) :=
  .next (.ite h (.bind h.setReg fun h1 => .ite h1.hostEvent h1))

/-! ### Operations of Machine/Dispatch.lean -/

/-- Every command keeps them: one lemma for each arm of the dispatch. -/
theorem Keeps.exec (h : Kept t s) : ∀ i, Keeps t (exec i s)
  | .nop .. => .nop h
  | .setMode .. => .setMode h
  | .setPower .. => .setPower h
  | .assign .. => .assign h
  | .reclaim .. => .reclaim h
  | .operatorStop .. => .operatorStop h
  | .operatorUnload .. => .operatorUnload h
  | .setTopology .. => .setTopology h
  | .setFunction .. => .setFunction h
  | .operatorAbort .. => .operatorAbort h
  | .openSlot .. => .openSlot h
  | .closeSlot .. => .closeSlot h
  | .assignRange .. => .assignRange h
  | .releaseRange .. => .releaseRange h
  | .operatorLaunch .. => .operatorLaunch h
  | .permitStep .. => .permitStep h
  | .viewWrite .. => .viewWrite h
  | .load .. => .load h
  | .loadComplete .. => .loadComplete h
  | .run .. => .run h
  | .tenantStop .. => .tenantStop h
  | .step .. => .step h
  | .tenantUnload .. => .tenantUnload h
  | .stats .. => .stats h
  | .marchOk .. => .marchOk h
  | .tenantAbort .. => .tenantAbort h
  | .setRangeMode .. => .setRangeMode h
  | .msgIn .. => .msgIn h
  | .copyIn .. => .copyIn h
  | .copyOut .. => .copyOut h
  | .copy .. => .copy h
  | .fill .. => .fill h
  | .gather .. => .gather h
  | .scatter .. => .scatter h
  | .checksum .. => .checksum h
  | .captureStart .. => .captureStart h
  | .captureStop .. => .captureStop h
  | .trigSet .. => .trigSet h
  | .trigClear .. => .trigClear h
  | .probeSet .. => .probeSet h
  | .traceSet .. => .traceSet h
  | .traceStop .. => .traceStop h
  | .tenantLaunch .. => .tenantLaunch h
  | .getVersion => .getVersion h
  | .getCapabilities => .getCapabilities h
  | .negotiateAlgorithms .. => .negotiateAlgorithms h
  | .getDigests => .getDigests h
  | .getCertificate .. => .getCertificate h
  | .challenge .. => .challenge h
  | .getMeasurements .. => .getMeasurements h
  | .keyExchange .. => .keyExchange h
  | .finish .. => .finish h
  | .spdmHeartbeat .. => .spdmHeartbeat h
  | .keyUpdate .. => .keyUpdate h
  | .claim .. => .claim h
  | .keySet .. => .keySet h
  | .keyDrop .. => .keyDrop h
  | .keyList .. => .keyList h
  | .debugToken .. => .debugToken h
  | .lifecycle .. => .lifecycle h
  | .debugTokenExpiry => .debugTokenExpiry h
  | .registerWrite .. => .registerWrite h
  | .lowWordRead .. => .lowWordRead h
  | .badAccess .. => .badAccess h
  | .busTimeout .. => .busTimeout h
  | .modArrayBudgetWrite .. => .modArrayBudgetWrite h
  | .marchStart .. => .marchStart h
  | .marchDone .. => .marchDone h
  | .hbmSpareStart .. => .hbmSpareStart h
  | .pcSparingDone .. => .pcSparingDone h
  | .guestRailsWrite .. => .guestRailsWrite h
  | .guestRailFault .. => .guestRailFault h
  | .portEnable .. => .portEnable h
  | .portDisable .. => .portDisable h
  | .portRateChange .. => .portRateChange h
  | .spareAssignWrite .. => .spareAssignWrite h
  | .eyeScanStart .. => .eyeScanStart h
  | .eyeScanDone .. => .eyeScanDone h
  | .ringEnable .. => .ringEnable h
  | .ringDisable .. => .ringDisable h
  | .doorbell _ _ _ wide _ => .doorbell (_wide := wide) h
  | .interruptTimer .. => .interruptTimer h
  | .hdmRead .. => .hdmRead h
  | .hdmWrite _ _ v => .hdmWrite (_value := v) h
  | .baseDeadlineWrite .. => .baseDeadlineWrite h
  | .baseGo .. => .baseGo h
  | .chainStart .. => .chainStart h
  | .baseVerifyDone .. => .baseVerifyDone h
  | .deadlineExpired => .deadlineExpired h
  | .configRequest => .configRequest h
  | .configWaitTimeout => .configWaitTimeout h
  | .modTwinRejoin .. => .modTwinRejoin h
  | .modPairReplace .. => .modPairReplace h
  | .recoveryContinue .. => .recoveryContinue h
  | .recoveryFence .. => .recoveryFence h
  | .recoveryStop .. => .recoveryStop h
  | .sliceNow .. => .sliceNow h
  | .patrolRestart .. => .patrolRestart h
  | .timSnap .. => .timSnap h
  | .viewEnable .. => .viewEnable h
  | .deliveryChange .. => .deliveryChange h
  | .deliveryModeApplied .. => .deliveryModeApplied h
  | .acqConsumedWrite .. => .acqConsumedWrite h
  | .trcConsumedWrite .. => .trcConsumedWrite h
  | .modProbeGroupWrite .. => .modProbeGroupWrite h
  | .modProbeTraceWrite .. => .modProbeTraceWrite h
  | .auxPresent .. => .auxPresent h
  | .auxLost => .auxLost h
  | .powerEnable .. => .powerEnable h
  | .inputLost .. => .inputLost h
  | .perstAssert => .perstAssert h
  | .perstRelease => .perstRelease h
  | .hostReset cxl => .hostReset (_cxl := cxl) h
  | .linkDown => .linkDown h
  | .tamper .. => .tamper h
  | .emergencyOff .. => .emergencyOff h
  | .channelEmergencyOff .. => .channelEmergencyOff h
  | .emergencyOffRestart => .emergencyOffRestart h
  | .phaseFailure .. => .phaseFailure h
  | .powerStateReached .. => .powerStateReached h
  | .tempWarn .. => .tempWarn h
  | .sysclkLost .. => .sysclkLost h
  | .sysclkReturn .. => .sysclkReturn h
  | .oscCheck .. => .oscCheck h
  | .trigEdge .. => .trigEdge h
  | .hbmHot .. => .hbmHot h
  | .refresh .. => .refresh h
  | .stepBegin .. => .stepBegin h
  | .clearanceGrant .. => .clearanceGrant h
  | .holdLong .. => .holdLong h
  | .valuePacketArrival .. => .valuePacketArrival h
  | .memoryReturn .. => .memoryReturn h
  | .hbmReadReturn .. => .hbmReadReturn h
  | .macVerdict .. => .macVerdict h
  | .wbufDrain .. => .wbufDrain h
  | .frameCommit .. => .frameCommit h
  | .frameAborted .. => .frameAborted h
  | .tileReloaded .. => .tileReloaded h
  | .cellSwapped .. => .cellSwapped h
  | .benchSwapped .. => .benchSwapped h
  | .cabinetRepaired .. => .cabinetRepaired h
  | .flitReceive .. => .flitReceive h
  | .laneCheckDone .. => .laneCheckDone h
  | .guestPulses .. => .guestPulses h
  | .goutReceive .. => .goutReceive h
  | .guestResetOutputs .. => .guestResetOutputs h
  | .guestLate .. => .guestLate h
  | .laneCdrLock .. => .laneCdrLock h
  | .laneBlockLock .. => .laneBlockLock h
  | .laneLockLost .. => .laneLockLost h
  | .laneNoSignal .. => .laneNoSignal h
  | .amReceive .. => .amReceive h
  | .amSend .. => .amSend h
  | .fillSend .. => .fillSend h
  | .spareSwitch .. => .spareSwitch h
  | .laneRotation .. => .laneRotation h
  | .rotationTestDone .. => .rotationTestDone h
  | .linkFlitReceive .. => .linkFlitReceive h
  | .linkctlReceive .. => .linkctlReceive h
  | .ackTimer .. => .ackTimer h
  | .nakRepeat .. => .nakRepeat h
  | .groupClose .. => .groupClose h
  | .valueMessageReceive .. => .valueMessageReceive h
  | .memMessageReceive .. => .memMessageReceive h
  | .msgMessageReceive .. => .msgMessageReceive h
  | .messageForward .. => .messageForward h
  | .hello .. => .hello h
  | .runStart .. => .runStart h
  | .stopAt .. => .stopAt h
  | .slotHome .. => .slotHome h
  | .slotHomeTimer .. => .slotHomeTimer h
  | .pairPrimary .. => .pairPrimary h
  | .memTimeout .. => .memTimeout h
  | .offer .. => .offer h
  | .accept .. => .accept h
  | .authFinish .. => .authFinish h
  | .update .. => .update h
  | .updateAck .. => .updateAck h
  | .reject .. => .reject h
  | .linkAuthTimeout .. => .linkAuthTimeout h
  | .linkAuthRetry .. => .linkAuthRetry h
  | .epochRollover .. => .epochRollover h
  | .chainData .. => .chainData h
  | .chainEnd .. => .chainEnd h
  | .chainStatus .. => .chainStatus h
  | .sync .. => .sync h
  | .pdelayReq .. => .pdelayReq h
  | .pdelayResp .. => .pdelayResp h
  | .announce .. => .announce h
  | .pdelayTimer .. => .pdelayTimer h
  | .syncTimeout .. => .syncTimeout h
  | .masterTimeout .. => .masterTimeout h
  | .announceSend .. => .announceSend h
  | .syncSend .. => .syncSend h
  | .viewExchange .. => .viewExchange h
  | .launchFire .. => .launchFire h
  | .trigMessage .. => .trigMessage h
  | .twinVerdict .. => .twinVerdict h
  | .quickSliceTestDone .. => .quickSliceTestDone h
  | .twinStateCopyDone .. => .twinStateCopyDone h
  | .rejoinPrecopyPass .. => .rejoinPrecopyPass h
  | .refereeLost => .refereeLost h
  | .sequencerLost .. => .sequencerLost h
  | .controllerHeartbeat .. => .controllerHeartbeat h
  | .twinHeartbeatSend .. => .twinHeartbeatSend h
  | .twinHeartbeat .. => .twinHeartbeat h
  | .twinSignature .. => .twinSignature h
  | .twinInput .. => .twinInput h
  | .confirm .. => .confirm h
  | .twinFault .. => .twinFault h
  | .twinState .. => .twinState h
  | .partnerLost => .partnerLost h
  | .joinPrecopyPass .. => .joinPrecopyPass h
  | .configParityFail .. => .configParityFail h
  | .sliceStart .. => .sliceStart h
  | .slicePreloadDone .. => .slicePreloadDone h
  | .sliceSwap .. => .sliceSwap h
  | .cabinetTestDone .. => .cabinetTestDone h
  | .wireRotation .. => .wireRotation h
  | .wireTestDone .. => .wireTestDone h
  | .patrolPass .. => .patrolPass h
  | .engineDispatch .. => .engineDispatch h
  | .unitComplete .. => .unitComplete h
  | .engineReplaced .. => .engineReplaced h
  | .spareEngineCheck .. => .spareEngineCheck h
  | .intakeDelivery .. => .intakeDelivery h
  | .outletWriteOut .. => .outletWriteOut h
  | .rangeClearDone .. => .rangeClearDone h
  | .storeBlockRetired .. => .storeBlockRetired h
  | .captureBlockClose .. => .captureBlockClose h
  | .captureDelivery .. => .captureDelivery h
  | .traceOverflow .. => .traceOverflow h
  | .traceBlockDelivery .. => .traceBlockDelivery h
  | .linkUp .. => .linkUp h
  | .ideKm .. => .ideKm h

/-! ### Operations of Machine/Tick.lean -/

theorem Kept.tickHub (h : Kept t s) {c} : Kept t (s.tickHub c) := .ite h.modTime h
theorem Kept.settle (h : Kept t s) {c} : Kept t (s.settle c) := .bind (.ite h.spareTick h) fun h1 => .ite h1.panicCheck.serveMem h1

/-- A nanosecond that passes leaves the memories canonical: the clock alone is beside what the hubs do. -/
theorem State.tick_memWf (wf : s.memWf) : s.tick.memWf := (Kept.refl s).tickHub.tickHub.settle.settle.memory wf

/-- Settles O3: a step is a command on the state with the queue's rest, or a nanosecond, and both keep the canonical form. -/
theorem stepKeepsMemory : Obligations.StepKeepsMemory := by
  intro s u wf stepped
  unfold step at stepped
  split at stepped
  · cases stepped
    exact State.tick_memWf wf
  next i rest _ => exact (Keeps.exec (Kept.refl { s with pending := rest }) i u stepped).memory wf

end Sys2Proof.Machine
end

section
/-! HBM care and the marches (R135-R137, R150-R157): updates of one Cabinet merge, an event follows or precedes them alike, and an event
written or lost stays so after the next one. -/

namespace Sys2Proof.KV

variable {α : Type}

theorem del_del (k : Nat) (m : KV α) : del k (del k m) = del k m := by
  simp [del]

theorem del_ins (k : Nat) (v : α) (m : KV α) : del k (ins k v m) = del k m := by
  induction m with
  | nil => simp [ins, del]
  | cons e m ih =>
    unfold ins
    split
    · simp [del]
    · by_cases same : e.1 = k
      · simpa [del, same] using ih
      · simpa [del, same] using ih

theorem del_put [DecidableEq α] (d : α) (k : Nat) (v : α) (m : KV α) : del k (put d k v m) = del k m := by
  unfold put
  split
  · exact del_del k m
  · rw [del_ins, del_del]

theorem put_put [DecidableEq α] (d : α) (k : Nat) (v w : α) (m : KV α) :
    put d k v (put d k w m) = put d k v m := by
  rw [put, del_put]; rfl

/-- Two updates of one key are one. -/
theorem upd_upd [DecidableEq α] (d : α) (k : Nat) (f g : α → α) (m : KV α) :
    upd d k f (upd d k g m) = upd d k (fun x => f (g x)) m := by
  rw [upd, get_upd_same, upd, put_put]; rfl

end Sys2Proof.KV

namespace Sys2Proof.Machine

open Sys2Proof

/-! ### Updates in a row -/

theorem State.modCh_modCh (s : State) (c : Ch) (f g : Channel → Channel) : (s.modCh c g).modCh c f = s.modCh c fun h => f (g h) := by
  cases c <;> rfl

theorem State.modDie_modDie (s : State) (c : Ch) (die : Nat) (f g : DieSt → DieSt) :
    (s.modDie c die g).modDie c die f = s.modDie c die fun x => f (g x) := by
  simp only [State.modDie, State.modCh_modCh, KV.upd_upd]

theorem State.modCab_modCab (s : State) (c : Ch) (die i : Nat) (f g : PhysCab → PhysCab) :
    (s.modCab c die i g).modCab c die i f = s.modCab c die i fun p => f (g p) := by
  simp only [State.modCab, State.modDie_modDie, KV.upd_upd]

/-! ### Events around other changes -/

/-- An update of a channel commutes with writing an event. -/
theorem Quiet.modCh {s u : State} (q : Quiet s u) (c : Ch) (f : Channel → Channel) : Quiet (s.modCh c f) (u.modCh c f) := by
  obtain ⟨rest, rings, entries, out, regs⟩ := q
  refine ⟨?_, ?_, ?_, ?_, ?_⟩
  · rw [State.modCh_host, State.modCh_regs, rest]; cases c <;> rfl
  all_goals simpa [State.ring] using by assumption

theorem State.key_of_hutch {s u : State} (h : ∀ c, (u.ch c).hutch = (s.ch c).hutch) (o k i : Nat) : u.key o k i = s.key o k i := by
  have ha : u.chA.hutch = s.chA.hutch := h .a
  have hb : u.chB.hutch = s.chB.hutch := h .b
  simp only [State.key, ha, hb]

theorem State.hutch_modCab (s : State) (x : Ch) (die i : Nat) (f : PhysCab → PhysCab) (c : Ch) :
    ((s.modCab x die i f).ch c).hutch = (s.ch c).hutch := by cases x <;> cases c <;> rfl

theorem Quiet.modCab {s u : State} (q : Quiet s u) (c : Ch) (die i : Nat) (f : PhysCab → PhysCab) :
    Quiet (s.modCab c die i f) (u.modCab c die i f) := by
  unfold State.modCab State.modDie
  exact q.modCh c _

theorem State.pwr_modCab (s : State) (c : Ch) (die i : Nat) (f : PhysCab → PhysCab) : (s.modCab c die i f).pwr = s.pwr :=
  s.modCh_pwr c _

/-- A change of a Cabinet after an event comes to that change before it. -/
theorem Told.modCab {code src part owner : Nat} {sealed : Bool} {args : List Nat} {s u : State} (t : Told code src part owner sealed args s u)
    (c : Ch) (die i : Nat) (f : PhysCab → PhysCab) :
    Told code src part owner sealed args (s.modCab c die i f) (u.modCab c die i f) :=
  ⟨t.1.modCab c die i f, fun on => (t.2 (by rwa [State.pwr_modCab] at on)).of_same (u.modCab_host ..)
    (State.key_of_hutch (u.hutch_modCab c die i f))⟩

theorem State.putEvent_evLost (s : State) (code src part owner : Nat) (sealed : Bool) (args : List Nat) :
    (s.putEvent code src part owner sealed args).host.evLost = s.host.evLost := by
  unfold State.putEvent
  rw [(State.writeEntry_spec _ 96 _).1]; rfl

/-- The event ring's room is read from its control register and from the host port. -/
theorem State.eventRoom_of_same {s u : State} (ctrl : u.reg .hpRingCtrl .a [96] = s.reg .hpRingCtrl .a [96]) (rings : u.host.rings = s.host.rings)
    (perst : u.host.perst = s.host.perst) : u.eventRoom = s.eventRoom := by
  unfold State.eventRoom State.ringOn State.ringFull State.ringSize State.regField State.ring
  rw [ctrl, rings, perst]

theorem State.loseEvent_room (s : State) : s.loseEvent.eventRoom = s.eventRoom :=
  State.eventRoom_of_same (State.reg_setReg_other _ _ (by decide)) rfl rfl

theorem State.modDie_room (s : State) (c : Ch) (die : Nat) (f : DieSt → DieSt) : (s.modDie c die f).eventRoom = s.eventRoom :=
  State.eventRoom_of_same (by rw [State.reg, State.modDie_regs]; rfl) (by rw [State.modDie_host]) (by rw [State.modDie_host])

/-- Events are lost only while the event ring takes none (R242). -/
theorem State.eventRoom_of_lost {s : State} {code src part owner : Nat} {sealed : Bool} {args : List Nat} (on : s.pwr.hostOn = true)
    (lost : 0 < (s.event code src part owner sealed args).host.evLost) :
    (s.event code src part owner sealed args).eventRoom = false := by
  unfold State.event at lost ⊢
  simp only [on, Bool.not_true, Bool.false_eq_true, if_false] at lost ⊢
  split at lost
  · next full => rw [if_pos full, State.loseEvent_room]; simpa using full
  next room =>
  rw [if_neg room]
  split at lost
  · next none => rw [State.putEvent_evLost, none] at lost; exact absurd lost (by decide)
  next some =>
  rw [if_neg some]
  split at lost
  · rw [State.putEvent_evLost, State.putEvent_evLost] at lost; exact absurd lost (Nat.lt_irrefl 0)
  · next full => rw [if_neg full, State.loseEvent_room]; simpa using full

/-- An event stands, or counts as lost, after the next one as well (R242). -/
theorem Wrote.event {code src part owner : Nat} {sealed : Bool} {args : List Nat} {s : State} (h : Wrote code src part owner sealed args s)
    (full : 0 < s.host.evLost → s.eventRoom = false) (code' src' part' owner' : Nat) (sealed' : Bool) (args' : List Nat) :
    Wrote code src part owner sealed args (s.event code' src' part' owner' sealed' args') := by
  rcases h with ⟨e, ph, stands, fields⟩ | lost
  · have q := s.event_quiet code' src' part' owner' sealed' args'
    obtain ⟨l, grows⟩ := q.2.2.1
    refine .inl ⟨e, ph, grows ▸ List.mem_append_left _ stands, ?_⟩
    rwa [State.key_of_hutch fun c => congrArg Channel.hutch (q.ch c)]
  · unfold State.event
    rw [full lost]
    split
    · exact .inr lost
    · exact .inr (State.loseEvent_lost s)

/-! ### Refresh and heat (R151) -/

theorem refreshAndHeat : Clauses.RefreshAndHeat := by
  intro s c t on
  refine ⟨?_, fun hot => ?_, fun cold => ?_, fun low high => ?_⟩
  · show execRefresh c s = _
    rw [execRefresh, if_pos on]
  all_goals
    show execHbmHot c t s = _
    rw [execHbmHot, if_neg (by simp [on])]
  · rw [if_pos hot]
  · rw [if_neg (by omega), if_pos cold]
  · rw [if_neg (by omega), if_neg (by omega)]

/-! ### The spare pseudo-channel (R156) -/

@[simp] theorem State.storeBits_ch (s : State) (r : Reg) (x : Ch) (idx : List Nat) (v : Word32) (c : Ch) :
    (s.storeBits r x idx v).ch c = s.ch c := by cases c <;> rfl

theorem State.sparePc_free {s : State} {c : Ch} (free : (s.ch c).hbm.replaced = none) (idle : (s.ch c).hbm.sparing = none) (pc : Nat) :
    s.sparePc c pc = (s.modHbm c fun h => { h with sparing := some pc, sparePos := 0 }).hubEvent c 0x2103 [chNum c, pc, 1] := by
  simp [State.sparePc, free, idle]

theorem pseudoChannelSpare : Clauses.PseudoChannelSpare := by
  intro s c
  refine ⟨fun value answers on start real => ⟨fun free idle => ?_, fun used => ?_⟩, fun bad pc copying alone => ?_⟩
  · refine ⟨_, ?_, State.event_told ..⟩
    show execHbmSpareStart c value s = _
    unfold execHbmSpareStart
    simp only [answers, on, start, free, idle, State.storeBits_ch, Bool.true_eq_false, if_false, false_or, if_neg (Nat.not_lt.mpr real),
      Option.isSome_none, Bool.false_eq_true, if_true]
    rw [State.sparePc_free (by rwa [State.storeBits_ch]) (by rwa [State.storeBits_ch])]; rfl
  · refine ⟨_, ?_, State.event_told ..⟩
    show execHbmSpareStart c value s = _
    unfold execHbmSpareStart
    simp only [answers, on, start, used, State.storeBits_ch, Bool.true_eq_false, if_false, false_or, if_neg (Nat.not_lt.mpr real), if_true]
    rfl
  · refine ⟨_, s.modHbm c fun h => { h with sparing := none, sparePos := 0, replaced := some pc, waitSparing := [], poison := h.poison ++
      (bad.flatMap fun b => linesOf ((b * 31 + pc) * 256) 256).filter fun a => !h.poison.contains a }, ?_, State.event_told .., ?_, ?_, ?_⟩
    · show execPcSparingDone c bad s = _
      unfold execPcSparingDone
      simp only [copying, alone, List.foldl_nil]
      rfl
    · cases c <;> simp_all [State.modHbm, State.modCh, State.ch]
    · simp +contextual [State.modHbm]
    · intro b hb a ha
      by_cases known : a ∈ (s.ch c).hbm.poison
      · simp [State.modHbm, known]
      · have line : ∃ b ∈ bad, a ∈ linesOf ((b * 31 + pc) * 256) 256 := ⟨b, hb, ha⟩
        simp [State.modHbm, known, line]

/-! ### Marches (R135-R137) -/

theorem State.logicalOf_modCab (s : State) (c : Ch) (die i : Nat) (f : PhysCab → PhysCab) (j : Nat) :
    (s.modCab c die i f).logicalOf c die j = s.logicalOf c die j := by
  simp only [State.logicalOf, State.die_modCab, DieSt.phys]

theorem Quiet.logicalOf {s u : State} (q : Quiet s u) (c : Ch) (die i : Nat) : u.logicalOf c die i = s.logicalOf c die i := by
  simp only [State.logicalOf, q.die]

/-- Starting a march (R136) in the state of the write. -/
theorem exec_marchStart {s : State} {c : Ch} {die cab : Nat} {value : Word32} (mine : s.channels.contains c = true) (hdie : die < 2)
    (hcab : cab < 34) (answers : s.portAnswers = true) (on : s.domOn .array c = true) (start : bitAt value.toNat 0 = true)
    (life : s.sec.lifecycle = .field) :
    exec (.marchStart c die cab value) s = .next (
      if s.cabOwned c die cab then (s.storeBits .marchCtrl c [die, cab] value).hubEvent c 0x2004 [die, cab]
      else if (s.cab c die cab).march.isSome then s.storeBits .marchCtrl c [die, cab] value
      else (s.storeBits .marchCtrl c [die, cab] value).modCab c die cab fun p =>
        { p with march := some { run := field value.toNat 1 1, design := none } }) := by
  show execMarchStart c die cab value s = _
  have place : ¬(s.channels.contains c = false ∨ 2 ≤ die ∨ 34 ≤ cab) := by
    rw [mine]; simp only [Bool.true_eq_false, false_or]; omega
  have stored : (s.storeBits .marchCtrl c [die, cab] value).sec = s.sec := rfl
  have owned : (s.storeBits .marchCtrl c [die, cab] value).cabOwned c die cab = s.cabOwned c die cab := by cases c <;> rfl
  have there : (s.storeBits .marchCtrl c [die, cab] value).cab c die cab = s.cab c die cab := by cases c <;> rfl
  unfold execMarchStart
  simp only [answers, if_neg place, on, start, stored, life, owned, there]
  simp

/-- What a failed march leaves of its Cabinet. -/
def PhysCab.marchFailedAt (p : PhysCab) (bank word : Nat) : PhysCab :=
  { p with march := none, failed := true, marchFailed := true, failBank := bank % 16, failWord := word % 8192 }

/-- The end of a march of no design (R137). -/
theorem exec_marchDone {s : State} {c : Ch} {die cab run : Nat} (runs : (s.cab c die cab).march = some { run := run, design := none }) :
    exec (.marchDone c die cab none) s = .next (s.modCab c die cab fun p => { p with march := none }) := by
  show execMarchDone c die cab none s = _
  unfold execMarchDone
  rw [runs]

/-- The end of a march of no design that failed (R137): the spare is due for the logical Cabinet, or the spares of the die are one fewer. -/
theorem exec_marchDone_failed {s : State} {c : Ch} {die cab run : Nat} (runs : (s.cab c die cab).march = some { run := run, design := none })
    (bank word : Nat) :
    exec (.marchDone c die cab (some (bank, word))) s = .next (
      let u := (s.modCab c die cab (·.marchFailedAt bank word)).hubEvent c 0x2005 [die, cab, bank % 16, word % 8192]
      if (s.logicalOf c die cab).isSome then u.modCab c die cab fun p => { p with repairDue := true } else u.spareFailed c die) := by
  show execMarchDone c die cab (some (bank, word)) s = _
  unfold execMarchDone
  rw [runs]
  simp only [State.modCab_modCab]
  have place : ((s.modCab c die cab (·.marchFailedAt bank word)).hubEvent c 0x2005 [die, cab, bank % 16, word % 8192]).logicalOf c die cab =
      s.logicalOf c die cab := by
    rw [State.hubEvent, (State.event_quiet ..).logicalOf, State.logicalOf_modCab]
  unfold PhysCab.marchFailedAt at place ⊢
  rw [place]
  cases s.logicalOf c die cab <;> rfl

theorem State.cab_modDie_of_cabs (s : State) (c : Ch) (die : Nat) {f : DieSt → DieSt} (h : ∀ x, (f x).cabs = x.cabs) (cab : Nat) :
    (s.modDie c die f).cab c die cab = s.cab c die cab := by
  rw [State.cab, State.die_modDie_same, h, State.cab]

theorem State.hutch_modDie (s : State) (x : Ch) (die : Nat) (f : DieSt → DieSt) (c : Ch) : ((s.modDie x die f).ch c).hutch = (s.ch c).hutch := by
  cases x <;> cases c <;> rfl

/-- What an event has been written to, or lost in, stays through a change of a die. -/
theorem Wrote.modDie {code src part owner : Nat} {sealed : Bool} {args : List Nat} {s : State} (h : Wrote code src part owner sealed args s)
    (c : Ch) (die : Nat) (f : DieSt → DieSt) : Wrote code src part owner sealed args (s.modDie c die f) :=
  h.of_same (s.modDie_host ..) (State.key_of_hutch (s.hutch_modDie c die f))

/-- What stands of a state when a spare fails (R345): its Cabinets, its designs, and an event that is written or lost. -/
def SparesOnly (code src part owner : Nat) (args : List Nat) (c : Ch) (die cab : Nat) (s u : State) : Prop :=
  u.cab c die cab = s.cab c die cab ∧ u.designs = s.designs ∧
    (Wrote code src part owner false args s → (0 < s.host.evLost → s.eventRoom = false) → Wrote code src part owner false args u)

theorem State.gradeDown_spec (s : State) (c : Ch) (die cause : Nat) (code src part owner : Nat) (args : List Nat) (cab : Nat) :
    SparesOnly code src part owner args c die cab s (s.gradeDown c die cause) := by
  unfold State.gradeDown
  split
  · exact ⟨rfl, rfl, fun h _ => h⟩
  · have q := State.event_quiet (({ s with id := { s.id with reduced := true } } : State).modDie c die fun x => { x with reported := true })
      0x9003 (1 + chNum c) 0xFF 0 false [die, cause]
    refine ⟨(State.cab_of_die (q.die c die) cab).trans ?_, q.designs.trans (State.modDie_designs ..), fun h full => ?_⟩
    · rw [State.cab_modDie_of_cabs _ _ _ (by exact fun _ => rfl)]; cases c <;> rfl
    · refine Wrote.event (Wrote.modDie (h.of_same (u := { s with id := { s.id with reduced := true } }) rfl fun _ _ _ => rfl) c die _) ?_ ..
      rw [State.modDie_host, State.modDie_room]
      exact full

theorem State.spareFailed_spec (s : State) (c : Ch) (die : Nat) (code src part owner : Nat) (args : List Nat) (cab : Nat) :
    SparesOnly code src part owner args c die cab s (s.spareFailed c die) := by
  have settled : (s.modDie c die DieSt.settle).cab c die cab = s.cab c die cab := s.cab_modDie_of_cabs c die (f := DieSt.settle) (fun _ => rfl) cab
  unfold State.spareFailed State.spareCheck
  split
  · obtain ⟨there, designs, wrote⟩ := (s.modDie c die DieSt.settle).gradeDown_spec c die 1 code src part owner args cab
    refine ⟨there.trans settled, by rw [designs, State.modDie_designs], fun h full => wrote (h.modDie ..) ?_⟩
    rw [State.modDie_host, State.modDie_room]
    exact full
  · exact ⟨settled, s.modDie_designs .., fun h _ => h.modDie ..⟩

theorem marches : Clauses.Marches := by
  intro s c die cab mine hdie hcab
  refine ⟨fun value answers on start life => ?_,
    fun run runs => ⟨exec_marchDone runs, fun bank word => ⟨fun carries => ?_, fun spare => ?_⟩⟩⟩
  · rw [exec_marchStart mine hdie hcab answers on start life]
    refine ⟨fun owned => ⟨_, by rw [if_pos owned]; rfl, State.event_told ..⟩, fun free idle => ?_⟩
    simp [free, idle]
  · refine ⟨_, by rw [exec_marchDone_failed runs, if_pos carries], ?_⟩
    have told := (State.event_told (s.modCab c die cab (·.marchFailedAt bank word)) 0x2005 (1 + chNum c) 0xFF 0 false
      [die, cab, bank % 16, word % 8192]).modCab c die cab fun p => { p with repairDue := true }
    rwa [State.modCab_modCab] at told
  · refine ⟨_, by rw [exec_marchDone_failed runs, if_neg (by simp [spare])], ?_⟩
    have failed := (State.cab_modCab_same s c die cab (·.marchFailedAt bank word))
    generalize hw : s.modCab c die cab (·.marchFailedAt bank word) = w at *
    have told := w.event_told 0x2005 (1 + chNum c) 0xFF 0 false [die, cab, bank % 16, word % 8192]
    obtain ⟨there, designs, wrote⟩ := (w.hubEvent c 0x2005 [die, cab, bank % 16, word % 8192]).spareFailed_spec c die 0x2005 (1 + chNum c) 0xFF 0
      [die, cab, bank % 16, word % 8192] cab
    refine ⟨?_, ?_, fun on => ?_⟩
    · rw [there, State.hubEvent, State.cab_of_die (told.1.die c die), failed]; rfl
    · rw [designs, State.hubEvent, told.1.designs, ← hw, State.modCab_designs]
    · have on' : w.pwr.hostOn = true := by rwa [← hw, State.pwr_modCab]
      exact wrote (told.2 on') (State.eventRoom_of_lost on')

/-- Settles O31: the spare and the marches by what each command leaves, the failed march of a spare past the event of its grade. -/
theorem hbmCareAndMarches : Obligations.HbmCareAndMarches := ⟨pseudoChannelSpare, refreshAndHeat, marches⟩

end Sys2Proof.Machine
end

section
/-! Packets from the hub (R162-R170): none of them asks for an output of a Cabinet, so a fabric that holds no other packet comes to rest
without changing anything but the fabrics. -/

namespace Sys2Proof.Machine

open Sys2Proof

/-! ### A fabric of packets that no Cabinet takes -/

/-- An output that is not a Cabinet's. -/
def OffArray (out : Nat) : Prop := out < 1024 ∨ 2048 ≤ out

/-- No packet at an input asks for a Cabinet, and none has landed there. -/
structure FabSt.OffArray (f : FabSt) : Prop where
  flows : ∀ x ∈ f.flows, Machine.OffArray x.out
  landed : ∀ e ∈ f.landed, Machine.OffArray e.1

namespace FabSt

variable {f : FabSt}

theorem OffArray.of_eq {g : FabSt} (h : f.OffArray) (hf : g.flows = f.flows) (hl : g.landed = f.landed) : g.OffArray :=
  ⟨hf ▸ h.flows, hl ▸ h.landed⟩

theorem OffArray.owe (h : f.OffArray) (input vc n : Nat) : (f.owe input vc n).OffArray := h.of_eq (by simp) (by simp)

theorem OffArray.pushAll (h : f.OffArray) : f.pushAll.OffArray := by
  unfold FabSt.pushAll
  generalize f.links.filter _ = ends
  induction ends generalizing f with
  | nil => exact h
  | cons e ends ih => exact ih (h.of_eq rfl rfl)

/-- A grant marks and ages packets; the outputs that they ask for stay. -/
theorem OffArray.grant (h : f.OffArray) (out : Nat) : (f.grant out).OffArray := by
  unfold FabSt.grant
  extract_lets cs
  split
  · exact h
  · refine ⟨fun x hx => ?_, h.landed⟩
    obtain ⟨e, he, rfl⟩ := List.mem_map.mp hx
    have kept := h.flows e.2 (List.of_mem_zip he).2
    dsimp only
    split
    · exact kept
    · split <;> exact kept

/-- A packet that passes lands where it asked to, or leaves fewer flits for the same output. -/
theorem OffArray.pass (h : f.OffArray) {x : Flow} (hx : x ∈ f.flows) (k : Nat) : (f.pass k x).OffArray := by
  have own := h.flows x hx
  unfold FabSt.pass
  extract_lets fl
  clear_value fl
  split
  · refine OffArray.owe ⟨fun y hy => h.flows y (List.mem_of_mem_eraseIdx hy), fun e he => ?_⟩ _ _ _
    rcases List.mem_append.mp he with he | he
    · exact h.landed e he
    · obtain rfl := List.mem_singleton.mp he; exact own
  · split
    · exact h
    · extract_lets last y g t
      have left : ({ f with flows := if last then f.flows.eraseIdx k else f.flows.set k y } : FabSt).OffArray := by
        refine ⟨fun z hz => ?_, h.landed⟩
        dsimp only at hz
        split at hz
        · exact h.flows z (List.mem_of_mem_eraseIdx hz)
        · rcases List.mem_or_eq_of_mem_set hz with hz | rfl
          · exact h.flows z hz
          · exact own
      have rest : g.OffArray := left.owe _ _ _
      split <;> exact rest.of_eq rfl rfl

theorem OffArray.move {g : FabSt} (h : f.OffArray) (hm : f.move = some g) : g.OffArray := by
  unfold FabSt.move at hm
  split at hm
  · next e he =>
    obtain rfl := Option.some.inj hm
    exact h.pass (List.of_mem_zip (List.mem_of_find?_eq_some he)).2 _
  · split at hm
    · obtain rfl := Option.some.inj hm
      exact h.grant _
    · exact absurd hm (by simp)

theorem OffArray.pump (h : f.OffArray) (n : Nat) : (f.pump n).OffArray := by
  induction n generalizing f with
  | zero => exact h.pushAll
  | succ n ih =>
    rw [FabSt.pump]
    split
    · next g hg => exact ih (h.move hg)
    · exact h.pushAll

end FabSt

/-! ### The module around it -/

/-- `u` is `s` but for its fabrics, and in that of channel `c` no packet is for a Cabinet. -/
structure State.Routed (c : Ch) (s u : State) : Prop where
  rest : ∃ a b, u = { s with chA := { s.chA with fab := a }, chB := { s.chB with fab := b } }
  off : (u.ch c).fab.OffArray

namespace State

variable {c : Ch} {s u v : State}

theorem Routed.refl (h : (s.ch c).fab.OffArray) : s.Routed c s := ⟨⟨s.chA.fab, s.chB.fab, rfl⟩, h⟩

theorem Routed.trans (h : s.Routed c u) (k : u.Routed c v) : s.Routed c v := by
  obtain ⟨a, b, rfl⟩ := h.rest
  obtain ⟨a', b', rfl⟩ := k.rest
  exact ⟨⟨a', b', rfl⟩, k.off⟩

theorem Routed.host (h : s.Routed c u) : u.host = s.host := by obtain ⟨a, b, rfl⟩ := h.rest; rfl
theorem Routed.regs (h : s.Routed c u) : u.regs = s.regs := by obtain ⟨a, b, rfl⟩ := h.rest; rfl
theorem Routed.parts (h : s.Routed c u) : u.parts = s.parts := by obtain ⟨a, b, rfl⟩ := h.rest; rfl
theorem Routed.designs (h : s.Routed c u) : u.designs = s.designs := by obtain ⟨a, b, rfl⟩ := h.rest; rfl
theorem Routed.hbm (h : s.Routed c u) (x : Ch) : (u.ch x).hbm = (s.ch x).hbm := by obtain ⟨a, b, rfl⟩ := h.rest; cases x <;> rfl
theorem Routed.hutch (h : s.Routed c u) (x : Ch) : (u.ch x).hutch = (s.ch x).hutch := by
  obtain ⟨a, b, rfl⟩ := h.rest; cases x <;> rfl

theorem Routed.modFab (h : s.Routed c u) {g : FabSt → FabSt} (hg : ∀ f : FabSt, f.OffArray → (g f).OffArray) :
    s.Routed c (u.modFab c g) := by
  refine h.trans ⟨?_, by simpa [State.modFab] using hg _ h.off⟩
  cases c
  · exact ⟨_, _, rfl⟩
  · exact ⟨_, _, rfl⟩

/-- What moves in the other channel's fabric does not count. -/
theorem Routed.modOther (h : s.Routed c u) (g : FabSt → FabSt) : s.Routed c (u.modFab (otherCh c) g) := by
  refine h.trans ⟨?_, ?_⟩
  · cases c
    · exact ⟨_, _, rfl⟩
    · exact ⟨_, _, rfl⟩
  · rw [State.modFab, State.modCh_other _ _ (by cases c <;> decide)]
    exact h.off

theorem Routed.modStat (h : s.Routed c u) (i : Nat) (g : InitStat → InitStat) : s.Routed c (u.modStat c i g) :=
  h.modFab fun _ k => k.of_eq rfl rfl

theorem hubPort_lt (s : State) (c : Ch) (die : Nat) {node : Nat} (h : node < 64) : s.hubPort c die node < 17 := by
  have part : s.nodePart c die node < 8 := by
    unfold State.nodePart nodeRow
    split
    · split <;> omega
    · omega
  unfold State.hubPort
  extract_lets p k
  have port : k < 16 := by dsimp only [k, p]; split <;> omega
  split
  · split <;> omega
  · omega

/-- A packet in the hub is for a unit of the hub, a hub port or a bridge (R164). -/
theorem outOf_hub (s : State) (c : Ch) (w : Nat) : OffArray (s.outOf c .hub w) := by
  unfold State.outOf OffArray unitOut
  extract_lets dch ddie dnode
  have node : dnode < 64 := Nat.mod_lt _ (by decide)
  have die : ddie < 4 := Nat.mod_lt _ (by decide)
  have port := s.hubPort_lt c ddie node
  dsimp only
  split
  · omega
  · split
    · split <;> omega
    · omega

theorem Routed.enterHub (h : s.Routed c u) (input : Nat) (flits : List (BitVec 256)) (left : Nat) :
    s.Routed c (u.enter c .hub input flits left) := by
  unfold State.enter
  cases flits with
  | nil => exact h
  | cons w ws =>
    dsimp only
    split
    · exact h
    · refine h.modFab fun f n => ⟨fun x hx => ?_, n.landed⟩
      rcases List.mem_append.mp hx with hx | hx
      · exact n.flows x hx
      · obtain rfl := List.mem_singleton.mp hx; exact u.outOf_hub c _

/-- A packet that lands in no Cabinet does nothing there. -/
theorem landPacket_offArray (s : State) (c : Ch) {out : Nat} (flits : List (BitVec 256)) (h : OffArray out) :
    s.landPacket c out flits = (true, s) := by
  unfold State.landPacket
  cases flits with
  | nil => rfl
  | cons w ws =>
    dsimp only
    rw [if_pos (h.imp_right .inl)]

theorem Routed.takeLanded (h : s.Routed c u) : s.Routed c (u.takeLanded c) := by
  have taken : ∀ (l : List (Nat × List (BitVec 256))), (∀ e ∈ l, OffArray e.1) → ∀ v : State,
      l.foldl (fun (a : State × List (Nat × List (BitVec 256))) e =>
        ((a.1.landPacket c e.1 e.2).2, if (a.1.landPacket c e.1 e.2).1 then a.2 else a.2 ++ [e])) (v, []) = (v, []) := by
    intro l hl v
    induction l with
    | nil => rfl
    | cons e l ih =>
      rw [List.foldl_cons]
      simp only [landPacket_offArray v c e.2 (hl e (by simp)), if_true]
      exact ih fun x hx => hl x (by simp [hx])
  unfold State.takeLanded
  extract_lets l r
  have rest : r = (u.modFab c fun f => { f with landed := [] }, []) := taken _ h.off.landed _
  rw [rest]
  have emptied : s.Routed c (u.modFab c fun f => { f with landed := [] }) := h.modFab fun _ n => ⟨n.flows, by simp⟩
  exact emptied.modFab fun _ n => ⟨n.flows, n.landed⟩

theorem Routed.crossBridge (h : s.Routed c u) : s.Routed c (u.crossBridge c) := by
  unfold State.crossBridge
  extract_lets o l q n s1
  split
  · exact h
  · have left : s.Routed c (u.modFab c fun f => { f with across := f.across.drop n }) := h.modFab fun _ k => k.of_eq rfl rfl
    exact left.modOther _

theorem Routed.fabSettle (h : s.Routed c u) : s.Routed c (u.fabSettle c) := by
  unfold State.fabSettle
  extract_lets s1 s2
  have pumped : s.Routed c s1 := h.modFab fun _ n => n.pump _
  have landed : s.Routed c s2 := by
    dsimp only [s2]
    split
    · exact pumped
    · exact pumped.takeLanded.modFab fun _ n => n.pump _
  split
  · exact landed
  · exact landed.crossBridge

/-- A packet that a unit of the hub sends (R164). -/
theorem Routed.injectHub (h : s.Routed c u) (input stat : Nat) (flits : List (BitVec 256)) :
    s.Routed c (u.inject c .hub input stat flits) :=
  ((h.enterHub input flits 0).modStat stat _).fabSettle

end State

/-- A fabric at rest. -/
theorem FabSt.offArray_of_empty {f : FabSt} (hf : f.flows = []) (hl : f.landed = []) : f.OffArray :=
  ⟨by simp [hf], by simp [hl]⟩

end Sys2Proof.Machine
end

section
/-! HBM reads, the drain and the HDM window (R73, R145-R155, R225): what an uncorrectable read leaves alone, which lines a run of bytes
touches, then the three commands. -/

namespace Sys2Proof.KV

/-- What is read from a table after a run of places has been written. -/
theorem get_foldl_put_range {α : Type} [DecidableEq α] (d : α) (g : Nat → α) (lo n : Nat) (t : KV α) (w : Nat) :
    get d w ((List.range n).foldl (fun t i => put d (lo + i) (g i) t) t) =
      if lo ≤ w ∧ w < lo + n then g (w - lo) else get d w t := by
  induction n with
  | zero => rw [if_neg (by omega)]; rfl
  | succ n ih =>
    rw [List.range_succ, List.foldl_append, List.foldl_cons, List.foldl_nil]
    by_cases last : w = lo + n
    · subst last; rw [get_put_same, if_pos (by omega), Nat.add_sub_cancel_left]
    · rw [get_put_other _ _ last, ih]
      by_cases within : lo ≤ w ∧ w < lo + n
      · rw [if_pos within, if_pos (by omega)]
      · rw [if_neg within, if_neg (by omega)]

end Sys2Proof.KV

namespace Sys2Proof.Machine

open Sys2Proof

/-! ### An uncorrectable read (R154) -/

namespace State

@[simp] theorem modHbm_hbm (s : State) (c : Ch) (f : HbmSt → HbmSt) : ((s.modHbm c f).ch c).hbm = f (s.ch c).hbm := by
  simp [State.modHbm]

theorem modHbm_other (s : State) (c : Ch) (f : HbmSt → HbmSt) : (s.modHbm c f).ch (otherCh c) = s.ch (otherCh c) := by
  cases c <;> rfl

theorem modHbm_key (s : State) (c : Ch) (f : HbmSt → HbmSt) (o k i : Nat) : (s.modHbm c f).key o k i = s.key o k i :=
  State.key_of_hutch (fun x => by cases c <;> cases x <;> rfl) o k i

theorem reg_modHbm (s : State) (c : Ch) (f : HbmSt → HbmSt) (r : Reg) (x : Ch) (idx : List Nat) :
    (s.modHbm c f).reg r x idx = s.reg r x idx := by cases c <;> rfl

theorem reg_of_quiet {s u : State} (q : Quiet s u) {r : Reg} {c : Ch} {idx : List Nat} (h : regOff r c idx ≠ regOff .hpEventLost .a []) :
    u.reg r c idx = s.reg r c idx := q.2.2.2.2 _ _ h

end State

/-- `u` is `s` after HBM of a channel has failed a read: designs, partitions and the other channel stay, and so do the contents, the requests
and the poison of the stack. -/
structure State.HbmHeld (c : Ch) (s u : State) : Prop where
  designs : u.designs = s.designs
  parts : u.parts = s.parts
  other : (u.ch (otherCh c)).hbm = (s.ch (otherCh c)).hbm
  mem : (u.ch c).hbm.mem = (s.ch c).hbm.mem
  reads : (u.ch c).hbm.reads = (s.ch c).hbm.reads
  wbuf : (u.ch c).hbm.wbuf = (s.ch c).hbm.wbuf
  poison : (u.ch c).hbm.poison = (s.ch c).hbm.poison

namespace State

variable {c : Ch} {s u v : State}

theorem HbmHeld.refl : s.HbmHeld c s := ⟨rfl, rfl, rfl, rfl, rfl, rfl, rfl⟩

theorem HbmHeld.trans (h : s.HbmHeld c u) (k : u.HbmHeld c v) : s.HbmHeld c v :=
  ⟨k.designs.trans h.designs, k.parts.trans h.parts, k.other.trans h.other, k.mem.trans h.mem, k.reads.trans h.reads, k.wbuf.trans h.wbuf,
    k.poison.trans h.poison⟩

theorem HbmHeld.of_ch (designs : u.designs = s.designs) (parts : u.parts = s.parts) (ch : ∀ x, u.ch x = s.ch x) : s.HbmHeld c u :=
  ⟨designs, parts, by rw [ch], by rw [ch], by rw [ch], by rw [ch], by rw [ch]⟩

theorem HbmHeld.quiet (h : s.HbmHeld c u) (q : Quiet u v) : s.HbmHeld c v := h.trans (.of_ch q.designs q.parts q.ch)

theorem HbmHeld.setReg (h : s.HbmHeld c u) (r : Reg) (x : Ch) (idx : List Nat) (w : Word32) : s.HbmHeld c (u.setReg r x idx w) :=
  h.trans (.of_ch rfl rfl fun y => by cases y <;> rfl)

/-- A change of what the controller knows of its pseudo-channels. -/
theorem HbmHeld.modHbm (h : s.HbmHeld c u) {f : HbmSt → HbmSt}
    (hf : ∀ x, (f x).mem = x.mem ∧ (f x).reads = x.reads ∧ (f x).wbuf = x.wbuf ∧ (f x).poison = x.poison) : s.HbmHeld c (u.modHbm c f) := by
  obtain ⟨mem, reads, wbuf, poison⟩ := hf (u.ch c).hbm
  exact h.trans ⟨State.modCh_designs .., State.modCh_parts .., by rw [State.modHbm_other], by rw [State.modHbm_hbm, mem],
    by rw [State.modHbm_hbm, reads], by rw [State.modHbm_hbm, wbuf], by rw [State.modHbm_hbm, poison]⟩

theorem HbmHeld.sparePc (h : s.HbmHeld c u) (pc : Nat) : s.HbmHeld c (u.sparePc c pc) := by
  unfold State.sparePc
  extract_lets x
  split
  · refine HbmHeld.quiet ?_ (State.event_quiet ..)
    exact h.modHbm fun _ => ⟨rfl, rfl, rfl, rfl⟩
  · split
    · exact h.modHbm fun _ => ⟨rfl, rfl, rfl, rfl⟩
    · refine HbmHeld.quiet ?_ (State.event_quiet ..)
      exact h.modHbm fun _ => ⟨rfl, rfl, rfl, rfl⟩

theorem reg_sparePc (s : State) (c : Ch) (pc : Nat) {r : Reg} {x : Ch} {idx : List Nat} (h : regOff r x idx ≠ regOff .hpEventLost .a []) :
    (s.sparePc c pc).reg r x idx = s.reg r x idx := by
  unfold State.sparePc
  extract_lets y
  split
  · exact (reg_of_quiet (State.event_quiet ..) h).trans (State.reg_modHbm ..)
  · split
    · exact State.reg_modHbm ..
    · exact (reg_of_quiet (State.event_quiet ..) h).trans (State.reg_modHbm ..)

/-- The registers of an uncorrectable read: its count, and where it was. -/
def uncorrRecorded (s : State) (c : Ch) (lo hi : Word32) : State :=
  ((s.count .hbmUncorrected c []).freeNext.setReg .hbmErrLastLo c [] lo).setReg .hbmErrLastHi c [] hi

/-- An uncorrectable read before it counts against its pseudo-channel's limit (R154). -/
def uncorrReported (s : State) (c : Ch) (pc part owner : Nat) (args : List Nat) : State :=
  (s.event 0x2102 (1 + chNum c) part owner false args).modHbm c fun h => { h with uncorr := KV.upd 0 pc (· + 1) h.uncorr }

/-- An uncorrectable read is recorded and reported; past the limit of its pseudo-channel, unless that is 0, it asks for the spare. -/
theorem hbmUncorrected_cases (s : State) (c : Ch) (addr requester kind : Nat) :
    ∃ lo hi pc part owner,
      s.hbmUncorrected c addr requester kind = (s.uncorrRecorded c lo hi).uncorrReported c pc part owner [chNum c, requester, kind] ∨
      ((s.uncorrRecorded c lo hi).uncorrReported c pc part owner [chNum c, requester, kind]).regField .hbmSpareCtrl c [] 16 8 ≠ 0 ∧
      s.hbmUncorrected c addr requester kind =
        ((s.uncorrRecorded c lo hi).uncorrReported c pc part owner [chNum c, requester, kind]).sparePc c pc := by
  unfold State.hbmUncorrected
  extract_lets who pc phys fr rg s1 s2 s3 s4 s5 lim n
  split
  · exact ⟨_, _, _, _, _, .inl rfl⟩
  · next limit => exact ⟨_, _, _, _, _, .inr ⟨fun zero => limit (.inl zero), rfl⟩⟩

theorem reg_uncorrReported (s : State) (c : Ch) (pc part owner : Nat) (args : List Nat) {r : Reg} {x : Ch} {idx : List Nat}
    (h : regOff r x idx ≠ regOff .hpEventLost .a []) : (s.uncorrReported c pc part owner args).reg r x idx = s.reg r x idx :=
  (State.reg_modHbm ..).trans (reg_of_quiet (State.event_quiet ..) h)

/-- The count of an uncorrectable read is its register's only change that is not its place (R154). -/
theorem reg_uncorrRecorded (s : State) (c : Ch) (lo hi : Word32) :
    (s.uncorrRecorded c lo hi).reg .hbmUncorrected c [] = satAdd (s.reg .hbmUncorrected c []) 1 ∧
    (s.uncorrRecorded c lo hi).reg .hbmSpareCtrl c [] = s.reg .hbmSpareCtrl c [] := by
  have apart : ∀ r : Reg, r = .hbmErrLastLo ∨ r = .hbmErrLastHi → regOff .hbmUncorrected c [] ≠ regOff r c [] ∧
      regOff .hbmSpareCtrl c [] ≠ regOff r c [] ∧ regOff .hbmSpareCtrl c [] ≠ regOff .hbmUncorrected c [] := by
    rintro r (rfl | rfl) <;> cases c <;> decide
  obtain ⟨counted, spare, own⟩ := apart .hbmErrLastLo (.inl rfl)
  obtain ⟨counted', spare', -⟩ := apart .hbmErrLastHi (.inr rfl)
  constructor
  · rw [uncorrRecorded, reg_setReg_other _ _ counted', reg_setReg_other _ _ counted]
    exact reg_of_counted rfl
  · rw [uncorrRecorded, reg_setReg_other _ _ spare', reg_setReg_other _ _ spare]
    exact reg_setReg_other _ _ own

theorem HbmHeld.uncorrRecorded (s : State) (c : Ch) (lo hi : Word32) : s.HbmHeld c (s.uncorrRecorded c lo hi) := by
  have counted : s.HbmHeld c (s.count .hbmUncorrected c []).freeNext := .of_ch rfl rfl fun y => by cases y <;> rfl
  exact (counted.setReg ..).setReg ..

theorem HbmHeld.uncorrReported (h : s.HbmHeld c u) (pc part owner : Nat) (args : List Nat) :
    s.HbmHeld c (u.uncorrReported c pc part owner args) := by
  refine HbmHeld.modHbm ?_ fun _ => ⟨rfl, rfl, rfl, rfl⟩
  exact h.quiet (State.event_quiet ..)

/-- An uncorrectable read is counted, and it changes no contents, no request and no poison (R154). -/
theorem hbmUncorrected_spec (s : State) (c : Ch) (addr requester kind : Nat) :
    s.HbmHeld c (s.hbmUncorrected c addr requester kind) ∧
    (s.hbmUncorrected c addr requester kind).reg .hbmUncorrected c [] = satAdd (s.reg .hbmUncorrected c []) 1 := by
  have apart : regOff .hbmUncorrected c [] ≠ regOff .hpEventLost .a [] := by cases c <;> decide
  obtain ⟨lo, hi, pc, part, owner, same | ⟨-, same⟩⟩ := s.hbmUncorrected_cases c addr requester kind
  all_goals
    rw [same]
    have held := (HbmHeld.uncorrRecorded s c lo hi).uncorrReported pc part owner [chNum c, requester, kind]
    have counted := (reg_uncorrReported _ c pc part owner [chNum c, requester, kind] apart).trans (s.reg_uncorrRecorded c lo hi).1
  · exact ⟨held, counted⟩
  · exact ⟨held.sparePc pc, (reg_sparePc _ c pc apart).trans counted⟩

/-- With a limit of 0 no pseudo-channel is spared, and the event is the last that an uncorrectable read does (R154, R157). -/
theorem hbmUncorrected_wrote {s : State} {c : Ch} (off : s.regField .hbmSpareCtrl c [] 16 8 = 0) (on : s.pwr.hostOn = true)
    (addr requester kind : Nat) : ∃ part owner,
      Wrote 0x2102 (1 + chNum c) part owner false [chNum c, requester, kind] (s.hbmUncorrected c addr requester kind) := by
  have apart : regOff .hbmSpareCtrl c [] ≠ regOff .hpEventLost .a [] := by cases c <;> decide
  obtain ⟨lo, hi, pc, part, owner, same | ⟨limit, -⟩⟩ := s.hbmUncorrected_cases c addr requester kind
  · refine ⟨part, owner, ?_⟩
    rw [same]
    have told := (s.uncorrRecorded c lo hi).event_told 0x2102 (1 + chNum c) part owner false [chNum c, requester, kind]
    exact (told.2 on).of_same (State.modCh_host ..) fun _ _ _ => State.modHbm_key ..
  · refine absurd ?_ limit
    rw [State.regField, reg_uncorrReported _ c pc part owner _ apart, (s.reg_uncorrRecorded c lo hi).2]
    exact off

end State

theorem State.modRegs_ch (s : State) (f : RegSt → RegSt) (c : Ch) : (s.modRegs f).ch c = s.ch c := by cases c <;> rfl

/-! ### The HDM window (R225) -/

/-- The packets of a hub unit's access to the stack of its own channel move in that channel's fabric alone (R169). -/
theorem State.hubMem_routed {s : State} {c : Ch} (h : (s.ch c).fab.OffArray) (node tag addr n : Nat) (data : List Byte) :
    ∃ v, s.Routed c v ∧ s.hubMem c node c tag addr n data = v.freeNext :=
  ⟨_, (((Routed.refl h).injectHub _ _ _).injectHub _ _ _).modStat _ _, rfl⟩

/-- The hub's check of a line before it is read (R284) forgets an earlier failure. -/
def State.lineSound (s : State) (c : Ch) (a : Nat) : State :=
  s.modHbm c fun h => { h with fails := h.fails.filter (fun x => x != a / 64 * 64) }

theorem State.lineSound_rest (s : State) (c : Ch) (a : Nat) : (s.lineSound c a).host = s.host ∧ (s.lineSound c a).regs = s.regs ∧
    (s.lineSound c a).designs = s.designs ∧ ((s.lineSound c a).ch c).hbm.mem = (s.ch c).hbm.mem ∧
    ((s.lineSound c a).ch c).hutch = (s.ch c).hutch ∧ ((s.lineSound c a).ch c).fab = (s.ch c).fab := by
  cases c <;> exact ⟨rfl, rfl, rfl, rfl, rfl, rfl⟩

/-- A read of a sound word of the capture ring (R225). -/
theorem exec_hdmRead {s : State} {c : Ch} {addr a : Nat} (ha : a = captureBase + addr / 8 * 8) (answers : s.portAnswers = true)
    (within : s.hdmIn c addr = true) (on : (s.pw c).state.arrayOn = true) (sound : (s.ch c).hbm.unreadable a 8 = false) :
    exec (.hdmRead c addr .ok true) s = .next (
      let u := (s.lineSound c a).hubMem c 19 c 0 a 8 []
      if (u.ch c).hutch.hubKey.isNone then (u.modRegs fun g => { g with reply := u.free, poison := false }).freeNext
      else u.modRegs fun g => { g with reply := BitVec.ofNat 64 (leNat ((s.ch c).hbm.mem.readBytes a 8)), poison := false }) := by
  subst ha
  show execHdmRead c addr .ok true s = _
  unfold execHdmRead
  rw [if_neg (by simp [answers]), if_neg (by simp [within])]
  simp [on, State.ringNode, sound]
  rfl

theorem hdmWindow : Clauses.HdmWindow := by
  intro s c addr a answers ha
  have heard : ¬ s.portAnswers = false := by simp [answers]
  refine ⟨fun out => ⟨fun ecc ok => ?_, fun v => ?_⟩, fun within on sound keyed flows landed => ?_, fun within off => ?_, fun within v => ?_⟩
  · show execHdmRead c addr ecc ok s = _
    rw [execHdmRead, if_neg heard, if_pos out]
  · show execHdmWrite c addr v s = _
    rw [execHdmWrite, if_neg heard, if_pos out]
  · obtain ⟨host, regs, designs, mem, hutch, fab⟩ := s.lineSound_rest c a
    obtain ⟨v, routed, moved⟩ := State.hubMem_routed (fab ▸ FabSt.offArray_of_empty flows landed) 19 0 a 8 []
    have key : (v.freeNext.ch c).hutch.hubKey.isNone = false := by
      rw [State.freeNext_ch, routed.hutch, hutch]; simpa using keyed
    have run := exec_hdmRead ha answers within on sound
    rw [moved] at run
    simp only [key, Bool.false_eq_true, if_false] at run
    refine ⟨_, run, ?_, ?_, ?_, ?_⟩
    · rw [State.modRegs_regs, State.freeNext_regs, routed.regs, regs]
    · rw [State.modRegs_host, State.freeNext_host, routed.host, host]
    · rw [State.modRegs_designs, State.freeNext_designs, routed.designs, designs]
    · rw [State.modRegs_ch, State.freeNext_ch, routed.hbm, mem]
  · have inside : ¬ s.hdmIn c addr = false := by simp [within]
    refine ⟨s.replyPoison, ?_, rfl, rfl⟩
    show execHdmRead c addr .ok true s = _
    rw [execHdmRead, if_neg heard, if_neg inside]
    simp only [off, if_true]
  · have inside : ¬ s.hdmIn c addr = false := by simp [within]
    refine ⟨_, ?_, State.event_told ..⟩
    show execHdmWrite c addr v s = _
    rw [execHdmWrite, if_neg heard, if_neg inside]; rfl

/-! ### The drain of the frame write buffer (R146) -/

/-- The lines that a run of bytes touches. -/
theorem mem_linesOf {addr n a : Nat} : a ∈ linesOf addr n ↔ a % 64 = 0 ∧ addr / 64 * 64 ≤ a ∧ a < (addr + n + 63) / 64 * 64 := by
  simp only [linesOf, List.mem_map, List.mem_range]
  constructor
  · rintro ⟨i, hi, rfl⟩; omega
  · rintro ⟨line, low, high⟩
    exact ⟨a / 64 - addr / 64, by omega, by omega⟩

/-- The lines that a run of bytes writes whole. -/
theorem mem_wholeLines {addr n a : Nat} :
    a ∈ (linesOf addr n).filter (fun a => decide (addr ≤ a) && decide (a + 64 ≤ addr + n)) ↔ a % 64 = 0 ∧ addr ≤ a ∧ a + 64 ≤ addr + n := by
  simp only [List.mem_filter, mem_linesOf, Bool.and_eq_true, decide_eq_true_eq]
  omega

/-- The stack after an entry has drained (R146, R155). -/
def HbmSt.drained (h : HbmSt) (k : Nat) (e : WEntry) : HbmSt :=
  { h with wbuf := h.wbuf.eraseIdx k, mem := h.mem.writeBytes e.addr e.data,
           poison := h.poison.filter (fun a =>
             !((linesOf e.addr e.data.length).filter (fun a => decide (e.addr ≤ a) && decide (a + 64 ≤ e.addr + e.data.length))).contains a) }

/-- Whether the merge of an entry cannot read its line (R154). -/
def HbmSt.badMerge (h : HbmSt) (e : WEntry) (ecc : Ecc) (integ : Bool) : Bool :=
  needsMerge e.addr e.data.length integ && (ecc == .uncorrectable || h.unreadable e.addr e.data.length)

/-- An entry has drained, and where integrity is kept its lines are counted in the tree (R146, R282). -/
def State.entryDrained (s : State) (c : Ch) (k : Nat) (e : WEntry) (integ : Bool) : State :=
  let s := s.modHbm c (·.drained k e)
  if integ then s.modHbm c fun h => h.raiseLines (linesOf e.addr e.data.length) else s

/-- What a drain does with the first committed entry, a merge that cannot read its line told apart (R146, R154, R155). -/
theorem exec_wbufDrain {s : State} {c : Ch} {pre post : List WEntry} {e : WEntry} {ecc : Ecc} {integ : Bool}
    (buf : (s.ch c).hbm.wbuf = pre ++ e :: post) (young : ∀ x ∈ pre, x.committed = false) (ready : e.committed = true)
    (sound : ∀ l, ecc ≠ .node l) (serves : s.hbmServes c e.addr (agedRank 4 e.since s.clock) e.since = true)
    (hinteg : integ = ((s.rangeAt c e.addr).map (fun x => x.2.mode == 2)).getD false) :
    exec (.wbufDrain c ⟨ecc, 0⟩) s = .next (
      let u := s.entryDrained c pre.length e integ
      if (s.ch c).hbm.badMerge e ecc integ then
        (u.hbmUncorrected c e.addr 3 ((s.ch c).hbm.kindAt e.addr e.data.length)).modHbm c fun h =>
          { h with poison := h.poison ++ (linesOf e.addr e.data.length).filter (fun a => !h.poison.contains a) }
      else if needsMerge e.addr e.data.length integ && ecc == .corrected then u.count .hbmCorrected c [] else u) := by
  subst hinteg
  have first : (s.ch c).hbm.wbuf.find? (fun e => e.committed) = some e := by
    rw [buf, List.find?_append, List.find?_eq_none.mpr (by simpa using young)]
    simp [ready]
  have place : (s.ch c).hbm.wbuf.findIdx? (fun e => e.committed) = some pre.length := by
    rw [buf, List.findIdx?_append, List.findIdx?_eq_none_iff.mpr young]
    simp [List.findIdx?_cons, ready]
  have entry : (s.ch c).hbm.wbuf[pre.length]? = some e := by simp [buf]
  have node : s.eccNode c e.addr ecc = s := by
    cases ecc with
    | node l => exact absurd rfl (sound l)
    | _ => rfl
  have macs : s.drainMacs c e.addr 0 = s := by
    unfold State.drainMacs
    split
    · rw [if_pos (.inr rfl)]
    · rfl
  show execWbufDrain c ⟨ecc, 0⟩ s = _
  unfold execWbufDrain
  simp only [first, serves, if_true, node, macs]
  unfold State.drainOne
  simp only [place, entry]
  rfl

/-- An entry that drains changes its bytes, its lines' poison and the write buffer; nothing outside the stack of its channel. -/
theorem State.entryDrained_spec (s : State) (c : Ch) (k : Nat) (e : WEntry) (integ : Bool) :
    (s.entryDrained c k e integ).designs = s.designs ∧ (s.entryDrained c k e integ).parts = s.parts ∧
    (∀ r x idx, (s.entryDrained c k e integ).reg r x idx = s.reg r x idx) ∧
    (s.entryDrained c k e integ).ch (otherCh c) = s.ch (otherCh c) ∧
    ((s.entryDrained c k e integ).ch c).hbm.wbuf = (s.ch c).hbm.wbuf.eraseIdx k ∧
    ((s.entryDrained c k e integ).ch c).hbm.mem = (s.ch c).hbm.mem.writeBytes e.addr e.data ∧
    ((s.entryDrained c k e integ).ch c).hbm.poison = ((s.ch c).hbm.drained k e).poison := by
  unfold State.entryDrained
  cases integ <;> cases c <;> exact ⟨rfl, rfl, fun _ _ _ => rfl, rfl, rfl, rfl, rfl⟩

theorem mem_filter_not_contains {l w : List Nat} {a : Nat} : a ∈ l.filter (fun a => !w.contains a) ↔ a ∈ l ∧ a ∉ w := by simp

theorem HbmSt.mem_drained_poison {h : HbmSt} {k : Nat} {e : WEntry} {a : Nat} :
    a ∈ (h.drained k e).poison ↔ a ∈ h.poison ∧ ¬(a % 64 = 0 ∧ e.addr ≤ a ∧ a + 64 ≤ e.addr + e.data.length) := by
  rw [← mem_wholeLines]
  exact mem_filter_not_contains

theorem drainWrites : Clauses.DrainWrites := by
  intro s c pre post e ecc integ buf young ready sound serves hinteg
  obtain ⟨designs, parts, regs, other, wbuf, mem, poison⟩ := s.entryDrained_spec c pre.length e integ
  have left : (s.ch c).hbm.wbuf.eraseIdx pre.length = pre ++ post := by
    rw [buf, List.eraseIdx_append_of_length_le (Nat.le_refl _)]; simp
  rw [left] at wbuf
  have inside : ∀ i (hi : i < e.data.length), Memory.read ((s.ch c).hbm.mem.writeBytes e.addr e.data) (e.addr + i) = e.data[i] :=
    fun i hi => Memory.read_writeBytes_inside _ _ _ i hi
  have outside : ∀ a, (a < e.addr ∨ e.addr + e.data.length ≤ a) →
      Memory.read ((s.ch c).hbm.mem.writeBytes e.addr e.data) a = Memory.read (s.ch c).hbm.mem a :=
    fun a ha => Memory.read_writeBytes_other _ _ ha
  rw [exec_wbufDrain buf young ready sound serves hinteg]
  generalize s.entryDrained c pre.length e integ = u at *
  have merging : (s.ch c).hbm.badMerge e ecc integ = true ↔
      needsMerge e.addr e.data.length integ = true ∧ (ecc = .uncorrectable ∨ (s.ch c).hbm.unreadable e.addr e.data.length = true) := by
    simp [HbmSt.badMerge]
  by_cases bad : (s.ch c).hbm.badMerge e ecc integ = true
  · rw [if_pos bad]
    obtain ⟨held, counted⟩ := u.hbmUncorrected_spec c e.addr 3 ((s.ch c).hbm.kindAt e.addr e.data.length)
    generalize u.hbmUncorrected c e.addr 3 ((s.ch c).hbm.kindAt e.addr e.data.length) = v at *
    refine ⟨_, rfl, ?_, ?_, ?_, ?_, ?_, ?_, fun good => ?_, fun _ _ => ⟨fun a line => ?_, ?_⟩⟩
    · rw [State.modHbm_hbm, held.wbuf, wbuf]
    · rw [State.modHbm_other, held.other, other]
    · rw [State.modHbm, State.modCh_designs, held.designs, designs]
    · rw [State.modHbm, State.modCh_parts, held.parts, parts]
    · rw [State.modHbm_hbm, held.mem, mem]; exact inside
    · rw [State.modHbm_hbm, held.mem, mem]; exact outside
    · obtain ⟨merge, unread⟩ := merging.mp bad
      rcases good with whole | ⟨corrected, readable⟩
      · exact absurd (whole.symm.trans merge) (by decide)
      · rcases unread with unread | unread
        · exact absurd unread corrected
        · exact absurd (readable.symm.trans unread) (by decide)
    · rw [State.modHbm_hbm]
      by_cases known : a ∈ (v.ch c).hbm.poison
      · exact List.mem_append_left _ known
      · exact List.mem_append_right _ (mem_filter_not_contains.mpr ⟨line, known⟩)
    · rw [State.reg_modHbm, counted, regs]
  · rw [if_neg bad]
    have held : u.HbmHeld c (if needsMerge e.addr e.data.length integ && ecc == .corrected then u.count .hbmCorrected c [] else u) := by
      split
      · exact State.HbmHeld.refl.setReg ..
      · exact State.HbmHeld.refl
    refine ⟨_, rfl, ?_, ?_, ?_, ?_, ?_, ?_, fun _ a => ?_, fun merge unread => absurd (merging.mpr ⟨merge, unread⟩) bad⟩
    · rw [held.wbuf, wbuf]
    · rw [held.other, other]
    · rw [held.designs, designs]
    · rw [held.parts, parts]
    · rw [held.mem, mem]; exact inside
    · rw [held.mem, mem]; exact outside
    · rw [held.poison, poison, HbmSt.mem_drained_poison]

/-! ### A read that returns (R73, R147) -/

/-- A Cabinet after the words of a read have landed in it (R73). -/
def CabSt.landed (x : CabSt) (r : HRead) (bytes : List Byte) : CabSt :=
  { x with landing := (List.range (r.size / 8)).foldl (fun t i => KV.put 0 (r.lbo + i) (BitVec.ofNat 64 (rd bytes (8 * i) 8)) t) x.landing,
           invalid := x.invalid.filter (fun w => !(decide (r.lbo ≤ w) && decide (w < r.lbo + r.size / 8))) }

/-- The pending MAC check of a read (R284). -/
def HRead.macCheck (r : HRead) : MacCheck :=
  { design := r.design, cab := r.cab, attempt := r.attempt, frame := r.frame, addr := r.addr, link := none, lbo := r.lbo, words := r.size / 8 }

/-- The MAC checks of a channel once a read has landed: failures of the words that it replaces no longer count (R83, R284). -/
def HbmSt.checking (h : HbmSt) (r : HRead) : HbmSt :=
  { h with macs := h.macs.filter (fun m => !(m.failed && m.design == r.design && m.cab == r.cab && decide (r.lbo ≤ m.lbo) &&
    decide (m.lbo < r.lbo + r.size / 8))) ++ [r.macCheck] }

/-- The MAC of a read that has landed is to be checked, where integrity is kept. -/
def State.checkRead (s : State) (c : Ch) (r : HRead) (integ : Bool) : State := if integ then s.modHbm c (·.checking r) else s

theorem State.checkRead_rest (s : State) (c : Ch) (r : HRead) (integ : Bool) : (s.checkRead c r integ).host = s.host ∧
    (s.checkRead c r integ).regs = s.regs ∧ (s.checkRead c r integ).parts = s.parts ∧ (s.checkRead c r integ).designs = s.designs ∧
    ((s.checkRead c r integ).ch c).hbm =
      { (s.ch c).hbm with macs := if integ then ((s.ch c).hbm.checking r).macs else (s.ch c).hbm.macs } := by
  cases integ <;> cases c <;> exact ⟨rfl, rfl, rfl, rfl, rfl⟩

/-- A read no longer in flight (R145). -/
def State.readTaken (s : State) (c : Ch) (k : Nat) : State := s.modHbm c fun h => { h with reads := h.reads.eraseIdx k }

/-- Taking a read changes the reads in flight alone. -/
theorem State.readTaken_rest (s : State) (c : Ch) (k : Nat) : (s.readTaken c k).host = s.host ∧ (s.readTaken c k).regs = s.regs ∧
    (s.readTaken c k).parts = s.parts ∧ (s.readTaken c k).designs = s.designs ∧ (s.readTaken c k).pwr = s.pwr ∧
    (∀ a, (s.readTaken c k).rangeAt c a = s.rangeAt c a) ∧ ((s.readTaken c k).ch c).fab = (s.ch c).fab ∧
    ((s.readTaken c k).ch c).hbm = { (s.ch c).hbm with reads := (s.ch c).hbm.reads.eraseIdx k } := by
  cases c <;> exact ⟨rfl, rfl, rfl, rfl, rfl, fun _ => rfl, rfl, rfl⟩

/-- A sound read of the frame in progress lands (R73), its answer crosses the fabric of its channel, and its MAC is checked where integrity
is kept (R284). -/
theorem exec_hbmReadReturn_ok {s : State} {c : Ch} {k : Nat} {r : HRead} {d : Design} (hr : (s.ch c).hbm.reads[k]? = some r)
    (serves : s.hbmServes c r.addr (agedRank 3 r.issuedAt s.clock) r.issuedAt = true) (rest : (s.ch c).fab.OffArray)
    (hd : s.design r.design = some d) (attempt : r.attempt = d.attempt) (frame : r.frame = d.frame) (tried : r.attempt ≠ 0)
    (sound : (s.ch c).hbm.unreadable r.addr r.size = false) (keyed : ∀ e, s.rangeAt c r.addr = some e → e.2.unkeyed = false) :
    ∃ v, ((s.readTaken c k).land r ((s.ch c).hbm.overlay r)).Routed c v ∧ exec (.hbmReadReturn c k .ok none) s = .next (
      v.checkRead c r (decide ((s.rangeAt c r.addr).map (fun e => e.2.mode) = some 2))) := by
  have integ : ((s.rangeAt c r.addr).map (fun e => e.2.mode == 2)).getD false =
      decide ((s.rangeAt c r.addr).map (fun e => e.2.mode) = some 2) := by
    cases s.rangeAt c r.addr with
    | none => rfl
    | some e => simp [Bool.beq_eq_decide_eq]
  have unlocked : ((s.rangeAt c r.addr).map (·.2.unkeyed)).getD false = false := by
    cases found : s.rangeAt c r.addr with
    | none => rfl
    | some e => exact keyed e found
  obtain ⟨-, -, -, designs, -, range, fab, hbm⟩ := s.readTaken_rest c k
  have design : (s.readTaken c k).design r.design = some d := (State.design_of_designs designs _).trans hd
  have same : ((s.readTaken c k).design r.design).map (fun d => decide (r.attempt = d.attempt) && decide (r.frame = d.frame)) = some true := by
    simp [design, attempt, frame]
  have taken : s.modHbm c (fun h => { h with reads := h.reads.eraseIdx k }) = s.readTaken c k := rfl
  have sound' : ((s.readTaken c k).ch c).hbm.unreadable r.addr r.size = false := by rw [hbm]; exact sound
  have bytes : ((s.readTaken c k).ch c).hbm.overlay r = (s.ch c).hbm.overlay r := by rw [hbm]; rfl
  have calm : (((s.readTaken c k).land r ((s.ch c).hbm.overlay r)).ch c).fab.OffArray := by
    rw [State.land, State.modDesign_ch, fab]; exact rest
  show ∃ v, _ ∧ execHbmReadReturn c k .ok none s = _
  unfold execHbmReadReturn
  simp only [hr, serves, taken, lostNode, State.eccNode, range, sound', bytes, unlocked, same, tried, Bool.true_eq_false, Bool.false_eq_true,
    reduceCtorEq, if_false, if_true, or_self]
  have sent := (State.Routed.refl calm).injectHub (unitOut 0) 128 (memPacket 1 ((s.readTaken c k).cabAddr r.cab) (fabAddr c 2 0) r.design 0 1 0
    r.num (r.size / 8) (hbmPayload r.addr (Nat.log2 (r.size / 8)) r.lbo r.attempt r.frame) (wordsOf ((s.ch c).hbm.overlay r)))
  refine ⟨_, ?_, by rw [← integ]; rfl⟩
  split
  · exact sent.modStat _ _
  · exact sent

theorem readReturns : Clauses.ReadReturns := by
  intro s c k r d hr serves
  refine ⟨fun bytes flows landed hd htag attempt frame tried sound keyed hb => ?_, fun absent off => ?_⟩
  · subst hb
    obtain ⟨v, routed, run⟩ := exec_hbmReadReturn_ok hr serves (FabSt.offArray_of_empty flows landed) hd attempt frame tried sound keyed
    obtain ⟨host, regs, parts, designs, -, -, -, hbm⟩ := s.readTaken_rest c k
    obtain ⟨host', regs', parts', designs', hbm'⟩ := v.checkRead_rest c r (decide ((s.rangeAt c r.addr).map (fun e => e.2.mode) = some 2))
    have design : (s.readTaken c k).design r.design = some d := (State.design_of_designs designs _).trans hd
    refine ⟨_, d.modCab r.cab (·.landed r ((s.ch c).hbm.overlay r)), run, ?_, ?_, ?_, ?_, ?_, rfl, fun i hi => ?_, fun w hw => ?_, fun w => ?_⟩
    · rw [host', routed.host]; exact host
    · rw [parts', routed.parts]; exact parts
    · rw [regs', routed.regs]; exact regs
    · rw [hbm', routed.hbm, State.land, State.modDesign_ch, hbm]
      simp only [decide_eq_true_eq]; rfl
    · rw [State.design_of_designs designs', State.design_of_designs routed.designs]
      exact State.design_modDesign_some design fun _ ht => ht
    · rw [Design.cab_modCab_same, CabSt.landed, KV.get_foldl_put_range, if_pos (by omega), Nat.add_sub_cancel_left]
    · rw [Design.cab_modCab_same, CabSt.landed, KV.get_foldl_put_range, if_neg (by omega)]
    · rw [Design.cab_modCab_same, CabSt.landed, List.mem_filter]
      simp only [Bool.not_eq_true', Bool.and_eq_false_imp, decide_eq_true_eq, decide_eq_false_iff_not, not_and]
  · obtain ⟨-, regs, -, designs, pwr, -, -, hbm⟩ := s.readTaken_rest c k
    have kind : ((s.readTaken c k).ch c).hbm.kindAt r.addr r.size = (s.ch c).hbm.kindAt r.addr r.size := by rw [hbm]; rfl
    obtain ⟨held, counted⟩ := (s.readTaken c k).hbmUncorrected_spec c r.addr 0 ((s.ch c).hbm.kindAt r.addr r.size)
    have nobody : ((s.readTaken c k).hbmUncorrected c r.addr 0 ((s.ch c).hbm.kindAt r.addr r.size)).design r.design = none :=
      (State.design_of_designs (held.designs.trans designs) _).trans absent
    have run : exec (.hbmReadReturn c k .uncorrectable none) s =
        .next ((s.readTaken c k).hbmUncorrected c r.addr 0 ((s.ch c).hbm.kindAt r.addr r.size)) := by
      have taken : s.modHbm c (fun h => { h with reads := h.reads.eraseIdx k }) = s.readTaken c k := rfl
      show execHbmReadReturn c k .uncorrectable none s = _
      unfold execHbmReadReturn
      simp only [hr, serves, taken, lostNode, State.eccNode, kind, State.readErr, nobody, Bool.true_eq_false,
        reduceCtorEq, if_false, if_true, true_or]
    refine ⟨_, run, ?_, ?_, ?_, held.designs.trans designs, fun on => ?_⟩
    · rw [counted, State.reg, regs, State.reg]
    · rw [held.mem, hbm]
    · rw [held.reads, hbm]
    · refine State.hbmUncorrected_wrote ?_ (pwr ▸ on) ..
      rw [State.regField, State.reg, regs]; exact off

/-- Settles O30: the words that land, the bytes that drain and the word of the window, with the fabric and the events aside. -/
theorem hbmTraffic : Obligations.HbmTraffic := ⟨readReturns, drainWrites, hdmWindow⟩

end Sys2Proof.Machine
end

section
/-! The guest port (R181-R186): what its commands leave, and what the hub sends on of a guest's outputs. -/

namespace Sys2Proof

/-- Writing pairs of other keys leaves what a key reads as. -/
theorem KV.get_foldl_put_absent {α : Type} [DecidableEq α] (d : α) {k : Nat} {l : List (Nat × α)} (h : k ∉ l.map (·.1)) (m : KV α) :
    KV.get d k (l.foldl (fun t e => KV.put d e.1 e.2 t) m) = KV.get d k m := by
  induction l generalizing m with
  | nil => rfl
  | cons e l ih =>
    rw [List.map_cons, List.mem_cons, not_or] at h
    rw [List.foldl_cons, ih h.2, KV.get_put_other _ _ h.1]

/-- Of pairs of distinct keys that are written, each is read. -/
theorem KV.get_foldl_put_mem {α : Type} [DecidableEq α] (d : α) {k : Nat} {v : α} {l : List (Nat × α)} (distinct : (l.map (·.1)).Nodup)
    (h : (k, v) ∈ l) (m : KV α) : KV.get d k (l.foldl (fun t e => KV.put d e.1 e.2 t) m) = v := by
  induction l generalizing m with
  | nil => simp at h
  | cons e l ih =>
    rw [List.map_cons, List.nodup_cons] at distinct
    rw [List.foldl_cons]
    rcases List.mem_cons.mp h with rfl | h
    · rw [KV.get_foldl_put_absent d distinct.1, KV.get_put_same]
    · exact ih distinct.2 h _

end Sys2Proof

namespace Sys2Proof.Machine

open Sys2Proof

theorem mem_insKey {k x : Nat} {l : List Nat} : x ∈ insKey k l ↔ x = k ∨ x ∈ l := by
  induction l with
  | nil => simp [insKey]
  | cons y l ih =>
    rw [insKey]
    split
    · simp
    · split
      · next same => simp [same]
      · simp only [List.mem_cons, ih]; tauto

theorem mem_foldl_insKey {α : Type} {g : α → Nat} {x : Nat} {l : List α} {acc : List Nat} :
    x ∈ l.foldl (fun h e => insKey (g e) h) acc ↔ x ∈ acc ∨ ∃ e ∈ l, g e = x := by
  induction l generalizing acc with
  | nil => simp
  | cons e l ih =>
    rw [List.foldl_cons, ih, mem_insKey]
    simp only [List.mem_cons, exists_eq_or_imp]
    tauto

/-! ### The guest's record -/

namespace State

@[simp] theorem modGuest_guest (s : State) (c : Ch) (f : GuestSt → GuestSt) : ((s.modGuest c f).ch c).guest = f (s.ch c).guest := by
  simp [modGuest]

/-- An update of the guest is what it makes of the record that stands there. -/
theorem modGuest_congr {s : State} {c : Ch} {f g : GuestSt → GuestSt} (h : f (s.ch c).guest = g (s.ch c).guest) :
    s.modGuest c f = s.modGuest c g := by
  cases c <;> simp_all [modGuest, modCh, ch]

@[simp] theorem setReg_base (s : State) (r : Reg) (x : Ch) (idx : List Nat) (v : Word32) : (s.setReg r x idx v).base = s.base := rfl

theorem guestDone_modGuest (s : State) (c : Ch) {f : GuestSt → GuestSt} (hf : ∀ g, (f g).owner = g.owner ∧ (f g).haveOut = g.haveOut) :
    (s.modGuest c f).guestDone c = s.guestDone c := by
  unfold guestDone
  rw [modGuest_guest, (hf _).1, (hf _).2, show (s.modGuest c f).design = s.design from
    funext (State.design_of_designs (s.modCh_designs c _))]

end State

/-! ### Rails (R181) -/

theorem guestRails : Clauses.GuestRails := by
  intro s c value v hv
  subst hv
  refine ⟨fun answers site on => ⟨fun high sound off base => ?_, fun high sound idle => ?_, fun high fault => ⟨_, ?_, State.event_told ..⟩,
    fun low => ?_⟩, fun current rails => ⟨_, ?_, State.event_told ..⟩, fun current off => ?_⟩
  · show execGuestRailsWrite c value s = _
    have forced : s.base.inForce.isNone = false := by simpa using base
    simp only [execGuestRailsWrite, answers, site, on, high, sound, off, State.setReg_base, forced, Bool.true_eq_false, Bool.and_false,
      Bool.false_eq_true, Bool.not_false, Bool.and_true, or_self, if_false, if_true]
  · show execGuestRailsWrite c value s = _
    have stays : (s.ch c).guest.rails = true ∨ s.base.inForce.isNone = true := by simpa using idle
    simp only [execGuestRailsWrite, answers, site, on, high, sound, State.setReg_base, stays, Bool.true_eq_false, Bool.and_false,
      Bool.false_eq_true, Bool.not_false, Bool.and_true, or_self, if_false, if_true]
  · show execGuestRailsWrite c value s = _
    simp only [execGuestRailsWrite, answers, site, on, high, fault, Bool.true_eq_false, Bool.not_true, Bool.and_false, Bool.and_true,
      or_self, if_false, if_true]
    rfl
  · show execGuestRailsWrite c value s = _
    simp only [execGuestRailsWrite, answers, site, on, low, Bool.true_eq_false, Bool.false_eq_true, Bool.false_and, or_self, if_false]
  · show execGuestRailFault c current s = _
    simp only [execGuestRailFault, rails, Bool.true_eq_false, if_false]
    rfl
  · show execGuestRailFault c current s = _
    rw [execGuestRailFault, if_pos off]

/-! ### Outputs (R183-R185) -/

/-- A flit carries each of its groups once. -/
theorem guestGroups_nodup (pay : BitVec 224) : ((guestGroups pay).map (·.1)).Nodup := by
  have all : ((List.range 12).map (fun m => field pay.toNat 4 9 + m)).Nodup := List.nodup_range.map (add_right_injective _)
  refine List.Nodup.sublist ?_ all
  have part := (List.filter_sublist (p := fun e : Nat × BitVec 16 => decide (e.1 < 512)) (l := (List.range 12).map (fun m =>
    (field pay.toNat 4 9 + m, BitVec.ofNat 16 (field pay.toNat (32 + 16 * m) 16))))).map (·.1)
  rwa [List.map_map] at part

theorem GuestSt.take_gout (g : GuestSt) {pay : BitVec 224} {k : Nat} {v : BitVec 16} (h : (k, v) ∈ guestGroups pay) :
    KV.get 0 k (g.take pay).gout = v ∧ k ∈ (g.take pay).haveOut :=
  ⟨KV.get_foldl_put_mem 0 (guestGroups_nodup pay) h _, mem_foldl_insKey.mpr (.inr ⟨_, h, rfl⟩)⟩

theorem GuestSt.take_gout_other (g : GuestSt) {pay : BitVec 224} {k : Nat} (h : k ∉ (guestGroups pay).map (·.1)) :
    KV.get 0 k (g.take pay).gout = KV.get 0 k g.gout := KV.get_foldl_put_absent 0 h _

namespace State

variable {c : Ch} {s u : State}

theorem Routed.guest (h : s.Routed c u) (x : Ch) : (u.ch x).guest = (s.ch x).guest := by
  obtain ⟨a, b, rfl⟩ := h.rest; cases x <;> rfl

theorem Routed.foldl {α : Type} {l : List α} {f : State → α → State} (h : s.Routed c u)
    (hf : ∀ v x, s.Routed c v → s.Routed c (f v x)) : s.Routed c (l.foldl f u) := by
  induction l generalizing u with
  | nil => exact h
  | cons x l ih => exact ih (hf _ x h)

/-- What a unit of the hub sends to the Cabinets moves in the fabrics alone. -/
theorem Routed.sendOuter (h : s.Routed c u) (d : Design) (kind idx : Nat) (v : BitVec 16) : s.Routed c (u.sendOuter d c kind idx v) := by
  unfold State.sendOuter
  refine h.foldl fun w e k => ?_
  dsimp only
  split
  · exact k
  · exact k.foldl fun _ _ k => k.injectHub _ _ _

theorem Routed.sendGuestOut (h : s.Routed c u) (pay : BitVec 224) : s.Routed c (u.sendGuestOut c pay) := by
  unfold State.sendGuestOut
  split
  · exact h
  · exact h.foldl fun _ _ k => k.sendOuter ..

/-- The state once the guest's oldest flit has been taken, its groups with it. -/
def gotOut (s : State) (c : Ch) (pay : BitVec 224) (rest : List (BitVec 224)) : State :=
  (s.modGuest c fun y => { y with rx := rest }).modGuest c fun g => g.take pay

theorem gotOut_guest (s : State) (c : Ch) (pay : BitVec 224) (rest : List (BitVec 224)) :
    ((s.gotOut c pay rest).ch c).guest = { (s.ch c).guest.take pay with rx := rest } := by
  simp [gotOut, GuestSt.take]

/-- A guest's outputs go to the Cabinets (R184 item 6): beyond the guest's record, that changes the fabrics alone. -/
theorem sentOut_spec (flows : (s.ch c).fab.flows = []) (landed : (s.ch c).fab.landed = []) (pay : BitVec 224) (rest : List (BitVec 224)) :
    ((s.gotOut c pay rest).sendGuestOut c pay).host = s.host ∧ ((s.gotOut c pay rest).sendGuestOut c pay).designs = s.designs ∧
    (((s.gotOut c pay rest).sendGuestOut c pay).ch c).guest = { (s.ch c).guest.take pay with rx := rest } := by
  have still : ((s.gotOut c pay rest).ch c).fab = (s.ch c).fab := by simp [gotOut, modGuest]
  have routed := (Routed.refl (FabSt.offArray_of_empty (still ▸ flows) (still ▸ landed))).sendGuestOut pay
  exact ⟨routed.host.trans (by simp [gotOut, modGuest]), routed.designs.trans (by simp [gotOut, modGuest]),
    (routed.guest c).trans (s.gotOut_guest c pay rest)⟩

end State

/-- GOUT_RECEIVE takes the oldest flit for the design cycle under way. -/
theorem exec_goutReceive {s : State} {c : Ch} {pay : BitVec 224} {rest : List (BitVec 224)} (oldest : (s.ch c).guest.rx = pay :: rest)
    (out : pay.getLsbD 13 = false) (phase : (s.ch c).guest.phase = 2) (cycle : field pay.toNat 16 16 = (s.ch c).guest.cycle % 65536)
    (sound : (s.ch c).guest.failed = false) : exec (.goutReceive c pay) s = .next
      (if ((s.gotOut c pay rest).sendGuestOut c pay).guestDone c
        then ((s.gotOut c pay rest).sendGuestOut c pay).modGuest c fun g => { g with phase := 0, late := false }
        else (s.gotOut c pay rest).sendGuestOut c pay) := by
  have bit : bitAt pay.toNat 13 = false := out
  show execGoutReceive c pay s = _
  simp only [execGoutReceive, oldest, bit, phase, cycle, sound, ne_eq, not_true_eq_false, Bool.false_eq_true, or_false, if_false]
  rfl

theorem exec_goutReceive_discards {s : State} {c : Ch} {pay : BitVec 224} {rest : List (BitVec 224)} (oldest : (s.ch c).guest.rx = pay :: rest)
    (out : pay.getLsbD 13 = false) (other : (s.ch c).guest.phase ≠ 2 ∨ field pay.toNat 16 16 ≠ (s.ch c).guest.cycle % 65536) :
    exec (.goutReceive c pay) s = .next (s.modGuest c fun y => { y with rx := rest }) := by
  have bit : bitAt pay.toNat 13 = false := out
  show execGoutReceive c pay s = _
  simp only [execGoutReceive, oldest, bit, ne_eq, not_true_eq_false, Bool.false_eq_true, or_false, if_false]
  rw [if_pos (other.imp_right .inl)]

theorem exec_guestResetOutputs {s : State} {c : Ch} {pay : BitVec 224} {rest : List (BitVec 224)} (oldest : (s.ch c).guest.rx = pay :: rest)
    (reset : pay.getLsbD 13 = true) : exec (.guestResetOutputs c pay) s = .next
      (if (s.ch c).guest.rstLow ∨ (s.ch c).guest.owner.isNone ∨ (s.ch c).guest.exchanged ∨ (s.ch c).guest.failed
        then s.modGuest c fun y => { y with rx := rest }
        else (s.gotOut c pay rest).sendGuestOut c pay) := by
  have bit : bitAt pay.toNat 13 = true := reset
  show execGuestResetOutputs c pay s = _
  simp only [execGuestResetOutputs, oldest, bit, ne_eq, not_true_eq_false, Bool.true_eq_false, or_false, if_false]
  rfl

theorem guestExchange : Clauses.GuestExchange := by
  intro s c g hg
  subst hg
  refine ⟨fun phase rails sound queue replay => ?_, fun waits => ?_, fun pay rest oldest flows landed => ⟨fun out phase cycle sound => ?_,
    exec_goutReceive_discards oldest, fun reset risen owned first sound => ?_, fun reset closed => ?_⟩, fun pay other => ⟨?_, ?_⟩,
    fun phase first => ⟨_, ?_, State.event_told ..⟩, fun phase late => ?_⟩
  · show execGuestPulses c s = _
    simp only [execGuestPulses, phase, rails, sound, queue, replay, ne_eq, not_true_eq_false, Bool.true_eq_false, Bool.false_eq_true,
      or_self, if_false]
    exact congrArg _ (State.modGuest_congr rfl)
  · show execGuestPulses c s = _
    have still : (s.ch c).guest.phase ≠ 1 ∨ (s.ch c).guest.rails = false ∨ (s.ch c).guest.failed = true ∨ (s.flink c 11).queue ≠ [] ∨
        (s.flink c 11).replay ≠ [] := by tauto
    rw [execGuestPulses, if_pos still]
  · obtain ⟨host, designs, guest⟩ := State.sentOut_spec flows landed pay rest
    have ran := exec_goutReceive oldest out phase cycle sound
    generalize (s.gotOut c pay rest).sendGuestOut c pay = w at host designs guest ran
    have groups : ∀ k v, (k, v) ∈ guestGroups pay → KV.get 0 k (w.ch c).guest.gout = v ∧ k ∈ (w.ch c).guest.haveOut := by
      rw [guest]; exact fun k v => GuestSt.take_gout _
    have others : ∀ k, k ∉ (guestGroups pay).map (·.1) → KV.get 0 k (w.ch c).guest.gout = KV.get 0 k (s.ch c).guest.gout := by
      rw [guest]; exact fun k => GuestSt.take_gout_other _
    refine ⟨_, ran, ?_⟩
    split
    · next done =>
      have same := w.guestDone_modGuest c (f := fun g => { g with phase := 0, late := false }) fun _ => ⟨rfl, rfl⟩
      simp only [State.modGuest_guest, same, done, if_true]
      refine ⟨(w.modCh_host c _).trans host, (w.modCh_designs c _).trans designs, ?_, groups, others, trivial, ?_⟩
      · rw [guest]
      · rw [guest]; rfl
    · next more =>
      refine ⟨host, designs, by rw [guest], groups, others, ?_, by rw [guest]; rfl⟩
      rw [guest]; exact phase
  · obtain ⟨host, designs, guest⟩ := State.sentOut_spec flows landed pay rest
    refine ⟨_, (exec_guestResetOutputs oldest reset).trans ?_, host, designs, guest⟩
    rw [if_neg (by simp [risen, first, sound, Option.isSome_iff_ne_none.mp owned])]
  · rw [exec_guestResetOutputs oldest reset, if_pos (by tauto)]
  · show execGoutReceive c pay s = _
    unfold execGoutReceive
    cases waiting : (s.ch c).guest.rx with
    | nil => simp only [waiting]
    | cons oldest rest =>
      have differs : oldest ≠ pay := by simpa [waiting] using other
      simp only [waiting, if_pos (Or.inl differs)]
  · show execGuestResetOutputs c pay s = _
    unfold execGuestResetOutputs
    cases waiting : (s.ch c).guest.rx with
    | nil => simp only [waiting]
    | cons oldest rest =>
      have differs : oldest ≠ pay := by simpa [waiting] using other
      simp only [waiting, if_pos (Or.inl differs)]
  · show execGuestLate c s = _
    rw [execGuestLate, if_neg (by simp [phase, first])]; rfl
  · show execGuestLate c s = _
    rw [execGuestLate, if_pos (.inr late)]

/-- Settles O44: the rails by the cases of a write, and an output flit by what the hub keeps of it while its packets move in the fabrics. -/
theorem guestPort : Obligations.GuestPort := ⟨guestRails, guestExchange⟩

end Sys2Proof.Machine
end

section
/-! Ends of fabric links (R172, R176, R177): what reading an end gives after an update, what sending leaves of it, and a fabric in which no
packet waits, where settling is nothing but sending. -/

namespace Sys2Proof.Machine

open Sys2Proof

/-! ### Sending (R172) -/

namespace FLink

/-- During a check, and after a failure, an end sends nothing. -/
theorem push_stopped {x : FLink} (h : x.failed = true ∨ x.check ≠ 0) (win n : Nat) : x.push win n = x := by
  cases n with
  | zero => rfl
  | succ n => rw [push, if_pos (by tauto)]

/-- An end that owes no credits and holds no flits has nothing to send. -/
theorem push_idle {x : FLink} (owed : x.owed = []) (queue : x.queue = []) (win n : Nat) : x.push win n = x := by
  cases n with
  | zero => rfl
  | succ n => simp [push, owed, queue]

@[simp] theorem push_next (x : FLink) (win n : Nat) : (x.push win n).next = x.next := by
  induction n generalizing x with
  | zero => rfl
  | succ n ih =>
    rw [push]
    split
    · rfl
    · split
      · rw [ih]; rfl
      · split
        · rfl
        · split
          · rw [ih]; rfl
          · rfl

end FLink

/-! ### A fabric in which no packet waits -/

namespace FabSt

variable {f : FabSt}

@[simp] theorem pushAll_flows (f : FabSt) : f.pushAll.flows = f.flows := by
  unfold pushAll
  generalize f.links.filter _ = ends
  induction ends generalizing f with
  | nil => rfl
  | cons e ends ih => exact ih _

@[simp] theorem pushAll_landed (f : FabSt) : f.pushAll.landed = f.landed := by
  unfold pushAll
  generalize f.links.filter _ = ends
  induction ends generalizing f with
  | nil => rfl
  | cons e ends ih => exact ih _

/-- What sending keeps of an end, it keeps when every end sends. -/
theorem pushAll_end {P : FLink → Prop} {e : Nat} (keeps : ∀ x n, P x → P (x.push (linkWindow e) n)) (h : P (KV.get {} e f.links)) :
    P (KV.get {} e f.pushAll.links) := by
  unfold pushAll
  generalize f.links.filter _ = ends
  induction ends generalizing f with
  | nil => exact h
  | cons x ends ih =>
    refine ih ?_
    unfold pushEnd
    by_cases same : e = x.1
    · subst same; rw [KV.get_upd_same]; exact keeps _ _ h
    · rwa [KV.get_upd_other _ _ same]

theorem pump_still (flows : f.flows = []) (n : Nat) : f.pump n = f.pushAll := by
  cases n with
  | zero => rfl
  | succ n =>
    have none : f.move = none := by simp [move, flows]
    rw [pump, none]

end FabSt

namespace State

variable {s : State} {c : Ch}

@[simp] theorem modFab_fab (s : State) (c : Ch) (g : FabSt → FabSt) : ((s.modFab c g).ch c).fab = g (s.ch c).fab := by simp [modFab]

@[simp] theorem flink_modFlink_same (s : State) (c : Ch) (e : Nat) (f : FLink → FLink) : (s.modFlink c e f).flink c e = f (s.flink c e) := by
  simp [flink, modFlink]

theorem flink_modFlink_other (s : State) (c : Ch) {e x : Nat} (f : FLink → FLink) (h : x ≠ e) : (s.modFlink c e f).flink c x = s.flink c x := by
  rw [flink, modFlink, modFab_fab, KV.get_upd_other _ _ h, flink]

/-- What an update of ends keeps of an end, the update of several keeps. -/
theorem flink_modFlinks {P : FLink → Prop} {f : FLink → FLink} (keeps : ∀ x, P x → P (f x)) {e : Nat} (l : List Nat) (h : P (s.flink c e)) :
    P ((l.foldl (fun s e => s.modFlink c e f) s).flink c e) := by
  induction l generalizing s with
  | nil => exact h
  | cons x l ih =>
    refine ih ?_
    by_cases same : e = x
    · subst same; rw [flink_modFlink_same]; exact keeps _ h
    · rwa [flink_modFlink_other _ _ _ same]

/-- A part of an end that an update of ends keeps stays when several are updated. -/
theorem flink_modFlinks_eq {α : Type} (g : FLink → α) {f : FLink → FLink} (keeps : ∀ x, g (f x) = g x) (s : State) (c : Ch) (e : Nat)
    (l : List Nat) : g ((l.foldl (fun s e => s.modFlink c e f) s).flink c e) = g (s.flink c e) :=
  flink_modFlinks (P := fun x => g x = g (s.flink c e)) (fun x h => (keeps x).trans h) l rfl

/-- What an update makes true of an end is true of each end that is updated. -/
theorem flink_modFlinks_mem {P : FLink → Prop} {f : FLink → FLink} (gives : ∀ x, P (f x)) {e : Nat} {l : List Nat} (h : e ∈ l) :
    P ((l.foldl (fun s e => s.modFlink c e f) s).flink c e) := by
  induction l generalizing s with
  | nil => simp at h
  | cons x l ih =>
    rw [List.foldl_cons]
    rcases List.mem_cons.mp h with rfl | h
    · exact flink_modFlinks (fun _ _ => gives _) l (by rw [flink_modFlink_same]; exact gives _)
    · exact ih h

/-- The bridge to the other channel takes flits out of a fabric and changes nothing else there. -/
theorem crossBridge_fab (s : State) (c : Ch) : ∃ l, ((s.crossBridge c).ch c).fab = { (s.ch c).fab with across := l } := by
  unfold crossBridge
  extract_lets o l q n s1
  split
  · exact ⟨_, rfl⟩
  · refine ⟨(s.ch c).fab.across.drop n, ?_⟩
    rw [State.modFab, State.modCh_other _ _ (by cases c <;> decide)]
    exact s.modFab_fab c _

/-- Where no packet waits, settling is sending (R166, R172). -/
theorem fabSettle_still (flows : (s.ch c).fab.flows = []) (landed : (s.ch c).fab.landed = []) :
    ∃ l, ((s.fabSettle c).ch c).fab = { (s.ch c).fab.pushAll with across := l } := by
  unfold fabSettle
  extract_lets s1 s2
  have sent : (s1.ch c).fab = (s.ch c).fab.pushAll := by
    rw [modFab_fab, FabSt.pump_still flows]
  have same : s2 = s1 := if_pos (by rw [sent, FabSt.pushAll_landed, landed]; rfl)
  obtain ⟨l, crossed⟩ := s1.crossBridge_fab c
  rw [same]
  split
  · exact ⟨_, sent⟩
  · exact ⟨l, crossed.trans (by rw [sent])⟩

theorem fabSettle_still_rest (flows : (s.ch c).fab.flows = []) (landed : (s.ch c).fab.landed = []) :
    ((s.fabSettle c).ch c).fab.flows = [] ∧ ((s.fabSettle c).ch c).fab.landed = [] := by
  obtain ⟨l, h⟩ := fabSettle_still flows landed
  rw [h]
  exact ⟨((s.ch c).fab.pushAll_flows).trans flows, ((s.ch c).fab.pushAll_landed).trans landed⟩

/-- What sending keeps of an end, settling keeps where no packet waits. -/
theorem flink_fabSettle_still {P : FLink → Prop} {e : Nat} (flows : (s.ch c).fab.flows = []) (landed : (s.ch c).fab.landed = [])
    (keeps : ∀ x n, P x → P (x.push (linkWindow e) n)) (h : P (s.flink c e)) : P ((s.fabSettle c).flink c e) := by
  obtain ⟨l, same⟩ := fabSettle_still flows landed
  rw [flink, same]
  exact FabSt.pushAll_end keeps h

/-- Where no packet waits, settling changes the fabrics alone. -/
theorem routed_fabSettle (flows : (s.ch c).fab.flows = []) (landed : (s.ch c).fab.landed = []) : s.Routed c (s.fabSettle c) :=
  (Routed.refl (FabSt.offArray_of_empty flows landed)).fabSettle

end State

end Sys2Proof.Machine
end

section
/-! Links that fail (R172, R173): what follows in the fabric and the engines of a channel neither revives a failed end nor takes back the
event that reports it. -/

namespace Sys2Proof.Machine

open Sys2Proof

/-! ### Failed ends -/

/-- An end that has failed and holds nothing (R173). -/
def FLink.Dead (x : FLink) : Prop := x.failed = true ∧ x.queue = [] ∧ x.replay = []

theorem FLink.Dead.push {x : FLink} (h : x.Dead) (win n : Nat) : (x.push win n).Dead := by rwa [push_stopped (.inl h.1)]

namespace FabSt

variable {f : FabSt} {e : Nat}

/-- No packet passes onto a failed end. -/
theorem canPass_sound {x : Flow} (h : f.canPass x = true) (out : x.out < 1024) : (KV.get {} x.out f.links).failed = false := by
  have room : f.room x.out x.vc = true := by
    simp only [canPass, Bool.and_eq_true] at h
    exact h.1.2
  rw [FabSt.room, if_neg (by unfold acrossOut; omega), if_neg (by omega)] at room
  simp only [Bool.and_eq_true, Bool.not_eq_true'] at room
  exact room.1

theorem grant_links (f : FabSt) (out : Nat) : (f.grant out).links = f.links := by
  unfold grant
  extract_lets cs
  split <;> rfl

/-- Giving credits back leaves what has failed as it is. -/
theorem dead_owe (h : (KV.get {} e f.links).Dead) (input vc n : Nat) : (KV.get {} e (f.owe input vc n).links).Dead := by
  unfold owe
  split
  · by_cases same : e = input
    · subst same; rw [KV.get_upd_same]; exact h
    · rwa [KV.get_upd_other _ _ same]
  · exact h

theorem dead_pass (h : (KV.get {} e f.links).Dead) {x : Flow} (passes : f.canPass x = true) (k : Nat) :
    (KV.get {} e (f.pass k x).links).Dead := by
  unfold pass
  extract_lets fl
  clear_value fl
  split
  · refine dead_owe ?_ ..
    exact h
  · next inside =>
    split
    · exact h
    · next w ws =>
      extract_lets last y g t
      have rest : (KV.get {} e g.links).Dead := by
        refine dead_owe ?_ ..
        exact h
      split
      · exact rest
      · next here =>
        have other : e ≠ x.out := by
          rintro rfl
          exact Bool.false_ne_true ((canPass_sound passes (by omega)).symm.trans h.1)
        rwa [KV.get_upd_other _ _ other]

theorem dead_move {g : FabSt} (h : (KV.get {} e f.links).Dead) (hm : f.move = some g) : (KV.get {} e g.links).Dead := by
  unfold move at hm
  split at hm
  · next x hx =>
    obtain rfl := Option.some.inj hm
    exact dead_pass h (by simpa using List.find?_some hx) _
  · split at hm
    · obtain rfl := Option.some.inj hm
      rwa [grant_links]
    · exact absurd hm (by simp)

/-- However packets move, a failed end stays failed and empty. -/
theorem dead_pump (h : (KV.get {} e f.links).Dead) (n : Nat) : (KV.get {} e (f.pump n).links).Dead := by
  induction n generalizing f with
  | zero => exact pushAll_end (P := FLink.Dead) (fun _ _ d => d.push _ _) h
  | succ n ih =>
    rw [pump]
    split
    · next g hg => exact ih (dead_move h hg)
    · exact pushAll_end (P := FLink.Dead) (fun _ _ d => d.push _ _) h

end FabSt

/-! ### Events that stand -/

/-- A plaintext event stands in a state, and where it has been lost no later one takes its place (R242). -/
def State.Stands (code src part owner : Nat) (args : List Nat) (s : State) : Prop :=
  Wrote code src part owner false args s ∧ (0 < s.host.evLost → s.eventRoom = false)

/-- Registers outside the host die's map lie above it (R228). -/
theorem regOff_hub {r : Reg} (h : r.row.dom ≠ .host) (c : Ch) (idx : List Nat) : 0x400000 ≤ regOff r c idx := by
  unfold regOff domBase
  cases dom : r.row.dom <;> simp_all only [ne_eq, not_true_eq_false, reduceCtorEq, not_false_eq_true] <;> omega

section

variable {code src part owner : Nat} {args : List Nat} {s u : State}

theorem State.Stands.of_same (h : s.Stands code src part owner args) (host : u.host = s.host)
    (ctrl : u.reg .hpRingCtrl .a [96] = s.reg .hpRingCtrl .a [96]) : u.Stands code src part owner args := by
  refine ⟨?_, fun lost => ?_⟩
  · have wrote := h.1
    unfold Wrote State.ring at *
    simpa [host] using wrote
  · rw [State.eventRoom_of_same ctrl (by rw [host]) (by rw [host])]
    exact h.2 (host ▸ lost)

theorem State.Stands.event (h : s.Stands code src part owner args) (code' src' part' owner' : Nat) (sealed' : Bool) (args' : List Nat) :
    (s.event code' src' part' owner' sealed' args').Stands code src part owner args := by
  refine ⟨h.1.event h.2 .., fun lost => ?_⟩
  by_cases on : s.pwr.hostOn = true
  · exact State.eventRoom_of_lost on lost
  · have silent : s.event code' src' part' owner' sealed' args' = s := by rw [State.event, if_pos (by simpa using on)]
    rw [silent] at lost ⊢
    exact h.2 lost

/-- An event that is written stands. -/
theorem State.event_stands (s : State) (code src part owner : Nat) (args : List Nat) (on : s.pwr.hostOn = true) :
    (s.event code src part owner false args).Stands code src part owner args :=
  ⟨(s.event_told ..).2 on, State.eventRoom_of_lost on⟩

end

/-! ### What follows a failure -/

/-- `u` is what traffic and lost packets make of `s`: the guest of channel `c` is the same, ends that had failed are as they were, and the
events that stood stand. -/
structure State.Follows (c : Ch) (s u : State) : Prop where
  guest : (u.ch c).guest = (s.ch c).guest
  dead : ∀ e, (s.flink c e).Dead → (u.flink c e).Dead
  stands : ∀ code src part owner args, s.Stands code src part owner args → u.Stands code src part owner args

namespace State

variable {c : Ch} {s u v : State}

theorem Follows.refl (c : Ch) (s : State) : s.Follows c s := ⟨rfl, fun _ h => h, fun _ _ _ _ _ h => h⟩

theorem Follows.trans (h : s.Follows c u) (k : u.Follows c v) : s.Follows c v :=
  ⟨k.guest.trans h.guest, fun e d => k.dead e (h.dead e d), fun _ _ _ _ _ t => k.stands _ _ _ _ _ (h.stands _ _ _ _ _ t)⟩

theorem Follows.foldl {α : Type} {l : List α} {f : State → α → State} (h : s.Follows c u)
    (hf : ∀ v x, s.Follows c v → s.Follows c (f v x)) : s.Follows c (l.foldl f u) := by
  induction l generalizing u with
  | nil => exact h
  | cons x l ih => exact ih (hf _ x h)

theorem Follows.modDesign (h : s.Follows c u) (tag : Nat) (f : Design → Design) : s.Follows c (u.modDesign tag f) :=
  h.trans ⟨by rw [State.modDesign_ch], fun e d => by rwa [State.flink, State.modDesign_ch], fun _ _ _ _ _ t => t.of_same rfl rfl⟩

theorem Follows.countBy (h : s.Follows c u) {r : Reg} (hr : r.row.dom ≠ .host) (x : Ch) (idx : List Nat) (n : Nat) :
    s.Follows c (u.countBy r x idx n) := by
  refine h.trans ⟨by rw [State.countBy_ch], fun e d => by rwa [State.flink, State.countBy_ch], fun _ _ _ _ _ t => t.of_same rfl ?_⟩
  refine State.reg_setReg_other _ _ fun same => ?_
  have low : regOff .hpRingCtrl .a [96] < 0x400000 := by decide
  have high := regOff_hub hr x idx
  omega

theorem Follows.event (h : s.Follows c u) (code src part owner : Nat) (sealed : Bool) (args : List Nat) :
    s.Follows c (u.event code src part owner sealed args) := by
  have same := (u.event_quiet code src part owner sealed args).ch c
  exact h.trans ⟨by rw [same], fun e d => by rwa [State.flink, same], fun _ _ _ _ _ t => t.event ..⟩

/-- A change of the fabric that revives no failed end. -/
theorem Follows.modFab (h : s.Follows c u) {g : FabSt → FabSt}
    (hg : ∀ f e, (KV.get {} e f.links).Dead → (KV.get {} e (g f).links).Dead) : s.Follows c (u.modFab c g) :=
  h.trans ⟨by simp [State.modFab], fun e d => by rw [State.flink, modFab_fab]; exact hg _ e d,
    fun _ _ _ _ _ t => t.of_same (State.modCh_host ..) (by simp [State.reg, State.modFab])⟩

theorem Follows.modFlink (h : s.Follows c u) {f : FLink → FLink} (hf : ∀ x, x.Dead → (f x).Dead) (e : Nat) : s.Follows c (u.modFlink c e f) :=
  h.modFab fun g x d => by
    by_cases same : x = e
    · subst same; rw [KV.get_upd_same]; exact hf _ d
    · rwa [KV.get_upd_other _ _ same]

theorem Follows.modSched (h : s.Follows c u) (f : SchedSt → SchedSt) : s.Follows c (u.modSched c f) :=
  h.trans ⟨by simp [State.modSched], fun e d => by simpa [State.flink, State.modSched] using d,
    fun _ _ _ _ _ t => t.of_same (State.modCh_host ..) (by simp [State.reg, State.modSched])⟩

theorem Follows.modOther (h : s.Follows c u) (g : FabSt → FabSt) : s.Follows c (u.modFab (otherCh c) g) := by
  have same : (u.modFab (otherCh c) g).ch c = u.ch c := State.modCh_other _ _ (by cases c <;> decide)
  exact h.trans ⟨by rw [same], fun e d => by rwa [State.flink, same],
    fun _ _ _ _ _ t => t.of_same (State.modCh_host ..) (by simp [State.reg, State.modFab])⟩

theorem Follows.injected (h : s.Follows c u) (i n : Nat) : s.Follows c (u.injected c i n) := by
  unfold State.injected State.modStat
  exact h.modFab fun _ _ d => d

theorem Follows.enter (h : s.Follows c u) (pl : Place) (input : Nat) (flits : List (BitVec 256)) (left : Nat) :
    s.Follows c (u.enter c pl input flits left) := by
  unfold State.enter
  split
  · exact h
  · dsimp only
    split
    · split
      · refine Follows.modFlink (Follows.modFab ?_ fun _ _ d => FabSt.dead_owe d ..) (fun x d => ?_) _
        · exact (h.countBy (by decide) c [] 1).event ..
        · split <;> exact d
      · exact h
    · exact h.modFab fun _ _ d => d

theorem Follows.bankRequests (h : s.Follows c u) (d : Design) (cab master : Nat) (words : List Nat) :
    s.Follows c (u.bankRequests d cab master words) := by
  unfold State.bankRequests
  split
  · exact h
  · refine h.foldl fun w b k => ?_
    dsimp only
    split
    · exact k
    · exact (k.countBy (by decide) _ _ 1).countBy (by decide) _ _ _

theorem Follows.fabBank (h : s.Follows c u) (d : Design) (l op addr count : Nat) (data : List Word64) :
    s.Follows c (u.fabBank d l op addr count data).1 := by
  unfold State.fabBank
  extract_lets x s1 words
  have asked : s.Follows c s1 := h.bankRequests ..
  split
  · exact asked
  · split
    · exact asked
    · split
      · exact asked.modDesign ..
      · exact asked

theorem Follows.landPacket (h : s.Follows c u) (out : Nat) (flits : List (BitVec 256)) : s.Follows c (u.landPacket c out flits).2 := by
  unfold State.landPacket
  split
  · exact h
  · extract_lets w die node answer
    have answers : ∀ v status ws, s.Follows c v → s.Follows c (answer v status ws) := fun _ _ _ k => (k.enter ..).injected ..
    clear_value answer
    split
    · exact h
    · split
      · exact answers _ _ _ h
      · split
        · exact h
        · exact answers _ _ _ (h.fabBank ..)

theorem Follows.takeLanded (h : s.Follows c u) : s.Follows c (u.takeLanded c) := by
  unfold State.takeLanded
  extract_lets l r
  have taken : ∀ (l : List (Nat × List (BitVec 256))) (a : State × List (Nat × List (BitVec 256))), s.Follows c a.1 →
      s.Follows c (l.foldl (fun a e => ((a.1.landPacket c e.1 e.2).2, if (a.1.landPacket c e.1 e.2).1 then a.2 else a.2 ++ [e])) a).1 := by
    intro l
    induction l with
    | nil => exact fun _ k => k
    | cons e l ih => exact fun a k => ih _ (k.landPacket e.1 e.2)
  have emptied : s.Follows c (u.modFab c fun f => { f with landed := [] }) := h.modFab fun _ _ d => d
  exact (taken l (_, []) emptied).modFab fun _ _ d => d

theorem Follows.crossBridge (h : s.Follows c u) : s.Follows c (u.crossBridge c) := by
  unfold State.crossBridge
  extract_lets o l q n s1
  split
  · exact h
  · have left : s.Follows c (u.modFab c fun f => { f with across := f.across.drop n }) := h.modFab fun _ _ d => d
    exact left.modOther _

theorem Follows.fabSettle (h : s.Follows c u) : s.Follows c (u.fabSettle c) := by
  unfold State.fabSettle
  extract_lets s1 s2
  have pumped : s.Follows c s1 := h.modFab fun _ _ d => FabSt.dead_pump d _
  have landed : s.Follows c s2 := by
    dsimp only [s2]
    split
    · exact pumped
    · exact pumped.takeLanded.modFab fun _ _ d => FabSt.dead_pump d _
  split
  · exact landed
  · exact landed.crossBridge

theorem Follows.loseTag (h : s.Follows c u) (tag : Nat) : s.Follows c (u.loseTag c tag) := by
  unfold State.loseTag
  split
  · exact h
  · split
    · exact h.modDesign ..
    · exact h

theorem Follows.loseEngine (h : s.Follows c u) (flit : BitVec 256) : s.Follows c (u.loseEngine c flit) := by
  unfold State.loseEngine
  refine h.foldl fun w lo k => ?_
  dsimp only
  split
  · exact k.modSched _
  · exact k

theorem Follows.loseFlits (h : s.Follows c u) (l : List TxFlit) : s.Follows c (u.loseFlits c l) := by
  unfold State.loseFlits
  refine Follows.foldl (h.foldl fun _ _ k => k.loseTag _) fun w t k => ?_
  split
  · exact k
  · exact k.loseEngine _

/-! ### The failure of a link (R173) -/

/-- A link is cut: its ends hold nothing, and the packets that were passing it are gone. -/
def linkCut (s : State) (c : Ch) (link : Nat) : State :=
  ((link :: (peerEnd link).toList).foldl (fun s e => s.modFlink c e fun x =>
      { x with failed := true, check := 0, nak := false, fails := 0, queue := [], replay := [], used := [], owed := [] }) s).modFab c
    fun f => { f with flows := f.flows.filter (fun x => !(((link :: (peerEnd link).toList).contains x.input && decide (0 < x.left)) ||
      (x.granted && (link :: (peerEnd link).toList).contains x.out))) }

theorem linkCut_dead (s : State) (c : Ch) (link : Nat) {e : Nat} (h : e ∈ link :: (peerEnd link).toList) : ((s.linkCut c link).flink c e).Dead := by
  rw [linkCut, flink, modFab_fab]
  exact flink_modFlinks_mem (P := FLink.Dead) (fun _ => ⟨rfl, rfl, rfl⟩) h

theorem linkCut_pwr (s : State) (c : Ch) (link : Nat) : (s.linkCut c link).pwr = s.pwr := by
  cases peer : peerEnd link <;> simp [linkCut, peer, modFab, modFlink]

/-- A sibling link or the guest port fails (R173, R186): the link is cut, that is reported, what is lost is lost, and traffic goes on. -/
theorem linkFails_follows (s : State) (c : Ch) {link : Nat} (port : link = 8 ∨ link = 9 ∨ link = 11) :
    ∃ v, ((s.linkCut c link).hubEvent c 0x3002 [chNum c, link, if link = 11 then 2 else 1, 0]).Follows c v ∧
      (if link = 11 then v.modGuest c fun g => { g with failed := true } else v).Follows c (s.linkFails c link) := by
  unfold linkFails
  extract_lets ends number lost cut s1 s2 s3 s4 s5
  have told : s3 = (s.linkCut c link).hubEvent c 0x3002 [chNum c, link, if link = 11 then 2 else 1, 0] := by
    rcases port with rfl | rfl | rfl <;> rfl
  have marked : s5 = if link = 11 then s4.modGuest c fun g => { g with failed := true } else s4 := by
    rcases port with rfl | rfl | rfl <;> rfl
  refine ⟨s4, ?_, ?_⟩
  · rw [← told]; exact (Follows.refl c s3).loseFlits _
  · rw [← marked]; exact Follows.fabSettle ((Follows.refl c s5).modFab fun _ _ d => d)

/-- A failed sibling link or guest port: its ends are dead, the event stands, and the guest port is marked. -/
theorem linkFails_spec (s : State) (c : Ch) {link : Nat} (port : link = 8 ∨ link = 9 ∨ link = 11) :
    (∀ e ∈ link :: (peerEnd link).toList, ((s.linkFails c link).flink c e).Dead) ∧
    (link = 11 → ((s.linkFails c link).ch c).guest.failed = true) ∧
    (s.pwr.hostOn = true →
      (s.linkFails c link).Stands 0x3002 (1 + chNum c) 0xFF 0 [chNum c, link, if link = 11 then 2 else 1, 0]) := by
  obtain ⟨v, lost, went⟩ := s.linkFails_follows c port
  have cut : ∀ e ∈ link :: (peerEnd link).toList, (v.flink c e).Dead := fun e he => lost.dead e <| by
    rw [flink, hubEvent, (event_quiet ..).ch]; exact s.linkCut_dead c link he
  have told : s.pwr.hostOn = true → v.Stands 0x3002 (1 + chNum c) 0xFF 0 [chNum c, link, if link = 11 then 2 else 1, 0] := fun on =>
    lost.stands _ _ _ _ _ (event_stands _ _ _ _ _ _ (by rwa [linkCut_pwr]))
  split at went
  · exact ⟨fun e he => went.dead e (by simpa [flink, modGuest] using cut e he), fun _ => by rw [went.guest, modGuest_guest],
      fun on => went.stands _ _ _ _ _ ((told on).of_same (modCh_host ..) (by simp [reg, modGuest]))⟩
  · next other => exact ⟨fun e he => went.dead e (cut e he), fun guest => absurd guest other, fun on => went.stands _ _ _ _ _ (told on)⟩

end State

end Sys2Proof.Machine
end

section
/-! FLIT_RECEIVE (R166, R171, R172, R176, R177): what a sideband word does, what becomes of a flit by its number, its CRC and its head. -/

namespace Sys2Proof.Machine

open Sys2Proof

/-- Giving credits back leaves what an end expects. -/
theorem FabSt.next_owe (f : FabSt) (input vc n e : Nat) : (KV.get {} e (f.owe input vc n).links).next = (KV.get {} e f.links).next := by
  unfold owe
  split
  · by_cases same : e = input
    · subst same; rw [KV.get_upd_same]
    · rw [KV.get_upd_other _ _ same]
  · rfl

/-! ### The sideband word (R176) -/

/-- What becomes of the flit of a unit interval by its sequence number (R172, R177). -/
def State.flitJudged (s : State) (c : Ch) (link : Nat) (flit : BitVec 256) (side : BitVec 16) (bad : Bool) : State :=
  if field side.toNat 1 6 = (s.flink c link).next ∨ (s.flink c link).check ≠ 0 then s.takeFlit c link flit bad
  else if (field side.toNat 1 6 + 64 - (s.flink c link).next) % 64 < linkWindow link then
    (if (s.flink c link).nak then s else s.modFlink c link fun x => { x with nak := true }.reply)
  else s.modFlink c link fun x => x.reply

/-- An end has taken an acknowledgement, or a NAK, and sends what it may (R172). -/
def State.ackTaken (s : State) (c : Ch) (link ack : Nat) (nak : Bool) : State :=
  ((s.modFlink c link fun x => x.acked ack nak).checkOver c link).modFab c fun f => f.pushEnd link

section

variable {s : State} {c : Ch} {link : Nat} {flit : BitVec 256} {side : BitVec 16} {bad : Bool}

theorem exec_flitReceive_badSide (wrong : sideOk side = false) : exec (.flitReceive c link ⟨flit, bad⟩ side) s = .next s := by
  show execFlitReceive c link ⟨flit, bad⟩ side s = _
  unfold execFlitReceive
  rw [if_pos (.inr wrong)]

theorem exec_flitReceive_idle (up : s.endUp c link = true) (ok : sideOk side = true) (plain : side.getLsbD 7 = false)
    (empty : side.getLsbD 0 = false) : exec (.flitReceive c link ⟨flit, bad⟩ side) s = .next (s.fabSettle c) := by
  have ack : bitAt side.toNat 7 = false := plain
  have valid : bitAt side.toNat 0 = false := empty
  show execFlitReceive c link ⟨flit, bad⟩ side s = _
  simp only [execFlitReceive, up, ok, ack, valid, Bool.true_eq_false, Bool.false_eq_true, or_self, if_false, if_true]

theorem exec_flitReceive_flit (up : s.endUp c link = true) (ok : sideOk side = true) (plain : side.getLsbD 7 = false)
    (carries : side.getLsbD 0 = true) :
    exec (.flitReceive c link ⟨flit, bad⟩ side) s = .next ((s.flitJudged c link flit side bad).fabSettle c) := by
  have ack : bitAt side.toNat 7 = false := plain
  have valid : bitAt side.toNat 0 = true := carries
  show execFlitReceive c link ⟨flit, bad⟩ side s = _
  simp only [execFlitReceive, State.flitJudged, up, ok, ack, valid, Bool.true_eq_false, Bool.false_eq_true, or_self, if_false]

/-- An interval that acknowledges and carries no flit (R172, R176). -/
theorem exec_flitReceive_ack (up : s.endUp c link = true) (ok : sideOk side = true) (ack : side.getLsbD 7 = true)
    (empty : side.getLsbD 0 = false) : exec (.flitReceive c link ⟨flit, bad⟩ side) s =
      .next ((s.ackTaken c link (field side.toNat 8 6) (side.getLsbD 14)).fabSettle c) := by
  have acks : bitAt side.toNat 7 = true := ack
  have valid : bitAt side.toNat 0 = false := empty
  show execFlitReceive c link ⟨flit, bad⟩ side s = _
  simp only [execFlitReceive, up, ok, acks, valid, Bool.true_eq_false, or_self, if_false, if_true]
  rfl

/-- During a lane check no flit but a lane map is taken (R177). -/
theorem State.flitJudged_checking (check : (s.flink c link).check ≠ 0) (cls : field flit.toNat 0 3 ≠ 7) :
    s.flitJudged c link flit side bad = s := by
  rw [flitJudged, if_pos (.inr check), takeFlit]
  simp [check, cls]

theorem State.flitJudged_expected (expected : field side.toNat 1 6 = (s.flink c link).next) :
    s.flitJudged c link flit side bad = s.takeFlit c link flit bad := if_pos (.inl expected)

theorem State.flitJudged_unexpected (check : (s.flink c link).check = 0) (other : field side.toNat 1 6 ≠ (s.flink c link).next) :
    s.flitJudged c link flit side bad =
      if (field side.toNat 1 6 + 64 - (s.flink c link).next) % 64 < linkWindow link then
        (if (s.flink c link).nak then s else s.modFlink c link fun x => { x with nak := true }.reply)
      else s.modFlink c link fun x => x.reply := if_neg (by tauto)

end

/-! ### Acknowledgements (R172) -/

section

variable {x : FLink} {ack : Nat} {nak : Bool}

theorem FLink.acked_rest (x : FLink) (ack : Nat) (nak : Bool) : (x.acked ack nak).replay = x.replay.drop (x.acks ack) ∧
    (x.acked ack nak).next = x.next ∧ (x.acked ack nak).check = x.check ∧ (x.acked ack nak).queue = x.queue ∧
    (x.acked ack nak).owed = x.owed := by
  unfold acked
  cases nak <;> exact ⟨rfl, rfl, rfl, rfl, rfl⟩

/-- A NAK sends again what the replay buffer still holds, oldest first. -/
theorem FLink.acked_resends (x : FLink) (ack : Nat) (h : nak = true) :
    (x.acked ack nak).sent.length = x.sent.length + (x.replay.length - x.acks ack) ∧
    ∀ i, i < x.replay.length - x.acks ack →
      ((x.acked ack nak).sent[x.sent.length + i]?).map (·.2) = (x.replay[x.acks ack + i]?).map (·.flit) := by
  subst h
  unfold acked
  extract_lets y first
  refine ⟨?_, fun i hi => ?_⟩
  · simp [y]
  · have olds : ((y.replay.zip (List.range y.replay.length)).map Prod.fst)[i]? = x.replay[x.acks ack + i]? := by
      rw [List.map_fst_zip (by simp), List.getElem?_drop]
    rw [← olds, if_pos rfl, List.getElem?_append_right (Nat.le_add_right ..), Nat.add_sub_cancel_left, List.getElem?_map, List.getElem?_map,
      Option.map_map, Option.map_map]
    rfl

end

namespace State

variable {s : State} {c : Ch} {link : Nat} {flit : BitVec 256} {side : BitVec 16} {bad : Bool}

@[simp] theorem modFlink_host (s : State) (c : Ch) (e : Nat) (f : FLink → FLink) : (s.modFlink c e f).host = s.host := s.modCh_host c _
@[simp] theorem modFlink_regs (s : State) (c : Ch) (e : Nat) (f : FLink → FLink) : (s.modFlink c e f).regs = s.regs := s.modCh_regs c _
@[simp] theorem modFlink_designs (s : State) (c : Ch) (e : Nat) (f : FLink → FLink) : (s.modFlink c e f).designs = s.designs := s.modCh_designs c _
@[simp] theorem modFlink_flows (s : State) (c : Ch) (e : Nat) (f : FLink → FLink) :
    ((s.modFlink c e f).ch c).fab.flows = (s.ch c).fab.flows := by rw [modFlink, modFab_fab]
@[simp] theorem modFlink_landed (s : State) (c : Ch) (e : Nat) (f : FLink → FLink) :
    ((s.modFlink c e f).ch c).fab.landed = (s.ch c).fab.landed := by rw [modFlink, modFab_fab]

@[simp] theorem flink_count (s : State) (r : Reg) (x : Ch) (idx : List Nat) (c : Ch) (e : Nat) : (s.count r x idx).flink c e = s.flink c e := by
  rw [flink, count, countBy_ch, flink]

/-- An end that does not exchange lane maps is not released from a check. -/
theorem flink_checkOver (h : (s.flink c link).check ≠ 2) : (s.checkOver c link).flink c link = s.flink c link := by
  rw [checkOver, flink_modFlink_same, if_neg (fun all => h all.1)]

theorem flink_ackTaken (check : (s.flink c link).check = 0) (queue : (s.flink c link).queue = []) (owed : (s.flink c link).owed = [])
    (ack : Nat) (nak : Bool) : (s.ackTaken c link ack nak).flink c link = (s.flink c link).acked ack nak := by
  obtain ⟨-, -, check', queue', owed'⟩ := (s.flink c link).acked_rest ack nak
  have taken : ((s.modFlink c link fun x => x.acked ack nak).checkOver c link).flink c link = (s.flink c link).acked ack nak := by
    rw [flink_checkOver, flink_modFlink_same]
    rw [flink_modFlink_same, check', check]; decide
  rw [ackTaken, flink, modFab_fab, FabSt.pushEnd, KV.get_upd_same]
  change FLink.push _ (((s.modFlink c link fun x => x.acked ack nak).checkOver c link).flink c link) _ = _
  rw [taken, FLink.push_idle (owed'.trans owed) (queue'.trans queue)]

/-- Taking an acknowledgement and letting the fabric settle leaves the end as the acknowledgement left it. -/
theorem ackTaken_settles (check : (s.flink c link).check = 0) (queue : (s.flink c link).queue = []) (owed : (s.flink c link).owed = [])
    (flows : (s.ch c).fab.flows = []) (landed : (s.ch c).fab.landed = []) (ack : Nat) (nak : Bool) :
    ((s.ackTaken c link ack nak).fabSettle c).host = s.host ∧ ((s.ackTaken c link ack nak).fabSettle c).designs = s.designs ∧
    ((s.ackTaken c link ack nak).fabSettle c).flink c link = (s.flink c link).acked ack nak := by
  obtain ⟨-, -, -, queue', owed'⟩ := (s.flink c link).acked_rest ack nak
  have taken := flink_ackTaken check queue owed ack nak
  have flows' : ((s.ackTaken c link ack nak).ch c).fab.flows = [] := by
    rw [ackTaken, modFab_fab]; simpa [FabSt.pushEnd, checkOver] using flows
  have landed' : ((s.ackTaken c link ack nak).ch c).fab.landed = [] := by
    rw [ackTaken, modFab_fab]; simpa [FabSt.pushEnd, checkOver] using landed
  have routed := routed_fabSettle flows' landed'
  refine ⟨routed.host.trans ?_, routed.designs.trans ?_, ?_⟩
  · simp [ackTaken, checkOver, modFab]
  · simp [ackTaken, checkOver, modFab]
  · refine flink_fabSettle_still (P := fun y => y = (s.flink c link).acked ack nak) flows' landed' ?_ taken
    rintro x n rfl
    exact FLink.push_idle (owed'.trans owed) (queue'.trans queue) _ _

/-! ### A flit that fails its check (R172) -/

/-- A lane check begins at both ends of a link, after the fourth failure of a flit. -/
def checkStarted (s : State) (c : Ch) (link : Nat) : State :=
  (link :: (peerEnd link).toList).foldl (fun s e => s.modFlink c e fun x => { x with check := 1, mapSeen := false, mapAcked := false })
    (((s.count .vfCrcErrors c []).count .vfLaneChecks c []).modFlink c link fun x => { x with fails := 0, nak := true, checked := true }.reply)

theorem takeFlit_failed (check : (s.flink c link).check = 0) (wrong : flitCrcOk flit = false ∨ bad = true) :
    s.takeFlit c link flit bad = s.flitFailed c link := by
  rw [takeFlit, if_neg (by simp [check]), if_pos wrong]

theorem flitFailed_naks (few : (s.flink c link).fails < 3) : s.flitFailed c link =
    (s.count .vfCrcErrors c []).modFlink c link fun x => { x with fails := x.fails + 1, nak := true }.reply := by
  rw [flitFailed, flink_count, if_pos (by omega)]

theorem flitFailed_checks (many : 3 ≤ (s.flink c link).fails) (first : (s.flink c link).checked = false) :
    s.flitFailed c link = s.checkStarted c link := by
  rw [flitFailed, flink_count, if_neg (by omega), if_neg (by simp [first])]; rfl

theorem flitFailed_ends (many : 3 ≤ (s.flink c link).fails) (again : (s.flink c link).checked = true) :
    s.flitFailed c link = (s.count .vfCrcErrors c []).linkFails c link := by
  rw [flitFailed, flink_count, if_neg (by omega), if_pos again]

theorem modFlinks_rest (s : State) (c : Ch) (f : FLink → FLink) (l : List Nat) :
    (l.foldl (fun s e => s.modFlink c e f) s).host = s.host ∧ (l.foldl (fun s e => s.modFlink c e f) s).regs = s.regs ∧
    ((l.foldl (fun s e => s.modFlink c e f) s).ch c).fab.flows = (s.ch c).fab.flows ∧
    ((l.foldl (fun s e => s.modFlink c e f) s).ch c).fab.landed = (s.ch c).fab.landed := by
  induction l generalizing s with
  | nil => exact ⟨rfl, rfl, rfl, rfl⟩
  | cons e l ih => simpa using ih (s.modFlink c e f)

/-- The start of a lane check counts it and the failure, and changes nothing else beside the ends. -/
theorem checkStarted_rest (s : State) (c : Ch) (link : Nat) : (s.checkStarted c link).host = s.host ∧
    (s.checkStarted c link).regs = ((s.count .vfCrcErrors c []).count .vfLaneChecks c []).regs ∧
    ((s.checkStarted c link).ch c).fab.flows = (s.ch c).fab.flows ∧ ((s.checkStarted c link).ch c).fab.landed = (s.ch c).fab.landed := by
  obtain ⟨host, regs, flows, landed⟩ := modFlinks_rest (((s.count .vfCrcErrors c []).count .vfLaneChecks c []).modFlink c link
    fun x => { x with fails := 0, nak := true, checked := true }.reply) c (fun x => { x with check := 1, mapSeen := false, mapAcked := false })
    (link :: (peerEnd link).toList)
  rw [modFlink_host] at host
  rw [modFlink_regs] at regs
  rw [modFlink_flows, count, countBy_ch, count, countBy_ch] at flows
  rw [modFlink_landed, count, countBy_ch, count, countBy_ch] at landed
  exact ⟨host, regs, flows, landed⟩

theorem checkStarted_check (s : State) (c : Ch) (link : Nat) {e : Nat} (he : e ∈ link :: (peerEnd link).toList) :
    ((s.checkStarted c link).flink c e).check = 1 :=
  flink_modFlinks_mem (P := fun x => x.check = 1) (fun _ => rfl) he

/-- The receiver waits for the same flit. -/
theorem checkStarted_receiver (s : State) (c : Ch) (link : Nat) : ((s.checkStarted c link).flink c link).failed = (s.flink c link).failed ∧
    ((s.checkStarted c link).flink c link).next = (s.flink c link).next := by
  constructor
  · rw [checkStarted, flink_modFlinks_eq FLink.failed, flink_modFlink_same, flink_count, flink_count]
    · rfl
    · exact fun _ => rfl
  · rw [checkStarted, flink_modFlinks_eq FLink.next, flink_modFlink_same, flink_count, flink_count]
    · rfl
    · exact fun _ => rfl

/-- Settling leaves the ends in the check as they are. -/
theorem checkStarted_settled (flows : (s.ch c).fab.flows = []) (landed : (s.ch c).fab.landed = []) {e : Nat}
    (he : e ∈ link :: (peerEnd link).toList) :
    ((s.checkStarted c link).fabSettle c).flink c e = (s.checkStarted c link).flink c e := by
  obtain ⟨-, -, flows', landed'⟩ := s.checkStarted_rest c link
  refine flink_fabSettle_still (P := fun y => y = (s.checkStarted c link).flink c e) (flows'.trans flows) (landed'.trans landed) ?_ rfl
  rintro x n rfl
  exact FLink.push_stopped (.inr (by rw [s.checkStarted_check c link he]; decide)) _ _

/-- Both the failure and the lane check are counted. -/
theorem checkStarted_counts (s : State) (c : Ch) (link : Nat) :
    (s.checkStarted c link).reg .vfLaneChecks c [] = satAdd (s.reg .vfLaneChecks c []) 1 ∧
    (s.checkStarted c link).reg .vfCrcErrors c [] = satAdd (s.reg .vfCrcErrors c []) 1 := by
  obtain ⟨-, regs, -, -⟩ := s.checkStarted_rest c link
  have apart : regOff .vfCrcErrors c [] ≠ regOff .vfLaneChecks c [] := by cases c <;> decide
  have same : ∀ r, (s.checkStarted c link).reg r c [] = ((s.count .vfCrcErrors c []).count .vfLaneChecks c []).reg r c [] := fun r => by
    rw [reg, regs, reg]
  constructor
  · rw [same, count, countBy, reg_setReg_same, count, countBy, reg_setReg_other _ _ apart.symm]
  · rw [same, count, countBy, reg_setReg_other _ _ apart, count, countBy, reg_setReg_same]

/-- Both ends of the link stand in the check, the receiver waits for the same flit, and both counters have risen. -/
theorem checkStarted_settles (sound : (s.flink c link).failed = false) (flows : (s.ch c).fab.flows = []) (landed : (s.ch c).fab.landed = []) :
    (((s.checkStarted c link).fabSettle c).flink c link).check = 1 ∧ (((s.checkStarted c link).fabSettle c).flink c link).failed = false ∧
    (((s.checkStarted c link).fabSettle c).flink c link).next = (s.flink c link).next ∧
    (∀ e, peerEnd link = some e → (((s.checkStarted c link).fabSettle c).flink c e).check = 1) ∧
    ((s.checkStarted c link).fabSettle c).host = s.host ∧
    ((s.checkStarted c link).fabSettle c).reg .vfLaneChecks c [] = satAdd (s.reg .vfLaneChecks c []) 1 ∧
    ((s.checkStarted c link).fabSettle c).reg .vfCrcErrors c [] = satAdd (s.reg .vfCrcErrors c []) 1 := by
  obtain ⟨host, -, flows', landed'⟩ := s.checkStarted_rest c link
  obtain ⟨failed, next⟩ := s.checkStarted_receiver c link
  obtain ⟨checks, errors⟩ := s.checkStarted_counts c link
  have routed := routed_fabSettle (flows'.trans flows) (landed'.trans landed)
  have regs : ∀ r, ((s.checkStarted c link).fabSettle c).reg r c [] = (s.checkStarted c link).reg r c [] := fun r => by
    rw [reg, routed.regs, reg]
  have here : link ∈ link :: (peerEnd link).toList := List.mem_cons_self ..
  have check : ∀ e ∈ link :: (peerEnd link).toList, (((s.checkStarted c link).fabSettle c).flink c e).check = 1 := fun e he => by
    rw [checkStarted_settled flows landed he, s.checkStarted_check c link he]
  refine ⟨check _ here, ?_, ?_, fun e he => check _ (by simp [he]), routed.host.trans host, (regs _).trans checks, (regs _).trans errors⟩
  · rw [checkStarted_settled flows landed here, failed, sound]
  · rw [checkStarted_settled flows landed here, next]

/-- A sibling link that has ended stays so on both sides, and its event stands, however the traffic goes on. -/
theorem siblingFails_settles (s : State) (c : Ch) (sibling : link = 8 ∨ link = 9) :
    (((s.linkFails c link).fabSettle c).flink c link).failed = true ∧
    (((s.linkFails c link).fabSettle c).flink c (524 + link)).failed = true ∧
    (s.pwr.hostOn = true → Wrote 0x3002 (1 + chNum c) 0xFF 0 false [chNum c, link, 1, 0] ((s.linkFails c link).fabSettle c)) := by
  obtain ⟨dead, -, stands⟩ := s.linkFails_spec c (sibling.imp_right .inl)
  have after := (Follows.refl c (s.linkFails c link)).fabSettle
  have die : (if link = 11 then 2 else 1) = 1 := if_neg (by omega)
  have peer : peerEnd link = some (524 + link) := if_pos (by omega)
  rw [die] at stands
  exact ⟨(after.dead _ (dead _ (List.mem_cons_self ..))).1, (after.dead _ (dead _ (by simp [peer]))).1,
    fun on => (after.stands _ _ _ _ _ (stands on)).1⟩

/-! ### A flit that passes its check (R165, R169, R172) -/

/-- The receiver takes a flit: it expects the next, and acknowledges. -/
def flitAccepted (s : State) (c : Ch) (link : Nat) : State :=
  s.modFlink c link fun y => { y with next := (y.next + 1) % 64, fails := 0, checked := false, nak := false }.reply

/-- A good head without failures before it enters its router. -/
theorem takeFlit_head (check : (s.flink c link).check = 0) (crc : flitCrcOk flit = true) (port : link ≠ 11)
    (fails : (s.flink c link).fails = 0) (checked : (s.flink c link).checked = false) (nak : (s.flink c link).nak = false)
    (drop : (s.flink c link).drop = 0) (room : s.bufferFull c link flit.toNat = false)
    (whole : ∀ y ∈ (s.ch c).fab.flows, y.input = link → y.left = 0) (head : headBad flit.toNat = false) (cls : field flit.toNat 0 3 ≠ 7) :
    s.takeFlit c link flit false = ((s.flitAccepted c link).enter c (endPlace link) link [flit] (field flit.toNat 3 5)).fabSettle c := by
  have taken : s.takeFlit c link flit false = (s.flitAccepted c link).flitPassed c link flit := by
    simp only [takeFlit, check, crc, room, fails, checked, nak, port, ne_eq, not_true_eq_false, Bool.true_eq_false, Bool.false_eq_true,
      and_false, or_self, if_false, Nat.lt_irrefl]
    rfl
  have flows : ((s.flitAccepted c link).ch c).fab.flows = (s.ch c).fab.flows := modFlink_flows ..
  have idle : ((s.flitAccepted c link).flink c link).drop = 0 := by rw [flitAccepted, flink_modFlink_same]; exact drop
  have none : ((List.range (s.ch c).fab.flows.length).zip (s.ch c).fab.flows).find?
      (fun e => e.2.input == link && decide (0 < e.2.left)) = none := by
    rw [List.find?_eq_none]
    intro e he
    have ended := whole e.2 (List.of_mem_zip he).2
    simp only [Bool.and_eq_true, beq_iff_eq, decide_eq_true_eq, not_and]
    intro mine
    have := ended mine
    omega
  rw [taken, flitPassed, flows, none]
  simp only [idle, head, cls, Nat.lt_irrefl, Bool.false_eq_true, if_false]

theorem fabTagOk_modFlink (s : State) (c : Ch) (e : Nat) (f : FLink → FLink) (x : Ch) (pl : Place) (w : Nat) :
    (s.modFlink c e f).fabTagOk x pl w = s.fabTagOk x pl w := by
  cases c <;> cases x <;> rfl

/-- A packet that a router may not carry is counted and reported, its credit goes back, and its body will be dropped (R165). -/
theorem enter_isolated {die node : Nat} (forbidden : s.fabTagOk c (.router die node) flit.toNat = false) (input left : Nat) :
    s.enter c (.router die node) input [flit] left =
      (((s.count .vfIsolationDrops c []).hubEvent c 0x3001 [chNum c, die, node]).modFab c
        fun f => f.owe input (vcOf c (.router die node) flit.toNat) 1).modFlink c input
          fun x => if input < 1024 then { x with drop := left } else x := by
  simp only [enter, forbidden, if_true]

theorem enter_isolated_spec {die node : Nat} (forbidden : s.fabTagOk c (.router die node) flit.toNat = false) (input left : Nat) :
    (s.enter c (.router die node) input [flit] left).designs = s.designs ∧
    ((s.enter c (.router die node) input [flit] left).ch c).fab.flows = (s.ch c).fab.flows ∧
    ((s.enter c (.router die node) input [flit] left).ch c).fab.landed = (s.ch c).fab.landed ∧
    (∀ e, ((s.enter c (.router die node) input [flit] left).flink c e).next = (s.flink c e).next) ∧
    (s.enter c (.router die node) input [flit] left).reg .vfIsolationDrops c [] = satAdd (s.reg .vfIsolationDrops c []) 1 ∧
    (s.pwr.hostOn = true → (s.enter c (.router die node) input [flit] left).Stands 0x3001 (1 + chNum c) 0xFF 0 [chNum c, die, node]) := by
  rw [enter_isolated forbidden]
  have quiet := (s.count .vfIsolationDrops c []).event_quiet 0x3001 (1 + chNum c) 0xFF 0 false [chNum c, die, node]
  have stands := (s.count .vfIsolationDrops c []).event_stands 0x3001 (1 + chNum c) 0xFF 0 [chNum c, die, node]
  change Quiet _ ((s.count .vfIsolationDrops c []).hubEvent c 0x3001 [chNum c, die, node]) at quiet
  change _ → ((s.count .vfIsolationDrops c []).hubEvent c 0x3001 [chNum c, die, node]).Stands .. at stands
  generalize (s.count .vfIsolationDrops c []).hubEvent c 0x3001 [chNum c, die, node] = v at quiet stands
  have ch : v.ch c = s.ch c := (quiet.ch c).trans (countBy_ch ..)
  have apart : regOff .vfIsolationDrops c [] ≠ regOff .hpEventLost .a [] := by cases c <;> decide
  have regs : (v.modFab c fun f => f.owe input (vcOf c (.router die node) flit.toNat) 1).regs = v.regs := modCh_regs ..
  refine ⟨?_, ?_, ?_, fun e => ?_, ?_, fun on => (stands on).of_same ?_ ?_⟩
  · rw [modFlink_designs]; exact (modCh_designs ..).trans quiet.designs
  · rw [modFlink_flows, modFab_fab, FabSt.owe_flows, ch]
  · rw [modFlink_landed, modFab_fab, FabSt.owe_landed, ch]
  · have owed : ((v.modFab c fun f => f.owe input (vcOf c (.router die node) flit.toNat) 1).flink c e).next = (s.flink c e).next := by
      rw [flink, modFab_fab, FabSt.next_owe, ch, flink]
    by_cases same : e = input
    · subst same
      rw [flink_modFlink_same]
      split <;> exact owed
    · rw [flink_modFlink_other _ _ _ same]; exact owed
  · rw [reg, modFlink_regs, regs]
    exact (reg_of_quiet quiet apart).trans (reg_setReg_same ..)
  · exact (modFlink_host ..).trans (modCh_host ..)
  · rw [reg, modFlink_regs, regs, reg]

/-- A head that its router may not carry is dropped, and nothing waits in the fabric. -/
theorem flitAccepted_isolated {die node : Nat} (forbidden : s.fabTagOk c (.router die node) flit.toNat = false)
    (flows : (s.ch c).fab.flows = []) (landed : (s.ch c).fab.landed = []) (left : Nat) :
    ∃ u, ((((s.flitAccepted c link).enter c (.router die node) link [flit] left).fabSettle c).fabSettle c) = u ∧
      (u.flink c link).next = ((s.flink c link).next + 1) % 64 ∧ (u.ch c).fab.flows = [] ∧ u.designs = s.designs ∧
      u.reg .vfIsolationDrops c [] = satAdd (s.reg .vfIsolationDrops c []) 1 ∧
      (s.pwr.hostOn = true → Wrote 0x3001 (1 + chNum c) 0xFF 0 false [chNum c, die, node] u) := by
  obtain ⟨designs, flows₁, landed₁, next, counted, stands⟩ := enter_isolated_spec (s := s.flitAccepted c link)
    ((s.fabTagOk_modFlink ..).trans forbidden) link left
  generalize (s.flitAccepted c link).enter c (.router die node) link [flit] left = v at designs flows₁ landed₁ next counted stands
  replace flows₁ := flows₁.trans ((modFlink_flows ..).trans flows)
  replace landed₁ := landed₁.trans ((modFlink_landed ..).trans landed)
  obtain ⟨flows₂, landed₂⟩ := fabSettle_still_rest flows₁ landed₁
  have routed := (routed_fabSettle flows₁ landed₁).trans (routed_fabSettle flows₂ landed₂)
  have regs : ∀ r x idx, ((v.fabSettle c).fabSettle c).reg r x idx = v.reg r x idx := fun r x idx => by rw [reg, routed.regs, reg]
  refine ⟨_, rfl, ?_, (fabSettle_still_rest flows₂ landed₂).1, ?_, ?_, fun on => ((stands ?_).of_same routed.host (regs ..)).1⟩
  · have kept : (v.flink c link).next = ((s.flink c link).next + 1) % 64 := by
      rw [next, flitAccepted, flink_modFlink_same]; rfl
    refine flink_fabSettle_still (P := fun y => y.next = ((s.flink c link).next + 1) % 64) flows₂ landed₂ (fun _ _ h => ?_)
      (flink_fabSettle_still (P := fun y => y.next = ((s.flink c link).next + 1) % 64) flows₁ landed₁ (fun _ _ h => ?_) kept)
    · rwa [FLink.push_next]
    · rwa [FLink.push_next]
  · exact routed.designs.trans (designs.trans (modFlink_designs ..))
  · rw [regs, counted, flitAccepted, reg, modFlink_regs, reg]
  · exact (modCh_pwr ..).symm ▸ on

end State

/-! ### The clauses -/

theorem flitReceived : Clauses.FlitReceived := by
  intro s c link flit side bad x hx up
  subst hx
  have sound : (s.flink c link).failed = false := by
    simp only [State.endUp, Bool.and_eq_true, Bool.not_eq_true'] at up; exact up.2
  refine ⟨exec_flitReceive_badSide, fun n k ok ack empty check queue owed flows landed hn hk => ?_, fun ok plain =>
    ⟨exec_flitReceive_idle up ok plain, fun carries check cls => ?_, fun carries check other => ⟨fun near => ⟨fun nak => ?_, fun nak => ?_⟩,
      fun far => ?_⟩, fun carries check expected => ⟨fun wrong => ⟨fun few => ?_, fun many first flows landed => ?_, fun many again sibling => ?_⟩,
      fun crc whole port fails checked nak drop room idle head cls => ⟨?_, fun die node forbidden place flows landed => ?_⟩⟩⟩⟩
  · obtain ⟨host, designs, taken⟩ := State.ackTaken_settles check queue owed flows landed (field side.toNat 8 6) (side.getLsbD 14)
    obtain ⟨replay, next, -⟩ := (s.flink c link).acked_rest (field side.toNat 8 6) (side.getLsbD 14)
    refine ⟨_, exec_flitReceive_ack up ok ack empty, host, designs, ?_, ?_, fun nak => ?_, fun nak => ?_⟩
    · rw [taken, replay, hn]
    · rw [taken, next]
    · rw [taken, nak]; rfl
    · rw [taken, hn, hk, hn]
      exact (s.flink c link).acked_resends (field side.toNat 8 6) nak
  · rw [exec_flitReceive_flit up ok plain carries, State.flitJudged_checking check cls]
  · rw [exec_flitReceive_flit up ok plain carries, State.flitJudged_unexpected check other, if_pos near, if_pos nak]
  · rw [exec_flitReceive_flit up ok plain carries, State.flitJudged_unexpected check other, if_pos near, if_neg (by simp [nak])]
  · rw [exec_flitReceive_flit up ok plain carries, State.flitJudged_unexpected check other, if_neg (by omega)]
  all_goals
    have taken := exec_flitReceive_flit (flit := flit) (bad := bad) up ok plain carries
    rw [State.flitJudged_expected expected] at taken
  · rw [taken, State.takeFlit_failed check wrong, State.flitFailed_naks few]
  · exact ⟨_, by rw [taken, State.takeFlit_failed check wrong, State.flitFailed_checks many first],
      State.checkStarted_settles sound flows landed⟩
  · exact ⟨_, by rw [taken, State.takeFlit_failed check wrong, State.flitFailed_ends many again],
      (s.count .vfCrcErrors c []).siblingFails_settles c sibling⟩
  · rw [taken, whole, State.takeFlit_head check crc port fails checked nak drop room idle head cls]; rfl
  · obtain ⟨u, settled, rest⟩ := State.flitAccepted_isolated (link := link) (place ▸ forbidden) flows landed (field flit.toNat 3 5)
    refine ⟨u, ?_, rest⟩
    rw [taken, whole, State.takeFlit_head check crc port fails checked nak drop room idle head cls, place, settled]

end Sys2Proof.Machine
end

section
/-! Routing and arbitration (R162, R164, R166, R170): one packet alone on its way to a free end, the winner of an output, the step of a walk
across a die, and the two ends of a link. -/

namespace Sys2Proof.Machine

open Sys2Proof

/-! ### A packet that stands alone (R166, R170) -/

namespace FabSt

variable {f : FabSt} {x : Flow}

/-- With one packet, its output is granted to it. -/
theorem grant_alone (alone : f.flows = [x]) (waits : x.granted = false) :
    f.grant x.out = { f with lastIn := KV.put 0 x.out x.input f.lastIn, flows := [{ x with granted := true }] } := by
  simp [grant, competing, winner, firstFlow, alone, waits]

theorem move_waiting (alone : f.flows = [x]) (waits : x.granted = false) : f.move = some (f.grant x.out) := by
  simp [move, canPass, firstFlow, alone, waits]

theorem move_passing (alone : f.flows = [x]) (passes : f.canPass x = true) : f.move = some (f.pass 0 x) := by
  simp [move, alone, passes]

/-- Giving credits back to one end leaves the others. -/
theorem owe_other (f : FabSt) (input vc n : Nat) {e : Nat} (h : e ≠ input) : KV.get {} e (f.owe input vc n).links = KV.get {} e f.links := by
  unfold owe
  split
  · rw [KV.get_upd_other _ _ h]
  · rfl

@[simp] theorem owe_lastIn (f : FabSt) (input vc n : Nat) : (f.owe input vc n).lastIn = f.lastIn := by unfold owe; split <;> rfl

@[simp] theorem pushAll_lastIn (f : FabSt) : f.pushAll.lastIn = f.lastIn := by
  unfold pushAll
  generalize f.links.filter _ = ends
  induction ends generalizing f with
  | nil => rfl
  | cons e ends ih => exact ih _

end FabSt

/-- The flit that a packet without body sends, with its AGE (R170). -/
def Flow.headTx (x : Flow) (w : BitVec 256) : TxFlit := { vc := x.vc % 4, tag := x.tag, flit := setAge w x.age, last := true }

/-- A granted head without body passes onto the end that it asks for, which sends it (R166, R172). -/
theorem FabSt.pass_head {f : FabSt} {x : Flow} {w : BitVec 256} (alone : f.flows = [x]) (flits : x.flits = [w]) (left : x.left = 0)
    (begun : x.begun = false) (out : x.out < 1024) : f.pass 0 x =
      { ({ f with flows := [] } : FabSt).owe x.input x.vc 1 with
        links := KV.upd {} x.out (fun z => ({ z with queue := z.queue ++ [x.headTx w] }).push (linkWindow x.out) (z.queue.length + 2))
          (({ f with flows := [] } : FabSt).owe x.input x.vc 1).links } := by
  have inside : ¬ 1024 ≤ x.out := by omega
  have link : x.out ≠ acrossOut := by unfold acrossOut; omega
  simp [pass, alone, flits, left, begun, inside, link, Flow.headTx]

theorem linkWindow_pos (e : Nat) : 1 < linkWindow e := by unfold linkWindow; split <;> omega

/-- An end that has sent its last flit sends nothing more. -/
theorem FLink.emit_push {y : FLink} (owed : y.owed = []) (queue : y.queue = []) (t : TxFlit) (win n : Nat) :
    (y.emit t).push win n = y.emit t := push_idle (x := y.emit t) owed queue win n

/-- An idle end sends a flit for which it has a credit at once, and has nothing more to send. -/
theorem FLink.push_single {y : FLink} (failed : y.failed = false) (check : y.check = 0) (queue : y.queue = []) (replay : y.replay = [])
    (owed : y.owed = []) {t : TxFlit} (credit : KV.get 0 t.vc y.used < vcRoom) (e : Nat) :
    ({ y with queue := y.queue ++ [t] } : FLink).push (linkWindow e) (y.queue.length + 2) = y.emit t := by
  have window := linkWindow_pos e
  have first : ({ y with queue := y.queue ++ [t] } : FLink).push (linkWindow e) 2 =
      (({ y with queue := [] } : FLink).emit t).push (linkWindow e) 1 := by
    rw [FLink.push]
    simp [failed, check, queue, replay, owed, credit, show linkWindow e ≠ 0 by omega]
  have same : ({ y with queue := [] } : FLink) = y := by rw [← queue]
  rw [queue] at first ⊢
  rw [List.length_nil, first, same]
  exact emit_push owed queue _ _ _

theorem FabSt.pump_alone {f : FabSt} {x : Flow} {w : BitVec 256} {y : FLink} (alone : f.flows = [x]) (flits : x.flits = [w]) (left : x.left = 0)
    (waits : x.granted = false) (begun : x.begun = false) (out : x.out < 1024) (away : x.out ≠ x.input) (there : y = KV.get {} x.out f.links)
    (failed : y.failed = false) (check : y.check = 0) (queue : y.queue = []) (replay : y.replay = []) (owed : y.owed = [])
    (credit : KV.get 0 (x.vc % 4) y.used < 32) :
    KV.get {} x.out (f.pump 2).links = y.emit (x.headTx w) ∧ (f.pump 2).flows = [] ∧ KV.get 0 x.out (f.pump 2).lastIn = x.input := by
  subst there
  have passes : (f.grant x.out).canPass { x with granted := true } = true := by
    simp [grant_alone alone waits, canPass, room, flits, left, out, failed, queue, groupCount, acrossOut, show ¬ 1024 ≤ x.out by omega,
      show x.out ≠ 4096 by omega]
  have moves : f.pump 2 = ((f.grant x.out).pass 0 { x with granted := true }).pushAll := by
    rw [pump, move_waiting alone waits]
    simp only
    rw [pump, move_passing (by rw [grant_alone alone waits]) passes]
    rfl
  have passed := pass_head (f := f.grant x.out) (x := { x with granted := true }) (w := w) (by rw [grant_alone alone waits]) flits left begun out
  rw [moves, passed, pushAll_flows, pushAll_lastIn, grant_alone alone waits]
  refine ⟨?_, by simp, by simp⟩
  refine pushAll_end (P := fun z => z = (KV.get {} x.out f.links).emit (x.headTx w)) ?_ ?_
  · rintro z n rfl
    exact FLink.emit_push owed queue _ _ _
  · rw [KV.get_upd_same, owe_other _ _ _ _ away]
    exact FLink.push_single failed check queue replay owed credit _

/-! ### The winner of an output (R170) -/

/-- The better of the packet that has led so far and the next. -/
def better (last : Nat) (b : Option (Nat × Flow)) (h : Nat × Flow) : Option (Nat × Flow) :=
  match b with
  | none => some h
  | some x => if x.2.rank < h.2.rank ∨ (x.2.rank = h.2.rank ∧ turn last h.2.input < turn last x.2.input) then some h else some x

theorem winner_eq (last : Nat) (l : List (Nat × Flow)) : winner last l = l.foldl (better last) none := rfl

/-- Whoever leads in the end is one of those who competed, and nobody outranks it. -/
theorem foldl_better {last : Nat} {l : List (Nat × Flow)} {x : Nat × Flow} :
    ∃ w, l.foldl (better last) (some x) = some w ∧ (w = x ∨ w ∈ l) ∧ x.2.rank ≤ w.2.rank ∧ ∀ e ∈ l, e.2.rank ≤ w.2.rank := by
  induction l generalizing x with
  | nil => exact ⟨x, rfl, .inl rfl, le_rfl, by simp⟩
  | cons h l ih =>
    have leads : ∃ y, better last (some x) h = some y ∧ (y = x ∨ y = h) ∧ x.2.rank ≤ y.2.rank ∧ h.2.rank ≤ y.2.rank := by
      unfold better
      dsimp only
      split
      · next ahead => exact ⟨h, rfl, .inr rfl, by omega, le_rfl⟩
      · next behind => exact ⟨x, rfl, .inl rfl, le_rfl, by omega⟩
    obtain ⟨y, step, mine, low, high⟩ := leads
    obtain ⟨w, wins, among, above, all⟩ := ih (x := y)
    refine ⟨w, by rw [List.foldl_cons, step, wins], ?_, low.trans above, fun e he => ?_⟩
    · rcases among with rfl | among
      · exact mine.imp_right fun same => by rw [same]; exact List.mem_cons_self ..
      · exact .inr (List.mem_cons_of_mem _ among)
    · rcases List.mem_cons.mp he with rfl | he
      · exact high.trans above
      · exact all e he

theorem winner_spec {last : Nat} {l : List (Nat × Flow)} {w : Nat × Flow} (h : winner last l = some w) :
    w ∈ l ∧ ∀ e ∈ l, e.2.rank ≤ w.2.rank := by
  rw [winner_eq] at h
  cases l with
  | nil => simp at h
  | cons x l =>
    obtain ⟨v, wins, among, above, all⟩ := foldl_better (last := last) (l := l) (x := x)
    obtain rfl : v = w := Option.some.inj (wins.symm.trans h)
    exact ⟨List.mem_cons.mpr among, fun e he => (List.mem_cons.mp he).elim (fun same => by rw [same]; exact above) (all e)⟩

theorem zip_range_getElem? {α : Type} {l : List α} {j : Nat} {y : α} (h : l[j]? = some y) :
    ((List.range l.length).zip l)[j]? = some (j, y) := by
  obtain ⟨inside, -⟩ := List.getElem?_eq_some_iff.mp h
  rw [List.getElem?_zip_eq_some]
  exact ⟨List.getElem?_range inside, h⟩

/-- A place among those that compete names its packet. -/
theorem competing_any {l : List Flow} {out j : Nat} {y : Flow} (h : l[j]? = some y) :
    (competing l out).any (fun k => k.1 == j) = true ↔ (j, y) ∈ competing l out := by
  rw [List.any_eq_true]
  refine ⟨?_, fun mine => ⟨_, mine, by simp⟩⟩
  rintro ⟨⟨k, z⟩, mine, same⟩
  obtain rfl : k = j := by simpa using same
  have place : l[k]? = some z := by
    obtain ⟨i, hi⟩ := List.mem_iff_getElem?.mp (List.mem_filter.mp mine).1
    obtain ⟨hk, hz⟩ := List.getElem?_zip_eq_some.mp hi
    obtain ⟨inside, hk⟩ := List.getElem?_eq_some_iff.mp hk
    rw [List.getElem_range] at hk
    rw [← hz, hk]
  rwa [Option.some.inj (h.symm.trans place)]

/-- A grant marks the winner, ages every packet that lost, and leaves the others. -/
theorem FabSt.grant_flow {f : FabSt} {out k : Nat} {w : Flow} (wins : winner (KV.get 0 out f.lastIn) (competing f.flows out) = some (k, w))
    {j : Nat} {y : Flow} (h : f.flows[j]? = some y) : (f.grant out).flows[j]? = some
      (if j = k then { y with granted := true }
        else if (j, y) ∈ competing f.flows out then { y with age := min 127 (y.age + 1) } else y) := by
  simp only [grant, wins, List.getElem?_map, zip_range_getElem? h, Option.map_some, competing_any h]

/-! ### Walks and ends (R162, R164) -/

/-- The step of a walk: the row first, or for a packet that entered in column 8 the column first (R164). -/
theorem meshStep_eq {here there : Nat} (differ : here ≠ there) :
    meshStep here there false = (if nodeCol here < nodeCol there then 0 else if nodeCol there < nodeCol here then 1
      else if nodeRow here < nodeRow there then 2 else 3) ∧
    meshStep here there true = (if nodeRow here < nodeRow there then 2 else if nodeRow there < nodeRow here then 3
      else if nodeCol here < nodeCol there then 0 else 1) := by
  have apart : nodeCol here = nodeCol there → nodeRow here ≠ nodeRow there := by unfold nodeCol nodeRow; omega
  unfold meshStep
  constructor <;> grind

/-- A walk on a die does not leave it. -/
theorem hasNeighbour_meshStep {here there : Nat} (h : here < 36) (t : there < 36) (differ : here ≠ there) (first : Bool) :
    hasNeighbour here (meshStep here there first) = true := by
  have rows : nodeRow here < 4 ∧ nodeRow there < 4 := by unfold nodeRow; omega
  have cols : nodeCol here < 9 ∧ nodeCol there < 9 := by unfold nodeCol; omega
  have apart : nodeCol here = nodeCol there → nodeRow here ≠ nodeRow there := by unfold nodeCol nodeRow; omega
  obtain ⟨row, col⟩ := meshStep_eq differ
  cases first
  · rw [row]
    split_ifs <;> simp only [hasNeighbour, decide_eq_true_eq] <;> omega
  · rw [col]
    split_ifs <;> simp only [hasNeighbour, decide_eq_true_eq] <;> omega

/-- The direction back (R162). -/
def backDir (dir : Nat) : Nat := if dir % 2 = 0 then dir + 1 else dir - 1

/-- The neighbour in a direction has this node as its neighbour in the direction back. -/
theorem neighbour_back {node dir : Nat} (h : node < 36) (d : dir < 4) (has : hasNeighbour node dir = true) :
    neighbour node dir < 36 ∧ hasNeighbour (neighbour node dir) (backDir dir) = true ∧
    neighbour (neighbour node dir) (backDir dir) = node ∧ backDir (backDir dir) = dir ∧ backDir dir < 4 := by
  unfold hasNeighbour neighbour nodeRow nodeCol at *
  interval_cases dir
  all_goals
    simp only [decide_eq_true_eq] at has
    simp [backDir]
    omega

/-- The end of the mesh link of a node in a direction (log entry 14). -/
def meshEnd (die node dir : Nat) : Nat := 12 + 256 * die + 4 * node + dir

theorem meshEnd_parts {die node dir : Nat} (hd : die < 2) (hn : node < 36) (hr : dir < 4) :
    12 ≤ meshEnd die node dir ∧ meshEnd die node dir < 524 ∧ (meshEnd die node dir - 12) / 256 = die ∧
    (meshEnd die node dir - 12) % 256 / 4 = node ∧ (meshEnd die node dir - 12) % 4 = dir := by
  unfold meshEnd; omega

theorem endOk_meshEnd {die node dir : Nat} (hd : die < 2) (hn : node < 36) (hr : dir < 4) :
    endOk (meshEnd die node dir) = hasNeighbour node dir := by
  obtain ⟨low, high, -, place, way⟩ := meshEnd_parts hd hn hr
  unfold endOk
  rw [place, way]
  simp [hn, high, show ¬ meshEnd die node dir < 12 by omega, show ¬ 524 ≤ meshEnd die node dir by omega]

theorem peerEnd_meshEnd {die node dir : Nat} (hd : die < 2) (hn : node < 36) (hr : dir < 4) :
    peerEnd (meshEnd die node dir) = some (meshEnd die (neighbour node dir) (backDir dir)) := by
  obtain ⟨low, high, side, place, way⟩ := meshEnd_parts hd hn hr
  unfold peerEnd
  rw [if_neg (by omega), if_neg (by omega), if_pos high, side, place, way]
  rfl

/-- An end numbered between the ports of the hub and those that face them is of a mesh link. -/
theorem meshEnd_of_endOk {e : Nat} (ok : endOk e = true) (low : 12 ≤ e) (high : e < 524) :
    ∃ die node dir, die < 2 ∧ node < 36 ∧ dir < 4 ∧ hasNeighbour node dir = true ∧ e = meshEnd die node dir := by
  unfold endOk at ok
  simp only [Bool.or_eq_true, Bool.and_eq_true, decide_eq_true_eq] at ok
  rcases ok with (near | far) | mine
  · omega
  · omega
  · exact ⟨(e - 12) / 256, (e - 12) % 256 / 4, (e - 12) % 4, by omega, mine.1.2, by omega, mine.2, by unfold meshEnd; omega⟩

/-- The far end of a link is an end, and its far end is the one from which the link starts (R162, R175). -/
theorem peerEnd_peerEnd {e p : Nat} (ok : endOk e = true) (peer : peerEnd e = some p) : endOk p = true ∧ peerEnd p = some e := by
  by_cases mesh : 12 ≤ e ∧ e < 524
  · obtain ⟨die, node, dir, hd, hn, hr, has, rfl⟩ := meshEnd_of_endOk ok mesh.1 mesh.2
    obtain ⟨inside, back, home, same, way⟩ := neighbour_back hn hr has
    rw [peerEnd_meshEnd hd hn hr, Option.some.injEq] at peer
    subst peer
    rw [endOk_meshEnd hd inside way, peerEnd_meshEnd hd inside way, home, same]
    exact ⟨back, rfl⟩
  · by_cases near : e < 11
    · obtain rfl : 524 + e = p := by simpa [peerEnd, near] using peer
      refine ⟨by unfold endOk; simp; omega, ?_⟩
      rw [peerEnd, if_neg (by omega), if_neg (by omega), if_neg (by omega), Nat.add_sub_cancel_left]
    · have far : 524 ≤ e ∧ e ≤ 534 := by
        have guest : e ≠ 11 := by rintro rfl; simp [peerEnd] at peer
        unfold endOk at ok
        simp only [Bool.or_eq_true, Bool.and_eq_true, decide_eq_true_eq] at ok
        omega
      rw [peerEnd, if_neg near, if_neg (by omega), if_neg (by omega), Option.some.injEq] at peer
      refine ⟨by unfold endOk; simp; omega, ?_⟩
      rw [peerEnd, if_pos (by omega), ← peer]
      exact congrArg some (by omega)

theorem fabricMoves : Clauses.FabricMoves := by
  refine ⟨fun f x w y alone flits left waits begun out away there failed check queue replay owed mid credit => ?_,
    fun f out k w wins => ⟨(winner_spec wins).1, (winner_spec wins).2, fun j y hj => ⟨_, FabSt.grant_flow wins hj, rfl⟩⟩,
    fun here there h t differ => ⟨(meshStep_eq differ).1, (meshStep_eq differ).2, hasNeighbour_meshStep h t differ⟩,
    fun e p => peerEnd_peerEnd⟩
  obtain ⟨sent, flows, last⟩ := FabSt.pump_alone alone flits left waits begun out away there failed check queue replay owed credit
  refine ⟨_, sent, flows, rfl, ?_, rfl, ?_, last⟩
  · rw [FLink.emit, replay]; rfl
  · have real : x.vc % 4 < 4 := Nat.mod_lt _ (by decide)
    simp [FLink.emit, Flow.headTx, real]

end Sys2Proof.Machine
end

section
/-! LANE_CHECK_DONE (R177, R178): which groups of wires can still be mended, and what the receiver tells the far side. -/

namespace Sys2Proof.Machine

open Sys2Proof

theorem eraseDups_length_le (l : List Nat) : l.eraseDups.length ≤ l.length := by
  induction h : l.length using Nat.strong_induction_on generalizing l with
  | _ n ih =>
    cases l with
    | nil => simp
    | cons a l =>
      have fewer := List.length_filter_le (fun b => !b == a) l
      rw [List.length_cons] at h
      have rest := ih _ (by omega) (l.filter fun b => !b == a) rfl
      rw [List.eraseDups_cons, List.length_cons]
      omega

/-- No number is dropped from a list exactly where none comes twice. -/
theorem eraseDups_length_eq {l : List Nat} : l.eraseDups.length = l.length ↔ l.Nodup := by
  induction l with
  | nil => simp
  | cons a l ih =>
    have whole : a ∉ l ↔ l.filter (fun b => !b == a) = l := by
      rw [List.filter_eq_self]
      constructor
      · intro out b hb
        simpa using fun same : b = a => out (same ▸ hb)
      · intro all inside
        simpa using all a inside
    rw [List.eraseDups_cons, List.length_cons, List.length_cons, List.nodup_cons, Nat.add_right_cancel_iff, ← ih]
    constructor
    · intro same
      have fewer := List.length_filter_le (fun b => !b == a) l
      have least := eraseDups_length_le (l.filter fun b => !b == a)
      have kept : l.filter (fun b => !b == a) = l := List.filter_sublist.eq_of_length (by omega)
      exact ⟨whole.mpr kept, by rwa [kept] at same⟩
    · rintro ⟨out, same⟩
      rw [whole.mp out, same]

/-- The receiver has mapped the failed lanes to their spares and tells the far side (R177). -/
def State.mapSent (s : State) (c : Ch) (link : Nat) (lanes sb : List Nat) : State :=
  (s.modFlink c link fun x =>
    { x with check := 2, mapAcked := false, lanes := lanes, sbLanes := sb,
             sent := x.sent ++ [(sideWord x true x.seq, headFlit 7 0 0 0 0 0 2 0)] }).checkOver c link

/-- Whether every failed lane has a spare of its own (R178). -/
def mendable (link : Nat) (lanes sb : List Nat) : Prop :=
  (lanes.map (wireGroup link)).Nodup ∧ (∀ w ∈ lanes, wireGroup link w < wireGroups link) ∧ sb.length ≤ 1

theorem mendable_iff (link : Nat) (lanes sb : List Nat) : mendable link lanes sb ↔
    ¬ ((lanes.map (wireGroup link)).eraseDups.length ≠ (lanes.map (wireGroup link)).length ∨
      (lanes.map (wireGroup link)).any (fun g => decide (wireGroups link ≤ g)) = true ∨ 1 < sb.length) := by
  unfold mendable
  rw [← eraseDups_length_eq]
  simp only [ne_eq, List.any_map, List.any_eq_true, Function.comp_apply, decide_eq_true_eq, not_or, not_not, not_exists, not_and, not_le, not_lt]

section

variable {s : State} {c : Ch} {link : Nat} {failed side : List Nat}

theorem State.flink_mapSent (s : State) (c : Ch) (link : Nat) (lanes sb : List Nat) : (s.mapSent c link lanes sb).flink c link =
    { s.flink c link with
      check := 2, mapAcked := false, lanes := lanes, sbLanes := sb,
      sent := (s.flink c link).sent ++ [(sideWord (s.flink c link) true (s.flink c link).seq, headFlit 7 0 0 0 0 0 2 0)] } := by
  rw [mapSent, checkOver, flink_modFlink_same, flink_modFlink_same, if_neg (by simp)]

/-- The end of a receiver's part in a lane check of a port, where every failed lane has its spare. -/
theorem exec_laneCheckDone_mends {lanes sb : List Nat} (hl : lanes = failed.foldl (fun l w => insKey w l) (s.flink c link).lanes)
    (hs : sb = side.foldl (fun l w => insKey w l) (s.flink c link).sbLanes) (check : (s.flink c link).check = 1) (port : link < 12)
    (mends : mendable link lanes sb) : exec (.laneCheckDone c link failed side) s = .next
      (if lanes.length + sb.length - (s.flink c link).lanes.length - (s.flink c link).sbLanes.length = 0 then s.mapSent c link lanes sb
        else (s.mapSent c link lanes sb).hubEvent c 0x3003
          [chNum c, endPort link, lanes.length + sb.length - (s.flink c link).lanes.length - (s.flink c link).sbLanes.length]) := by
  have mesh : isMesh link = false := by unfold isMesh; simp; omega
  show execLaneCheckDone c link failed side s = _
  unfold execLaneCheckDone
  simp only [check, ← hl, ← hs, mesh, if_neg ((mendable_iff link lanes sb).mp mends), ne_eq, not_true_eq_false, Bool.false_eq_true, false_and,
    if_false]
  rfl

theorem exec_laneCheckDone_fails {lanes sb : List Nat} (hl : lanes = failed.foldl (fun l w => insKey w l) (s.flink c link).lanes)
    (hs : sb = side.foldl (fun l w => insKey w l) (s.flink c link).sbLanes) (check : (s.flink c link).check = 1)
    (short : ¬ mendable link lanes sb) : exec (.laneCheckDone c link failed side) s = .next (s.linkFails c link) := by
  rw [mendable_iff, not_not] at short
  show execLaneCheckDone c link failed side s = _
  unfold execLaneCheckDone
  simp only [check, ← hl, ← hs, if_pos short, ne_eq, not_true_eq_false, if_false]

end

theorem laneCheck : Clauses.LaneCheck := by
  intro s c link failed side x lanes sb hx hl hs
  subst hx
  refine ⟨fun idle => ?_, fun check port => ⟨fun apart groups few => ?_, fun which twice => ?_⟩⟩
  · show execLaneCheckDone c link failed side s = _
    unfold execLaneCheckDone
    rw [if_pos idle]
  · refine ⟨_, s.mapSent c link lanes sb, exec_laneCheckDone_mends hl hs check port ⟨apart, groups, few⟩, ?_, ?_, s.flink_mapSent c link lanes sb,
      fun l other => ?_, fun none => if_pos none, fun some => ?_⟩
    · simp [State.mapSent, State.checkOver]
    · simp [State.mapSent, State.checkOver]
    · rw [State.mapSent, State.checkOver, State.flink_modFlink_other _ _ _ other, State.flink_modFlink_other _ _ _ other]
    · rw [if_neg some]
      exact State.event_told ..
  · have short : ¬ mendable link lanes sb := fun ⟨apart, _, few⟩ => twice.elim (· apart) (by omega)
    obtain ⟨dead, guest, stands⟩ := s.linkFails_spec c (link := link) (by omega)
    obtain ⟨fails, queue, replay⟩ := dead link (List.mem_cons_self ..)
    exact ⟨_, exec_laneCheckDone_fails hl hs check short, fails, queue, replay, guest, fun on => (stands on).1⟩

/-- Settles O43: a flit by what its receiver makes of it, a move of the fabric step by step, and a lane check by whether spares are left. -/
theorem fabricLinks : Obligations.FabricLinks := ⟨flitReceived, fabricMoves, laneCheck⟩

end Sys2Proof.Machine
end

section
/-! Ports and lanes of Velvin Link (R190-R205): what reading them gives after an update, and what sending and events leave of them. -/

namespace Sys2Proof.Machine

open Sys2Proof

/-! ### Reading ports, lanes, lane maps and registers -/

namespace State

variable (s : State) (c x : Ch) (p q l k : Nat)

theorem port_modPort_other {p q : Nat} (f : VPort → VPort) (h : q ≠ p) : (s.modPort c p f).port c q = s.port c q := by
  simp [State.port, State.modPort, KV.get_upd_other _ _ h]

@[simp] theorem lane_modLane_same (f : Lane → Lane) : (s.modLane c l f).lane c l = f (s.lane c l) := by
  simp [State.lane, State.modLane]

theorem lane_modLane_other {l k : Nat} (f : Lane → Lane) (h : k ≠ l) : (s.modLane c l f).lane c k = s.lane c k := by
  simp [State.lane, State.modLane, KV.get_upd_other _ _ h]

theorem lane_modLane (f : Lane → Lane) : (s.modLane c l f).lane c k = if k = l then f (s.lane c k) else s.lane c k := by
  split
  · next h => rw [h, lane_modLane_same]
  · next h => exact s.lane_modLane_other c f h

@[simp] theorem lane_modPort (f : VPort → VPort) : (s.modPort c p f).lane x l = s.lane x l := by cases c <;> cases x <;> rfl
@[simp] theorem rxMap_modPort (f : VPort → VPort) : ((s.modPort c p f).ch x).rxMap = (s.ch x).rxMap := by cases c <;> cases x <;> rfl
@[simp] theorem txMap_modPort (f : VPort → VPort) : ((s.modPort c p f).ch x).txMap = (s.ch x).txMap := by cases c <;> cases x <;> rfl
@[simp] theorem lanes_modPort (f : VPort → VPort) : ((s.modPort c p f).ch x).lanes = (s.ch x).lanes := by cases c <;> cases x <;> rfl
@[simp] theorem link_modPort (f : VPort → VPort) : ((s.modPort c p f).ch x).link = (s.ch x).link := by cases c <;> cases x <;> rfl
@[simp] theorem rxLane_modPort (f : VPort → VPort) : (s.modPort c p f).rxLane x q k = s.rxLane x q k := by cases c <;> cases x <;> rfl
@[simp] theorem modPort_host (f : VPort → VPort) : (s.modPort c p f).host = s.host := s.modCh_host ..
@[simp] theorem modPort_regs (f : VPort → VPort) : (s.modPort c p f).regs = s.regs := s.modCh_regs ..
@[simp] theorem modPort_pwr (f : VPort → VPort) : (s.modPort c p f).pwr = s.pwr := s.modCh_pwr ..
@[simp] theorem modPort_topo (f : VPort → VPort) : (s.modPort c p f).topo = s.topo := s.modCh_topo ..
@[simp] theorem modPort_designs (f : VPort → VPort) : (s.modPort c p f).designs = s.designs := s.modCh_designs ..

@[simp] theorem port_modLane (f : Lane → Lane) : (s.modLane c l f).port x p = s.port x p := by cases c <;> cases x <;> rfl
@[simp] theorem rxMap_modLane (f : Lane → Lane) : ((s.modLane c l f).ch x).rxMap = (s.ch x).rxMap := by cases c <;> cases x <;> rfl
@[simp] theorem txMap_modLane (f : Lane → Lane) : ((s.modLane c l f).ch x).txMap = (s.ch x).txMap := by cases c <;> cases x <;> rfl
@[simp] theorem link_modLane (f : Lane → Lane) : ((s.modLane c l f).ch x).link = (s.ch x).link := by cases c <;> cases x <;> rfl
@[simp] theorem rxLane_modLane (f : Lane → Lane) : (s.modLane c l f).rxLane x q k = s.rxLane x q k := by cases c <;> cases x <;> rfl
@[simp] theorem modLane_host (f : Lane → Lane) : (s.modLane c l f).host = s.host := s.modCh_host ..
@[simp] theorem modLane_regs (f : Lane → Lane) : (s.modLane c l f).regs = s.regs := s.modCh_regs ..
@[simp] theorem modLane_pwr (f : Lane → Lane) : (s.modLane c l f).pwr = s.pwr := s.modCh_pwr ..
@[simp] theorem modLane_designs (f : Lane → Lane) : (s.modLane c l f).designs = s.designs := s.modCh_designs ..

@[simp] theorem setReg_ch (r : Reg) (idx : List Nat) (v : Word32) : (s.setReg r c idx v).ch x = s.ch x := by cases x <;> rfl

variable {s} {u : State}

/-- Reading a register goes by the stored bits alone. -/
theorem reg_of_regs (h : u.regs = s.regs) (r : Reg) (idx : List Nat) : u.reg r c idx = s.reg r c idx := by
  rw [State.reg, h, State.reg]

theorem port_of_ch (h : u.ch c = s.ch c) : u.port c p = s.port c p := by rw [State.port, h, State.port]
theorem lane_of_ch (h : u.ch c = s.ch c) : u.lane c l = s.lane c l := by rw [State.lane, h, State.lane]
theorem rxLane_of_ch (h : u.ch c = s.ch c) : u.rxLane c p k = s.rxLane c p k := by rw [State.rxLane, h, State.rxLane]

end State
end Sys2Proof.Machine
end

section
/-! What goes out on the links (R188-R191, R206-R215, R222): a port's sender and the outgoing side of its lanes change, events are written, and
what lanes, lane maps and ports hold of the receive side stays. -/

namespace Sys2Proof.Machine

open Sys2Proof

/-! ### Lanes and ports without their outgoing side -/

/-- A lane without what sending changes. -/
def Lane.still (l : Lane) : Lane := { l with sent := [], scrambler := 0, prbs := 0 }

/-- A port without what sending changes. -/
def VPort.still (x : VPort) : VPort := { x.takeTx {} with sinceAck := 0, told0 := 0, told1 := 0 }

/-- A row of blocks sent on one lane. -/
def Lane.sendAll (l : Lane) (inv : Bool) (bs : List LinkBlock) : Lane := bs.foldl (fun x b => x.send inv b) l

theorem Lane.still_send (l : Lane) (inv : Bool) (b : LinkBlock) : (l.send inv b).still = l.still := by cases b <;> rfl

/-- Every block puts 66 bits behind those sent before. -/
theorem Lane.sent_send (l : Lane) (inv : Bool) (b : LinkBlock) : ∃ w, (l.send inv b).sent = l.sent ++ [w] := by
  cases b <;> exact ⟨_, rfl⟩

theorem VPort.still_takeTx (x y : VPort) : (x.takeTx y).still = x.still := rfl

theorem Lane.still_sendAll (l : Lane) (inv : Bool) (bs : List LinkBlock) : (l.sendAll inv bs).still = l.still :=
  foldl_keeps Lane.still (fun x b => x.still_send inv b) bs l

theorem Lane.sent_sendAll (l : Lane) (inv : Bool) (bs : List LinkBlock) :
    l.sent <+: (l.sendAll inv bs).sent ∧ (l.sendAll inv bs).sent.length = l.sent.length + bs.length := by
  induction bs generalizing l with
  | nil => exact ⟨List.prefix_rfl, rfl⟩
  | cons b bs ih =>
    obtain ⟨w, hw⟩ := l.sent_send inv b
    obtain ⟨before, size⟩ := ih (l.send inv b)
    refine ⟨(hw ▸ List.prefix_append ..).trans before, size.trans ?_⟩
    simp only [hw, List.length_append, List.length_cons, List.length_nil]
    omega

/-- An AM goes out as it is, past the scrambler (R189). -/
theorem Lane.am_mem_sendAll (l : Lane) (inv : Bool) {bs : List LinkBlock} {a : Nat} (h : .am a ∈ bs) :
    wire inv 1 (0x78 + 256 * a) ∈ (l.sendAll inv bs).sent := by
  induction bs generalizing l with
  | nil => exact absurd h List.not_mem_nil
  | cons b bs ih =>
    rcases List.mem_cons.mp h with rfl | h
    · exact ((l.send inv (.am a)).sent_sendAll inv bs).1.subset (List.mem_append_right _ (List.mem_singleton.mpr rfl))
    · exact ih _ h

namespace State

/-- What each lane sends of a list of blocks. -/
theorem lane_sendBlocks (s : State) (c : Ch) (bs : List (Nat × LinkBlock)) (k : Nat) :
    (s.sendBlocks c bs).lane c k = (s.lane c k).sendAll (s.txInv c k) ((bs.filter (fun e => e.1 == k)).map (·.2)) := by
  have each : ∀ (inv : Nat → Bool) (m : KV Lane), KV.get {} k (bs.foldl (fun t e => KV.upd {} e.1 (fun x => x.send (inv e.1) e.2) t) m) =
      (KV.get {} k m).sendAll (inv k) ((bs.filter (fun e => e.1 == k)).map (·.2)) := fun inv m => by
    induction bs generalizing m with
    | nil => rfl
    | cons e bs ih =>
      rw [List.foldl_cons, ih]
      by_cases same : e.1 = k
      · subst same; simp [Lane.sendAll]
      · simp [KV.get_upd_other _ _ (Ne.symm same), same]
  unfold State.lane State.sendBlocks
  rw [State.modCh_ch]
  exact each ..

@[simp] theorem sendBlocks_host (s : State) (c : Ch) (bs : List (Nat × LinkBlock)) : (s.sendBlocks c bs).host = s.host := s.modCh_host ..
@[simp] theorem port_sendBlocks (s : State) (c x : Ch) (bs : List (Nat × LinkBlock)) (p : Nat) : (s.sendBlocks c bs).port x p = s.port x p := by
  cases c <;> cases x <;> rfl

end State

/-! ### What sending and events keep -/

/-- `k` is the channel `h` after something has gone out on its ports. -/
structure Channel.Outgoing (h k : Channel) : Prop where
  port : ∀ p, (KV.get {} p k.ports).still = (KV.get {} p h.ports).still
  lane : ∀ l, (KV.get {} l k.lanes).still = (KV.get {} l h.lanes).still
  sent : ∀ l, (KV.get {} l h.lanes).sent <+: (KV.get {} l k.lanes).sent
  rxMap : k.rxMap = h.rxMap
  txMap : k.txMap = h.txMap

theorem Channel.Outgoing.of_same {h k : Channel} (ports : k.ports = h.ports) (lanes : k.lanes = h.lanes) (rx : k.rxMap = h.rxMap)
    (tx : k.txMap = h.txMap) : h.Outgoing k :=
  ⟨fun _ => by rw [ports], fun _ => by rw [lanes], fun _ => lanes ▸ List.prefix_rfl, rx, tx⟩

theorem Channel.Outgoing.refl (h : Channel) : h.Outgoing h := .of_same rfl rfl rfl rfl

theorem Channel.Outgoing.trans {h k m : Channel} (a : h.Outgoing k) (b : k.Outgoing m) : h.Outgoing m :=
  ⟨fun p => (b.port p).trans (a.port p), fun l => (b.lane l).trans (a.lane l), fun l => (a.sent l).trans (b.sent l), b.rxMap.trans a.rxMap,
    b.txMap.trans a.txMap⟩

/-- `u` is `s` after something has gone out on its links and events have been written: the receive side of the ports and lanes, the lane maps,
the designs, the supply and the registers of the hubs are the same, and events that stood stand. -/
structure State.Outgoing (s u : State) : Prop where
  ch : ∀ c, (s.ch c).Outgoing (u.ch c)
  designs : u.designs = s.designs
  pwr : u.pwr = s.pwr
  reg : ∀ r c idx, r.row.dom ≠ .host → u.reg r c idx = s.reg r c idx
  stands : ∀ code src part owner args, s.Stands code src part owner args → u.Stands code src part owner args

namespace State

variable {s u v : State}

theorem Outgoing.refl (s : State) : s.Outgoing s := ⟨fun _ => .refl _, rfl, rfl, fun _ _ _ _ => rfl, fun _ _ _ _ _ t => t⟩

theorem Outgoing.trans (h : s.Outgoing u) (k : u.Outgoing v) : s.Outgoing v :=
  ⟨fun c => (h.ch c).trans (k.ch c), k.designs.trans h.designs, k.pwr.trans h.pwr, fun r c idx hr => (k.reg r c idx hr).trans (h.reg r c idx hr),
    fun _ _ _ _ _ t => k.stands _ _ _ _ _ (h.stands _ _ _ _ _ t)⟩

theorem Outgoing.foldl {α : Type} {l : List α} {f : State → α → State} (h : s.Outgoing u)
    (hf : ∀ v x, s.Outgoing v → s.Outgoing (f v x)) : s.Outgoing (l.foldl f u) := by
  induction l generalizing u with
  | nil => exact h
  | cons x l ih => exact ih (hf _ x h)

theorem Outgoing.ite {p : Prop} [Decidable p] (hu : s.Outgoing u) (hv : s.Outgoing v) : s.Outgoing (if p then u else v) := by
  split
  exacts [hu, hv]

/-- A channel changes by what goes out on it, and nothing else does. -/
theorem Outgoing.modCh (h : s.Outgoing u) (c : Ch) {f : Channel → Channel} (hf : (u.ch c).Outgoing (f (u.ch c))) :
    s.Outgoing (u.modCh c f) := by
  refine h.trans ⟨fun x => ?_, u.modCh_designs .., u.modCh_pwr .., fun r x idx _ => reg_of_regs _ (u.modCh_regs ..) .., fun _ _ _ _ _ t =>
    t.of_same (u.modCh_host ..) (reg_of_regs _ (u.modCh_regs ..) ..)⟩
  by_cases same : x = c
  · rw [same, State.modCh_ch]; exact hf
  · rw [State.modCh_other _ _ same]; exact .refl _

/-- A port changes by what its sender holds. -/
theorem Outgoing.modPort (h : s.Outgoing u) (c : Ch) (p : Nat) {f : VPort → VPort} (hf : ∀ x, (f x).still = x.still) :
    s.Outgoing (u.modPort c p f) := by
  unfold State.modPort
  refine .modCh h c ⟨fun q => ?_, fun _ => rfl, fun _ => List.prefix_rfl, rfl, rfl⟩
  by_cases same : q = p
  · rw [same, KV.get_upd_same, hf]
  · rw [KV.get_upd_other _ _ same]

theorem Outgoing.sendBlocks (h : s.Outgoing u) (c : Ch) (bs : List (Nat × LinkBlock)) : s.Outgoing (u.sendBlocks c bs) := by
  have lane : ∀ l, KV.get {} l ((u.sendBlocks c bs).ch c).lanes = _ := u.lane_sendBlocks c bs
  unfold State.sendBlocks at lane ⊢
  rw [State.modCh_ch] at lane
  refine .modCh h c ⟨fun _ => rfl, fun l => ?_, fun l => ?_, rfl, rfl⟩
  · rw [lane]; exact Lane.still_sendAll ..
  · rw [lane]; exact (Lane.sent_sendAll ..).1

theorem Outgoing.event (h : s.Outgoing u) (code src part owner : Nat) (sealed : Bool) (args : List Nat) :
    s.Outgoing (u.event code src part owner sealed args) := by
  have q := u.event_quiet code src part owner sealed args
  have low : regOff .hpEventLost .a [] < 0x400000 := by decide
  refine h.trans ⟨fun c => q.ch c ▸ .refl _, q.designs, by rw [q.1], fun r c idx hub => ?_, fun _ _ _ _ _ t => t.event ..⟩
  have high := regOff_hub hub c idx
  exact q.2.2.2.2 _ _ (by omega)

theorem Outgoing.hubEvent (h : s.Outgoing u) (c : Ch) (code : Nat) (args : List Nat) : s.Outgoing (u.hubEvent c code args) := h.event ..

theorem Outgoing.freeNext (h : s.Outgoing u) : s.Outgoing u.freeNext :=
  h.trans ⟨fun c => by cases c <;> exact .refl _, rfl, rfl, fun _ _ _ _ => rfl, fun _ _ _ _ _ t => t.of_same rfl rfl⟩

theorem Outgoing.modBase (h : s.Outgoing u) (f : BaseSt → BaseSt) : s.Outgoing (u.modBase f) :=
  h.trans ⟨fun c => by cases c <;> exact .refl _, rfl, rfl, fun _ _ _ _ => rfl, fun _ _ _ _ _ t => t.of_same rfl rfl⟩

theorem Outgoing.modView (h : s.Outgoing u) (c : Ch) (i : Nat) (f : View → View) : s.Outgoing (u.modView c i f) := by
  unfold State.modView State.modTime
  exact .modCh h c (.of_same rfl rfl rfl rfl)

/-! ### Flits, columns and messages -/

theorem Outgoing.putFlits (h : s.Outgoing u) (c : Ch) (p : Nat) (l : List (BitVec 256)) : s.Outgoing (u.putFlits c p l) := h.sendBlocks ..
theorem Outgoing.wholeColumn (h : s.Outgoing u) (c : Ch) (p type content : Nat) : s.Outgoing (u.wholeColumn c p type content) :=
  h.sendBlocks ..
theorem Outgoing.sendFault (h : s.Outgoing u) (c : Ch) (p reason : Nat) : s.Outgoing (u.sendFault c p reason) := by
  unfold State.sendFault
  exact .wholeColumn (.modPort h _ _ fun _ => by rfl) ..
theorem Outgoing.sendCtl (h : s.Outgoing u) (c : Ch) (p code : Nat) : s.Outgoing (u.sendCtl c p code) := by
  unfold State.sendCtl
  exact .putFlits (.modPort h _ _ fun _ => by rfl) ..

theorem Outgoing.departed (h : s.Outgoing u) (c : Ch) (m : Sent) : s.Outgoing (u.departed c m) := by
  unfold State.departed
  split
  · exact h.modView ..
  · exact h

theorem Outgoing.flushPort (h : s.Outgoing u) (c : Ch) (p : Nat) : s.Outgoing (u.flushPort c p) := by
  unfold State.flushPort
  extract_lets x y s1
  have stamped : s.Outgoing s1 := h.foldl fun _ m k => k.departed c m
  exact .ite h (.freeNext (.putFlits (.modPort stamped _ _ fun z => z.still_takeTx y) ..))

theorem Outgoing.sendOn (h : s.Outgoing u) (c : Ch) (p : Nat) (m : Sent) : s.Outgoing (u.sendOn c p m) := by
  unfold State.sendOn
  exact .flushPort (.modPort h _ _ fun x => by split <;> rfl) ..

theorem Outgoing.sendHello (h : s.Outgoing u) (c : Ch) (p : Nat) : s.Outgoing (u.sendHello c p) := by
  unfold State.sendHello
  split
  · exact h.sendOn ..
  · exact h

theorem Outgoing.sendDown (h : s.Outgoing u) (m : Sent) : s.Outgoing (u.sendDown m) := by
  unfold State.sendDown
  split
  · exact h.sendOn ..
  · exact h

theorem Outgoing.forwardChain (h : s.Outgoing u) (n : Nat) : s.Outgoing (u.forwardChain n) := by
  induction n generalizing u with
  | zero => exact h
  | succ n ih =>
    unfold State.forwardChain
    split
    · refine .ite (ih ?_) h
      unfold State.forwardPiece
      extract_lets b e n s1 ends s2
      have piece : s.Outgoing s2 := .modBase (.sendDown h _) _
      exact .ite (piece.sendDown _) piece
    · exact h

theorem Outgoing.chainOn (h : s.Outgoing u) (c : Ch) (p : Nat) : s.Outgoing (u.chainOn c p) := .ite (h.forwardChain _) h

/-- Beyond its own change, a change of the routes sends VALUE messages again and reports the routes (R220, R222). -/
theorem Outgoing.withRoutes {f : State → State} (h : s.Outgoing (f u)) : s.Outgoing (u.withRoutes f) := by
  unfold State.withRoutes
  refine h.foldl fun x c k => ?_
  extract_lets n old new w
  have again : s.Outgoing w := by
    refine k.foldl fun x e k => ?_
    extract_lets a b
    cases b with
    | some p => exact .ite k (k.sendOn ..)
    | none => exact k
  exact .ite again (again.hubEvent ..)

/-- With no VALUE message to send again, a change of the routes is its own change and the reports of it (R220). -/
theorem withRoutes_quiet (s : State) {f : State → State} (hf : ∀ c, ((f s).ch c).link.resend = []) : Quiet (f s) (s.withRoutes f) := by
  unfold State.withRoutes
  extract_lets s'
  suffices all : ∀ (l : List Ch) (x : State), Quiet s' x → Quiet s' (l.foldl _ x) from all _ _ (.refl _)
  intro l
  induction l with
  | nil => exact fun _ q => q
  | cons c l ih =>
    intro x q
    refine ih _ ?_
    simp only [q.ch, hf, s', List.foldl_nil]
    split
    · exact q
    · exact q.trans (x.event_quiet ..)

/-! ### Reading what stays -/

theorem Outgoing.port (h : s.Outgoing u) (c : Ch) (p : Nat) : (u.port c p).still = (s.port c p).still := (h.ch c).port p
theorem Outgoing.lane (h : s.Outgoing u) (c : Ch) (l : Nat) : (u.lane c l).still = (s.lane c l).still := (h.ch c).lane l
theorem Outgoing.rxLane (h : s.Outgoing u) (c : Ch) (p i : Nat) : u.rxLane c p i = s.rxLane c p i := by
  rw [State.rxLane, (h.ch c).rxMap, State.rxLane]
theorem Outgoing.laneState (h : s.Outgoing u) (c : Ch) (l : Nat) : (u.lane c l).state = (s.lane c l).state :=
  (congrArg Lane.state (h.lane c l) :)
theorem Outgoing.lanes (h : s.Outgoing u) (c : Ch) (p : Nat) : (u.port c p).lanes = (s.port c p).lanes :=
  (congrArg VPort.lanes (h.port c p) :)

/-- The spares that a port may take go by its request, its control register, VL_SPARE_ASSIGN and the records of the lanes. -/
theorem sparesOf_congr {c : Ch} {p : Nat} (ctrl : u.reg .vlPortCtrl c [p] = s.reg .vlPortCtrl c [p])
    (given : u.reg .vlSpareAssign c [] = s.reg .vlSpareAssign c []) (rx : (u.ch c).rxMap = (s.ch c).rxMap)
    (failed : ∀ l, (u.lane c l).failed = (s.lane c l).failed) (testing : ∀ l, (u.lane c l).testing = (s.lane c l).testing)
    (wrong : ∀ l, (u.lane c l).mismatches = (s.lane c l).mismatches) (asked : (u.port c p).rxReq = (s.port c p).rxReq) :
    u.sparesOf c p = s.sparesOf c p := by
  unfold State.sparesOf State.sparing State.assigned State.inUse
  simp only [ctrl, given, failed, testing, wrong, asked, rx]

theorem Outgoing.sparesOf (h : s.Outgoing u) (c : Ch) (p : Nat) : u.sparesOf c p = s.sparesOf c p :=
  sparesOf_congr (h.reg _ _ _ (by decide)) (h.reg _ _ _ (by decide)) (h.ch c).rxMap (fun l => (congrArg Lane.failed (h.lane c l) :))
    (fun l => (congrArg Lane.testing (h.lane c l) :)) (fun l => (congrArg Lane.mismatches (h.lane c l) :))
    (congrArg VPort.rxReq (h.port c p) :)

end State
end Sys2Proof.Machine
end

section
/-! Port control and the eye scan (R194, R196, R200): what a write of VL_PORT_CTRL leaves, by what it changes. -/

namespace Sys2Proof.Machine

open Sys2Proof

theorem Quiet.reg_hub {s u : State} (q : Quiet s u) {r : Reg} (hub : r.row.dom ≠ .host) (c : Ch) (idx : List Nat) :
    u.reg r c idx = s.reg r c idx := by
  have low : regOff .hpEventLost .a [] < 0x400000 := by decide
  have high := regOff_hub hub c idx
  exact q.2.2.2.2 _ _ (by omega)

/-- A lane back in ACQUIRE. -/
def Lane.dropped (l : Lane) : Lane := { l with state := .acquire, noSignal := false, rxPrbs := none }

/-- A port at another rate: back in ACQUIRE and without requests, its replay buffer and its keys kept (R196). -/
def VPort.retrained (x : VPort) : VPort :=
  { x with state := .acquire, rxOk := false, badAm := [], badRx := 0, rxReq := none, rxSwitched := false, txReq := none, health := [],
           repairs := [], needResync := x.needResync || x.state == .up }

namespace State

variable (s : State) (c x : Ch) (p q : Nat)

/-! ### A port whose lanes are all locked (R194) -/

/-- Whether every lane that a port needs is LOCKED. -/
def allLocked : Bool := (s.port c p).lanes.all fun i => (s.lane c (s.rxLane c p i)).state == .locked

theorem portLocks_eq : s.portLocks c p =
    if (s.port c p).state = .acquire ∧ s.allLocked c p = true then s.modPort c p fun x => { x with state := .deskew, badAm := [] } else s := by
  unfold State.portLocks State.allLocked
  simp only [Bool.and_eq_true, beq_iff_eq]

theorem portLocks_cases : s.portLocks c p = s ∨ s.portLocks c p = s.modPort c p fun x => { x with state := .deskew, badAm := [] } := by
  rw [portLocks_eq]
  split
  exacts [.inr rfl, .inl rfl]

@[simp] theorem portLocks_host : (s.portLocks c p).host = s.host := by rcases s.portLocks_cases c p with h | h <;> simp [h]
@[simp] theorem portLocks_regs : (s.portLocks c p).regs = s.regs := by rcases s.portLocks_cases c p with h | h <;> simp [h]
@[simp] theorem portLocks_designs : (s.portLocks c p).designs = s.designs := by rcases s.portLocks_cases c p with h | h <;> simp [h]
@[simp] theorem lane_portLocks (l : Nat) : (s.portLocks c p).lane x l = s.lane x l := by rcases s.portLocks_cases c p with h | h <;> simp [h]
@[simp] theorem rxMap_portLocks : ((s.portLocks c p).ch x).rxMap = (s.ch x).rxMap := by rcases s.portLocks_cases c p with h | h <;> simp [h]

theorem port_portLocks_other {p q : Nat} (h : q ≠ p) : (s.portLocks c p).port c q = s.port c q := by
  rcases s.portLocks_cases c p with e | e
  · rw [e]
  · rw [e, port_modPort_other _ _ _ h]

/-- Beside its state and its count of bad AMs the port is the same. -/
theorem port_portLocks_keeps {α : Type} {g : VPort → α} (hg : ∀ x, g { x with state := .deskew, badAm := [] } = g x) :
    g ((s.portLocks c p).port c p) = g (s.port c p) := by
  rcases s.portLocks_cases c p with e | e
  · rw [e]
  · rw [e, port_modPort_same, hg]

variable {s c p}

theorem port_portLocks (h : (s.port c p).state = .acquire) : (s.portLocks c p).port c p =
    if s.allLocked c p then { s.port c p with state := .deskew, badAm := [] } else s.port c p := by
  rw [portLocks_eq]
  by_cases all : s.allLocked c p = true <;> simp [h, all]

theorem portLocks_state (h : (s.port c p).state = .acquire) : ((s.portLocks c p).port c p).state =
    if s.allLocked c p then .deskew else .acquire := by
  rw [port_portLocks h]
  split
  exacts [rfl, h]

/-! ### Lanes put back to ACQUIRE (R193) -/

/-- The physical receive lanes of a port, the spares assigned to it included. -/
def ownLanes (s : State) (c : Ch) (p : Nat) : List Nat :=
  (List.range 8).map (s.rxLane c p) ++ ((List.range 4).filter (fun k => s.assigned c k p)).map (fun k => laneOf (s.ch c).rxMap (64 + k))


variable (s c p)

theorem dropLanes_eq : s.dropLanes c p = (s.ownLanes c p).foldl (fun s l => s.modLane c l Lane.dropped) s := rfl

@[simp] theorem port_dropLanes : (s.dropLanes c p).port x q = s.port x q :=
  foldl_keeps (fun s : State => s.port x q) (fun s _ => s.port_modLane ..) _ _
@[simp] theorem rxMap_dropLanes : ((s.dropLanes c p).ch x).rxMap = (s.ch x).rxMap :=
  foldl_keeps (fun s : State => (s.ch x).rxMap) (fun s _ => s.rxMap_modLane ..) _ _
@[simp] theorem dropLanes_regs : (s.dropLanes c p).regs = s.regs := foldl_keeps State.regs (fun s _ => s.modLane_regs ..) _ _
@[simp] theorem dropLanes_designs : (s.dropLanes c p).designs = s.designs := foldl_keeps State.designs (fun s _ => s.modLane_designs ..) _ _

theorem lane_dropLanes (k : Nat) : (s.dropLanes c p).lane c k = if k ∈ s.ownLanes c p then (s.lane c k).dropped else s.lane c k := by
  rw [dropLanes_eq]
  generalize s.ownLanes c p = own
  induction own generalizing s with
  | nil => simp
  | cons l own ih =>
    rw [List.foldl_cons, ih, lane_modLane]
    by_cases here : k = l
    · subst here; simp [Lane.dropped]
    · simp [here]

/-- Every own lane of a port is back in ACQUIRE, whichever state its lane map is read in. -/
theorem dropLanes_acquire {u : State} (rx : (s.ch c).rxMap = (u.ch c).rxMap) (given : ∀ k, s.assigned c k p = u.assigned c k p) :
    (∀ i, i < 8 → ((s.dropLanes c p).lane c (u.rxLane c p i)).state = .acquire) ∧
    (∀ k, k < 4 → u.assigned c k p = true → ((s.dropLanes c p).lane c (laneOf (u.ch c).rxMap (64 + k))).state = .acquire) := by
  have own : s.ownLanes c p = u.ownLanes c p := by unfold ownLanes State.rxLane; simp only [rx, given]
  refine ⟨fun i hi => ?_, fun k hk mine => ?_⟩
  · have here : u.rxLane c p i ∈ u.ownLanes c p :=
      List.mem_append_left _ (List.mem_map.mpr ⟨i, List.mem_range.mpr hi, rfl⟩)
    rw [lane_dropLanes, own, if_pos here]; rfl
  · have here : laneOf (u.ch c).rxMap (64 + k) ∈ u.ownLanes c p :=
      List.mem_append_right _ (List.mem_map.mpr ⟨k, List.mem_filter.mpr ⟨List.mem_range.mpr hk, mine⟩, rfl⟩)
    rw [lane_dropLanes, own, if_pos here]; rfl

/-- Dropping its lanes leaves the test of a lane as it is. -/
theorem dropLanes_testing (k : Nat) : ((s.dropLanes c p).lane c k).testing = (s.lane c k).testing := by
  rw [lane_dropLanes]
  split <;> rfl

/-! ### The end of a rotation test, and a FAULT column (R190, R196) -/

@[simp] theorem port_sendFault (reason : Nat) :
    (s.sendFault c p reason).port c p = { s.port c p with sent := (s.port c p).sent ++ [.fault reason] } := by
  rw [State.sendFault, State.wholeColumn, port_sendBlocks, port_modPort_same]

@[simp] theorem sendFault_regs (reason : Nat) : (s.sendFault c p reason).regs = s.regs := by cases c <;> rfl
@[simp] theorem sendFault_designs (reason : Nat) : (s.sendFault c p reason).designs = s.designs := by cases c <;> rfl
@[simp] theorem rxMap_sendFault (reason : Nat) : ((s.sendFault c p reason).ch x).rxMap = (s.ch x).rxMap := by cases c <;> cases x <;> rfl
@[simp] theorem link_sendFault (reason : Nat) : ((s.sendFault c p reason).ch x).link = (s.ch x).link := by cases c <;> cases x <;> rfl

theorem port_endTest : (s.endTest c p).port c p = { s.port c p with rotating := none } := by
  unfold State.endTest
  split
  · rw [port_modPort_same, port_modLane]
  · next h => rw [← h]

/-- Ending a test touches neither the links, the lane map, the registers nor the designs. -/
theorem endTest_keeps : ((s.endTest c p).ch x).link = (s.ch x).link ∧ ((s.endTest c p).ch x).rxMap = (s.ch x).rxMap ∧
    (s.endTest c p).regs = s.regs ∧ (s.endTest c p).designs = s.designs := by
  unfold State.endTest
  split <;> simp

theorem endTest_testing {l k : Nat} (h : (s.port c p).rotating = some (l, k)) : ((s.endTest c p).lane c l).testing = false := by
  rw [State.endTest, h]
  simp

/-! ### A write of VL_PORT_CTRL (R194, R196) -/

/-- What cutting a port off does once its sender and its test have stopped: the port starts over as `f` says, the routes follow, and its lanes go
back to ACQUIRE. -/
def cutOff (s : State) (c : Ch) (p : Nat) (f : VPort → VPort) : State := (s.withRoutes fun s => s.modPort c p f).dropLanes c p

variable {s c p} {value : Word32}

/-- The bits that VL_PORT_CTRL stores hold EN and RATE as written. -/
theorem ctrl_en (value : Word32) : (value &&& 15#32).getLsbD 0 = value.getLsbD 0 := by simp
theorem ctrl_rate (value : Word32) : (value &&& 15#32).getLsbD 1 = value.getLsbD 1 := by simp

/-- Before a base image is in force a port that may not run has its register alone (R292). -/
theorem portCtrl_barred (barred : s.portAllowed c p = false) : s.portCtrl c p value = s.setReg .vlPortCtrl c [p] (value &&& 15#32) := by
  unfold State.portCtrl
  exact if_pos barred

/-- A write that changes neither EN nor RATE stores its bits alone. -/
theorem portCtrl_same (en : value.getLsbD 0 = (s.reg .vlPortCtrl c [p]).getLsbD 0) (rate : value.getLsbD 1 = (s.reg .vlPortCtrl c [p]).getLsbD 1) :
    s.portCtrl c p value = s.setReg .vlPortCtrl c [p] (value &&& 15#32) := by
  unfold State.portCtrl
  simp only [ctrl_en, ctrl_rate, ← en, ← rate, Bool.and_not_self, Bool.not_and_self, bne_self_eq_false, Bool.and_false,
    Bool.false_eq_true, if_false, ite_self]

theorem portCtrl_enables (may : s.portAllowed c p = true) (on : value.getLsbD 0 = true) (was : (s.reg .vlPortCtrl c [p]).getLsbD 0 = false) :
    s.portCtrl c p value = ((s.setReg .vlPortCtrl c [p] (value &&& 15#32)).modPort c p fun x =>
      { state := .acquire, nextRotate := x.nextRotate, sent := x.sent }).portLocks c p := by
  have may' : (s.setReg .vlPortCtrl c [p] (value &&& 15#32)).portAllowed c p = true := may
  unfold State.portCtrl
  simp only [ctrl_en, may', on, was, Bool.true_eq_false, Bool.false_eq_true, Bool.false_and, Bool.not_false, Bool.true_and, if_true, if_false]

theorem portCtrl_disables (may : s.portAllowed c p = true) (off : value.getLsbD 0 = false) (was : (s.reg .vlPortCtrl c [p]).getLsbD 0 = true) :
    s.portCtrl c p value = ((((s.setReg .vlPortCtrl c [p] (value &&& 15#32)).sendFault c p 1).loseTraffic c p).endTest c p).cutOff c p
      fun x => { nextRotate := x.nextRotate, sent := x.sent } := by
  have may' : (s.setReg .vlPortCtrl c [p] (value &&& 15#32)).portAllowed c p = true := may
  unfold State.portCtrl cutOff
  simp only [ctrl_en, may', off, was, Bool.true_eq_false, Bool.not_false, Bool.true_and, if_true, if_false]

theorem portCtrl_retrains (may : s.portAllowed c p = true) (on : value.getLsbD 0 = true) (was : (s.reg .vlPortCtrl c [p]).getLsbD 0 = true)
    (rate : value.getLsbD 1 ≠ (s.reg .vlPortCtrl c [p]).getLsbD 1) :
    s.portCtrl c p value = (((s.setReg .vlPortCtrl c [p] (value &&& 15#32)).sendFault c p 2).endTest c p).cutOff c p VPort.retrained := by
  have may' : (s.setReg .vlPortCtrl c [p] (value &&& 15#32)).portAllowed c p = true := may
  have rate' : ((s.reg .vlPortCtrl c [p]).getLsbD 1 != value.getLsbD 1) = true := bne_iff_ne.mpr rate.symm
  unfold State.portCtrl cutOff VPort.retrained
  simp only [ctrl_en, ctrl_rate, may', on, was, rate', Bool.true_eq_false, Bool.false_eq_true, Bool.not_true, Bool.and_false, Bool.false_and,
    Bool.true_and, if_true, if_false]

/-! ### A port that is cut off -/

/-- With no VALUE message to send again, cutting a port off changes the port as said, takes its own lanes back to ACQUIRE and leaves the lane map,
the hub's registers and the designs. -/
theorem cutOff_spec (f : VPort → VPort) (still : ∀ x, (s.ch x).link.resend = []) :
    (s.cutOff c p f).port c p = f (s.port c p) ∧ ((s.cutOff c p f).ch c).rxMap = (s.ch c).rxMap ∧ (s.cutOff c p f).designs = s.designs ∧
    (∀ r idx, r.row.dom ≠ .host → (s.cutOff c p f).reg r c idx = s.reg r c idx) ∧
    (∀ l, ((s.cutOff c p f).lane c l).testing = (s.lane c l).testing) ∧
    (∀ i, i < 8 → ((s.cutOff c p f).lane c (s.rxLane c p i)).state = .acquire) ∧
    (∀ k, k < 4 → s.assigned c k p = true → ((s.cutOff c p f).lane c (laneOf (s.ch c).rxMap (64 + k))).state = .acquire) := by
  have q : Quiet (s.modPort c p f) (s.withRoutes fun s => s.modPort c p f) := s.withRoutes_quiet fun x => by rw [link_modPort, still]
  unfold cutOff
  generalize s.withRoutes (fun s => s.modPort c p f) = w at q ⊢
  have rx : (w.ch c).rxMap = (s.ch c).rxMap := by rw [q.ch, rxMap_modPort]
  have regs : ∀ r idx, r.row.dom ≠ .host → w.reg r c idx = s.reg r c idx := fun r idx hub => by
    rw [q.reg_hub hub, reg_of_regs _ (s.modPort_regs ..)]
  have given : ∀ k, w.assigned c k p = s.assigned c k p := fun k => by
    rw [State.assigned, State.inUse, regs _ _ (by decide), State.assigned, State.inUse]
  refine ⟨?_, ?_, ?_, fun r idx hub => ?_, fun l => ?_, w.dropLanes_acquire c p rx given⟩
  · rw [port_dropLanes, port_of_ch _ _ (q.ch c), port_modPort_same]
  · rw [rxMap_dropLanes, rx]
  · rw [dropLanes_designs, q.designs, modPort_designs]
  · rw [reg_of_regs _ (w.dropLanes_regs ..), regs r idx hub]
  · rw [dropLanes_testing, lane_of_ch _ _ (q.ch c), lane_modPort]

/-- A port with nothing in its replay buffer and nothing that waits loses nothing (R222). -/
theorem loseTraffic_none (h : (s.port c p).unsent = []) : s.loseTraffic c p = s.modPort c p fun x =>
    { x with unacked := x.unacked.map (fun k => { k with msg := none }), queue := [], queue1 := [] } := by
  unfold State.loseTraffic
  rw [h]; rfl

/-- VL_SPARE_ASSIGN stands apart from the ports' control registers. -/
theorem spareAssign_ne_portCtrl (c : Ch) (hp : p < 8) : regOff .vlSpareAssign c [] ≠ regOff .vlPortCtrl c [p] := by
  simp only [regOff, domBase, Reg.row, joinDims]
  omega

theorem assigned_setCtrl (s : State) {c : Ch} {p : Nat} (hp : p < 8) (v : Word32) (k q : Nat) :
    (s.setReg .vlPortCtrl c [p] v).assigned c k q = s.assigned c k q := by
  simp only [State.assigned, State.inUse, reg_setReg_other _ _ (spareAssign_ne_portCtrl c hp)]

/-- The port that comes up (R194): it starts over, in DESKEW where its lanes are all LOCKED. -/
theorem port_portCtrl_enables (may : s.portAllowed c p = true) (on : value.getLsbD 0 = true)
    (was : (s.reg .vlPortCtrl c [p]).getLsbD 0 = false) : (s.portCtrl c p value).port c p =
      { state := if (List.range 8).all (fun i => (s.lane c (s.rxLane c p i)).state == .locked) then .deskew else .acquire,
        nextRotate := (s.port c p).nextRotate, sent := (s.port c p).sent } := by
  rw [portCtrl_enables may on was]
  generalize hv : (s.setReg .vlPortCtrl c [p] (value &&& 15#32)).modPort c p (fun x =>
    { state := .acquire, nextRotate := x.nextRotate, sent := x.sent }) = v
  have fresh : v.port c p = { state := .acquire, nextRotate := (s.port c p).nextRotate, sent := (s.port c p).sent } := by
    rw [← hv, port_modPort_same, port_of_ch _ _ (setReg_ch ..)]
  have locked : v.allLocked c p = (List.range 8).all fun i => (s.lane c (s.rxLane c p i)).state == .locked := by
    rw [allLocked, fresh, ← hv]
    simp only [lane_modPort, rxLane_modPort, lane_of_ch _ _ (setReg_ch ..), rxLane_of_ch _ _ _ (setReg_ch ..)]
    rfl
  rw [port_portLocks (by rw [fresh]), locked, fresh]
  split <;> rfl

/-- A port that is cut off by a write of its register, once its sender has stopped as `w` has it: its test ends, it starts over as `f` says, and
its own lanes are back in ACQUIRE. -/
theorem cutOff_written {u w : State} {v : Word32} {f : VPort → VPort} (hp : p < 8) (hu : u = (w.endTest c p).cutOff c p f)
    (link : ∀ x, (w.ch x).link = (s.ch x).link) (rx : (w.ch c).rxMap = (s.ch c).rxMap) (regs : w.regs = (s.setReg .vlPortCtrl c [p] v).regs)
    (designs : w.designs = s.designs) (still : ∀ x, (s.ch x).link.resend = []) :
    u.reg .vlPortCtrl c [p] = v ∧ u.port c p = f { w.port c p with rotating := none } ∧
    (∀ i, i < 8 → (u.lane c (s.rxLane c p i)).state = .acquire) ∧
    (∀ k, k < 4 → s.assigned c k p = true → (u.lane c (laneOf (s.ch c).rxMap (64 + k))).state = .acquire) ∧
    (∀ l k, (w.port c p).rotating = some (l, k) → (u.lane c l).testing = false) ∧
    (u.ch c).rxMap = (s.ch c).rxMap ∧ u.designs = s.designs := by
  subst hu
  have keeps := fun x => w.endTest_keeps c x p
  have rx' : ((w.endTest c p).ch c).rxMap = (s.ch c).rxMap := (keeps c).2.1.trans rx
  have regs' : (w.endTest c p).regs = (s.setReg .vlPortCtrl c [p] v).regs := (keeps c).2.2.1.trans regs
  have lane : ∀ i, (w.endTest c p).rxLane c p i = s.rxLane c p i := fun i => by rw [State.rxLane, rx', State.rxLane]
  have given : ∀ k, (w.endTest c p).assigned c k p = s.assigned c k p := fun k => by
    rw [← s.assigned_setCtrl hp v, State.assigned, State.inUse, reg_of_regs _ regs', State.assigned, State.inUse]
  obtain ⟨port, map, same, reg, testing, own, spare⟩ := cutOff_spec (s := w.endTest c p) (c := c) (p := p) f fun x => by
    rw [(keeps x).1, link, still]
  refine ⟨?_, ?_, fun i hi => lane i ▸ own i hi, fun k hk mine => rx' ▸ spare k hk ((given k).trans mine), fun l k test => ?_, map.trans rx',
    same.trans ((keeps c).2.2.2.trans designs)⟩
  · rw [reg _ _ (by decide), reg_of_regs _ regs', reg_setReg_same]
  · rw [port, port_endTest]
  · rw [testing, endTest_testing _ _ _ test]

end State

/-! ### The commands -/

section

variable {s : State} {c : Ch} {p : Nat} {value : Word32}

theorem exec_portEnable (answers : s.portAnswers = true) (live : s.portLive c p = true) (on : value.getLsbD 0 = true) :
    exec (.portEnable c p value) s = .next (s.portCtrl c p value) := by
  show execPortEnable c p value s = _
  simp only [execPortEnable, answers, live, on, Bool.true_eq_false, Bool.and_self, if_true, if_false]

theorem exec_portDisable (answers : s.portAnswers = true) (live : s.portLive c p = true) (off : value.getLsbD 0 = false) :
    exec (.portDisable c p value) s = .next (s.portCtrl c p value) := by
  show execPortDisable c p value s = _
  simp only [execPortDisable, answers, live, off, Bool.true_eq_false, Bool.not_false, Bool.and_self, if_true, if_false]

theorem exec_portRateChange (answers : s.portAnswers = true) (live : s.portLive c p = true)
    (rate : value.getLsbD 1 ≠ (s.reg .vlPortCtrl c [p]).getLsbD 1) : exec (.portRateChange c p value) s = .next (s.portCtrl c p value) := by
  show execPortRateChange c p value s = _
  simp only [execPortRateChange, answers, live, bne_iff_ne.mpr rate, Bool.true_eq_false, Bool.and_self, if_true, if_false]

theorem State.portLive_lt (live : s.portLive c p = true) : p < 8 := by
  simp only [State.portLive, Bool.and_eq_true, decide_eq_true_eq] at live
  exact live.2

end

theorem ctrl_off {value : Word32} (off : value.getLsbD 0 = false) : value &&& 15#32 = value &&& 14#32 := by
  refine BitVec.eq_of_getLsbD_eq fun i hi => ?_
  have bit : (15#32).getLsbD i = (decide (i = 0) || (14#32).getLsbD i) := by
    revert i; decide
  rw [BitVec.getLsbD_and, BitVec.getLsbD_and, bit]
  by_cases first : i = 0
  · subst first; rw [off]; rfl
  · simp [first]

theorem portControl : Clauses.PortControl := by
  intro s c p value old hold answers live resendA resendB
  subst hold
  have hp := State.portLive_lt live
  have still : ∀ x, (s.ch x).link.resend = [] := fun x => by cases x; exacts [resendA, resendB]
  refine ⟨fun may => ⟨fun on was => ?enable, fun off was idle => ?disable, fun rate on was => ?retrain⟩,
    fun barred => ⟨fun on => ?_, fun off => ?_, fun rate => ?_⟩, fun en rate => ⟨fun on => ?_, fun off => ?_⟩⟩
  case enable =>
    refine ⟨_, exec_portEnable answers live on, ?_, ?_, State.port_portCtrl_enables may on was, fun q hq => ?_⟩
    all_goals rw [State.portCtrl_enables may on was]
    · rw [State.reg_of_regs _ (State.portLocks_regs ..), State.reg_of_regs _ (State.modPort_regs ..), State.reg_setReg_same]
    · rw [State.portLocks_host, State.modPort_host]; rfl
    · rw [State.port_portLocks_other _ _ hq, State.port_modPort_other _ _ _ hq, State.port_of_ch _ _ (State.setReg_ch ..)]
  case disable =>
    have said : ((s.setReg .vlPortCtrl c [p] (value &&& 15#32)).sendFault c p 1).port c p =
        { s.port c p with sent := (s.port c p).sent ++ [.fault 1] } := by
      rw [State.port_sendFault, State.port_of_ch _ _ (State.setReg_ch ..)]
    have ends := State.portCtrl_disables may off was
    rw [State.loseTraffic_none (by rw [said]; exact idle)] at ends
    obtain ⟨reg, port, own, spare, test, map, designs⟩ := State.cutOff_written (s := s) (v := value &&& 15#32) hp ends (fun x => by simp)
      (by simp) (by simp) (by simp; rfl) still
    rw [State.port_modPort_same, said] at port test
    exact ⟨_, exec_portDisable answers live off, reg.trans (ctrl_off off), port, own, spare, test, map, designs⟩
  case retrain =>
    obtain ⟨reg, port, own, spare, -, map, designs⟩ := State.cutOff_written (s := s) (v := value &&& 15#32) hp
      (State.portCtrl_retrains may on was rate) (fun x => by simp) (by simp) (by simp) (by simp; rfl) still
    rw [State.port_sendFault, State.port_of_ch _ _ (State.setReg_ch ..)] at port
    refine ⟨_, exec_portRateChange answers live rate, reg, ?_⟩
    rw [port]
    exact ⟨rfl, rfl, rfl, rfl, rfl, rfl, rfl, fun up => by simp [VPort.retrained, up], own, spare, map, designs⟩
  · rw [exec_portEnable answers live on, State.portCtrl_barred barred]
  · rw [exec_portDisable answers live off, State.portCtrl_barred barred]
  · rw [exec_portRateChange answers live rate, State.portCtrl_barred barred]
  · rw [exec_portEnable answers live on, State.portCtrl_same en rate]
  · rw [exec_portDisable answers live off, State.portCtrl_same en rate]

/-! ### The eye scan (R200) -/

theorem exec_eyeScanStart {s : State} {c : Ch} (value : Word32) (answers : s.portAnswers = true) (there : c ∈ s.channels)
    (on : (s.pw c).state.hubOn = true) : exec (.eyeScanStart c value) s = .next
      (if value.getLsbD 7 = true ∧ value.toNat % 128 < 68 ∧ (s.ch c).scan.busy = false then
        (s.setReg .vlScanCtrl c [] (value &&& 0xFFFF7F#32)).modCh c
          fun h => { h with scan := { h.scan with busy := true, lane := value.toNat % 128 } }
      else s.setReg .vlScanCtrl c [] (value &&& 0xFFFF7F#32)) := by
  have lane : field value.toNat 0 7 = value.toNat % 128 := rfl
  show execEyeScanStart c value s = _
  simp only [execEyeScanStart, answers, on, List.contains_iff_mem.mpr there, State.setReg_ch, lane, Bool.true_eq_false,
    or_self, if_false, Bool.and_eq_true, Bool.not_eq_true', decide_eq_true_eq, and_assoc]

theorem eyeScan : Clauses.EyeScan := by
  intro s c value
  refine ⟨fun answers there on => ⟨fun start lane idle => ?_, fun none => ?_⟩, fun h v busy => ?_,
    fun h v idle => congrArg Host.Outcome.next (if_neg (by simp [idle]))⟩
  · rw [exec_eyeScanStart value answers there on, if_pos ⟨start, lane, idle⟩]
  · rw [exec_eyeScanStart value answers there on, if_neg ?_]
    rintro ⟨start, lane, idle⟩
    rcases none with off | far | busy
    · exact Bool.false_ne_true (off.symm.trans start)
    · omega
    · exact Bool.false_ne_true (idle.symm.trans busy)
  · refine ⟨_, congrArg Host.Outcome.next (if_pos busy), ?_⟩
    simp

end Sys2Proof.Machine
end

section
/-! Locks of lanes (R188, R193-R195, R202): the rows of a lane one by one, and a port that leaves UP because a lane lost its lock. -/

namespace Sys2Proof.Machine

open Sys2Proof

/-- A port after a loss (R195): back in ACQUIRE, and to be brought in step again where it was UP. -/
def VPort.lost (x : VPort) : VPort :=
  { x with state := .acquire, rxOk := false, badAm := [], badRx := 0, needResync := x.needResync || x.state == .up }

namespace State

variable {s u : State} {c : Ch} {p : Nat}

/-- A port in UP that has a loss (R195): it is back in ACQUIRE, its event stands, and where its lanes are LOCKED it goes on. -/
theorem portLoss_up (up : (s.port c p).state = .up) (cause : Nat) : ∃ v, s.portLoss c p cause = v.portLocks c p ∧
    (s.modPort c p VPort.lost).Outgoing v ∧
    (s.pwr.hostOn = true → v.Stands 0x4003 (1 + chNum c) 0xFF 0 [chNum c, p, cause]) := by
  let routed := s.withRoutes fun s => s.modPort c p VPort.lost
  have out : (s.modPort c p VPort.lost).Outgoing routed := .withRoutes (.refl _)
  have told := out.hubEvent c 0x4003 [chNum c, p, cause]
  refine ⟨(routed.hubEvent c 0x4003 [chNum c, p, cause]).sendFault c p 3, ?_, told.sendFault .., fun on => ?_⟩
  · unfold State.portLoss
    simp only [up, beq_self_eq_true, Bool.true_or, if_true]
    rfl
  · have powered : routed.pwr.hostOn = true := by rw [out.pwr, modPort_pwr, on]
    exact ((Outgoing.refl _).sendFault c p 3).stands _ _ _ _ _ (event_stands _ _ _ _ _ _ powered)

/-- The parts of a port that has had a loss, whatever has gone out since. -/
theorem Outgoing.lost (h : (s.modPort c p VPort.lost).Outgoing u) : (u.port c p).state = .acquire ∧ (u.port c p).rxOk = false ∧
    (u.port c p).rxReq = (s.port c p).rxReq ∧ (u.port c p).farFault = (s.port c p).farFault ∧ (u.port c p).lanes = (s.port c p).lanes ∧
    (u.port c p).needResync = ((s.port c p).needResync || (s.port c p).state == .up) := by
  have port := h.port c p
  rw [port_modPort_same] at port
  exact ⟨(congrArg VPort.state port :), (congrArg VPort.rxOk port :), (congrArg VPort.rxReq port :), (congrArg VPort.farFault port :),
    (congrArg VPort.lanes port :), (congrArg VPort.needResync port :)⟩

theorem servedBy_of_rxMap (h : (u.ch c).rxMap = (s.ch c).rxMap) (l : Nat) : u.servedBy c l = s.servedBy c l := by
  rw [State.servedBy, h, State.servedBy]

/-- A lane that serves a port serves one of the eight. -/
theorem servedBy_lt {l i : Nat} (h : s.servedBy c l = some (p, i)) : p < 8 ∧ i < 8 := by
  unfold State.servedBy at h
  simp only at h
  split at h
  · next low =>
    obtain ⟨rfl, rfl⟩ : _ ∧ _ := by simpa using h
    omega
  · exact absurd h (by simp)

/-- The counter of a lane stands apart from the control registers of the ports and from VL_SPARE_ASSIGN. -/
theorem laneErr_ne (c : Ch) {lane : Nat} (hl : lane < 68) (hp : p < 8) : regOff .vlPortCtrl c [p] ≠ regOff .vlLaneErr c [lane] ∧
    regOff .vlSpareAssign c [] ≠ regOff .vlLaneErr c [lane] := by
  simp only [regOff, domBase, Reg.row, joinDims]
  omega

/-- A request for a spare (R202, R204) leaves everything else of the port but a rotation's test. -/
theorem askSpare_spec (s : State) (c : Ch) (p i k : Nat) : ((s.askSpare c p i k).port c p).rxReq = some (i, k, true) ∧
    ((s.askSpare c p i k).port c p).state = (s.port c p).state ∧ ((s.askSpare c p i k).port c p).needResync = (s.port c p).needResync ∧
    ((s.askSpare c p i k).port c p).health = (s.port c p).health ∧ (∀ l, ((s.askSpare c p i k).lane c l).state = (s.lane c l).state) ∧
    ((s.askSpare c p i k).ch c).rxMap = (s.ch c).rxMap ∧ (s.askSpare c p i k).regs = s.regs ∧ (s.askSpare c p i k).host = s.host := by
  unfold State.askSpare
  refine ⟨by simp, by simp, by simp, by simp, fun l => ?_, by simp, by simp, by simp⟩
  rw [lane_modPort, lane_modLane]
  split <;> rfl

end State

section

variable {s : State} {c : Ch} {lane n : Nat}

theorem exec_laneBlockLock (hl : lane < 68) (hunt : (s.lane c lane).state = .hunt) : exec (.laneBlockLock c ⟨lane, n⟩) s = .next
    (match s.servedBy c lane with
      | some (p, _) => ((s.countBy .vlLaneErr c [lane] n).modLane c lane fun x => { x with state := .locked, noSignal := false }).portLocks c p
      | none => (s.countBy .vlLaneErr c [lane] n).modLane c lane fun x => { x with state := .locked, noSignal := false }) := by
  show execLaneBlockLock c ⟨lane, n⟩ s = _
  unfold execLaneBlockLock
  dsimp only
  rw [if_pos ⟨hl, hunt⟩, State.servedBy_of_rxMap (s := s) (by simp)] <;> rfl

/-- A lane has lost its lock, its invalid headers counted (R188, R193). -/
def State.unlocked (s : State) (c : Ch) (lane n : Nat) (cdr : Bool) : State :=
  (s.modLane c lane fun x => { x with state := if cdr then .acquire else .hunt, rxPrbs := none }).countBy .vlLaneErr c [lane] n

theorem reg_unlocked (s : State) (c : Ch) (lane n : Nat) (cdr : Bool) :
    (s.unlocked c lane n cdr).reg .vlLaneErr c [lane] = satAdd (s.reg .vlLaneErr c [lane]) n := by
  unfold State.unlocked State.countBy
  rw [State.reg_setReg_same, State.reg_of_regs _ (State.modLane_regs ..)]

theorem reg_unlocked_other {r : Reg} {idx : List Nat} (h : regOff r c idx ≠ regOff .vlLaneErr c [lane]) (cdr : Bool) :
    (s.unlocked c lane n cdr).reg r c idx = s.reg r c idx := by
  unfold State.unlocked State.countBy
  rw [State.reg_setReg_other _ _ h, State.reg_of_regs _ (State.modLane_regs ..)]

theorem port_unlocked (s : State) (c : Ch) (lane n : Nat) (cdr : Bool) (p : Nat) : (s.unlocked c lane n cdr).port c p = s.port c p := by
  rw [State.unlocked, State.port_of_ch _ _ (State.countBy_ch ..), State.port_modLane]

theorem lane_unlocked (s : State) (c : Ch) (lane n : Nat) (cdr : Bool) : (s.unlocked c lane n cdr).lane c lane =
    { s.lane c lane with state := if cdr then .acquire else .hunt, rxPrbs := none } := by
  rw [State.unlocked, State.lane_of_ch _ _ (State.countBy_ch ..), State.lane_modLane_same]

theorem unlocked_pwr (s : State) (c : Ch) (lane n : Nat) (cdr : Bool) : (s.unlocked c lane n cdr).pwr = s.pwr := State.modLane_pwr ..

/-- A lane of a port in UP that loses block lock: the port has its loss, and the lane is to be repaired. -/
theorem exec_laneLockLost_up {p i : Nat} (hl : lane < 68) (locked : (s.lane c lane).state = .locked) (serves : s.servedBy c lane = some (p, i))
    (needs : (s.port c p).lanes.contains i = true) (up : (s.port c p).state = .up) (far : (s.port c p).farFault = 0) :
    exec (.laneLockLost c ⟨lane, n⟩ false) s = .next (((s.unlocked c lane n false).portLoss c p 1).laneLost c p i) := by
  have port := port_unlocked s c lane n false p
  have served : (s.unlocked c lane n false).servedBy c lane = some (p, i) := by
    rw [State.servedBy_of_rxMap (s := s) (by simp [State.unlocked]), serves]
  have acts : ¬ (68 ≤ lane ∨ (s.lane c lane).state = .acquire ∨ (s.lane c lane).state = .hunt ∧ false = false) := by
    rw [locked]; simp; omega
  refine congrArg Host.Outcome.next ((if_neg acts).trans ?_)
  unfold State.unlocked at port served ⊢
  dsimp only
  rw [served]
  dsimp only
  rw [port, if_neg (by simp [locked, needs, -List.contains_eq_mem]), if_pos (by simp [up]), if_neg (by simp [far])]

/-- A lane that loses its clock and data recovery before block lock starts over alone. -/
theorem exec_laneLockLost_hunt (hl : lane < 68) (hunt : (s.lane c lane).state = .hunt) :
    exec (.laneLockLost c ⟨lane, n⟩ true) s = .next (s.unlocked c lane n true) := by
  have acts : ¬ (68 ≤ lane ∨ (s.lane c lane).state = .acquire ∨ (s.lane c lane).state = .hunt ∧ true = false) := by
    rw [hunt]; simp; omega
  refine congrArg Host.Outcome.next ((if_neg acts).trans ?_)
  dsimp only
  split
  · rfl
  · exact if_pos (.inl (by rw [hunt]; decide))

/-- The lane that has found block lock, its port in ACQUIRE: a port whose lanes are now all LOCKED goes on (R194). -/
theorem laneBlockLock_port {p : Nat} (idle : (s.port c p).state = .acquire) :
    ((((s.countBy .vlLaneErr c [lane] n).modLane c lane fun x => { x with state := .locked, noSignal := false }).portLocks c p).port c p).state =
      if (s.port c p).lanes.all (fun j => s.rxLane c p j == lane || (s.lane c (s.rxLane c p j)).state == .locked) then .deskew else .acquire := by
  have port : ((s.countBy .vlLaneErr c [lane] n).modLane c lane fun x => { x with state := .locked, noSignal := false }).port c p = s.port c p := by
    rw [State.port_modLane, State.port_of_ch _ _ (State.countBy_ch ..)]
  rw [State.portLocks_state (by rw [port, idle]), State.allLocked, port]
  congr 3
  funext j
  rw [State.rxLane_modLane, State.rxLane_of_ch _ _ _ (State.countBy_ch ..), State.lane_modLane, State.lane_of_ch _ _ (State.countBy_ch ..)]
  by_cases here : s.rxLane c p j = lane <;> simp [here]

/-- A lane of a port in UP that lost block lock, in the port's own terms (R195, R202). -/
theorem laneLost_up {p i k : Nat} {ks : List Nat} (hl : lane < 68) (hp : p < 8) (own : s.rxLane c p i = lane) (needs : i ∈ (s.port c p).lanes)
    (up : (s.port c p).state = .up) (free : (s.port c p).rxReq = none) (spares : s.sparesOf c p = k :: ks) :
    ∃ v, ((s.unlocked c lane n false).portLoss c p 1).laneLost c p i = v.askSpare c p i k ∧
      ((s.unlocked c lane n false).modPort c p VPort.lost).Outgoing v ∧
      (s.pwr.hostOn = true → v.Stands 0x4003 (1 + chNum c) 0xFF 0 [chNum c, p, 1]) := by
  generalize hu : s.unlocked c lane n false = u
  have chan : u.ch c = (s.modLane c lane fun x => { x with state := .hunt, rxPrbs := none }).ch c := by
    rw [← hu, State.unlocked, State.countBy_ch]; rfl
  have port : u.port c p = s.port c p := by rw [State.port_of_ch _ _ chan, State.port_modLane]
  obtain ⟨v, loss, out, told⟩ := u.portLoss_up (by rw [port, up]) 1
  obtain ⟨idle, -, asked, -, lanes, -⟩ := out.lost
  have hunting : (v.lane c lane).state = .hunt := by
    rw [out.laneState, State.lane_modPort, State.lane_of_ch _ _ chan, State.lane_modLane_same]
  have held : v.allLocked c p = false := by
    rw [State.allLocked, List.all_eq_false]
    refine ⟨i, by rw [lanes, port]; exact needs, ?_⟩
    rw [out.rxLane, State.rxLane_modPort, State.rxLane_of_ch _ _ _ chan, State.rxLane_modLane, own, hunting]
    decide
  have stays : v.portLocks c p = v := by rw [State.portLocks_eq, if_neg (by simp [held])]
  have same : v.sparesOf c p = s.sparesOf c p := by
    obtain ⟨ctrl, given⟩ := State.laneErr_ne c hl hp
    have each : ∀ {α : Type} {g : Lane → α}, (∀ x : Lane, g { x with state := .hunt, rxPrbs := none } = g x) → ∀ l,
        g ((u.modPort c p VPort.lost).lane c l) = g (s.lane c l) := fun hg l => by
      rw [State.lane_modPort, State.lane_of_ch _ _ chan, State.lane_modLane]
      split
      exacts [hg _, rfl]
    rw [out.sparesOf]
    refine State.sparesOf_congr ?_ ?_ ?_ (each fun _ => rfl) (each fun _ => rfl) (each fun _ => rfl) ?_
    · rw [State.reg_of_regs _ (State.modPort_regs ..), ← hu, reg_unlocked_other ctrl]
    · rw [State.reg_of_regs _ (State.modPort_regs ..), ← hu, reg_unlocked_other given]
    · rw [State.rxMap_modPort, chan, State.rxMap_modLane]
    · rw [State.port_modPort_same, port]; rfl
  refine ⟨v, ?_, out, fun on => told (by rw [← hu, unlocked_pwr, on])⟩
  rw [loss, stays, State.laneLost, asked, port, free]
  dsimp only
  rw [State.repairLane, same, spares]

end

theorem laneLocks : Clauses.LaneLocks := by
  intro s c lane n hl
  refine ⟨fun idle on => ?cdr, fun busy => ?_, fun hunt => ⟨fun spare => ?_, fun p i serves idle own => ?block⟩, fun other => ?_,
    fun dark on => ?_, fun locked => ?_, fun idle cdr => ?_, fun hunt => ⟨?_, ?_⟩,
    fun p i k ks locked serves own needs up free far spares => ?lost⟩
  case cdr => exact congrArg Host.Outcome.next (if_pos ⟨hl, idle, on⟩)
  case block =>
    refine ⟨_, by rw [exec_laneBlockLock hl hunt, serves], ?_, ?_, ?_, ?_, laneBlockLock_port idle, fun l hne => ?_⟩
    · rw [State.lane_portLocks, State.lane_modLane_same]
    · rw [State.lane_portLocks, State.lane_modLane_same]
    · rw [State.portLocks_host, State.modLane_host]; rfl
    · rw [State.reg_of_regs _ (State.portLocks_regs ..), State.reg_of_regs _ (State.modLane_regs ..)]
      exact State.reg_setReg_same ..
    · rw [State.lane_portLocks, State.lane_modLane_other _ _ _ hne, State.lane_of_ch _ _ (State.countBy_ch ..)]
  case lost =>
    have hp := (State.servedBy_lt serves).1
    obtain ⟨v, asks, out, told⟩ := laneLost_up (n := n) hl hp own (by simpa using needs) up free spares
    obtain ⟨asked, state, resync, -, lanes, -, regs, host⟩ := v.askSpare_spec c p i k
    obtain ⟨idle, -, -, -, -, again⟩ := out.lost
    rw [port_unlocked, up] at again
    refine ⟨_, by rw [exec_laneLockLost_up hl locked serves needs up far, asks], ?_, state.trans idle, asked, ?_, ?_, fun on => ?_⟩
    · rw [lanes, out.laneState, State.lane_modPort, lane_unlocked]; rfl
    · rw [resync, again]; simp
    · rw [State.reg_of_regs _ regs, out.reg _ _ _ (by decide), State.reg_of_regs _ (State.modPort_regs ..), reg_unlocked]
    · exact ((told on).of_same host (State.reg_of_regs _ regs ..)).1
  · exact congrArg Host.Outcome.next (if_neg fun h => busy h.2.1)
  · rw [exec_laneBlockLock hl hunt, spare]
  · exact congrArg Host.Outcome.next (if_neg fun h => other h.2)
  · exact congrArg Host.Outcome.next (if_pos ⟨hl, dark, on⟩)
  · exact congrArg Host.Outcome.next (if_neg fun h => h.2.1 locked)
  · exact congrArg Host.Outcome.next (if_pos (.inr (.inl idle)))
  · exact congrArg Host.Outcome.next (if_pos (.inr (.inr ⟨hunt, rfl⟩)))
  · exact exec_laneLockLost_hunt hl hunt

end Sys2Proof.Machine
end

section
/-! Alignment markers that arrive (R191, R194, R195): what the good markers of a column say, the order they give the lanes, and what missing ones
count. -/

namespace Sys2Proof.KV

theorem mem_of_get {α : Type} {d v : α} {k : Nat} {m : KV α} (h : get d k m = v) (hv : v ≠ d) : (k, v) ∈ m := by
  induction m with
  | nil => exact absurd h.symm hv
  | cons e m ih =>
    rw [get] at h
    split at h
    · next here => subst here; subst h; exact List.mem_cons_self ..
    · exact List.mem_cons_of_mem _ (ih h)

end Sys2Proof.KV

namespace Sys2Proof.Machine

open Sys2Proof

/-- A fold whose every step over a list keeps a quantity keeps it. -/
theorem foldl_keeps_mem {α β γ : Type} {f : β → α → β} {g : β → γ} {l : List α} (h : ∀ b, ∀ a ∈ l, g (f b a) = g b) (b : β) :
    g (l.foldl f b) = g b := by
  induction l generalizing b with
  | nil => rfl
  | cons a l ih => rw [List.foldl_cons, ih fun b k hk => h b k (List.mem_cons_of_mem _ hk), h b a (List.mem_cons_self ..)]

/-- A fold in which one element of a list without repetition alone changes a quantity. -/
theorem foldl_at {α β γ : Type} {f : β → α → β} {g : β → γ} {h : γ → γ} {i : α} {l : List α} (here : ∀ b, g (f b i) = h (g b))
    (other : ∀ b, ∀ j ∈ l, j ≠ i → g (f b j) = g b) (distinct : l.Nodup) (hi : i ∈ l) (b : β) : g (l.foldl f b) = h (g b) := by
  induction l generalizing b with
  | nil => exact absurd hi List.not_mem_nil
  | cons j l ih =>
    obtain ⟨out, distinct⟩ := List.nodup_cons.mp distinct
    have rest : ∀ b, ∀ k ∈ l, k ≠ i → g (f b k) = g b := fun b k hk => other b k (List.mem_cons_of_mem _ hk)
    rw [List.foldl_cons]
    by_cases same : j = i
    · subst same
      rw [foldl_keeps_mem (fun b k hk => rest b k hk fun e => out (e ▸ hk)), here]
    · rw [ih rest distinct ((List.mem_cons.mp hi).resolve_left (Ne.symm same)), other _ _ (List.mem_cons_self ..) same]

/-! ### The lanes of a port and the places of a lane map -/

theorem VPort.lanes_nodup (x : VPort) : x.lanes.Nodup := by
  unfold VPort.lanes
  split
  · exact List.nodup_range
  · exact List.nodup_range.map fun a b (h : _ + a = _ + b) => by omega

theorem VPort.lanes_ne_nil (x : VPort) : x.lanes ≠ [] := by
  unfold VPort.lanes
  split <;> simp

@[simp] theorem laneOf_putLane_same (m : KV Nat) (k l : Nat) : laneOf (putLane m k l) k = l := KV.get_put_same ..

theorem laneOf_putLane_other (m : KV Nat) {j k : Nat} (l : Nat) (h : j ≠ k) : laneOf (putLane m k l) j = laneOf m j := KV.get_put_other _ _ h ..

/-- Lanes put to places of their own stand there. -/
theorem laneOf_foldl_putLane {α : Type} (place lane : α → Nat) {l : List α} (distinct : (l.map place).Nodup) (m : KV Nat) {i : α}
    (hi : i ∈ l) : laneOf (l.foldl (fun m i => putLane m (place i) (lane i)) m) (place i) = lane i := by
  refine foldl_at (f := fun m i => putLane m (place i) (lane i)) (g := fun m => laneOf m (place i)) (h := fun _ => lane i) (i := i) (fun m => ?_)
    (fun m j hj other => ?_) distinct.of_map hi m
  · exact laneOf_putLane_same ..
  · exact laneOf_putLane_other _ _ fun same => other (List.inj_on_of_nodup_map distinct hj hi same.symm)

/-! ### What a marker says of the far end (R191, R202, R205) -/

/-- A port without what the markers of a column say of the far end. -/
def VPort.unheard (x : VPort) : VPort :=
  { x with remoteModule := 0, remotePort := 0, remoteRxOk := false, badRx := 0, farFault := 0, txReq := none }

/-- `u` is `s` with what markers on a port say of its far end taken in: the transmit side of the lane map may follow a spare request, and nothing
else has changed. -/
structure State.Heeds (c : Ch) (p : Nat) (s u : State) : Prop where
  host : u.host = s.host
  regs : u.regs = s.regs
  pwr : u.pwr = s.pwr
  topo : u.topo = s.topo
  designs : u.designs = s.designs
  rxMap : (u.ch c).rxMap = (s.ch c).rxMap
  lanes : (u.ch c).lanes = (s.ch c).lanes
  port : (u.port c p).unheard = (s.port c p).unheard

namespace State

variable {s u v : State} {c : Ch} {p : Nat}

theorem Heeds.refl (c : Ch) (p : Nat) (s : State) : s.Heeds c p s := ⟨rfl, rfl, rfl, rfl, rfl, rfl, rfl, rfl⟩

theorem Heeds.modPort (h : s.Heeds c p u) {f : VPort → VPort} (hf : ∀ x, (f x).unheard = x.unheard) : s.Heeds c p (u.modPort c p f) := by
  obtain ⟨host, regs, pwr, topo, designs, rxMap, lanes, port⟩ := h
  exact ⟨by simpa, by simpa, by simpa, by simpa, by simpa, by simpa, by simpa, by rw [port_modPort_same, hf, port]⟩

theorem Heeds.txMap (h : s.Heeds c p u) (f : KV Nat → KV Nat) : s.Heeds c p (u.modCh c fun h => { h with txMap := f h.txMap }) := by
  obtain ⟨host, regs, pwr, topo, designs, rxMap, lanes, port⟩ := h
  refine ⟨by simpa, by simpa, by simpa, by simpa, by simpa, by simpa, by simpa, ?_⟩
  rw [← port, State.port, State.modCh_ch]; rfl

/-- A spare request of the far receiver is taken in and leaves the rest of the port alone (R202). -/
theorem Heeds.spareRequest (h : s.Heeds c p u) (a : Nat) : s.Heeds c p (u.spareRequest c p a) ∧
    ((u.spareRequest c p a).port c p).remoteRxOk = (u.port c p).remoteRxOk ∧
    ((u.spareRequest c p a).port c p).remotePort = (u.port c p).remotePort ∧
    ((u.spareRequest c p a).port c p).width4 = (u.port c p).width4 := by
  unfold State.spareRequest
  extract_lets req k
  have port : ∀ f : Channel → Channel, (∀ h, (f h).ports = h.ports) → (u.modCh c f).port c p = u.port c p := fun f hf => by
    rw [State.port, State.modCh_ch, hf]; rfl
  split
  · exact ⟨h.modPort fun _ => rfl, by simp, by simp, by simp⟩
  split
  · split
    · split
      · exact ⟨(h.txMap fun m => swapLanes m (8 * p + req) (64 + k)).modPort fun _ => by rfl, by simp [port], by simp [port], by simp [port]⟩
      · exact ⟨h, rfl, rfl, rfl⟩
    · exact ⟨h.modPort fun _ => rfl, by simp, by simp, by simp⟩
  · exact ⟨h, rfl, rfl, rfl⟩

/-- A marker of the full width, or on a port that is narrow already, says what it says and no more (R205). -/
theorem Heeds.heedAm (h : s.Heeds c p u) {a : Nat} (wide : bitAt a 5 = false ∨ (u.port c p).width4.isSome = true) (ls : List Nat) :
    s.Heeds c p (u.heedAm c p a ls) ∧ ((u.heedAm c p a ls).port c p).remoteRxOk = bitAt a 4 ∧
    ((u.heedAm c p a ls).port c p).remotePort = (u.port c p).remotePort := by
  unfold State.heedAm
  extract_lets s1 s2 half
  obtain ⟨heeds, ok, port, width⟩ := (h.modPort (f := fun x =>
    { x with remoteRxOk := bitAt a 4, badRx := if bitAt a 4 then 0 else x.badRx + 1, farFault := 0 }) fun _ => rfl).spareRequest a
  rw [port_modPort_same] at ok port width
  have stays : ¬ (bitAt a 5 && (s2.port c p).width4.isNone) = true := by
    rw [show (s2.port c p).width4 = (u.port c p).width4 from width]
    rcases wide with full | narrow
    · simp [full]
    · simp [Option.isNone_eq_false_iff.mpr narrow]
  rw [if_neg stays]
  exact ⟨heeds, ok, port⟩

theorem Heeds.lane (h : s.Heeds c p u) (l : Nat) : u.lane c l = s.lane c l := by rw [State.lane, h.lanes, State.lane]
theorem Heeds.rxLane (h : s.Heeds c p u) (q i : Nat) : u.rxLane c q i = s.rxLane c q i := by rw [State.rxLane, h.rxMap, State.rxLane]
theorem Heeds.portLanes (h : s.Heeds c p u) : (u.port c p).lanes = (s.port c p).lanes := (congrArg VPort.lanes h.port :)
theorem Heeds.state (h : s.Heeds c p u) : (u.port c p).state = (s.port c p).state := (congrArg VPort.state h.port :)

/-! ### A column of markers, part by part -/

/-- The valid markers of a column, in the order of the port's lanes. -/
def validAms (s : State) (c : Ch) (p : Nat) (ams : List (Nat × BitVec 56)) : List Nat :=
  ((s.port c p).lanes.filterMap (fun i => amOn ams (s.rxLane c p i))).filter (fun a => amValid a && !bitAt a 3)

/-- The port has noted which module and port the first valid marker shows (R191). -/
def sawAms (s : State) (c : Ch) (p : Nat) (ams : List (Nat × BitVec 56)) : State :=
  match s.validAms c p ams with
  | a :: _ => s.modPort c p fun x => { x with remoteModule := field a 16 6, remotePort := amPort a }
  | [] => s

/-- The valid markers of the far port that is wanted (R194, R195). -/
def goodAms (s : State) (c : Ch) (p : Nat) (ams : List (Nat × BitVec 56)) : List Nat :=
  (s.validAms c p ams).filter fun a => amPort a ==
    (if (s.port c p).state = .deskew then (s.sawAms c p ams).wantPort c p ((s.sawAms c p ams).port c p).remotePort else (s.port c p).expPort)

/-- The port has taken in what the first good marker says of its far end. -/
def heededAms (s : State) (c : Ch) (p : Nat) (ams : List (Nat × BitVec 56)) : State :=
  match s.goodAms c p ams with
  | a :: _ => (s.sawAms c p ams).heedAm c p a ((s.goodAms c p ams).map amLane)
  | [] => s.sawAms c p ams

variable {ams : List (Nat × BitVec 56)}

/-- A port in DESKEW aligns on a column that it has heeded. -/
theorem exec_amReceive_deskew (live : s.portLive c p = true) (state : (s.port c p).state = .deskew) :
    exec (.amReceive c p ams) s = .next ((s.heededAms c p ams).deskew c p ams) := by
  refine congrArg Host.Outcome.next ((if_neg ?_).trans (if_pos state))
  rw [live, state]
  decide

/-- A port past DESKEW checks a column that it has heeded, and may come up or leave UP on it. -/
theorem exec_amReceive_checks (live : s.portLive c p = true) (state : (s.port c p).state = .waitRemote ∨ (s.port c p).state = .up) {w : State}
    (hw : w = (s.heededAms c p ams).checkAms c p ams) : exec (.amReceive c p ams) s = .next
      (if (w.port c p).state ≠ (s.port c p).state then w
        else if (s.port c p).state = .up ∧ 2 ≤ (w.port c p).badRx then w.portLoss c p 3
        else if (s.port c p).state = .waitRemote ∧ (w.port c p).remoteRxOk ∧ s.goodAms c p ams ≠ [] then w.portUp c p else w) := by
  subst hw
  refine congrArg Host.Outcome.next ((if_neg ?_).trans (if_neg ?_))
  · rcases state with h | h <;> rw [live, h] <;> decide
  · rcases state with h | h <;> rw [h] <;> decide

theorem sawAms_heeds (s : State) (c : Ch) (p : Nat) (ams : List (Nat × BitVec 56)) : s.Heeds c p (s.sawAms c p ams) := by
  unfold sawAms
  split
  · exact (Heeds.refl c p s).modPort fun _ => rfl
  · exact .refl c p s

/-- A good marker is one that arrived on a lane of the port. -/
theorem mem_goodAms {b : Nat} (h : b ∈ s.goodAms c p ams) : ∃ i ∈ (s.port c p).lanes, amOn ams (s.rxLane c p i) = some b := by
  obtain ⟨valid, -⟩ := List.mem_filter.mp h
  obtain ⟨i, hi, arrived⟩ := List.mem_filterMap.mp (List.mem_filter.mp valid).1
  exact ⟨i, hi, arrived⟩

/-- Where no marker tells of a new narrow width, a column says what it says of the far end and no more. -/
theorem heededAms_heeds (wide : ∀ i ∈ (s.port c p).lanes, ∀ b, amOn ams (s.rxLane c p i) = some b →
    bitAt b 5 = false ∨ (s.port c p).width4.isSome = true) : s.Heeds c p (s.heededAms c p ams) ∧
    ∀ a l, s.goodAms c p ams = a :: l → ((s.heededAms c p ams).port c p).remoteRxOk = bitAt a 4 ∧
      ((s.heededAms c p ams).port c p).remotePort = ((s.sawAms c p ams).port c p).remotePort := by
  have saw := s.sawAms_heeds c p ams
  cases good : s.goodAms c p ams with
  | nil => exact ⟨by simpa only [heededAms, good] using saw, fun _ _ h => absurd h (by simp)⟩
  | cons a l =>
    obtain ⟨i, hi, arrived⟩ := mem_goodAms (by rw [good]; exact List.mem_cons_self ..)
    have width : ((s.sawAms c p ams).port c p).width4 = (s.port c p).width4 := (congrArg VPort.width4 saw.port :)
    obtain ⟨heeds, ok, port⟩ := saw.heedAm (a := a) (by rw [width]; exact wide i hi a arrived) ((s.goodAms c p ams).map amLane)
    have eq : s.heededAms c p ams = (s.sawAms c p ams).heedAm c p a ((s.goodAms c p ams).map amLane) := by
      simp only [heededAms, good]
    rw [eq]
    refine ⟨heeds, fun b k h => ?_⟩
    obtain ⟨rfl, -⟩ := List.cons.inj h
    exact ⟨ok, port⟩

end State
end Sys2Proof.Machine
end

section
/-! AM_RECEIVE (R191, R194, R195): a port aligns on a full column, checks the columns that follow, comes up, and leaves UP. -/

namespace Sys2Proof.Machine

open Sys2Proof

namespace State

variable {s w : State} {c : Ch} {p : Nat} {ams : List (Nat × BitVec 56)} {a : Nat → Nat}

/-! ### Alignment (R194) -/

/-- The markers of a column that has one on every lane of the port, in the order of its lanes. -/
theorem column_markers (full : ∀ i ∈ (s.port c p).lanes, amOn ams (s.rxLane c p i) = some (a i)) :
    (s.port c p).lanes.filterMap (fun i => amOn ams (s.rxLane c p i)) = (s.port c p).lanes.map a :=
  List.filterMap_eq_map_iff_forall_eq_some.mpr full

theorem validAms_full (full : ∀ i ∈ (s.port c p).lanes, amOn ams (s.rxLane c p i) = some (a i))
    (valid : ∀ i ∈ (s.port c p).lanes, amValid (a i) = true ∧ bitAt (a i) 3 = false) : s.validAms c p ams = (s.port c p).lanes.map a := by
  rw [validAms, column_markers full, List.filter_eq_self]
  intro b hb
  obtain ⟨i, hi, rfl⟩ := List.mem_map.mp hb
  rw [(valid i hi).1, (valid i hi).2]; rfl

/-- A port without a marker on one of its lanes stays as it is. -/
theorem deskew_missing {i : Nat} (hi : i ∈ (w.port c p).lanes) (missing : amOn ams (w.rxLane c p i) = none) : w.deskew c p ams = w := by
  have short : (((w.port c p).lanes.map (w.rxLane c p)).filterMap (amOn ams)).length < ((w.port c p).lanes.map (w.rxLane c p)).length :=
    List.length_filterMap_lt_length_iff_exists.mpr ⟨_, List.mem_map_of_mem hi, missing⟩
  unfold State.deskew
  extract_lets x phys got
  have short : got.length < phys.length := short
  clear_value got
  split
  · rfl
  · exact if_neg fun h => absurd h.1 (Nat.ne_of_lt short)

/-- A port aligns on a full column of good markers of one number that name each of its lanes once. -/
theorem deskew_full {q r : Nat} (full : ∀ i ∈ (w.port c p).lanes, amOn ams (w.rxLane c p i) = some (a i))
    (good : ∀ i ∈ (w.port c p).lanes, amValid (a i) = true ∧ bitAt (a i) 3 = false ∧ amSeqOf (a i) = q ∧ amPort (a i) = r ∧
      amLane (a i) ∈ (w.port c p).lanes) (distinct : ((w.port c p).lanes.map fun i => amLane (a i)).Nodup) (want : w.wantPort c p r = r) :
    w.deskew c p ams = (w.modCh c fun h => { h with
      rxMap := (w.port c p).lanes.foldl (fun m i => putLane m (8 * p + amLane (a i)) (w.rxLane c p i)) h.rxMap }).modPort c p fun x =>
        { x with state := .waitRemote, rxOk := true, badAm := [], badRx := 0, lastAm := BitVec.ofNat 16 q, expPort := r } := by
  have each : ∀ b ∈ (w.port c p).lanes.map a, amValid b = true ∧ bitAt b 3 = false ∧ amSeqOf b = q ∧ amPort b = r ∧
      amLane b ∈ (w.port c p).lanes := List.forall_mem_map.mpr good
  unfold State.deskew
  extract_lets x phys got ls s1
  have markers : got = (w.port c p).lanes.map a := by
    rw [← column_markers full]; exact List.filterMap_map ..
  have lanes : ls = (w.port c p).lanes.map fun i => amLane (a i) := by
    simp only [ls, markers, List.map_map]; rfl
  clear_value got
  subst markers
  split
  · next none => exact absurd (List.map_eq_nil_iff.mp none) (VPort.lanes_ne_nil _)
  · next b l first =>
    obtain ⟨-, -, seq, port, -⟩ := each b (first ▸ List.mem_cons_self ..)
    extract_lets want' ok
    have agree : ok = true := by
      refine List.all_eq_true.mpr fun d hd => ?_
      obtain ⟨valid, active, seq', port', lane⟩ := each d hd
      simp [valid, active, seq, seq', port', want', port, want, x, lane]
    have placed : phys.zip ls = (w.port c p).lanes.map fun i => (w.rxLane c p i, amLane (a i)) := by
      rw [lanes]; exact List.zip_map' ..
    rw [if_pos ⟨by simp [phys, x], agree, eraseDups_length_eq.mpr (lanes ▸ distinct)⟩]
    simp only [s1, placed, List.foldl_map, want', port, want, seq]

/-! ### The check of a column (R195) -/

/-- Per logical lane the count of markers in a row that are missing or wrong, after a column in which `arrived` came, with AMSEQ `want` due. -/
def missesAfter (x : VPort) (arrived : Nat → Option Nat) (want : BitVec 16) : KV Nat :=
  x.lanes.foldl (fun t i =>
    match arrived i with
    | some a => if amValid a && amLane a == i && amPort a == x.expPort && amSeqOf a == want.toNat then KV.put 0 i 0 t
                else KV.upd 0 i (· + 1) t
    | none => KV.upd 0 i (· + 1) t) x.badAm

/-- A port with the counts of a column and its AMSEQ taken in. -/
def counted (s : State) (c : Ch) (p : Nat) (ams : List (Nat × BitVec 56)) : State :=
  s.modPort c p fun x => { x with
    badAm := missesAfter x (fun i => amOn ams (s.rxLane c p i)) ((s.port c p).lastAm + 1), lastAm := (s.port c p).lastAm + 1 }

/-- Checking a column counts its markers, and is a loss where a lane has missed two (R195). -/
theorem checkAms_eq (s : State) (c : Ch) (p : Nat) (ams : List (Nat × BitVec 56)) : s.checkAms c p ams =
    if List.any ((s.counted c p ams).port c p).badAm (fun e => decide (2 ≤ e.2)) then (s.counted c p ams).portLoss c p 2
    else s.counted c p ams := rfl

/-- A lane that misses its marker counts one more. -/
theorem missesAfter_missing {x : VPort} {arrived : Nat → Option Nat} {want : BitVec 16} {i : Nat} (hi : i ∈ x.lanes)
    (missing : arrived i = none) :
    KV.get 0 i (missesAfter x arrived want) = KV.get 0 i x.badAm + 1 := by
  refine foldl_at (g := KV.get 0 i) (h := (· + 1)) (fun t => ?_) (fun t j _ hj => ?_) x.lanes_nodup hi _
  · rw [missing]; exact KV.get_upd_same ..
  · split
    · split
      · exact KV.get_put_other _ _ hj.symm ..
      · exact KV.get_upd_other _ _ hj.symm ..
    · exact KV.get_upd_other _ _ hj.symm ..

/-- A full column of the markers that are expected leaves no count. -/
theorem missesAfter_full {x : VPort} {arrived : Nat → Option Nat} {want : BitVec 16} (clear : x.badAm = [])
    (full : ∀ i ∈ x.lanes, ∃ a, arrived i = some a ∧ amValid a = true ∧ amLane a = i ∧ amPort a = x.expPort ∧ amSeqOf a = want.toNat) :
    missesAfter x arrived want = [] := by
  unfold missesAfter
  rw [clear]
  generalize x.lanes = lanes at full
  induction lanes with
  | nil => rfl
  | cons i lanes ih =>
    obtain ⟨a, here, valid, lane, port, seq⟩ := full i (List.mem_cons_self ..)
    have none : KV.put 0 i 0 [] = ([] : KV Nat) := rfl
    simp only [List.foldl_cons, here, valid, lane, port, seq, beq_self_eq_true, Bool.and_self, if_true, none]
    exact ih fun j hj => full j (List.mem_cons_of_mem _ hj)

/-- The second missing marker of a lane is a loss. -/
theorem checkAms_loses {i : Nat} (hi : i ∈ (s.port c p).lanes) (missing : amOn ams (s.rxLane c p i) = none)
    (once : KV.get 0 i (s.port c p).badAm = 1) : s.checkAms c p ams = (s.counted c p ams).portLoss c p 2 := by
  have twice : KV.get 0 i ((s.counted c p ams).port c p).badAm = 2 := by
    rw [counted, port_modPort_same]
    exact (missesAfter_missing hi missing).trans (by rw [once])
  rw [checkAms_eq, if_pos]
  exact List.any_eq_true.mpr ⟨_, KV.mem_of_get twice (by decide), rfl⟩

/-- A full column of the markers that are expected leaves a port without a miss as it was, one AMSEQ on. -/
theorem checkAms_full (clear : (s.port c p).badAm = []) (full : ∀ i ∈ (s.port c p).lanes, amOn ams (s.rxLane c p i) = some (a i) ∧
      amValid (a i) = true ∧ amLane (a i) = i ∧ amPort (a i) = (s.port c p).expPort ∧ amSeqOf (a i) = ((s.port c p).lastAm + 1).toNat) :
    s.checkAms c p ams = s.counted c p ams ∧
    (s.counted c p ams).port c p = { s.port c p with lastAm := (s.port c p).lastAm + 1 } := by
  have none : missesAfter (s.port c p) (fun i => amOn ams (s.rxLane c p i)) ((s.port c p).lastAm + 1) = [] :=
    missesAfter_full clear fun i hi => ⟨_, full i hi⟩
  have port : (s.counted c p ams).port c p = { s.port c p with lastAm := (s.port c p).lastAm + 1 } := by
    rw [counted, port_modPort_same, none, ← clear]
  refine ⟨?_, port⟩
  rw [checkAms_eq, port, clear]; rfl

/-! ### A port that comes up (R194, R210) -/

/-- A port comes up: it is in UP, what it knows of the far end stays, and no design is touched. -/
theorem portUp_spec (s : State) (c : Ch) (p : Nat) : ((s.portUp c p).port c p).state = .up ∧
    ((s.portUp c p).port c p).remoteRxOk = (s.port c p).remoteRxOk ∧ ((s.portUp c p).port c p).lastAm = (s.port c p).lastAm ∧
    (s.portUp c p).designs = s.designs := by
  unfold State.portUp
  extract_lets s1 x s2 s3
  have rises : (s.modPort c p fun x => { x with state := .up, badRx := 0 }).Outgoing s1 := .withRoutes (.refl _)
  have port := rises.port c p
  rw [port_modPort_same] at port
  have resync : (s2.port c p).state = (s1.port c p).state ∧ (s2.port c p).remoteRxOk = (s1.port c p).remoteRxOk ∧
      (s2.port c p).lastAm = (s1.port c p).lastAm ∧ s2.designs = s1.designs := by
    unfold s2
    split
    · have told : (s1.modPort c p fun x => { x with
          rxNext := (x.ackSeq + 1) % 4096, groupRx := [], early := 0, needResync := false }).Outgoing _ := (Outgoing.refl _).sendCtl c p 3
      have port := told.port c p
      rw [port_modPort_same] at port
      exact ⟨(congrArg VPort.state port :), (congrArg VPort.remoteRxOk port :), (congrArg VPort.lastAm port :),
        told.designs.trans (modPort_designs ..)⟩
    · exact ⟨rfl, rfl, rfl, rfl⟩
  obtain ⟨state, ok, am, designs⟩ := resync
  have rest : s2.Outgoing (if x.helloOk then s3 else s3.sendHello c p) := by
    have flushed : s2.Outgoing s3 := ((Outgoing.refl _).flushPort c p).chainOn c p
    exact .ite flushed (flushed.sendHello ..)
  have last := rest.port c p
  exact ⟨((congrArg VPort.state last :).trans state).trans (congrArg VPort.state port :),
    ((congrArg VPort.remoteRxOk last :).trans ok).trans (congrArg VPort.remoteRxOk port :),
    ((congrArg VPort.lastAm last :).trans am).trans (congrArg VPort.lastAm port :),
    (rest.designs.trans designs).trans (rises.designs.trans (modPort_designs ..))⟩

end State

/-! ### The clauses of AM_RECEIVE -/

section

variable {s : State} {c : Ch} {p : Nat} {ams : List (Nat × BitVec 56)} {a : Nat → Nat}

/-- The markers of this column tell of no new narrow width (R205). -/
def State.WideAms (s : State) (c : Ch) (p : Nat) (ams : List (Nat × BitVec 56)) : Prop :=
  ∀ i ∈ (s.port c p).lanes, ∀ b, amOn ams (s.rxLane c p i) = some b → bitAt b 5 = false ∨ (s.port c p).width4.isSome = true

theorem State.wantPort_of_topo {u : State} (h : u.topo = s.topo) (p r : Nat) : u.wantPort c p r = s.wantPort c p r := by
  unfold State.wantPort State.farEnd
  rw [h]

/-- A full column of valid markers of the port that is wanted is heeded by its first. -/
theorem State.goodAms_full {r : Nat} (valid : s.validAms c p ams = (s.port c p).lanes.map a) (port : ∀ i ∈ (s.port c p).lanes, amPort (a i) = r)
    (wanted : (if (s.port c p).state = .deskew then s.wantPort c p r else (s.port c p).expPort) = r) :
    s.goodAms c p ams = (s.port c p).lanes.map a ∧ ((s.sawAms c p ams).port c p).remotePort = r ∧
    ∃ i ∈ (s.port c p).lanes, ∃ l, s.goodAms c p ams = a i :: l := by
  obtain ⟨i, l, first⟩ := List.exists_cons_of_ne_nil (s.port c p).lanes_ne_nil
  have saw : ((s.sawAms c p ams).port c p).remotePort = r := by
    have eq : s.sawAms c p ams = s.modPort c p fun x => { x with remoteModule := field (a i) 16 6, remotePort := amPort (a i) } := by
      simp only [State.sawAms, valid, first, List.map_cons]
    rw [eq, State.port_modPort_same]
    exact port i (first ▸ List.mem_cons_self ..)
  have good : s.goodAms c p ams = (s.port c p).lanes.map a := by
    rw [State.goodAms, valid, saw, State.wantPort_of_topo (s.sawAms_heeds c p ams).topo, wanted, List.filter_eq_self]
    exact List.forall_mem_map.mpr fun j hj => beq_iff_eq.mpr (port j hj)
  exact ⟨good, saw, i, first ▸ List.mem_cons_self .., l.map a, by rw [good, first, List.map_cons]⟩

theorem exec_amReceive_aligns {q r : Nat} (live : s.portLive c p = true) (wide : s.WideAms c p ams) (state : (s.port c p).state = .deskew)
    (full : ∀ i ∈ (s.port c p).lanes, amOn ams (s.rxLane c p i) = some (a i) ∧ amValid (a i) = true ∧ bitAt (a i) 3 = false ∧
      amSeqOf (a i) = q ∧ amPort (a i) = r ∧ amLane (a i) ∈ (s.port c p).lanes)
    (distinct : ((s.port c p).lanes.map (fun i => amLane (a i))).Nodup) (far : ∀ e, s.farEnd c p = some e → r = field e.2 0 3) :
    ∃ u, exec (.amReceive c p ams) s = .next u ∧ u.host = s.host ∧ (u.port c p).state = .waitRemote ∧ (u.port c p).rxOk = true ∧
      (u.port c p).lastAm = BitVec.ofNat 16 q ∧ (u.port c p).expPort = r ∧ (u.port c p).remotePort = r ∧
      ∀ i ∈ (s.port c p).lanes, u.rxLane c p (amLane (a i)) = s.rxLane c p i := by
  have want : s.wantPort c p r = r := by
    unfold State.wantPort
    split
    · next e h => exact (far e h).symm
    · rfl
  have valid := State.validAms_full (fun i hi => (full i hi).1) fun i hi => ⟨(full i hi).2.1, (full i hi).2.2.1⟩
  obtain ⟨-, saw, i, hi, l, first⟩ := State.goodAms_full valid (fun i hi => (full i hi).2.2.2.2.1) (by rw [if_pos state, want])
  obtain ⟨heeds, tells⟩ := State.heededAms_heeds wide
  obtain ⟨-, remote⟩ := tells _ _ first
  have exec_eq := State.exec_amReceive_deskew live state (ams := ams)
  generalize s.heededAms c p ams = w at heeds remote exec_eq
  have lanes := heeds.portLanes
  rw [State.deskew_full (w := w) (a := a) (q := q) (r := r) (fun j hj => (heeds.rxLane p j).symm ▸ (full j (lanes ▸ hj)).1)
    (fun j hj => lanes ▸ (full j (lanes ▸ hj)).2) (lanes ▸ distinct) ((State.wantPort_of_topo heeds.topo p r).trans want), lanes] at exec_eq
  have port : ∀ f : Channel → KV Nat, (w.modCh c fun h => { h with rxMap := f h }).port c p = w.port c p := fun f => by
    rw [State.port, State.modCh_ch, State.port]
  refine ⟨_, exec_eq, ?_, ?_, ?_, ?_, ?_, ?_, fun j hj => ?_⟩
  · rw [State.modPort_host, State.modCh_host, heeds.host]
  · rw [State.port_modPort_same]
  · rw [State.port_modPort_same]
  · rw [State.port_modPort_same]
  · rw [State.port_modPort_same]
  · rw [State.port_modPort_same, port, remote, saw]
  · have places : ((s.port c p).lanes.map fun i => 8 * p + amLane (a i)).Nodup := by
      have moved := distinct.map (f := fun l => 8 * p + l) fun l k (h : 8 * p + l = 8 * p + k) => by omega
      rwa [List.map_map] at moved
    rw [State.rxLane_modPort, State.rxLane, State.modCh_ch, laneOf_foldl_putLane (fun i => 8 * p + amLane (a i)) (w.rxLane c p) places _ hj,
      heeds.rxLane]

theorem exec_amReceive_waits {i : Nat} (live : s.portLive c p = true) (wide : s.WideAms c p ams) (state : (s.port c p).state = .deskew)
    (hi : i ∈ (s.port c p).lanes) (missing : amOn ams (s.rxLane c p i) = none) :
    ∃ u, exec (.amReceive c p ams) s = .next u ∧ u.host = s.host ∧ (u.port c p).state = .deskew ∧ (u.port c p).rxOk = (s.port c p).rxOk ∧
      (u.ch c).rxMap = (s.ch c).rxMap ∧ (u.ch c).lanes = (s.ch c).lanes := by
  obtain ⟨heeds, -⟩ := State.heededAms_heeds wide
  refine ⟨_, (State.exec_amReceive_deskew live state).trans
    (congrArg _ (State.deskew_missing (heeds.portLanes ▸ hi) ((heeds.rxLane p i).symm ▸ missing))), heeds.host, heeds.state.trans state,
    (congrArg VPort.rxOk heeds.port :), heeds.rxMap, heeds.lanes⟩

theorem exec_amReceive_rises (live : s.portLive c p = true) (wide : s.WideAms c p ams) (state : (s.port c p).state = .waitRemote)
    (clear : (s.port c p).badAm = []) (full : ∀ i ∈ (s.port c p).lanes, amOn ams (s.rxLane c p i) = some (a i) ∧ amValid (a i) = true ∧
      bitAt (a i) 3 = false ∧ amLane (a i) = i ∧ amPort (a i) = (s.port c p).expPort ∧ amSeqOf (a i) = ((s.port c p).lastAm + 1).toNat ∧
      bitAt (a i) 4 = true) :
    ∃ u, exec (.amReceive c p ams) s = .next u ∧ (u.port c p).state = .up ∧ (u.port c p).remoteRxOk = true ∧
      (u.port c p).lastAm = (s.port c p).lastAm + 1 ∧ u.designs = s.designs := by
  have valid := State.validAms_full (fun i hi => (full i hi).1) fun i hi => ⟨(full i hi).2.1, (full i hi).2.2.1⟩
  obtain ⟨good, -, i, hi, l, first⟩ := State.goodAms_full valid (fun i hi => (full i hi).2.2.2.2.1) (by rw [if_neg (by rw [state]; decide)])
  obtain ⟨heeds, tells⟩ := State.heededAms_heeds wide
  obtain ⟨ok, -⟩ := tells _ _ first
  have checks := State.exec_amReceive_checks live (.inl state) (ams := ams) rfl
  generalize s.heededAms c p ams = w at heeds ok checks
  have am : (w.port c p).lastAm = (s.port c p).lastAm := (congrArg VPort.lastAm heeds.port :)
  have exp : (w.port c p).expPort = (s.port c p).expPort := (congrArg VPort.expPort heeds.port :)
  obtain ⟨counts, port⟩ := State.checkAms_full (s := w) (ams := ams) (a := a) ((congrArg VPort.badAm heeds.port :).trans clear) fun j hj => by
    obtain ⟨arrived, valid, -, lane, port, seq, -⟩ := full j (heeds.portLanes ▸ hj)
    exact ⟨(heeds.rxLane p j).symm ▸ arrived, valid, lane, port.trans exp.symm, by rw [seq, am]⟩
  obtain ⟨-, -, -, -, -, -, rxOk⟩ := full i hi
  rw [counts, port, if_neg (by simp [heeds.state]), if_neg (by simp [state]), if_pos ⟨state, by rw [ok, rxOk], by simp [first]⟩] at checks
  obtain ⟨up, far, last, designs⟩ := (w.counted c p ams).portUp_spec c p
  refine ⟨_, checks, up, by rw [far, port, ok, rxOk], by rw [last, port, am], designs.trans ?_⟩
  exact (State.modPort_designs ..).trans heeds.designs

theorem exec_amReceive_loses {i : Nat} (live : s.portLive c p = true) (wide : s.WideAms c p ams) (up : (s.port c p).state = .up)
    (hi : i ∈ (s.port c p).lanes) (missing : amOn ams (s.rxLane c p i) = none) (once : KV.get 0 i (s.port c p).badAm = 1) :
    ∃ u, exec (.amReceive c p ams) s = .next u ∧ u.designs = s.designs ∧ (u.port c p).rxOk = false ∧ (u.port c p).needResync = true ∧
      (u.port c p).state = (if (s.port c p).lanes.all (fun j => (s.lane c (s.rxLane c p j)).state == .locked) then .deskew else .acquire) ∧
      (s.pwr.hostOn = true → Wrote 0x4003 (1 + chNum c) 0xFF 0 false [chNum c, p, 2] u) := by
  obtain ⟨heeds, -⟩ := State.heededAms_heeds wide
  generalize hw : s.heededAms c p ams = w at heeds
  have loses : w.checkAms c p ams = (w.counted c p ams).portLoss c p 2 :=
    State.checkAms_loses (heeds.portLanes ▸ hi) ((heeds.rxLane p i).symm ▸ missing)
      ((congrArg (fun x : VPort => KV.get 0 i x.badAm) heeds.port :).trans once)
  have port := State.port_modPort_same w c p fun x => { x with
    badAm := State.missesAfter x (fun i => amOn ams (w.rxLane c p i)) ((w.port c p).lastAm + 1), lastAm := (w.port c p).lastAm + 1 }
  change (w.counted c p ams).port c p = _ at port
  obtain ⟨v, loss, out, told⟩ := (w.counted c p ams).portLoss_up (by rw [port, heeds.state, up]) 2
  obtain ⟨idle, ok, -, -, lanes, resync⟩ := out.lost
  have locked : v.allLocked c p = (s.port c p).lanes.all fun j => (s.lane c (s.rxLane c p j)).state == .locked := by
    rw [State.allLocked, lanes, port, ← heeds.portLanes]
    simp only [out.rxLane, out.laneState, State.counted, State.rxLane_modPort, State.lane_modPort, heeds.rxLane, heeds.lane]
    rfl
  have state := State.portLocks_state idle
  rw [locked] at state
  have checks := State.exec_amReceive_checks live (.inr up) (ams := ams) rfl
  rw [hw, loses, loss, if_pos (by rw [state, up]; split <;> decide)] at checks
  refine ⟨_, checks, ?_, ?_, ?_, state, fun on => ?_⟩
  · rw [State.portLocks_designs, out.designs, State.modPort_designs]
    exact (State.modPort_designs ..).trans heeds.designs
  · rw [State.port_portLocks_keeps (g := VPort.rxOk) _ _ _ fun _ => rfl, ok]
  · rw [State.port_portLocks_keeps (g := VPort.needResync) _ _ _ fun _ => rfl, resync, port, heeds.state, up]
    simp
  · have powered : (w.counted c p ams).pwr.hostOn = true := by rw [State.counted, State.modPort_pwr, heeds.pwr, on]
    exact ((told powered).of_same (v.portLocks_host ..) (State.reg_of_regs _ (v.portLocks_regs ..) ..)).1

end

end Sys2Proof.Machine
end

section
/-! Columns that go out (R190-R192, R202): what a column puts on which lane, AM_SEND and FILL_SEND; with them all rows of alignment markers. -/

namespace Sys2Proof.Machine

open Sys2Proof

namespace State

variable {s u v : State} {c : Ch} {p : Nat}

/-- A column carries the block of each logical lane on the physical lane of its place. -/
theorem mem_column (s : State) (c : Ch) (p : Nat) (f g : Nat → LinkBlock) {i : Nat} (hi : i ∈ (s.port c p).lanes) :
    (laneOf (s.ch c).txMap (8 * p + i), f i) ∈ s.column c p f g :=
  List.mem_append_left _ (List.mem_append_left _ (List.mem_append_left _ (List.mem_map.mpr ⟨i, hi, rfl⟩)))

/-- A lane that is sent a marker puts it out (R189). -/
theorem am_sendBlocks {bs : List (Nat × LinkBlock)} {t a : Nat} (h : (t, .am a) ∈ bs) :
    wire (s.txInv c t) 1 (0x78 + 256 * a) ∈ ((s.sendBlocks c bs).lane c t).sent := by
  rw [lane_sendBlocks]
  exact Lane.am_mem_sendAll _ _ (List.mem_map.mpr ⟨_, List.mem_filter.mpr ⟨h, beq_self_eq_true t⟩, rfl⟩)

/-- A lane that is sent a block puts out more than before. -/
theorem sent_sendBlocks {bs : List (Nat × LinkBlock)} {t : Nat} {b : LinkBlock} (h : (t, b) ∈ bs) :
    (s.lane c t).sent.length < ((s.sendBlocks c bs).lane c t).sent.length := by
  rw [lane_sendBlocks, (Lane.sent_sendAll ..).2]
  have some : b ∈ (bs.filter fun e => e.1 == t).map (·.2) := List.mem_map.mpr ⟨_, List.mem_filter.mpr ⟨h, beq_self_eq_true t⟩, rfl⟩
  have := List.length_pos_of_mem some
  omega

/-- A whole column puts something out on every lane that the port needs. -/
theorem sent_wholeColumn {i : Nat} (hi : i ∈ (s.port c p).lanes) (type content : Nat) :
    (s.lane c (laneOf (s.ch c).txMap (8 * p + i))).sent.length <
      ((s.wholeColumn c p type content).lane c (laneOf (s.ch c).txMap (8 * p + i))).sent.length :=
  sent_sendBlocks (s.mem_column c p (fun _ => .control type content) (fun _ => .test) hi)

@[simp] theorem port_wholeColumn (s : State) (c x : Ch) (p q type content : Nat) : (s.wholeColumn c p type content).port x q = s.port x q :=
  s.port_sendBlocks ..
@[simp] theorem wholeColumn_host (s : State) (c : Ch) (p type content : Nat) : (s.wholeColumn c p type content).host = s.host :=
  s.sendBlocks_host ..

/-! ### What the end of a swap keeps (R202) -/

/-- The AMSEQ of a port is the same in `u` as in `s`, and no switch that was not told stands in it. -/
structure KeepsAm (c : Ch) (p : Nat) (s u : State) : Prop where
  amSeq : (u.port c p).amSeq = (s.port c p).amSeq
  switched : (s.port c p).rxSwitched = false → (u.port c p).rxSwitched = false

theorem KeepsAm.refl (c : Ch) (p : Nat) (s : State) : s.KeepsAm c p s := ⟨rfl, fun off => off⟩

theorem KeepsAm.trans (h : s.KeepsAm c p u) (k : u.KeepsAm c p v) : s.KeepsAm c p v :=
  ⟨k.amSeq.trans h.amSeq, fun off => k.switched (h.switched off)⟩

theorem KeepsAm.of_port (h : s.KeepsAm c p u) (same : v.port c p = u.port c p) : s.KeepsAm c p v :=
  h.trans ⟨by rw [same], fun off => by rw [same, off]⟩

theorem KeepsAm.outgoing (h : s.KeepsAm c p u) (out : u.Outgoing v) : s.KeepsAm c p v :=
  h.trans ⟨(congrArg VPort.amSeq (out.port c p) :), fun off => (congrArg VPort.rxSwitched (out.port c p) :).trans off⟩

theorem KeepsAm.modPort (h : s.KeepsAm c p u) {f : VPort → VPort}
    (hf : ∀ x, (f x).amSeq = x.amSeq ∧ ((f x).rxSwitched = x.rxSwitched ∨ (f x).rxSwitched = false)) : s.KeepsAm c p (u.modPort c p f) :=
  h.trans ⟨by rw [port_modPort_same, (hf _).1], fun off => by rw [port_modPort_same]; exact (hf _).2.elim (fun same => same.trans off) fun h => h⟩

theorem KeepsAm.foldl {α : Type} {l : List α} {f : State → α → State} (h : s.KeepsAm c p u)
    (hf : ∀ v x, s.KeepsAm c p v → s.KeepsAm c p (f v x)) : s.KeepsAm c p (l.foldl f u) := by
  induction l generalizing u with
  | nil => exact h
  | cons x l ih => exact ih (hf _ x h)

theorem KeepsAm.hubEvent (h : s.KeepsAm c p u) (x : Ch) (code : Nat) (args : List Nat) : s.KeepsAm c p (u.hubEvent x code args) :=
  h.outgoing ((Outgoing.refl u).hubEvent ..)

theorem KeepsAm.laneFailed (h : s.KeepsAm c p u) (l cause : Nat) : s.KeepsAm c p (u.laneFailed c l cause) := by
  unfold State.laneFailed
  exact .hubEvent (h.of_port (port_modLane ..)) ..

theorem KeepsAm.portLocks (h : s.KeepsAm c p u) : s.KeepsAm c p (u.portLocks c p) := by
  rw [portLocks_eq]
  split
  · exact h.modPort fun _ => by exact ⟨rfl, .inl rfl⟩
  · exact h

theorem KeepsAm.loseSent (h : s.KeepsAm c p u) (m : Sent) : s.KeepsAm c p (u.loseSent c p m) := by
  have counts : s.KeepsAm c p (u.count .vlDrops c []) := h.of_port (port_of_ch _ _ (u.countBy_ch ..))
  unfold State.loseSent
  split
  · exact counts
  · exact counts
  · exact counts
  · split
    exacts [counts, h]
  · split
    · have held : ∀ x k f, (u.modMport x k f).port c p = u.port c p := fun x k f => by cases x <;> cases c <;> rfl
      exact .outgoing (.hubEvent (h.of_port (held ..)) ..) ((Outgoing.refl _).freeNext)
    · exact h
  · split
    · exact h
    · exact .hubEvent (.modPort h fun _ => by exact ⟨rfl, .inl rfl⟩) ..
  · exact h.outgoing ((Outgoing.refl u).modBase _)
  · exact h.outgoing ((Outgoing.refl u).modBase _)
  · exact h

theorem KeepsAm.loseTraffic (h : s.KeepsAm c p u) : s.KeepsAm c p (u.loseTraffic c p) := by
  unfold State.loseTraffic
  exact .foldl (.modPort h fun _ => by exact ⟨rfl, .inl rfl⟩) fun _ m k => k.loseSent m

theorem KeepsAm.fallBack (h : s.KeepsAm c p u) (hint : Nat) : s.KeepsAm c p (u.fallBack c p hint) := by
  unfold State.fallBack
  extract_lets x lost s1 bad half
  have fail : s.KeepsAm c p s1 := h.foldl fun _ l k => k.laneFailed l 2
  clear_value half
  cases half with
  | some half => exact .portLocks (.hubEvent (fail.modPort fun _ => by exact ⟨rfl, .inr rfl⟩) ..)
  | none =>
    refine .hubEvent (.loseTraffic (.outgoing ?_ (.withRoutes (.refl _)))) ..
    exact .modPort fail fun _ => by exact ⟨rfl, .inl rfl⟩

theorem KeepsAm.askSpare (h : s.KeepsAm c p u) (i k : Nat) : s.KeepsAm c p (u.askSpare c p i k) := by
  unfold State.askSpare
  exact .modPort (h.of_port (port_modLane ..)) fun _ => by exact ⟨rfl, .inr rfl⟩

theorem KeepsAm.repairLane (h : s.KeepsAm c p u) (i : Nat) : s.KeepsAm c p (u.repairLane c p i) := by
  unfold State.repairLane
  split
  · exact h.askSpare ..
  · exact (h.laneFailed ..).fallBack _

theorem KeepsAm.nextHealth (h : s.KeepsAm c p u) : s.KeepsAm c p (u.nextHealth c p) := by
  unfold State.nextHealth
  extract_lets x
  split
  · exact .askSpare (.modPort h fun _ => by exact ⟨rfl, .inl rfl⟩) ..
  · exact h.modPort fun _ => by exact ⟨rfl, .inl rfl⟩

/-- The end of a swap begins the next check or repair and keeps the AMSEQ. -/
theorem KeepsAm.swapDone (h : s.KeepsAm c p u) : s.KeepsAm c p (u.swapDone c p) := by
  unfold State.swapDone
  extract_lets s1 x
  have checked : s.KeepsAm c p s1 := by
    unfold s1
    split
    exacts [h, h.nextHealth]
  split
  · exact .repairLane (.modPort checked fun _ => by exact ⟨rfl, .inl rfl⟩) _
  · exact checked

/-- Without a health check and without repairs that wait, the end of a swap changes nothing. -/
theorem swapDone_idle (health : (s.port c p).health = []) (repairs : (s.port c p).repairs = []) : s.swapDone c p = s := by
  unfold State.swapDone
  simp only [health, List.isEmpty_nil, if_true, repairs]
  cases (s.port c p).rxReq <;> rfl

/-! ### Markers and FILL columns that go out (R191, R192) -/

/-- The blocks of the column of markers that a port sends. -/
def amColumn (s : State) (c : Ch) (p : Nat) : List (Nat × LinkBlock) :=
  s.column c p (fun i => .am (s.amWord p (s.port c p) (some i))) (fun _ => .am (s.amWord p (s.port c p) none))

/-- The markers of that column, by physical lane. -/
def amsSent (s : State) (c : Ch) (p : Nat) : List (Nat × BitVec 56) :=
  (s.amColumn c p).filterMap fun e => match e.2 with
    | .am a => some (e.1, BitVec.ofNat 56 a)
    | _ => none

/-- A port whose markers are out, before what the end of a swap begins. -/
def amOut (s : State) (c : Ch) (p : Nat) : State :=
  (s.modPort c p fun x => { x with
    amSeq := x.amSeq + 1, rxReq := if x.rxSwitched then none else x.rxReq, rxSwitched := false,
    sent := x.sent ++ [.am (s.amsSent c p)] }).sendBlocks c (s.amColumn c p)

theorem sendAm_eq (s : State) (c : Ch) (p : Nat) :
    s.sendAm c p = if (s.port c p).rxSwitched then (s.amOut c p).swapDone c p else s.amOut c p := rfl

theorem port_amOut (s : State) (c : Ch) (p : Nat) : (s.amOut c p).port c p = { s.port c p with
    amSeq := (s.port c p).amSeq + 1, rxReq := if (s.port c p).rxSwitched then none else (s.port c p).rxReq, rxSwitched := false,
    sent := (s.port c p).sent ++ [.am (s.amsSent c p)] } := by
  rw [amOut, port_sendBlocks, port_modPort_same]

/-- A marker of its own goes out on every lane that a port needs. -/
theorem amOut_lane {i : Nat} (hi : i ∈ (s.port c p).lanes) :
    (laneOf (s.ch c).txMap (8 * p + i), BitVec.ofNat 56 (s.amWord p (s.port c p) (some i))) ∈ s.amsSent c p ∧
    wire (s.txInv c (laneOf (s.ch c).txMap (8 * p + i))) 1 (0x78 + 256 * s.amWord p (s.port c p) (some i)) ∈
      ((s.amOut c p).lane c (laneOf (s.ch c).txMap (8 * p + i))).sent := by
  have here : (laneOf (s.ch c).txMap (8 * p + i), LinkBlock.am (s.amWord p (s.port c p) (some i))) ∈ s.amColumn c p := s.mem_column c p _ _ hi
  refine ⟨List.mem_filterMap.mpr ⟨_, here, rfl⟩, ?_⟩
  have out := am_sendBlocks (s := s.modPort c p fun x => { x with
    amSeq := x.amSeq + 1, rxReq := if x.rxSwitched then none else x.rxReq, rxSwitched := false,
    sent := x.sent ++ [.am (s.amsSent c p)] }) (c := c) here
  rwa [State.txInv, reg_of_regs _ (modPort_regs ..)] at out

/-- The AMSEQ is one on, and what a switch had to tell is told. -/
theorem sendAm_port (s : State) (c : Ch) (p : Nat) : ((s.sendAm c p).port c p).amSeq = (s.port c p).amSeq + 1 ∧
    ((s.sendAm c p).port c p).rxSwitched = false := by
  have out := s.port_amOut c p
  have keeps : (s.amOut c p).KeepsAm c p (s.sendAm c p) := by
    rw [sendAm_eq]
    split
    exacts [.swapDone (.refl ..), .refl ..]
  exact ⟨keeps.amSeq.trans (by rw [out]), keeps.switched (by rw [out])⟩

/-- With nothing for the end of a swap to begin, sending markers is their column alone. -/
theorem sendAm_idle (idle : (s.port c p).rxSwitched = false ∨ (s.port c p).health = [] ∧ (s.port c p).repairs = []) :
    s.sendAm c p = s.amOut c p := by
  rw [sendAm_eq]
  split
  · next switched =>
    obtain ⟨health, repairs⟩ := idle.resolve_left (by simp [switched])
    exact swapDone_idle (by rw [port_amOut]; exact health) (by rw [port_amOut]; exact repairs)
  · rfl

end State

section

variable {s : State} {c : Ch} {p : Nat}

theorem exec_amSend (on : s.transmits c p = true) : exec (.amSend c p) s = .next (s.sendAm c p) := congrArg Host.Outcome.next (if_pos on)

/-- A FILL column, behind a column of markers where one is due (R192). -/
theorem exec_fillSend (on : s.transmits c p = true) (due : Bool) : exec (.fillSend c ⟨p, due⟩) s = .next
    (((if due then s.sendAm c p else s).modPort c p fun x => { x with sent := x.sent ++ [.fill] }).wholeColumn c p 0x4B 0) :=
  congrArg Host.Outcome.next (if_pos on)

end

theorem markers : Clauses.Markers := by
  intro s c p ams x a hx live
  subst hx
  refine ⟨fun wide => ⟨fun state q r full distinct far => exec_amReceive_aligns live wide state full distinct far,
    fun state ⟨i, hi, missing⟩ => exec_amReceive_waits live wide state hi missing,
    fun state clear full => exec_amReceive_rises live wide state clear full,
    fun i up hi missing once => exec_amReceive_loses live wide up hi missing once⟩, fun idle => ?idle,
    fun on => ⟨?am, ?fill⟩, fun off => ?off⟩
  case idle =>
    refine congrArg Host.Outcome.next (if_pos (.inr ?_))
    rcases idle with h | h | h <;> rw [h] <;> decide
  case off =>
    have silent : ¬ s.transmits c p = true := by simp [off]
    exact ⟨congrArg Host.Outcome.next (if_neg silent), fun due => congrArg Host.Outcome.next (if_neg silent)⟩
  case am =>
    obtain ⟨seq, told⟩ := s.sendAm_port c p
    refine ⟨_, s.amsSent c p, exec_amSend on, seq, told, fun idle => ?_, _, exec_fillSend on true, ?_, ?_⟩
    · rw [State.sendAm_idle idle]
      refine ⟨(State.sendBlocks_host ..).trans (State.modPort_host ..), s.port_amOut c p, ?_⟩
      rintro i hi t rfl
      exact State.amOut_lane hi
    · rw [State.wholeColumn_host, State.modPort_host]; rfl
    · rw [State.port_wholeColumn, State.port_modPort_same]; rfl
  case fill =>
    refine ⟨_, exec_fillSend on false, ?_, ?_, fun i hi => ?_⟩
    · rw [State.wholeColumn_host, State.modPort_host]; rfl
    · rw [State.port_wholeColumn, State.port_modPort_same]; rfl
    · have needed : i ∈ ((s.modPort c p fun x => { x with sent := x.sent ++ [.fill] }).port c p).lanes := by
        rw [State.port_modPort_same]; exact hi
      have grows := State.sent_wholeColumn needed 0x4B 0
      rwa [State.lane_modPort, State.txMap_modPort] at grows

/-- Settles O46: the rows of a lane by the state it stands in, a column of markers by what the port makes of it, and what goes out lane by lane. -/
theorem lanesAndMarkers : Obligations.LanesAndMarkers := ⟨laneLocks, markers⟩

end Sys2Proof.Machine
end

section
/-! Spare lanes (R201-R204, R209): a write of VL_SPARE_ASSIGN, the switch to a spare and what follows it, rotation and its test. -/

namespace Sys2Proof.Machine

open Sys2Proof

/-! ### VL_SPARE_ASSIGN (R201) -/

/-- Whether spare `k` carries a logical lane in either direction. -/
def State.spareBusy (s : State) (c : Ch) (k : Nat) : Bool :=
  decide (placeOf (s.ch c).rxMap (64 + k) < 64) || decide (placeOf (s.ch c).txMap (64 + k) < 64)

/-- The fields of VL_SPARE_ASSIGN that a write may change: those of spares that are not `busy`. -/
def spareMask (busy : Nat → Bool) : Nat := ((List.range 4).map (fun k => if busy k then 0 else 15 * 2 ^ (4 * k))).sum

theorem spareMask_eq (busy : Nat → Bool) : spareMask busy =
    (if busy 0 then 0 else 15) + ((if busy 1 then 0 else 240) + ((if busy 2 then 0 else 3840) + (if busy 3 then 0 else 61440))) := rfl

/-- With no spare busy every field may change. -/
theorem spareMask_free {busy : Nat → Bool} (free : ∀ k, k < 4 → busy k = false) : spareMask busy = 0xFFFF := by
  rw [spareMask_eq, free 0 (by decide), free 1 (by decide), free 2 (by decide), free 3 (by decide)]; rfl

/-- The field of a busy spare is none of the bits that a write may change. -/
theorem spareMask_busy {busy : Nat → Bool} {k j : Nat} (hk : k < 4) (taken : busy k = true) (hj : j < 4) :
    (BitVec.ofNat 32 (spareMask busy)).getLsbD (4 * k + j) = false := by
  have all : ∀ (b0 b1 b2 b3 : Bool) (k j : Fin 4), [b0, b1, b2, b3][k] = true → (BitVec.ofNat 32
      ((if b0 then 0 else 15) + ((if b1 then 0 else 240) + ((if b2 then 0 else 3840) + (if b3 then 0 else 61440))))).getLsbD (4 * k + j) = false := by
    decide
  rw [spareMask_eq]
  refine all (busy 0) (busy 1) (busy 2) (busy 3) ⟨k, hk⟩ ⟨j, hj⟩ ?_
  match k, hk with
  | 0, _ | 1, _ | 2, _ | 3, _ => exact taken

/-- Words that agree on the bits of a field hold the same field. -/
theorem field_congr {v w : Word32} {lo n : Nat} (h : ∀ j, j < n → v.getLsbD (lo + j) = w.getLsbD (lo + j)) :
    field v.toNat lo n = field w.toNat lo n := by
  refine Nat.eq_of_testBit_eq fun j => ?_
  simp only [field, Nat.testBit_mod_two_pow, Nat.testBit_shiftRight]
  by_cases hj : j < n
  · have same : v.toNat.testBit (lo + j) = w.toNat.testBit (lo + j) := h j hj
    rw [same]
  · simp [hj]

namespace State

variable {s u v : State} {c : Ch} {p : Nat}

/-- Every event of a row stands after the last of them. -/
theorem hubEvents_stand {l : List Nat} {k code : Nat} (on : s.pwr.hostOn = true) (hk : k ∈ l) :
    (l.foldl (fun s k => s.hubEvent c code [chNum c, k]) s).Stands code (1 + chNum c) 0xFF 0 [chNum c, k] := by
  induction l generalizing s with
  | nil => exact absurd hk List.not_mem_nil
  | cons j l ih =>
    rw [List.foldl_cons]
    have told := (Outgoing.refl s).hubEvent c code [chNum c, j]
    rcases List.mem_cons.mp hk with rfl | hk
    · have later : (s.hubEvent c code [chNum c, k]).Outgoing _ := (Outgoing.refl _).foldl (l := l) fun _ j h => h.hubEvent c code [chNum c, j]
      exact later.stands _ _ _ _ _ (event_stands _ _ _ _ _ _ on)
    · exact ih (by rw [told.pwr, on]) hk

/-! ### Swaps of lanes (R202) -/

theorem laneOf_swapLanes (m : KV Nat) {a b : Nat} (h : a ≠ b) :
    laneOf (swapLanes m a b) a = laneOf m b ∧ laneOf (swapLanes m a b) b = laneOf m a := by
  unfold swapLanes
  exact ⟨by rw [laneOf_putLane_other _ _ h, laneOf_putLane_same], by rw [laneOf_putLane_same]⟩

@[simp] theorem takeLane_host (s : State) (c : Ch) (p i k : Nat) : (s.takeLane c p i k).host = s.host := by simp [State.takeLane]
@[simp] theorem takeLane_pwr (s : State) (c : Ch) (p i k : Nat) : (s.takeLane c p i k).pwr = s.pwr := by simp [State.takeLane]

theorem port_takeLane (s : State) (c : Ch) (p i k : Nat) : (s.takeLane c p i k).port c p = { s.port c p with rxSwitched := true } := by
  have port : ∀ f : KV Nat → KV Nat, (s.modCh c fun h => { h with rxMap := f h.rxMap }).port c p = s.port c p := fun f => by
    rw [State.port, State.modCh_ch, State.port]
  rw [State.takeLane, port_modPort_same, port fun m => swapLanes m (8 * p + i) (64 + k)]

theorem lane_takeLane (s : State) (c : Ch) (p i k l : Nat) : (s.takeLane c p i k).lane c l = s.lane c l := by
  rw [State.takeLane, lane_modPort, State.lane, State.modCh_ch, State.lane]

/-- A logical lane and its spare change places. -/
theorem takeLane_swaps (s : State) (c : Ch) {p i k : Nat} (hp : p < 8) (hi : i < 8) :
    (s.takeLane c p i k).rxLane c p i = laneOf (s.ch c).rxMap (64 + k) ∧
    laneOf ((s.takeLane c p i k).ch c).rxMap (64 + k) = s.rxLane c p i := by
  unfold State.takeLane State.rxLane
  rw [rxMap_modPort, State.modCh_ch]
  exact laneOf_swapLanes _ (by omega)

/-! ### Failed lanes (R203) -/

/-- A lane is marked failed, and the event of it stands. -/
theorem laneFailed_spec (s : State) (c : Ch) (l cause : Nat) :
    (s.laneFailed c l cause).ch c = (s.modLane c l fun x => { x with testing := false, failed := true }).ch c ∧
    (s.pwr.hostOn = true → (s.laneFailed c l cause).Stands 0x4001 (1 + chNum c) 0xFF 0 [chNum c, l, cause]) :=
  ⟨(event_quiet ..).ch c, fun on => event_stands _ _ _ _ _ _ (by rw [modLane_pwr, on])⟩

end State

section

variable {s : State} {c : Ch} {p i k : Nat} {r : Bool}

/-- The end of a comparison, with a request open (R202, R209). -/
theorem exec_spareSwitch (asked : (s.port c p).rxReq = some (i, k, r)) (waits : (s.port c p).rxSwitched = false) (agree : Bool) :
    exec (.spareSwitch c p agree) s = .next
      (if (s.port c p).health.head? = some i then
        if agree then (s.modPort c p fun x => { x with rxReq := none }).swapDone c p
        else ((s.takeLane c p i k).laneFailed c (s.rxLane c p i) 2).modPort c p fun x => { x with healthSw := true }
      else if agree = false then s
      else if r then ((s.takeLane c p i k).laneFailed c (s.rxLane c p i) 2).portLocks c p
      else ((s.takeLane c p i k).modLane c (s.rxLane c p i) fun l => { l with testing := true, mismatches := 0, rxPrbs := none }).modPort c p
        fun x => { x with rotating := some (s.rxLane c p i, k) }) := by
  show execSpareSwitch c p agree s = _
  unfold execSpareSwitch
  dsimp only
  rw [asked]
  dsimp only
  rw [waits, if_neg Bool.false_ne_true]

theorem exec_spareSwitch_closed (h : (s.port c p).rxReq = none ∨ (s.port c p).rxSwitched = true) (agree : Bool) :
    exec (.spareSwitch c p agree) s = .next s := by
  show execSpareSwitch c p agree s = _
  unfold execSpareSwitch
  dsimp only
  split
  · rfl
  · next asked =>
    rw [if_pos (h.resolve_left (by simp [asked]))]

/-- A rotation switches when the copies agree, and the old lane is put to the test (R203). -/
theorem spareSwitch_rotates (hp : p < 8) (hi : i < 8) (asked : (s.port c p).rxReq = some (i, k, false))
    (waits : (s.port c p).rxSwitched = false) (other : (s.port c p).health.head? ≠ some i) :
    ∃ u, exec (.spareSwitch c p true) s = .next u ∧ u.rxLane c p i = laneOf (s.ch c).rxMap (64 + k) ∧
      laneOf (u.ch c).rxMap (64 + k) = s.rxLane c p i ∧ u.host = s.host ∧ (u.lane c (s.rxLane c p i)).testing = true ∧
      (u.lane c (s.rxLane c p i)).mismatches = 0 ∧
      u.port c p = { s.port c p with rotating := some (s.rxLane c p i, k), rxSwitched := true } := by
  obtain ⟨takes, gives⟩ := s.takeLane_swaps c (k := k) hp hi
  refine ⟨_, by rw [exec_spareSwitch asked waits, if_neg other, if_neg (by decide), if_neg Bool.false_ne_true], ?_, ?_, ?_, ?_, ?_, ?_⟩
  · rw [State.rxLane_modPort, State.rxLane_modLane, takes]
  · rw [State.rxMap_modPort, State.rxMap_modLane, gives]
  · rw [State.modPort_host, State.modLane_host, State.takeLane_host]
  · rw [State.lane_modPort, State.lane_modLane_same]
  · rw [State.lane_modPort, State.lane_modLane_same]
  · rw [State.port_modPort_same, State.port_modLane, State.port_takeLane]

/-- A failed lane goes to its spare, with one event (R202). -/
theorem spareSwitch_repairs (hp : p < 8) (hi : i < 8) (asked : (s.port c p).rxReq = some (i, k, true))
    (waits : (s.port c p).rxSwitched = false) (other : (s.port c p).health.head? ≠ some i) :
    ∃ u, exec (.spareSwitch c p true) s = .next u ∧ u.rxLane c p i = laneOf (s.ch c).rxMap (64 + k) ∧
      laneOf (u.ch c).rxMap (64 + k) = s.rxLane c p i ∧ (u.port c p).rxSwitched = true ∧ (u.lane c (s.rxLane c p i)).failed = true ∧
      (s.pwr.hostOn = true → Wrote 0x4001 (1 + chNum c) 0xFF 0 false [chNum c, s.rxLane c p i, 2] u) := by
  obtain ⟨takes, gives⟩ := s.takeLane_swaps c (k := k) hp hi
  obtain ⟨same, told⟩ := (s.takeLane c p i k).laneFailed_spec c (s.rxLane c p i) 2
  refine ⟨_, by rw [exec_spareSwitch asked waits, if_neg other, if_neg (by decide), if_pos rfl], ?_, ?_, ?_, ?_, fun on => ?_⟩
  · rw [State.rxLane, State.rxMap_portLocks, same, State.rxMap_modLane]; exact takes
  · rw [State.rxMap_portLocks, same, State.rxMap_modLane, gives]
  · rw [State.port_portLocks_keeps (g := VPort.rxSwitched) _ _ _ fun _ => rfl, State.port_of_ch _ _ same, State.port_modLane, State.port_takeLane]
  · rw [State.lane_portLocks, State.lane_of_ch _ _ same, State.lane_modLane_same]
  · exact ((told (by rw [State.takeLane_pwr, on])).of_same (State.portLocks_host ..) (State.reg_of_regs _ (State.portLocks_regs ..) ..)).1

/-- A health check switches a lane whose copies differ, with one event (R209). -/
theorem spareSwitch_condemns (hp : p < 8) (hi : i < 8) (asked : (s.port c p).rxReq = some (i, k, r))
    (waits : (s.port c p).rxSwitched = false) (check : (s.port c p).health.head? = some i) :
    ∃ u, exec (.spareSwitch c p false) s = .next u ∧ u.rxLane c p i = laneOf (s.ch c).rxMap (64 + k) ∧
      (u.lane c (s.rxLane c p i)).failed = true ∧ (u.port c p).healthSw = true ∧ (u.port c p).rxSwitched = true ∧
      (s.pwr.hostOn = true → Wrote 0x4001 (1 + chNum c) 0xFF 0 false [chNum c, s.rxLane c p i, 2] u) := by
  obtain ⟨takes, -⟩ := s.takeLane_swaps c (k := k) hp hi
  obtain ⟨same, told⟩ := (s.takeLane c p i k).laneFailed_spec c (s.rxLane c p i) 2
  refine ⟨_, by rw [exec_spareSwitch asked waits, if_pos check, if_neg Bool.false_ne_true], ?_, ?_, ?_, ?_, fun on => ?_⟩
  · rw [State.rxLane_modPort, State.rxLane, same, State.rxMap_modLane]; exact takes
  · rw [State.lane_modPort, State.lane_of_ch _ _ same, State.lane_modLane_same]
  · rw [State.port_modPort_same]
  · rw [State.port_modPort_same, State.port_of_ch _ _ same, State.port_modLane, State.port_takeLane]
  · exact ((told (by rw [State.takeLane_pwr, on])).of_same (State.modPort_host ..) (State.reg_of_regs _ (State.modPort_regs ..) ..)).1

end

section

variable {s : State} {c : Ch} {p : Nat}

theorem exec_spareAssignWrite (answers : s.portAnswers = true) (there : c ∈ s.channels) (on : (s.pw c).state.hubOn = true) (value : Word32) :
    exec (.spareAssignWrite c value) s = .next (((List.range 4).filter (s.spareBusy c)).foldl (fun s k => s.hubEvent c 0x4002 [chNum c, k])
      (s.setReg .vlSpareAssign c [] (s.reg .vlSpareAssign c [] &&& ~~~BitVec.ofNat 32 (spareMask (s.spareBusy c)) |||
        value &&& BitVec.ofNat 32 (spareMask (s.spareBusy c))))) := by
  refine congrArg Host.Outcome.next ((if_neg ?_).trans (if_neg ?_))
  · simp [answers]
  · simp [there, on]

theorem spareAssign_free (answers : s.portAnswers = true) (there : c ∈ s.channels) (on : (s.pw c).state.hubOn = true) (value : Word32)
    (free : ∀ k, k < 4 → 64 ≤ placeOf (s.ch c).rxMap (64 + k) ∧ 64 ≤ placeOf (s.ch c).txMap (64 + k)) :
    exec (.spareAssignWrite c value) s =
      .next (s.setReg .vlSpareAssign c [] (s.reg .vlSpareAssign c [] &&& 0xFFFF0000#32 ||| value &&& 0xFFFF#32)) := by
  have idle : ∀ k, k < 4 → s.spareBusy c k = false := fun k hk => by
    obtain ⟨rx, tx⟩ := free k hk
    simp [State.spareBusy, rx, tx]
  have none : (List.range 4).filter (s.spareBusy c) = [] :=
    List.filter_eq_nil_iff.mpr fun k hk => by simp [idle k (List.mem_range.mp hk)]
  rw [exec_spareAssignWrite answers there on, none, spareMask_free idle]
  rfl

theorem spareAssign_busy (answers : s.portAnswers = true) (there : c ∈ s.channels) (on : (s.pw c).state.hubOn = true) (value : Word32) {k : Nat}
    (hk : k < 4) (carries : placeOf (s.ch c).rxMap (64 + k) < 64) : ∃ u, exec (.spareAssignWrite c value) s = .next u ∧
      field (u.reg .vlSpareAssign c []).toNat (4 * k) 4 = field (s.reg .vlSpareAssign c []).toNat (4 * k) 4 ∧
      (s.pwr.hostOn = true → Wrote 0x4002 (1 + chNum c) 0xFF 0 false [chNum c, k] u) := by
  have busy : s.spareBusy c k = true := by simp [State.spareBusy, carries]
  refine ⟨_, exec_spareAssignWrite answers there on value, ?_, fun on => ?_⟩
  · have told : (s.setReg .vlSpareAssign c [] (s.reg .vlSpareAssign c [] &&& ~~~BitVec.ofNat 32 (spareMask (s.spareBusy c)) |||
        value &&& BitVec.ofNat 32 (spareMask (s.spareBusy c)))).Outgoing _ :=
      (State.Outgoing.refl _).foldl (l := (List.range 4).filter (s.spareBusy c)) fun _ k h => h.hubEvent c 0x4002 [chNum c, k]
    rw [told.reg _ _ _ (by decide), State.reg_setReg_same]
    refine field_congr fun j hj => ?_
    have kept := spareMask_busy hk busy hj
    rw [BitVec.getLsbD_or, BitVec.getLsbD_and, BitVec.getLsbD_and, BitVec.getLsbD_not, kept]
    simp
    omega
  · exact (State.hubEvents_stand (by exact on) (List.mem_filter.mpr ⟨List.mem_range.mpr hk, busy⟩)).1

end

/-! ### Health checks (R209) -/

section

variable {s : State} {c : Ch} {p i k : Nat} {r : Bool} {t : List Nat}

/-- A health check that leaves its lane goes on as the end of a swap does. -/
theorem exec_spareSwitch_passes (asked : (s.port c p).rxReq = some (i, k, r)) (waits : (s.port c p).rxSwitched = false)
    (check : (s.port c p).health = i :: t) : exec (.spareSwitch c p true) s =
      .next ((s.modPort c p fun x => { x with rxReq := none }).swapDone c p) := by
  rw [exec_spareSwitch asked waits, if_pos (by rw [check]; rfl), if_pos rfl]

/-- After the last lane of a health check replay resumes. -/
theorem State.swapDone_last (free : (s.port c p).rxReq = none) (check : (s.port c p).health = [i]) (repairs : (s.port c p).repairs = []) :
    s.swapDone c p = s.modPort c p fun x => { x with checked := x.checked && !x.healthSw, health := [], healthSw := false } := by
  have next : s.nextHealth c p = s.modPort c p fun x => { x with checked := x.checked && !x.healthSw, health := [], healthSw := false } := by
    unfold State.nextHealth
    simp only [check, List.drop_one, List.tail_cons]
  unfold State.swapDone
  simp only [check, List.isEmpty_cons, Bool.false_eq_true, if_false, next, State.port_modPort_same, free, repairs]

/-- A health check goes on to its next lane, by way of the first spare. -/
theorem State.swapDone_next {j q : Nat} {js qs : List Nat} (check : (s.port c p).health = i :: j :: js) (spares : s.sparesOf c p = q :: qs) :
    s.swapDone c p = (s.modPort c p fun x => { x with health := j :: js }).askSpare c p j q := by
  have next : s.nextHealth c p = (s.modPort c p fun x => { x with health := j :: js }).askSpare c p j q := by
    unfold State.nextHealth
    simp only [check, List.drop_one, List.tail_cons, spares]
  unfold State.swapDone
  simp only [check, List.isEmpty_cons, Bool.false_eq_true, if_false, next, (State.askSpare_spec ..).1]

end

/-! ### Rotation and its test (R203) -/

section

variable {s : State} {c : Ch} {p : Nat}

/-- A rotation asks for the next lane when the port may rotate and a spare is free. -/
theorem exec_laneRotation (live : s.portLive c p = true) (up : (s.port c p).state = .up)
    (rotate : (s.reg .vlPortCtrl c [p]).getLsbD 3 = true) (free : (s.port c p).rxReq = none) (rests : (s.port c p).rotating = none) :
    (∀ i k ks, s.sparesOf c p = k :: ks →
      ((List.range 8).map (fun n => ((s.port c p).nextRotate + n) % 8)).find? (fun j => (s.port c p).lanes.contains j) = some i →
      exec (.laneRotation c p) s = .next (s.modPort c p fun y =>
        { y with rxReq := some (i, k, false), rxSwitched := false, nextRotate := (i + 1) % 8 })) ∧
    (s.sparesOf c p = [] → exec (.laneRotation c p) s = .next s) := by
  have may : ¬ (s.portLive c p = false ∨ (s.port c p).state ≠ .up ∨ bitAt (s.reg .vlPortCtrl c [p]).toNat 3 = false ∨
      (s.port c p).rxReq.isSome = true ∨ (s.port c p).rotating.isSome = true) := by
    have bit : bitAt (s.reg .vlPortCtrl c [p]).toNat 3 = true := rotate
    simp [live, up, bit, free, rests]
  refine ⟨fun i k ks spares next => congrArg Host.Outcome.next ((if_neg may).trans ?_),
    fun none => congrArg Host.Outcome.next ((if_neg may).trans ?_)⟩
  · rw [spares, next]
  · rw [none]

/-- The test of a freed lane ends: without a mismatch and with its margins it stays a spare, otherwise it has failed. -/
theorem exec_rotationTestDone {lane k : Nat} (tested : (s.port c p).rotating = some (lane, k)) (n h mv : Nat) :
    exec (.rotationTestDone c p n h mv) s = .next
      (if (s.lane c lane).mismatches + n = 0 ∧ 16 ≤ h ∧ 30 ≤ mv then
        (s.modPort c p fun x => { x with rotating := none }).modLane c lane fun l => { l with testing := false, mismatches := 0 }
      else ((s.modPort c p fun x => { x with rotating := none }).modLane c lane fun l =>
        { l with testing := false, mismatches := 0 }).laneFailed c lane 1) := by
  show execRotationTestDone c p n h mv s = _
  unfold execRotationTestDone
  rw [tested]

end

theorem spareLanes : Clauses.SpareLanes := by
  intro s c p x value old hx hold
  subst hx hold
  refine ⟨fun answers there on => ⟨spareAssign_free answers there on value, fun k hk => spareAssign_busy answers there on value hk⟩,
    fun agree closed => exec_spareSwitch_closed closed agree, fun i k r hp hi hk asked waits other => ⟨?differ, ?switch⟩,
    fun i k r t asked waits check repairs => ⟨fun last => ?last, fun j js q qs more spares => ?more, fun hp hi hk =>
      spareSwitch_condemns hp hi asked waits (by rw [check]; rfl)⟩,
    fun live up rotate free rests => exec_laneRotation live up rotate free rests,
    fun lane k n h mv tested => ⟨fun clean wide high => ?passed, fun bad => ?failed⟩⟩
  case differ => rw [exec_spareSwitch asked waits, if_neg other, if_pos rfl]
  case switch =>
    cases r with
    | false =>
      obtain ⟨u, runs, takes, gives, host, testing, clean, port⟩ := spareSwitch_rotates hp hi asked waits other
      exact ⟨u, runs, takes, gives, by rw [port], fun _ => ⟨host, testing, clean, port⟩, fun h => absurd h (by decide)⟩
    | true =>
      obtain ⟨u, runs, takes, gives, switched, failed, told⟩ := spareSwitch_repairs hp hi asked waits other
      exact ⟨u, runs, takes, gives, switched, fun h => absurd h (by decide), fun _ => ⟨failed, told⟩⟩
  case last =>
    subst last
    have done := State.swapDone_last (s := s.modPort c p fun x => { x with rxReq := none }) (c := c) (p := p) (i := i)
      (by rw [State.port_modPort_same]) (by rw [State.port_modPort_same, check]) (by rw [State.port_modPort_same, repairs])
    exact ⟨_, (exec_spareSwitch_passes asked waits check).trans (by rw [done]), by simp, by simp, by simp, by simp⟩
  case more =>
    subst more
    have done := State.swapDone_next (s := s.modPort c p fun x => { x with rxReq := none }) (c := c) (p := p) (i := i)
      (by rw [State.port_modPort_same, check]) spares
    obtain ⟨asks, -, -, health, -, map, -⟩ := ((s.modPort c p fun x => { x with rxReq := none }).modPort c p fun x =>
      { x with health := j :: js }).askSpare_spec c p j q
    exact ⟨_, (exec_spareSwitch_passes asked waits check).trans (by rw [done]), map.trans (by simp), asks, health.trans (by simp)⟩
  case passed =>
    exact ⟨_, by rw [exec_rotationTestDone tested, if_pos ⟨clean, wide, high⟩], by simp, by simp, by simp⟩
  case failed =>
    exact ⟨_, _, (exec_rotationTestDone tested n h mv).trans (congrArg _ (if_neg (by omega))), State.event_told .., by simp, by simp, by simp⟩

/-- Settles O45: a write of a port's register by what it changes, a scan by whether one runs, and spare lanes row by row. -/
theorem portsAndSpares : Obligations.PortsAndSpares := ⟨portControl, eyeScan, spareLanes⟩

end Sys2Proof.Machine
end

section
/-! What sending and losing messages leaves alone (R206-R222): the readings of the state that link traffic does not touch, the parts of a port that
only its own commands change, and a message or an authentication message that a command takes up. -/

namespace Sys2Proof.Machine

open Sys2Proof

/-! ### Readings of the state beside the links -/

/-- A reading of the state that neither the channels nor the free values decide. -/
structure ChannelFree {α : Type} (g : State → α) : Prop where
  modCh : ∀ s c f, g (s.modCh c f) = g s
  freeNext : ∀ s : State, g s.freeNext = g s

theorem ChannelFree.host : ChannelFree State.host := ⟨State.modCh_host, State.freeNext_host⟩
theorem ChannelFree.regs : ChannelFree State.regs := ⟨State.modCh_regs, State.freeNext_regs⟩

section

variable {α : Type} {g : State → α} (h : ChannelFree g)

include h

theorem ChannelFree.putFlits (s : State) (c : Ch) (p : Nat) (l : List (BitVec 256)) : g (s.putFlits c p l) = g s := by
  unfold State.putFlits State.sendBlocks
  exact h.modCh ..

theorem ChannelFree.sendCtl (s : State) (c : Ch) (p code : Nat) : g (s.sendCtl c p code) = g s := (h.putFlits ..).trans (h.modCh ..)

theorem ChannelFree.closeGroup (s : State) (c : Ch) (p : Nat) : g (s.closeGroup c p) = g s := (h.putFlits ..).trans (h.modCh ..)

theorem ChannelFree.departed (s : State) (c : Ch) (m : Sent) : g (s.departed c m) = g s := by
  unfold State.departed State.modView State.modTime
  split
  exacts [h.modCh .., rfl]

theorem ChannelFree.flushPort (s : State) (c : Ch) (p : Nat) : g (s.flushPort c p) = g s := by
  unfold State.flushPort
  extract_lets x y s1
  have stamped : g s1 = g s := foldl_keeps g (fun s m => h.departed s c m) _ _
  split
  · rfl
  · exact (h.freeNext _).trans ((h.putFlits ..).trans ((h.modCh ..).trans stamped))

theorem ChannelFree.sendOn (s : State) (c : Ch) (p : Nat) (m : Sent) : g (s.sendOn c p m) = g s := (h.flushPort ..).trans (h.modCh ..)

end

/-- A reading of the state that neither the channels, the events, the registers nor the free values decide, nor what a chain has sent. -/
structure TrafficFree {α : Type} (g : State → α) : Prop extends ChannelFree g where
  quiet : ∀ s u, Quiet s u → g u = g s
  modRegs : ∀ s f, g (s.modRegs f) = g s
  modBase : ∀ s f, g (s.modBase f) = g s

theorem TrafficFree.designs : TrafficFree State.designs :=
  ⟨⟨State.modCh_designs, State.freeNext_designs⟩, fun _ _ q => q.designs, State.modRegs_designs, State.modBase_designs⟩
theorem TrafficFree.topo : TrafficFree State.topo :=
  ⟨⟨State.modCh_topo, State.freeNext_topo⟩, fun _ _ q => by rw [q.1], State.modRegs_topo, State.modBase_topo⟩
theorem TrafficFree.pwr : TrafficFree State.pwr :=
  ⟨⟨State.modCh_pwr, State.freeNext_pwr⟩, fun _ _ q => by rw [q.1], State.modRegs_pwr, State.modBase_pwr⟩

section

variable {α : Type} {g : State → α} (h : TrafficFree g)

include h

theorem TrafficFree.hubEvent (s : State) (c : Ch) (code : Nat) (args : List Nat) : g (s.hubEvent c code args) = g s :=
  h.quiet _ _ (s.event_quiet ..)

theorem TrafficFree.count (s : State) (r : Reg) (c : Ch) (i : List Nat) : g (s.count r c i) = g s := by
  unfold State.count State.countBy State.setReg
  exact h.modRegs ..

theorem TrafficFree.sendHello (s : State) (c : Ch) (p : Nat) : g (s.sendHello c p) = g s := by
  unfold State.sendHello
  split
  exacts [h.sendOn .., rfl]

/-- Beyond its own change, a change of the routes is traffic and events. -/
theorem TrafficFree.withRoutes (s : State) (f : State → State) : g (s.withRoutes f) = g (f s) := by
  unfold State.withRoutes
  refine foldl_keeps g (fun x c => ?_) _ _
  extract_lets n old new w
  have again : g w = g x := foldl_keeps g (fun y e => by
    dsimp only
    split
    · split
      exacts [rfl, h.sendOn ..]
    · rfl) _ _
  split
  exacts [again, (h.hubEvent ..).trans again]

theorem TrafficFree.loseSent (s : State) (c : Ch) (p : Nat) (m : Sent) : g (s.loseSent c p m) = g s := by
  unfold State.loseSent
  split
  · exact h.count ..
  · exact h.count ..
  · exact h.count ..
  · split
    exacts [h.count .., rfl]
  · split
    exacts [(h.freeNext _).trans ((h.hubEvent ..).trans (h.modCh ..)), rfl]
  · split
    exacts [rfl, (h.hubEvent ..).trans (h.modCh ..)]
  · exact h.modBase ..
  · exact h.modBase ..
  · rfl

theorem TrafficFree.loseTraffic (s : State) (c : Ch) (p : Nat) : g (s.loseTraffic c p) = g s :=
  (foldl_keeps g (fun s m => h.loseSent s c p m) _ _).trans (h.modCh ..)

end

/-! ### Ports -/

/-- A port without its sender and without the exchange of keys that traffic which is lost may end. -/
def VPort.bare (x : VPort) : VPort := { x.still with auth := none, nextKeys := none }

/-- What sending leaves of a port is read alike behind it. -/
theorem VPort.of_still {α : Type} (g : VPort → α) (hg : ∀ x, g x.still = g x) {x y : VPort} (h : x.still = y.still) : g x = g y := by
  rw [← hg, h, hg]

theorem VPort.of_bare {α : Type} (g : VPort → α) (hg : ∀ x, g x.bare = g x) {x y : VPort} (h : x.bare = y.bare) : g x = g y := by
  rw [← hg, h, hg]

theorem VPort.bare_of_still {x y : VPort} (h : x.still = y.still) : x.bare = y.bare :=
  congrArg (fun z : VPort => ({ z with auth := none, nextKeys := none } : VPort)) h

namespace State

variable {s u : State} {c x : Ch} {p q : Nat}

@[simp] theorem count_ch (s : State) (r : Reg) (x : Ch) (i : List Nat) (c : Ch) : (s.count r x i).ch c = s.ch c := s.countBy_ch ..
@[simp] theorem port_count (s : State) (r : Reg) (x : Ch) (i : List Nat) (c : Ch) (p : Nat) : (s.count r x i).port c p = s.port c p :=
  port_of_ch _ _ (s.countBy_ch ..)
@[simp] theorem lane_count (s : State) (r : Reg) (x : Ch) (i : List Nat) (c : Ch) (l : Nat) : (s.count r x i).lane c l = s.lane c l :=
  lane_of_ch _ _ (s.countBy_ch ..)
@[simp] theorem count_designs (s : State) (r : Reg) (x : Ch) (i : List Nat) : (s.count r x i).designs = s.designs := rfl
@[simp] theorem count_host (s : State) (r : Reg) (x : Ch) (i : List Nat) : (s.count r x i).host = s.host := rfl

theorem bare_loseSent (s : State) (c : Ch) (p : Nat) (m : Sent) : ((s.loseSent c p m).port c p).bare = (s.port c p).bare := by
  have event : ∀ (u : State) code args, (u.hubEvent c code args).port c p = u.port c p := fun u code args =>
    port_of_ch _ _ ((u.event_quiet ..).ch c)
  have base : ∀ f, (s.modBase f).port c p = s.port c p := fun f => by cases c <;> rfl
  unfold State.loseSent
  split
  · rw [port_count]
  · rw [port_count]
  · rw [port_count]
  · split
    exacts [by rw [port_count], rfl]
  · split
    · have held : ∀ (k : Ch) n f, (s.modMport k n f).port c p = s.port c p := fun k n f => by cases k <;> cases c <;> rfl
      have next : ∀ u : State, u.freeNext.port c p = u.port c p := fun u => by cases c <;> rfl
      rw [next, event, held]
    · rfl
  · split
    · rfl
    · rw [event, port_modPort_same]; rfl
  · rw [base]
  · rw [base]
  · rfl

/-- Losing its traffic touches a port's sender and its exchange of keys alone. -/
theorem bare_loseTraffic (s : State) (c : Ch) (p : Nat) : ((s.loseTraffic c p).port c p).bare = (s.port c p).bare := by
  unfold State.loseTraffic
  refine (foldl_keeps (fun u : State => (u.port c p).bare) (fun u m => u.bare_loseSent c p m) _ _).trans ?_
  rw [port_modPort_same]; rfl

/-! ### The far end of a link goes by the table alone -/

theorem farEnd_of_topo (h : u.topo = s.topo) (c : Ch) (p : Nat) : u.farEnd c p = s.farEnd c p := by
  rw [State.farEnd, h, State.farEnd]

theorem initiates_of_topo (h : u.topo = s.topo) (c : Ch) (p : Nat) : u.initiates c p = s.initiates c p := by
  rw [State.initiates, h, farEnd_of_topo h, State.initiates]

theorem portUse_of_topo (h : u.topo = s.topo) (c : Ch) (p use : Nat) : u.portUse c p use = s.portUse c p use := by
  rw [State.portUse, h, State.portUse]

/-! ### Messages that are taken up (R212, R213) -/

theorem port_takeOut (s : State) (c : Ch) (p : Nat) (h : Heard) : (s.takeOut c p h).port c p = (s.port c p).consume h := port_modPort_same ..
@[simp] theorem takeOut_host (s : State) (c : Ch) (p : Nat) (h : Heard) : (s.takeOut c p h).host = s.host := modPort_host ..
@[simp] theorem takeOut_designs (s : State) (c : Ch) (p : Nat) (h : Heard) : (s.takeOut c p h).designs = s.designs := modPort_designs ..
@[simp] theorem takeOut_topo (s : State) (c : Ch) (p : Nat) (h : Heard) : (s.takeOut c p h).topo = s.topo := modPort_topo ..
@[simp] theorem takeOut_pwr (s : State) (c : Ch) (p : Nat) (h : Heard) : (s.takeOut c p h).pwr = s.pwr := modPort_pwr ..

theorem carries_takeOut (s : State) (c : Ch) (p : Nat) (h : Heard) : (s.takeOut c p h).carries c p = s.carries c p := by
  rw [State.carries, port_takeOut]; rfl

/-- A command takes up the message that it names. -/
theorem withMsg_arrived {src : Option Nat} {m : Sent} {h : Heard} {t : State} (a : Arrived s c p src m h t) (f : State → Heard → State) :
    s.withMsg c p src m f = f t h := by
  rw [State.withMsg, a.first]
  simp only [a.form, if_true, a.taken]

/-- A command takes up the AUTH message that begins as it names (R285). -/
theorem withAuth_heard {lead : List Byte} {h : Heard} {n : Nat} (first : s.heard c p (4, 0x10) = some h) (size : lead.length = n)
    (begins : h.bytes.take n = lead) (f : State → State) : s.withAuth c p lead f = f (s.takeOut c p h) := by
  rw [State.withAuth, first]
  simp only [size, begins, if_true]

end State
end Sys2Proof.Machine
end

section
/-! HELLO and link authentication (R219, R285): what each message makes of the port, with what goes out in answer. -/

namespace Sys2Proof.Machine

open Sys2Proof

/-- A port whose exchange of keys is over (R285): keys in force and those that follow them stay. -/
def VPort.forgot (x : VPort) : VPort := { x with auth := none, nextKeys := if x.keys.isNone then none else x.nextKeys }

section

variable {s t u : State} {c : Ch} {p : Nat} {m : AuthMsg} {x : VPort}

/-! ### HELLO (R219) -/

/-- What HELLO makes of a port, up to what it sends: whether the far end is right, and with it the traffic of the port. -/
def VPort.greeted (x : VPort) (ok : Bool) : VPort := { x with helloOk := ok, traffic := ok && x.keys.isSome && !x.out }

/-- HELLO before an authentication begins (R219): the port is greeted, and where it carried traffic and may not any longer it loses it. -/
def State.greet (s : State) (c : Ch) (p : Nat) (sends ok loses : Bool) : State :=
  let s := if sends then s.sendHello c p else s
  let s := s.withRoutes fun s => s.modPort c p fun x => x.greeted ok
  if loses then s.loseTraffic c p else s

theorem State.greet_spec (s : State) (c : Ch) (p : Nat) (sends ok loses : Bool) :
    ((s.greet c p sends ok loses).port c p).bare = ((s.port c p).greeted ok).bare ∧
    (loses = false → ((s.greet c p sends ok loses).port c p).still = ((s.port c p).greeted ok).still) ∧
    (s.greet c p sends ok loses).designs = s.designs ∧ (s.greet c p sends ok loses).topo = s.topo := by
  unfold State.greet
  extract_lets s1 s2
  have hello : s.Outgoing s1 := .ite ((State.Outgoing.refl s).sendHello c p) (.refl s)
  have same : ∀ {α : Type} {g : State → α}, TrafficFree g → g s2 = g s := fun h =>
    (h.withRoutes ..).trans ((h.modCh ..).trans (by unfold s1; split; exacts [h.sendHello .., rfl]))
  have greeted : (s2.port c p).still = ((s.port c p).greeted ok).still := by
    have out : (s1.modPort c p fun x => x.greeted ok).Outgoing s2 := .withRoutes (.refl _)
    have port := out.port c p
    rw [State.port_modPort_same] at port
    exact port.trans (congrArg (fun y : VPort => y.greeted ok) (hello.port c p))
  refine ⟨?_, fun stays => ?_, ?_, ?_⟩
  · refine Eq.trans ?_ (VPort.bare_of_still greeted)
    split
    exacts [s2.bare_loseTraffic c p, rfl]
  · rw [if_neg (by rw [stays]; exact Bool.false_ne_true), greeted]
  · rw [apply_ite State.designs, TrafficFree.designs.loseTraffic, ite_self, same TrafficFree.designs]
  · rw [apply_ite State.topo, TrafficFree.topo.loseTraffic, ite_self, same TrafficFree.topo]

/-- Beginning an authentication changes the exchange of the port and what it sends (R285). -/
theorem State.startAuth_spec (s : State) (c : Ch) (p : Nat) :
    ((s.startAuth c p).port c p).still = ({ s.port c p with auth := some { initiator := true, accepted := false, own := s.free } } : VPort).still ∧
    (s.startAuth c p).designs = s.designs ∧ (s.startAuth c p).host = s.host := by
  let v := s.modPort c p fun x => { x with auth := some { initiator := true, accepted := false, own := s.free } }
  have out : v.Outgoing (s.startAuth c p) := .freeNext (.sendOn (.refl v) ..)
  refine ⟨(out.port c p).trans (by rw [State.port_modPort_same]), out.designs.trans (State.modPort_designs ..), ?_⟩
  exact (ChannelFree.host.freeNext _).trans ((ChannelFree.host.sendOn ..).trans (State.modPort_host ..))

/-- HELLO that arrives on a live port (R219): the port is greeted, and the initiator then begins the authentication. -/
theorem exec_hello {rp rm : Nat} {rc : Ch} {hash : BitVec 192} {h : Heard} {ok : Bool} (live : s.portLive c p = true) (up : (s.port c p).state = .up)
    (came : Arrived s c p (some rm) (.hello rp (chNum rc) hash) h t)
    (hok : ok = (s.farEnd c p == some (rm, rp + 8 * chNum rc) && (s.topo.map (fun t => t.hash.toNat % 2 ^ 192)) == some hash.toNat)) :
    ∃ v, v = t.greet c p (ok && !(s.port c p).helloOk) ok (s.carries c p && !ok) ∧ exec (.hello c p rp rc rm hash) s =
      .next (if ok && (s.port c p).keys.isNone && (s.port c p).auth.isNone && s.initiates c p then v.startAuth c p else v) := by
  have topo : t.topo = s.topo := by rw [came.taken, State.takeOut_topo]
  have ok' : (t.farEnd c p == some (rm, rp + 8 * chNum rc) && (t.topo.map (fun t => t.hash.toNat % 2 ^ 192)) == some hash.toNat) = ok := by
    rw [State.farEnd_of_topo topo, topo, hok]
  have carries : t.carries c p = s.carries c p := by rw [came.taken, State.carries_takeOut]
  have starts := (t.greet_spec c p (ok && !(s.port c p).helloOk) ok (s.carries c p && !ok)).2.2.2
  refine ⟨_, rfl, congrArg Host.Outcome.next ((if_neg (by simp [live, up])).trans ((State.withMsg_arrived came _).trans ?_))⟩
  rw [← State.initiates_of_topo (starts.trans topo)]
  simp only [ok', carries]
  rfl

theorem hello : Clauses.Hello := by
  intro s c p rp rc rm hash x ok hx hok
  refine ⟨fun h t live up came => ?_, fun closed => congrArg Host.Outcome.next ?_⟩
  · obtain ⟨v, hv, runs⟩ := exec_hello live (hx ▸ up) came hok
    obtain ⟨bare, still, designs, -⟩ := t.greet_spec c p (ok && !(s.port c p).helloOk) ok (s.carries c p && !ok)
    have port : t.port c p = x.consume h := by rw [came.taken, State.port_takeOut, hx]
    rw [← hv, port] at bare still
    have loaded : v.designs = s.designs := by rw [hv, designs, came.taken, State.takeOut_designs]
    have begins : (ok && (s.port c p).keys.isNone && (s.port c p).auth.isNone && s.initiates c p) = true ↔
        ok = true ∧ x.keys = none ∧ x.auth = none ∧ s.initiates c p = true := by
      simp [hx, and_assoc]
    have greeted : (v.port c p).helloOk = ok := (VPort.of_bare VPort.helloOk (fun _ => rfl) bare :)
    have traffic : (v.port c p).traffic = (ok && x.keys.isSome && !x.out) := (VPort.of_bare VPort.traffic (fun _ => rfl) bare :)
    have keys : (v.port c p).keys = x.keys := (VPort.of_bare VPort.keys (fun _ => rfl) bare :)
    by_cases start : ok = true ∧ x.keys = none ∧ x.auth = none ∧ s.initiates c p = true
    · obtain ⟨begun, same, -⟩ := v.startAuth_spec c p
      have auth : ((v.startAuth c p).port c p).auth = some { initiator := true, accepted := false, own := v.free } :=
        (VPort.of_still VPort.auth (fun _ => rfl) begun :)
      refine ⟨_, by rw [runs, if_pos (begins.mpr start)], same.trans loaded, ?_, ?_, ?_, fun _ => ⟨?_, fun _ _ _ => by rw [auth]; rfl⟩⟩
      · exact (VPort.of_still VPort.helloOk (fun _ => rfl) begun :).trans greeted
      · exact (VPort.of_still VPort.traffic (fun _ => rfl) begun :).trans traffic
      · exact (VPort.of_still VPort.keys (fun _ => rfl) begun :).trans keys
      · rw [if_pos start, auth]; rfl
    · refine ⟨_, by rw [runs, if_neg (begins.not.mpr start)], loaded, greeted, traffic, keys, fun stays => ?_⟩
      have auth : (v.port c p).auth = x.auth :=
        (VPort.of_still VPort.auth (fun _ => rfl) (still (by rcases stays with h | h <;> simp [h])) :)
      rw [auth, if_neg start]
      refine ⟨rfl, fun good none ini => ?_⟩
      cases under : x.auth with
      | some a => rfl
      | none => exact absurd ⟨good, none, under, ini⟩ start
  · by_cases shut : s.portLive c p = false ∨ (s.port c p).state ≠ .up
    · exact if_pos shut
    · refine (if_neg shut).trans ?_
      have silent : s.heard c p (4, 1) = none := by
        rcases closed with h | h | h
        exacts [absurd (.inl h) shut, absurd (.inr (hx ▸ h)) shut, h]
      have kind : kindOf (Sent.hello rp (chNum rc) hash).parts.1 (Sent.hello rp (chNum rc) hash).parts.2.1 = (4, 1) := by
        simp only [Sent.parts, kindOf, if_true, Prod.mk.injEq, true_and]
        omega
      rw [State.withMsg, kind, silent]

end
end Sys2Proof.Machine
end

section
/-! Link authentication (R285): an exchange that is refused, the keys that come into force, and the rows of OFFER, ACCEPT and AUTH_FINISH. -/

namespace Sys2Proof.Machine

open Sys2Proof

/-- A port whose keys have come into force (R285): epoch 0 begins, and with it the groups of both directions. -/
def VPort.keyed (x : VPort) (secret : BitVec 64) : VPort :=
  { x with keys := some (secret, 0), nextKeys := none, auth := none, traffic := x.helloOk && !x.out, groupsInEpoch := 0, groupTx := 0,
           groupOpen := [], groupRx := [], early := 0, groupRxNext := 0, rxEpoch := 0, part0 := [], part1 := [], updating := false, sealFails := 0 }

/-- A responder's port that has an offer before it (R285): its old keys are no longer in force. -/
def VPort.offered (x : VPort) : VPort := { x with keys := none, traffic := false, auth := none, nextKeys := none }

/-- A responder's port that has taken an offer (R285): the keys that the exchange gives come into force with the finish. -/
def VPort.accepting (x : VPort) (own : BitVec 64) (m : AuthMsg) : VPort :=
  { x with auth := some { initiator := false, accepted := true, own := own }, nextKeys := some (linkSecret own m, 0) }

namespace State

variable {s t u : State} {c : Ch} {p k : Nat} {m : AuthMsg} {h : Heard}

theorem Outgoing.sendTwin (h : s.Outgoing u) (c : Ch) (m : Sent) : s.Outgoing (u.sendTwin c m) := by
  unfold State.sendTwin
  split
  exacts [h.sendOn .., h]

/-- Keys that come into force change their port; a mirror port then carries the design descriptors (R321). -/
theorem keysInForce_outgoing (s : State) (c : Ch) (p : Nat) (secret : BitVec 64) :
    (s.modPort c p fun x => x.keyed secret).Outgoing (s.keysInForce c p secret) := by
  unfold State.keysInForce
  extract_lets v
  have forced : (s.modPort c p fun x => x.keyed secret).Outgoing v := .withRoutes (.refl _)
  exact .ite (forced.foldl fun _ _ h => .ite (h.sendTwin ..) h) forced

theorem keysInForce_spec (s : State) (c : Ch) (p : Nat) (secret : BitVec 64) :
    ((s.keysInForce c p secret).port c p).keys = some (secret, 0) ∧ ((s.keysInForce c p secret).port c p).auth = none ∧
    ((s.keysInForce c p secret).port c p).nextKeys = none ∧
    ((s.keysInForce c p secret).port c p).traffic = ((s.port c p).helloOk && !(s.port c p).out) ∧
    (s.keysInForce c p secret).designs = s.designs := by
  have out := s.keysInForce_outgoing c p secret
  have port := out.port c p
  rw [port_modPort_same] at port
  exact ⟨(VPort.of_still VPort.keys (fun _ => rfl) port :), (VPort.of_still VPort.auth (fun _ => rfl) port :),
    (VPort.of_still VPort.nextKeys (fun _ => rfl) port :), (VPort.of_still VPort.traffic (fun _ => rfl) port :),
    out.designs.trans (modPort_designs ..)⟩

/-- An exchange that is refused (R285): it is forgotten, the far end and the host learn of it, and no keys come into force. -/
theorem rejectAuth_spec (s : State) (c : Ch) (p r : Nat) :
    ((s.rejectAuth c p r).port c p).keys = (s.port c p).keys ∧ ((s.rejectAuth c p r).port c p).auth = none ∧
    (s.pwr.hostOn = true → Wrote 0x6007 (1 + chNum c) 0xFF 0 false [chNum c, p, r] (s.rejectAuth c p r)) := by
  have sent : (s.modPort c p VPort.forgot).Outgoing ((s.modPort c p VPort.forgot).sendOn c p (.auth 6 (leBytes 1 r))) := .sendOn (.refl _) ..
  have port := (sent.hubEvent c 0x6007 [chNum c, p, r]).port c p
  rw [port_modPort_same] at port
  exact ⟨(VPort.of_still VPort.keys (fun _ => rfl) port :), (VPort.of_still VPort.auth (fun _ => rfl) port :),
    fun on => (event_told ..).2 ((congrArg PwrSt.hostOn (sent.pwr.trans (modPort_pwr ..)) :).trans on)⟩

/-- An offer of the right far end at the responder (R285): what traffic the port had under its old keys is lost, and the answer goes out. -/
def takeOffer (s : State) (c : Ch) (p : Nat) (m : AuthMsg) (keyed loses : Bool) : State :=
  let s := (if keyed then s.closeGroup c p else s).withRoutes fun s => s.modPort c p VPort.offered
  let s := if loses then s.loseTraffic c p else s
  let own := s.free
  let s := s.modPort c p fun x => x.accepting own m
  (s.sendOn c p (.auth 2 (s.offerBytes own ++ Config.ecdsaSign s.attKey (linkTranscript m)))).freeNext

theorem takeOffer_spec (s : State) (c : Ch) (p : Nat) (m : AuthMsg) (keyed loses : Bool) : ∃ own,
    ((s.takeOffer c p m keyed loses).port c p).keys = none ∧ ((s.takeOffer c p m keyed loses).port c p).traffic = false ∧
    ((s.takeOffer c p m keyed loses).port c p).auth = some { initiator := false, accepted := true, own := own } ∧
    ((s.takeOffer c p m keyed loses).port c p).nextKeys = some (linkSecret own m, 0) ∧ (s.takeOffer c p m keyed loses).designs = s.designs := by
  unfold State.takeOffer
  extract_lets s1 s2 own s3
  have cut : ((s1.port c p).keys = none ∧ (s1.port c p).traffic = false) ∧ s1.designs = s.designs := by
    have out : ((if keyed then s.closeGroup c p else s).modPort c p VPort.offered).Outgoing s1 := .withRoutes (.refl _)
    have port := out.port c p
    rw [port_modPort_same] at port
    refine ⟨⟨(VPort.of_still VPort.keys (fun _ => rfl) port :), (VPort.of_still VPort.traffic (fun _ => rfl) port :)⟩, ?_⟩
    rw [out.designs, modPort_designs, apply_ite State.designs, TrafficFree.designs.closeGroup, ite_self]
  have lost : ((s2.port c p).keys = none ∧ (s2.port c p).traffic = false) ∧ s2.designs = s.designs := by
    unfold s2
    split
    · have port := s1.bare_loseTraffic c p
      exact ⟨⟨(VPort.of_bare VPort.keys (fun _ => rfl) port).trans cut.1.1, (VPort.of_bare VPort.traffic (fun _ => rfl) port).trans cut.1.2⟩,
        (TrafficFree.designs.loseTraffic ..).trans cut.2⟩
    · exact cut
  have answers : s3.Outgoing (s3.sendOn c p (.auth 2 (s3.offerBytes own ++ Config.ecdsaSign s3.attKey (linkTranscript m)))).freeNext :=
    .freeNext (.sendOn (.refl _) ..)
  have port := answers.port c p
  rw [show s3.port c p = (s2.port c p).accepting own m from port_modPort_same ..] at port
  exact ⟨own, (VPort.of_still VPort.keys (fun _ => rfl) port).trans lost.1.1, (VPort.of_still VPort.traffic (fun _ => rfl) port).trans lost.1.2,
    (VPort.of_still VPort.auth (fun _ => rfl) port :), (VPort.of_still VPort.nextKeys (fun _ => rfl) port :),
    answers.designs.trans ((modPort_designs ..).trans lost.2)⟩

end State

/-! ### The rows -/

section

variable {s t : State} {c : Ch} {p k : Nat} {m : AuthMsg} {h : Heard} {a : Auth}

/-- The AUTH message of subcode `k` is the first that waits on the port; `t` is the state once it is taken up. -/
structure AuthArrived (s : State) (c : Ch) (p k : Nat) (h : Heard) (t : State) : Prop where
  first : s.heard c p (4, 0x10) = some h
  begins : h.bytes.take 1 = leBytes 1 k
  taken : t = s.takeOut c p h

theorem AuthArrived.withAuth (came : AuthArrived s c p k h t) (f : State → State) : s.withAuth c p (leBytes 1 k) f = f t := by
  rw [State.withAuth_heard came.first (n := 1) rfl came.begins, came.taken]

theorem exec_offer (came : AuthArrived s c p 1 h t) (live : s.portLive c p = true) (up : (s.port c p).state = .up)
    (greeted : (s.port c p).helloOk = true) (responds : s.initiates c p = false) : exec (.offer c p m) s = .next
      (match t.farRefused c p m with
        | some r => t.rejectAuth c p r
        | none => t.takeOffer c p m (s.port c p).keys.isSome (t.carries c p)) := by
  refine congrArg Host.Outcome.next ((if_neg (by simp [live, up, greeted, responds])).trans ((came.withAuth _).trans ?_))
  cases t.farRefused c p m <;> rfl

theorem exec_accept (came : AuthArrived s c p 2 h t) (under : (s.port c p).auth = some a) (begun : a.initiator = true)
    (waits : a.accepted = false) : exec (.accept c p m) s = .next
      (match t.farRefused c p m with
        | some r => t.rejectAuth c p r
        | none => if Config.ecdsaVerify m.chain (linkTranscript m) m.sig = false then t.rejectAuth c p 3
          else (t.sendOn c p (.auth 3 (Config.ecdsaSign t.attKey (linkTranscript m)))).keysInForce c p (linkSecret a.own m)) := by
  show execAccept c p m s = _
  unfold execAccept
  simp only [under, begun, waits, Bool.true_eq_false, Bool.false_eq_true, or_self, if_false, came.withAuth] <;> rfl

theorem exec_authFinish {key : BitVec 64 × Nat} (came : AuthArrived s c p 3 h t) (under : (s.port c p).auth = some a)
    (responds : a.initiator = false) (next : (s.port c p).nextKeys = some key) : exec (.authFinish c p m) s = .next
      (if Config.ecdsaVerify m.chain (linkTranscript m) m.sig = false then t.rejectAuth c p 3 else t.keysInForce c p key.1) := by
  show execAuthFinish c p m s = _
  unfold execAuthFinish
  simp only [under, next, responds, Bool.false_eq_true, if_false, came.withAuth]

end

theorem linkAuth : Clauses.LinkAuth := by
  intro s t c p k m x h hx first begins taken
  have port : t.port c p = x.consume h := by rw [taken, State.port_takeOut, hx]
  have keys : (t.port c p).keys = x.keys := by rw [port]; rfl
  have designs : t.designs = s.designs := by rw [taken, State.takeOut_designs]
  have refused : ∀ r, ((t.rejectAuth c p r).port c p).keys = x.keys ∧ ((t.rejectAuth c p r).port c p).auth = none ∧
      (s.pwr.hostOn = true → Wrote 0x6007 (1 + chNum c) 0xFF 0 false [chNum c, p, r] (t.rejectAuth c p r)) := fun r => by
    obtain ⟨same, ended, told⟩ := t.rejectAuth_spec c p r
    exact ⟨same.trans keys, ended, fun on => told (by rw [taken, State.takeOut_pwr, on])⟩
  have came : AuthArrived s c p k h t := ⟨first, begins, taken⟩
  subst hx
  refine ⟨fun hk live up greeted responds => ?offer, fun ini => congrArg Host.Outcome.next (if_pos (by simp [ini])),
    fun own hk under => ?accept, fun none => ⟨?_, ?_⟩, fun secret e a hk under responds next => ?finish⟩
  case offer =>
    subst hk
    refine ⟨fun right => ?_, fun r wrong => ⟨_, by rw [exec_offer came live up greeted responds, wrong], refused r⟩⟩
    obtain ⟨own, gone, quiet, under, next, same⟩ := t.takeOffer_spec c p m (s.port c p).keys.isSome (t.carries c p)
    exact ⟨_, own, by rw [exec_offer came live up greeted responds, right], same.trans designs, gone, quiet, under, next⟩
  case accept =>
    subst hk
    have runs := exec_accept (m := m) came under rfl rfl
    refine ⟨fun right valid => ?_, fun r wrong => ⟨t.rejectAuth c p r, ?_, refused r⟩⟩
    · have sent : t.Outgoing (t.sendOn c p (.auth 3 (Config.ecdsaSign t.attKey (linkTranscript m)))) := .sendOn (.refl _) ..
      obtain ⟨force, ended, next, traffic, same⟩ :=
        (t.sendOn c p (.auth 3 (Config.ecdsaSign t.attKey (linkTranscript m)))).keysInForce_spec c p (linkSecret own m)
      rw [VPort.of_still VPort.helloOk (fun _ => rfl) (sent.port c p), VPort.of_still VPort.out (fun _ => rfl) (sent.port c p), port] at traffic
      exact ⟨_, by rw [runs, right]; simp only [valid, Bool.true_eq_false, if_false], force, ended, next, traffic,
        same.trans (sent.designs.trans designs)⟩
    · rcases wrong with wrong | ⟨right, rfl, bad⟩
      · rw [runs, wrong]
      · rw [runs, right]; simp only [bad, if_true]
  case finish =>
    subst hk
    have runs := exec_authFinish (m := m) came under responds next
    refine ⟨fun valid => ?_, fun bad => ⟨t.rejectAuth c p 3, by rw [runs, if_pos bad], refused 3⟩⟩
    obtain ⟨force, ended, -, traffic, same⟩ := t.keysInForce_spec c p secret
    rw [port] at traffic
    exact ⟨_, by rw [runs, if_neg (by simp [valid])], force, ended, traffic, same.trans designs⟩
  · show execAccept c p m s = _
    unfold execAccept
    simp only [none]
  · show execAuthFinish c p m s = _
    unfold execAuthFinish
    simp only [none]

/-! ### The end of an exchange (R285) -/

theorem linkAuthEnds : Clauses.LinkAuthEnds := by
  intro s c p x hx
  subst hx
  have closed : (s.port c p).auth = none → (s.port c p).auth.isNone = true := fun none => by rw [none]; rfl
  have runs : (s.port c p).auth.isSome = true → ¬ (s.port c p).auth.isNone = true := fun some => by
    rw [Option.isSome_iff_ne_none] at some
    rwa [Option.isNone_iff_eq_none]
  refine ⟨fun t h r first begins taken under => ?reject, 
    fun under => ⟨_, congrArg Host.Outcome.next (if_neg (runs under)), State.event_told ..⟩,
    fun none => ⟨fun r => congrArg Host.Outcome.next (if_pos (closed none)), congrArg Host.Outcome.next (if_pos (closed none))⟩,
    fun live up greeted unkeyed idle ini => ?retry, fun none => congrArg Host.Outcome.next (if_neg ?_)⟩
  case reject =>
    refine ⟨_, congrArg Host.Outcome.next ((if_neg (runs under)).trans (State.withAuth_heard first (n := 2) rfl begins _)), ?_⟩
    rw [← taken]
    exact State.event_told ..
  case retry =>
    obtain ⟨begun, -, host⟩ := s.startAuth_spec c p
    refine ⟨_, s.free, congrArg Host.Outcome.next (if_pos (by simp [live, up, greeted, unkeyed, idle, ini])), host,
      (VPort.of_still VPort.auth (fun _ => rfl) begun :), (VPort.of_still VPort.keys (fun _ => rfl) begun :).trans unkeyed⟩
  · rcases none with keyed | under | deaf
    · simp [Option.isNone_iff_eq_none, Option.isSome_iff_ne_none.mp keyed]
    · simp [Option.isNone_iff_eq_none, Option.isSome_iff_ne_none.mp under]
    · simp [deaf]

/-- Settles O51: HELLO by what it greets and begins, each message of the exchange by what it makes of the port, and the three ways that it ends. -/
theorem linkTrust : Obligations.LinkTrust := ⟨hello, linkAuth, linkAuthEnds⟩

end Sys2Proof.Machine
end

section
/-! Key epochs (R286): the update of a link's keys at either end, and the switch to the keys of the next epoch. -/

namespace Sys2Proof.Machine

open Sys2Proof

/-- A port whose end has asked for the next epoch (R286): the keys in force stay until the far end has acknowledged it. -/
def VPort.renewing (x : VPort) (k : BitVec 64) (e : Nat) : VPort := { x with updating := true, nextKeys := some (nextSecret k, e + 1) }

namespace State

variable {s u : State} {c : Ch} {p : Nat}

theorem sendOn_still (s : State) (c : Ch) (p : Nat) (m : Sent) : ((s.sendOn c p m).port c p).still = (s.port c p).still :=
  ((Outgoing.refl s).sendOn c p m).port c p

@[simp] theorem sendOn_host (s : State) (c : Ch) (p : Nat) (m : Sent) : (s.sendOn c p m).host = s.host := ChannelFree.host.sendOn ..

/-- Asking for the next epoch goes out as one UPDATE, and the keys of that epoch wait (R286). -/
theorem renew_spec (s : State) (c : Ch) (p : Nat) (k : BitVec 64) (e : Nat) (m : Sent) :
    (((s.modPort c p fun x => x.renewing k e).sendOn c p m).port c p).still = ((s.port c p).renewing k e).still ∧
    ((s.modPort c p fun x => x.renewing k e).sendOn c p m).host = s.host :=
  ⟨(sendOn_still ..).trans (by rw [port_modPort_same]), (sendOn_host ..).trans (modPort_host ..)⟩

/-- Closing the open group changes the sender of its port alone, and leaves no group open (R211). -/
theorem closeGroup_spec (s : State) (c : Ch) (p : Nat) :
    (s.closeGroup c p).port c p = (s.port c p).takeTx ((s.port c p).closeGroup (s.txKey c p)) ∧ (s.closeGroup c p).host = s.host ∧
    ((s.closeGroup c p).port c p).groupOpen = [] := by
  have port : (s.closeGroup c p).port c p = (s.port c p).takeTx ((s.port c p).closeGroup (s.txKey c p)) := by
    unfold State.closeGroup State.putFlits
    rw [port_sendBlocks, port_modPort_same]
  refine ⟨port, ChannelFree.host.closeGroup .., ?_⟩
  rw [port]
  show ((s.port c p).closeGroup _).groupOpen = []
  unfold VPort.closeGroup
  split
  · next empty => exact List.isEmpty_iff.mp empty
  · rfl

end State

section

variable {s : State} {c : Ch} {p n e : Nat} {h : Heard} {k : BitVec 64}

theorem exec_update (keyed : (s.port c p).keys = some (k, e)) (first : s.heard c p (4, 0x10) = some h)
    (begins : h.bytes.take 5 = leBytes 1 4 ++ leBytes 4 n) : exec (.update c p n) s = .next
      (if n = e + 1 then
        if (s.port c p).updating then (s.takeOut c p h).sendOn c p (.auth 5 (leBytes 4 n))
        else (((s.takeOut c p h).sendOn c p (.auth 5 (leBytes 4 n))).modPort c p fun x => x.renewing k e).sendOn c p (.auth 4 (leBytes 4 (e + 1)))
      else if n = e ∧ 0 < e then (s.takeOut c p h).sendOn c p (.auth 5 (leBytes 4 n)) else s.takeOut c p h) := by
  show execUpdate c p n s = _
  unfold execUpdate
  simp only [keyed, State.withAuth_heard first (n := 5) rfl begins]
  rfl

theorem exec_updateAck {next : BitVec 64 × Nat} (waits : (s.port c p).nextKeys = some next) (asked : (s.port c p).updating = true)
    (epoch : next.2 = n) (first : s.heard c p (4, 0x10) = some h) (begins : h.bytes.take 5 = leBytes 1 5 ++ leBytes 4 n) :
    exec (.updateAck c p n) s = .next (((s.takeOut c p h).closeGroup c p).modPort c p fun x =>
      { x with keys := some next, nextKeys := if x.rxEpoch = n % 4 then none else x.keys, updating := false, groupTx := 0, groupsInEpoch := 0 }) := by
  show execUpdateAck c p n s = _
  unfold execUpdateAck
  simp only [waits, asked, epoch, State.withAuth_heard first (n := 5) rfl begins, Bool.true_eq_false, ne_eq, not_true_eq_false, or_self, if_false]

end

theorem keyEpochs : Clauses.KeyEpochs := by
  intro s c p x k e hx keyed
  subst hx
  refine ⟨fun rests ini => ?rollover, fun closed => ?_, fun t h n first taken => ⟨fun begins => ⟨fun next => ?update, fun now later => ?_⟩,
    fun k' begins next asked waits => ?ack⟩, fun n rests => ?_⟩
  case rollover =>
    obtain ⟨port, host⟩ := s.renew_spec c p k e (.auth 4 (leBytes 4 (e + 1)))
    refine ⟨_, ?_, host, (VPort.of_still VPort.updating (fun _ => rfl) port :), (VPort.of_still VPort.nextKeys (fun _ => rfl) port :),
      (VPort.of_still VPort.keys (fun _ => rfl) port :).trans keyed⟩
    show execEpochRollover c p s = _
    unfold execEpochRollover
    simp only [keyed, rests, ini, Bool.false_eq_true, Bool.true_eq_false, or_self, if_false]
    rfl
  case update =>
    subst taken next
    have runs := exec_update keyed first begins
    rw [if_pos rfl] at runs
    cases asked : (s.port c p).updating with
    | true =>
      have port := (s.takeOut c p h).sendOn_still c p (.auth 5 (leBytes 4 (e + 1)))
      rw [State.port_takeOut] at port
      refine ⟨_, by rw [runs, asked, if_pos rfl], (State.sendOn_host ..).trans (State.takeOut_host ..),
        (VPort.of_still VPort.updating (fun _ => rfl) port :).trans asked,
        (VPort.of_still VPort.keys (fun _ => rfl) port :).trans keyed, fun rests => absurd rests (by decide),
        fun _ => (VPort.of_still VPort.nextKeys (fun _ => rfl) port :)⟩
    | false =>
      have acked := (s.takeOut c p h).sendOn_still c p (.auth 5 (leBytes 4 (e + 1)))
      rw [State.port_takeOut] at acked
      obtain ⟨port, host⟩ := ((s.takeOut c p h).sendOn c p (.auth 5 (leBytes 4 (e + 1)))).renew_spec c p k e (.auth 4 (leBytes 4 (e + 1)))
      refine ⟨_, by rw [runs, asked, if_neg Bool.false_ne_true], host.trans ((State.sendOn_host ..).trans (State.takeOut_host ..)),
        (VPort.of_still VPort.updating (fun _ => rfl) port :), ?_, fun _ => (VPort.of_still VPort.nextKeys (fun _ => rfl) port :),
        fun asks => absurd asks (by decide)⟩
      exact (VPort.of_still VPort.keys (fun _ => rfl) port :).trans ((VPort.of_still VPort.keys (fun _ => rfl) acked :).trans keyed)
  case ack =>
    subst taken
    obtain ⟨port, host, closed⟩ := (s.takeOut c p h).closeGroup_spec c p
    rw [State.port_takeOut] at port
    have same : ((((s.takeOut c p h).closeGroup c p).port c p).keys = some (k, e)) ∧
        (((s.takeOut c p h).closeGroup c p).port c p).rxEpoch = (s.port c p).rxEpoch := by
      rw [port]; exact ⟨keyed, rfl⟩
    refine ⟨_, exec_updateAck waits asked rfl first begins, (State.modPort_host ..).trans (host.trans (State.takeOut_host ..)), ?_⟩
    rw [State.port_modPort_same]
    exact ⟨rfl, rfl, rfl, closed, by rw [same.1, same.2]⟩
  · show execEpochRollover c p s = _
    unfold execEpochRollover
    simp only [keyed]
    rw [if_pos closed]
  · rw [exec_update keyed first begins, if_neg later, if_neg (fun both => now both.1), taken]
  · show execUpdateAck c p n s = _
    unfold execUpdateAck
    cases next : (s.port c p).nextKeys with
    | none => simp only [next]
    | some key => simp only [next, rests, true_or, if_true]

end Sys2Proof.Machine
end

section
/-! Flits that arrive (R188, R206-R208): what reading the blocks of a flit leaves, and what becomes of a flit by its CRC and its number. -/

namespace Sys2Proof.Machine

open Sys2Proof

namespace State

variable {s u : State} {c x : Ch} {p q : Nat}

/-! ### Changes of a port in a row -/

theorem modPort_modPort (s : State) (c : Ch) (p : Nat) (f g : VPort → VPort) :
    (s.modPort c p g).modPort c p f = s.modPort c p fun x => f (g x) := by
  simp only [State.modPort, State.modCh_modCh, KV.upd_upd]

/-- A change of a port goes by what it makes of the port as it stands. -/
theorem modPort_congr {f g : VPort → VPort} (h : f (s.port c p) = g (s.port c p)) : s.modPort c p f = s.modPort c p g := by
  have read : ∀ f, s.modPort c p f = s.modCh c fun h => { h with ports := KV.put {} p (f (s.port c p)) (s.ch c).ports } := fun f => by
    cases c <;> rfl
  rw [read, read, h]

/-! ### The lanes of a channel (R188) -/

/-- The state with other records of the lanes of a channel. -/
def withLanes (s : State) (c : Ch) (l : KV Lane) : State := s.modCh c fun h => { h with lanes := l }

/-- The records of the lanes of a channel, up to what the descramblers hold. -/
def SameLanes (s : State) (c : Ch) (l : KV Lane) : Prop := ∀ n, ∃ y, KV.get {} n l = { s.lane c n with descrambler := y }

@[simp] theorem port_withLanes (s : State) (c x : Ch) (l : KV Lane) (p : Nat) : (s.withLanes c l).port x p = s.port x p := by
  cases c <;> cases x <;> rfl
@[simp] theorem hbm_withLanes (s : State) (c x : Ch) (l : KV Lane) : ((s.withLanes c l).ch x).hbm = (s.ch x).hbm := by
  cases c <;> cases x <;> rfl
@[simp] theorem rxMap_withLanes (s : State) (c x : Ch) (l : KV Lane) : ((s.withLanes c l).ch x).rxMap = (s.ch x).rxMap := by
  cases c <;> cases x <;> rfl
@[simp] theorem withLanes_host (s : State) (c : Ch) (l : KV Lane) : (s.withLanes c l).host = s.host := s.modCh_host ..
@[simp] theorem withLanes_regs (s : State) (c : Ch) (l : KV Lane) : (s.withLanes c l).regs = s.regs := s.modCh_regs ..
@[simp] theorem withLanes_designs (s : State) (c : Ch) (l : KV Lane) : (s.withLanes c l).designs = s.designs := s.modCh_designs ..
@[simp] theorem withLanes_topo (s : State) (c : Ch) (l : KV Lane) : (s.withLanes c l).topo = s.topo := s.modCh_topo ..
@[simp] theorem withLanes_pwr (s : State) (c : Ch) (l : KV Lane) : (s.withLanes c l).pwr = s.pwr := s.modCh_pwr ..
@[simp] theorem withLanes_base (s : State) (c : Ch) (l : KV Lane) : (s.withLanes c l).base = s.base := s.modCh_base ..

theorem Lane.read_fst (l : Lane) (inv : Bool) (b : BitVec 66) : ∃ y, (l.read inv b).1 = { l with descrambler := y } := by
  unfold Machine.Lane.read
  extract_lets w y z k
  refine ⟨k.descrambler, ?_⟩
  split
  · rfl
  · split <;> rfl

/-- Blocks that all read as blocks change the descramblers of their lanes alone. -/
theorem readBlocks_valid {bs : List (Nat × BitVec 66)} (valid : ∀ b ∈ (s.readBlocks c bs).2, b.isSome = true) :
    ∃ l, (s.readBlocks c bs).1 = s.withLanes c l ∧ s.SameLanes c l := by
  induction bs generalizing s with
  | nil => exact ⟨(s.ch c).lanes, by cases c <;> rfl, fun n => ⟨(s.lane c n).descrambler, rfl⟩⟩
  | cons b bs ih =>
    obtain ⟨n, b⟩ := b
    unfold State.readBlocks at valid ⊢
    dsimp only at valid ⊢
    have read : ((s.lane c n).read (s.rxInv c n) b).2.isNone = false := by
      have := valid _ (List.mem_cons_self ..)
      rw [Option.isSome_iff_exists] at this
      obtain ⟨y, hy⟩ := this
      rw [hy]; rfl
    rw [read] at valid ⊢
    obtain ⟨l, rest, same⟩ := ih fun b hb => valid b (List.mem_cons_of_mem _ hb)
    refine ⟨l, rest.trans ?_, fun k => ?_⟩
    · rw [if_neg Bool.false_ne_true, State.withLanes, State.modLane, State.modCh_modCh]
      rfl
    · obtain ⟨y, hy⟩ := same k
      rw [hy]
      simp only [Bool.false_eq_true, if_false, lane_modLane]
      split
      · next here =>
        subst here
        obtain ⟨z, hz⟩ := Lane.read_fst (s.lane c k) (s.rxInv c k) b
        exact ⟨y, by rw [hz]⟩
      · exact ⟨y, rfl⟩

/-- Blocks that carry a flit change the descramblers of their lanes alone. -/
theorem readBlocks_flit {bs : List (Nat × BitVec 66)} {flit : BitVec 256} (brings : flitOf (s.readBlocks c bs).2 = some flit) :
    ∃ l, (s.readBlocks c bs).1 = s.withLanes c l ∧ s.SameLanes c l := by
  refine readBlocks_valid fun b hb => ?_
  unfold flitOf at brings
  split at brings
  · next all =>
    rw [all] at hb
    simp only [List.mem_cons, List.not_mem_nil, or_false] at hb
    rcases hb with rfl | rfl | rfl | rfl <;> rfl
  · exact absurd brings (by simp)

/-- The spares that a port may take do not go by its descramblers. -/
theorem sparesOf_withLanes {l : KV Lane} (same : s.SameLanes c l) (p : Nat) : (s.withLanes c l).sparesOf c p = s.sparesOf c p := by
  have lane : ∀ {α : Type} (g : Lane → α), (∀ (x : Lane) y, g { x with descrambler := y } = g x) → ∀ n,
      g ((s.withLanes c l).lane c n) = g (s.lane c n) := fun g hg n => by
    obtain ⟨y, hy⟩ := same n
    have read : (s.withLanes c l).lane c n = KV.get {} n l := by rw [State.lane, State.withLanes, State.modCh_ch]
    rw [read, hy, hg]
  exact sparesOf_congr (reg_of_regs _ (withLanes_regs ..) ..) (reg_of_regs _ (withLanes_regs ..) ..) (rxMap_withLanes ..)
    (lane Lane.failed fun _ _ => rfl) (lane Lane.testing fun _ _ => rfl) (lane Lane.mismatches fun _ _ => rfl) (by rw [port_withLanes])

end State

/-! ### A flit by its CRC and its number (R206, R208) -/

/-- A port that has heard a flit with number `seq`: the highest number so far. -/
def VPort.hears (x : VPort) (seq : Nat) : VPort :=
  { x with rxHigh := some (match x.rxHigh with
      | some h => if seqUpTo seq h then h else seq
      | none => seq) }

/-- Whether a flit with number `seq` has been sent again behind a NAK. -/
def VPort.resent (x : VPort) (seq : Nat) : Bool :=
  match x.nakHigh with
  | some h => seqUpTo seq h
  | none => false

/-- A port that has accepted the flit that it expected. -/
def VPort.accepts (x : VPort) (seq : Nat) : VPort :=
  { x with rxNext := (x.rxNext + 1) % 4096, nak := false, nakHigh := if x.resent seq then x.nakHigh else none,
           fails := if x.failSeq = x.rxNext then 0 else x.fails, checked := x.checked && x.failSeq != x.rxNext }

/-- The state with the flit that a port expected accepted (R208). -/
def State.accepted (s : State) (c : Ch) (p : Nat) (seq : Nat) : State := s.modPort c p fun x => (x.hears seq).accepts seq

section

variable {s : State} {c : Ch} {p slot : Nat} {blocks : List (BitVec 66)} {flit : BitVec 256}

/-- The blocks of a flit slot that bring a flit (R206). -/
theorem exec_linkFlitReceive (ready : s.slotReady c p slot blocks = true) (carries : slot < 2)
    (brings : flitOf (s.readBlocks c ((s.slotLanes c p slot).zip blocks)).2 = some flit) :
    exec (.linkFlitReceive c p ⟨slot, blocks⟩) s = .next
      (if (s.port c p).takes = false then (s.readBlocks c ((s.slotLanes c p slot).zip blocks)).1 else if isCtl flit then s
       else (s.readBlocks c ((s.slotLanes c p slot).zip blocks)).1.hearFlit c p slot flit) := by
  refine congrArg Host.Outcome.next ((if_neg (by simp [ready])).trans ((if_neg (by omega)).trans ?_))
  rw [brings]

theorem State.hearFlit_bad (bad : linkCrcOk flit = false ∨ field flit.toNat 12 2 = 3 ∨ bitAt flit.toNat 15 = true) :
    s.hearFlit c p slot flit = s.linkFlitBad c p slot := if_pos bad

variable (good : linkCrcOk flit = true) (kind : field flit.toNat 12 2 < 2) (reserved : bitAt flit.toNat 15 = false)

include good kind reserved

omit good reserved in
theorem isCtl_of_kind : isCtl flit = false := by
  have : field flit.toNat 12 2 ≠ 2 := by omega
  simp [isCtl, this]

/-- A DATA or SEAL flit with a good CRC and without a reserved bit passes the check of R206. -/
theorem flit_sound : ¬ (linkCrcOk flit = false ∨ field flit.toNat 12 2 = 3 ∨ bitAt flit.toNat 15 = true) := by
  simp only [good, reserved, Bool.true_eq_false, Bool.false_eq_true, false_or, or_false]
  omega

/-- A good flit out of its sequence asks for replay. -/
theorem State.hearFlit_astray (astray : field flit.toNat 0 12 ≠ (s.port c p).rxNext) :
    s.hearFlit c p slot flit = (s.modPort c p fun x => x.hears (field flit.toNat 0 12)).linkNak c p := by
  refine (if_neg (flit_sound good kind reserved)).trans (if_pos ?_)
  rw [port_modPort_same]; exact astray

/-- The flit that a port expects is accepted, by its kind. -/
theorem State.hearFlit_next (next : field flit.toNat 0 12 = (s.port c p).rxNext) :
    ∃ v, v = (if field flit.toNat 12 2 = 1 then
          if (s.port c p).keys.isSome then (s.accepted c p (s.port c p).rxNext).takeSeal c p flit.toNat else s.accepted c p (s.port c p).rxNext
        else (s.accepted c p (s.port c p).rxNext).takeData c p
          { flit := flit, resent := (s.port c p).resent (s.port c p).rxNext, arrived := s.rawNow c }) ∧
      s.hearFlit c p slot flit = if (v.port c p).nak then v else v.countAck c p := by
  unfold State.hearFlit
  extract_lets w seq v x old a b
  have hx : x = (s.port c p).hears seq := port_modPort_same ..
  have hold : old = (s.port c p).resent seq := by unfold old; rw [hx]; rfl
  have ha : a = s.accepted c p seq := by
    unfold a v
    rw [hold, modPort_modPort]
    exact modPort_congr rfl
  have seq_eq : seq = (s.port c p).rxNext := next
  have keys : x.keys = (s.port c p).keys := by rw [hx]; rfl
  have raw : a.rawNow c = s.rawNow c := by rw [ha]; cases c <;> rfl
  refine ⟨b, ?_, ?_⟩
  · unfold b
    rw [raw, hold, ha, keys, seq_eq]
  · rw [if_neg (flit_sound good kind reserved), if_neg (by rw [hx]; exact fun astray => astray next)]

end

/-- Fewer than 32 flits accepted since the last acknowledgement are counted alone (R207). -/
theorem State.countAck_few {s : State} {c : Ch} {p : Nat} (few : (s.port c p).sinceAck < 31) :
    s.countAck c p = s.modPort c p fun x => { x with sinceAck := x.sinceAck + 1 } := by
  unfold State.countAck
  extract_lets v
  rw [if_neg]
  rw [port_modPort_same]
  exact fun h => absurd (show 32 ≤ (s.port c p).sinceAck + 1 from h) (by omega)

end Sys2Proof.Machine
end

section
/-! A port's receiver asks for replay (R208, R212): the records of unverified groups are dropped, one NAK goes out, and of the rest of the module
only the errors of designs and the count of replays change. -/

namespace Sys2Proof.Machine

open Sys2Proof

/-! ### Designs whose frames are judged -/

/-- `u` holds the designs of `s`, each with the errors that it had, and none with another last error. -/
def State.KeepsErrs (s u : State) : Prop :=
  ∃ f : Design → Design, u.designs = s.designs.map f ∧ ∀ d, (f d).tag = d.tag ∧ d.errs ⊆ (f d).errs ∧ (f d).lastErr = d.lastErr

namespace State

variable {s u v : State} {c : Ch} {p tag : Nat} {d : Design}

theorem KeepsErrs.of_designs (h : u.designs = s.designs) : s.KeepsErrs u :=
  ⟨fun d => d, by rw [h, List.map_id'], fun _ => ⟨rfl, List.Subset.refl _, rfl⟩⟩

theorem KeepsErrs.trans (h : s.KeepsErrs u) (k : u.KeepsErrs v) : s.KeepsErrs v := by
  obtain ⟨f, hf, keepsF⟩ := h
  obtain ⟨g, hg, keepsG⟩ := k
  refine ⟨g ∘ f, by rw [hg, hf, List.map_map], fun d => ?_⟩
  obtain ⟨tagF, errsF, lastF⟩ := keepsF d
  obtain ⟨tagG, errsG, lastG⟩ := keepsG (f d)
  exact ⟨tagG.trans tagF, fun _ h => errsG (errsF h), lastG.trans lastF⟩

theorem KeepsErrs.modDesign (h : s.KeepsErrs u) (tag : Nat) {f : Design → Design}
    (hf : ∀ d, (f d).tag = d.tag ∧ d.errs ⊆ (f d).errs ∧ (f d).lastErr = d.lastErr) : s.KeepsErrs (u.modDesign tag f) :=
  h.trans ⟨fun d => if d.tag = tag then f d else d, rfl, fun d => by
    dsimp only
    split
    exacts [hf d, ⟨rfl, List.Subset.refl _, rfl⟩]⟩

theorem KeepsErrs.foldl {α : Type} {l : List α} {f : State → α → State} (h : s.KeepsErrs u)
    (hf : ∀ v x, s.KeepsErrs v → s.KeepsErrs (f v x)) : s.KeepsErrs (l.foldl f u) := by
  induction l generalizing u with
  | nil => exact h
  | cons x l ih => exact ih (hf _ x h)

/-- The design under a tag is the same design, with its errors. -/
theorem KeepsErrs.design (h : s.KeepsErrs u) (found : s.design tag = some d) : ∃ e, u.design tag = some e ∧ d.errs ⊆ e.errs := by
  obtain ⟨f, hf, keeps⟩ := h
  refine ⟨f d, ?_, (keeps d).2.1⟩
  have same : ((fun d : Design => d.tag == tag) ∘ f) = fun d => d.tag == tag := funext fun d => by simp [(keeps d).1]
  rw [State.design, hf, List.find?_map, same]
  exact congrArg (Option.map f) found

theorem KeepsErrs.lastErr (h : s.KeepsErrs u) (none : ∀ d ∈ s.designs, d.lastErr = none) : ∀ d ∈ u.designs, d.lastErr = .none := by
  obtain ⟨f, hf, keeps⟩ := h
  intro d hd
  rw [hf] at hd
  obtain ⟨e, he, rfl⟩ := List.mem_map.mp hd
  rw [(keeps e).2.2, none e he]

/-! ### Records that are dropped (R212) -/

/-- Updating designs in a row leaves everything beside the designs. -/
theorem foldl_modDesign_rest {α : Type} (l : List α) (tag : α → Nat) (f : α → Design → Design) (s : State) :
    ∃ ds, l.foldl (fun s x => s.modDesign (tag x) (f x)) s = { s with designs := ds } := by
  induction l generalizing s with
  | nil => exact ⟨s.designs, rfl⟩
  | cons x l ih => exact ih _

/-- Dropping records changes the designs and the checks of the channel alone. -/
theorem dropRecords_eq (s : State) (c : Ch) (ms : List MacCheck) : ∃ ds, s.dropRecords c ms =
    ({ s with designs := ds } : State).modHbm c fun h => { h with macs := h.macs.filter fun m => !ms.contains m } := by
  obtain ⟨ds, rest⟩ := foldl_modDesign_rest ms (fun m => m.design) (fun m d =>
    { d with linkIn := d.linkIn.filter fun r => !(r.slot == m.addr && r.frame + 1 == BitVec.ofNat 48 m.frame) }) s
  refine ⟨ds, ?_⟩
  unfold State.dropRecords
  rw [rest]

variable (s c) (ms : List MacCheck)

@[simp] theorem dropRecords_host : (s.dropRecords c ms).host = s.host := by
  obtain ⟨_, eq⟩ := s.dropRecords_eq c ms
  rw [eq]; exact modCh_host ..
@[simp] theorem dropRecords_regs : (s.dropRecords c ms).regs = s.regs := by
  obtain ⟨_, eq⟩ := s.dropRecords_eq c ms
  rw [eq]; exact modCh_regs ..
@[simp] theorem dropRecords_pwr : (s.dropRecords c ms).pwr = s.pwr := by
  obtain ⟨_, eq⟩ := s.dropRecords_eq c ms
  rw [eq]; exact modCh_pwr ..
@[simp] theorem dropRecords_base : (s.dropRecords c ms).base = s.base := by
  obtain ⟨_, eq⟩ := s.dropRecords_eq c ms
  rw [eq]; exact modCh_base ..
@[simp] theorem port_dropRecords (x : Ch) (p : Nat) : (s.dropRecords c ms).port x p = s.port x p := by
  obtain ⟨_, eq⟩ := s.dropRecords_eq c ms
  rw [eq]; cases c <;> cases x <;> rfl
@[simp] theorem lane_dropRecords (x : Ch) (l : Nat) : (s.dropRecords c ms).lane x l = s.lane x l := by
  obtain ⟨_, eq⟩ := s.dropRecords_eq c ms
  rw [eq]; cases c <;> cases x <;> rfl
@[simp] theorem rxMap_dropRecords (x : Ch) : ((s.dropRecords c ms).ch x).rxMap = (s.ch x).rxMap := by
  obtain ⟨_, eq⟩ := s.dropRecords_eq c ms
  rw [eq]; cases c <;> cases x <;> rfl
@[simp] theorem macs_dropRecords : ((s.dropRecords c ms).ch c).hbm.macs = (s.ch c).hbm.macs.filter fun m => !ms.contains m := by
  obtain ⟨_, eq⟩ := s.dropRecords_eq c ms
  rw [eq]; cases c <;> rfl

theorem dropRecords_nil : (s.dropRecords c []).designs = s.designs := modCh_designs ..

theorem dropRecords_keepsErrs : s.KeepsErrs (s.dropRecords c ms) := by
  unfold State.dropRecords
  extract_lets v
  have dropped : s.KeepsErrs v := (KeepsErrs.of_designs rfl).foldl fun _ m h => h.modDesign _ fun _ => ⟨rfl, List.Subset.refl _, rfl⟩
  exact dropped.trans (.of_designs (modCh_designs ..))

end State

/-! ### LINKCTL flits that go out (R207) -/

/-- What a LINKCTL flit with a CODE says of a port. -/
def VPort.control (x : VPort) (code : Nat) : Sent :=
  if code = 1 then .ack x.ackSeq x.freed0 x.freed1 else if code = 2 then .nak x.ackSeq x.freed0 x.freed1 else .resync x.ackSeq x.freed0 x.freed1

theorem State.port_sendCtl (s : State) (c : Ch) (p code : Nat) : (s.sendCtl c p code).port c p =
    { s.port c p with sent := (s.port c p).sent ++ [(s.port c p).control code], sinceAck := 0, told0 := (s.port c p).freed0,
                      told1 := (s.port c p).freed1 } := by
  unfold State.sendCtl State.putFlits
  rw [State.port_sendBlocks, State.port_modPort_same]
  rfl

theorem State.hbm_sendCtl (s : State) (c : Ch) (p code : Nat) : ((s.sendCtl c p code).ch c).hbm = (s.ch c).hbm := by
  cases c <;> rfl

/-! ### A NAK (R208) -/

/-- A port that asks for replay from the last flit that it has kept. -/
def VPort.asks (x : VPort) : VPort :=
  { x with nak := true, rxNext := (x.ackSeq + 1) % 4096, groupRx := [], early := 0, nakHigh := x.rxHigh }

/-- A port that asks for replay has the same last flit kept. -/
theorem VPort.ackSeq_asks (x : VPort) : x.asks.ackSeq = x.ackSeq := by
  have low : x.ackSeq < 4096 := Nat.mod_lt _ (by decide)
  show ((x.ackSeq + 1) % 4096 + 4095 - if x.keys.isSome then 0 else 0) % 4096 = x.ackSeq
  rw [ite_self]
  omega

namespace State

variable {s : State} {c : Ch} {p : Nat}

theorem linkNak_eq (quiet : (s.port c p).nak = false) : s.linkNak c p =
    (((s.dropRecords c ((s.linkChecks p c).filter fun m => !s.usedBy m)).count .vlReplays c [p]).modPort c p VPort.asks).sendCtl c p 2 := by
  unfold State.linkNak
  exact if_neg (by rw [quiet]; exact Bool.false_ne_true)

/-- A port that asks for replay already does not ask again. -/
theorem linkNak_asked (asked : (s.port c p).nak = true) : s.linkNak c p = s := if_pos asked

/-- The port behind a NAK: what it asks from, and the one LINKCTL flit that says so. -/
theorem port_linkNak (quiet : (s.port c p).nak = false) : (s.linkNak c p).port c p =
    { (s.port c p).asks with
      sent := (s.port c p).sent ++ [.nak (s.port c p).ackSeq (s.port c p).freed0 (s.port c p).freed1], sinceAck := 0,
      told0 := (s.port c p).freed0, told1 := (s.port c p).freed1 } := by
  rw [linkNak_eq quiet, port_sendCtl, port_modPort_same, port_count, port_dropRecords, VPort.control, if_neg (by decide),
    if_pos rfl, VPort.ackSeq_asks]
  rfl

theorem linkNak_host (s : State) (c : Ch) (p : Nat) : (s.linkNak c p).host = s.host := by
  cases quiet : (s.port c p).nak with
  | true => rw [linkNak_asked quiet]
  | false =>
    rw [linkNak_eq quiet, ChannelFree.host.sendCtl, modPort_host]
    exact dropRecords_host ..

theorem linkNak_pwr (s : State) (c : Ch) (p : Nat) : (s.linkNak c p).pwr = s.pwr := by
  cases quiet : (s.port c p).nak with
  | true => rw [linkNak_asked quiet]
  | false =>
    rw [linkNak_eq quiet, TrafficFree.pwr.sendCtl, modPort_pwr]
    exact dropRecords_pwr ..

theorem regs_linkNak (quiet : (s.port c p).nak = false) : (s.linkNak c p).regs = (s.count .vlReplays c [p]).regs := by
  rw [linkNak_eq quiet, ChannelFree.regs.sendCtl, modPort_regs, State.count, State.countBy, State.setReg, modRegs_regs,
    reg_of_regs _ (dropRecords_regs ..), dropRecords_regs]
  rfl

/-- A NAK is counted in VL_REPLAYS. -/
theorem replays_linkNak (quiet : (s.port c p).nak = false) :
    (s.linkNak c p).reg .vlReplays c [p] = satAdd (s.reg .vlReplays c [p]) 1 := by
  rw [reg_of_regs _ (regs_linkNak quiet)]
  exact reg_setReg_same ..

theorem reg_linkNak_other {r : Reg} {x : Ch} {idx : List Nat} (quiet : (s.port c p).nak = false) (h : regOff r x idx ≠ regOff .vlReplays c [p]) :
    (s.linkNak c p).reg r x idx = s.reg r x idx := by
  rw [reg_of_regs _ (regs_linkNak quiet)]
  exact reg_setReg_other _ _ h

theorem macs_linkNak (quiet : (s.port c p).nak = false) : ((s.linkNak c p).ch c).hbm.macs ⊆ (s.ch c).hbm.macs := by
  rw [linkNak_eq quiet, hbm_sendCtl]
  have port : ∀ u : State, ((u.modPort c p VPort.asks).ch c).hbm = (u.ch c).hbm := fun u => by cases c <;> rfl
  rw [port, count_ch, macs_dropRecords]
  exact fun _ h => (List.mem_filter.mp h).1

theorem linkNak_keepsErrs (quiet : (s.port c p).nak = false) : s.KeepsErrs (s.linkNak c p) := by
  rw [linkNak_eq quiet]
  refine (dropRecords_keepsErrs s c ((s.linkChecks p c).filter fun m => !s.usedBy m)).trans (.of_designs ?_)
  rw [TrafficFree.designs.sendCtl, modPort_designs]
  rfl

/-- Without records of unverified groups a NAK touches no design. -/
theorem linkNak_designs (quiet : (s.port c p).nak = false) (none : s.linkChecks p c = []) : (s.linkNak c p).designs = s.designs := by
  rw [linkNak_eq quiet, TrafficFree.designs.sendCtl, modPort_designs, none]
  exact dropRecords_nil ..

/-- The count of replays stands apart from the registers of the spares and from the count of bad tags. -/
theorem replays_ne (c : Ch) (hp : p < 8) : regOff .vlPortCtrl c [p] ≠ regOff .vlReplays c [p] ∧
    regOff .vlSpareAssign c [] ≠ regOff .vlReplays c [p] ∧ regOff .vlSealFails c [p] ≠ regOff .vlReplays c [p] := by
  simp only [regOff, domBase, Reg.row, joinDims]
  omega

theorem sparesOf_linkNak (hp : p < 8) (quiet : (s.port c p).nak = false) : (s.linkNak c p).sparesOf c p = s.sparesOf c p := by
  obtain ⟨ctrl, given, -⟩ := replays_ne c hp
  have port := port_linkNak quiet
  have lane : ∀ l, ((s.linkNak c p).lane c l).still = (s.lane c l).still := fun l => by
    rw [linkNak_eq quiet]
    refine (((Outgoing.refl _).sendCtl c p 2).lane c l).trans ?_
    rw [lane_modPort, lane_count, lane_dropRecords]
  have rx : ((s.linkNak c p).ch c).rxMap = (s.ch c).rxMap := by
    rw [linkNak_eq quiet, (((Outgoing.refl _).sendCtl c p 2).ch c).rxMap, rxMap_modPort, count_ch, rxMap_dropRecords]
  exact sparesOf_congr (reg_linkNak_other quiet ctrl) (reg_linkNak_other quiet given) rx (fun l => (congrArg Lane.failed (lane l) :))
    (fun l => (congrArg Lane.testing (lane l) :)) (fun l => (congrArg Lane.mismatches (lane l) :)) (by rw [port]; rfl)

end State

end Sys2Proof.Machine
end

section
/-! The tag of a sealed group (R211, R212): what a tag that fails does to the frames, the records and the port. -/

namespace Sys2Proof.Machine

open Sys2Proof

/-! ### A port that is disabled -/

section

variable {α : Type} {g : State → α} (h : ChannelFree g)

include h

theorem ChannelFree.sendFault (s : State) (c : Ch) (p reason : Nat) : g (s.sendFault c p reason) = g s := by
  unfold State.sendFault State.wholeColumn State.sendBlocks
  exact (h.modCh ..).trans (h.modCh ..)

theorem ChannelFree.endTest (s : State) (c : Ch) (p : Nat) : g (s.endTest c p) = g s := by
  unfold State.endTest
  split
  exacts [(h.modCh ..).trans (h.modCh ..), rfl]

theorem ChannelFree.dropLanes (s : State) (c : Ch) (p : Nat) : g (s.dropLanes c p) = g s :=
  foldl_keeps g (fun s _ => h.modCh s ..) _ _

end

theorem TrafficFree.cutOff {α : Type} {g : State → α} (h : TrafficFree g) (s : State) (c : Ch) (p : Nat) (f : VPort → VPort) :
    g (s.cutOff c p f) = g s :=
  (h.dropLanes ..).trans ((h.withRoutes ..).trans (h.modCh ..))

namespace State

variable {s u : State} {c : Ch} {p tag : Nat} {d : Design} {m : MacCheck}

/-- A stop that selects no design stops none. -/
theorem stopWhere_none {sel : Design → Bool} (none : ∀ d ∈ s.designs, sel d = false) (st : Status) : s.stopWhere sel st = s := by
  refine foldl_keeps_mem (g := fun u => u) (fun u d hd => ?_) s
  exact if_neg (by rw [none d hd]; exact Bool.false_ne_true)

/-- EN of VL_PORT_CTRL as the read of its bits has it. -/
theorem ctrl_enabled {v : Word32} : bitAt v.toNat 0 = v.getLsbD 0 := rfl

/-- A port that is cut off starts over as said, up to what it sends. -/
theorem cutOff_still (s : State) (c : Ch) (p : Nat) (f : VPort → VPort) : ((s.cutOff c p f).port c p).still = (f (s.port c p)).still := by
  have out : (s.modPort c p f).Outgoing (s.withRoutes fun s => s.modPort c p f) := .withRoutes (.refl _)
  unfold cutOff
  rw [port_dropLanes, out.port c p, port_modPort_same]

/-- A port that runs and is attacked (R212): it is disabled and its keys are destroyed, and with no design whose last frame failed as well none
stops. -/
theorem portAttacked_spec (runs : s.portEnabled c p = true) (first : ∀ d ∈ s.designs, d.lastErr = none) (ds : List Nat) :
    ((s.portAttacked c p ds).port c p).state = .disabled ∧ ((s.portAttacked c p ds).port c p).keys = none ∧
    (s.pwr.hostOn = true → Wrote 0x4101 (1 + chNum c) 0xFF 0 false [chNum c, p, 2] (s.portAttacked c p ds)) := by
  obtain ⟨en, may⟩ : bitAt (s.reg .vlPortCtrl c [p]).toNat 0 = true ∧ s.portAllowed c p = true := by
    simpa only [State.portEnabled, Bool.and_eq_true] using runs
  rw [ctrl_enabled] at en
  have off : (s.reg .vlPortCtrl c [p] &&& 0xFFFFFFFE#32).getLsbD 0 = false := by simp
  have disables := portCtrl_disables may off en
  let w := (((s.setReg .vlPortCtrl c [p] (s.reg .vlPortCtrl c [p] &&& 0xFFFFFFFE#32 &&& 15#32)).sendFault c p 1).loseTraffic c p).endTest c p
  have kept : ∀ {α : Type} {g : State → α}, TrafficFree g → g (s.portCtrl c p (s.reg .vlPortCtrl c [p] &&& 0xFFFFFFFE#32)) = g s :=
      fun h => by
    rw [disables, h.cutOff, h.endTest, h.loseTraffic, h.sendFault]
    exact h.modRegs ..
  have still := w.cutOff_still c p fun x => { nextRotate := x.nextRotate, sent := x.sent }
  rw [← show s.portCtrl c p _ = _ from disables] at still
  unfold State.portAttacked
  extract_lets v
  have told : Told 0x4101 (1 + chNum c) 0xFF 0 false [chNum c, p, 2] (s.portCtrl c p (s.reg .vlPortCtrl c [p] &&& 0xFFFFFFFE#32)) v := event_told ..
  rw [stopWhere_none fun d hd => by
    rw [told.1.designs, kept TrafficFree.designs] at hd
    simp [first d hd]]
  have port : v.port c p = (s.portCtrl c p (s.reg .vlPortCtrl c [p] &&& 0xFFFFFFFE#32)).port c p := port_of_ch _ _ (told.1.ch c)
  rw [port]
  exact ⟨(VPort.of_still VPort.state (fun _ => rfl) still :), (VPort.of_still VPort.keys (fun _ => rfl) still :),
    fun on => told.2 (by rw [kept TrafficFree.pwr, on])⟩

/-! ### A bad tag (R212) -/

/-- The errors of a row of checks are recorded in the designs alone. -/
theorem foldl_frameErr_rest (l : List MacCheck) (s : State) :
    ∃ ds, l.foldl (fun s m => s.frameErr m.design (.mac, m.cab, m.addr)) s = { s with designs := ds } :=
  foldl_modDesign_rest l (fun m => m.design) (fun m d => { d with errs := d.errs ++ [(.mac, m.cab, m.addr)] }) s

theorem frameErr_keepsErrs (h : s.KeepsErrs u) (tag : Nat) (e : ErrSrc × Nat × Nat) : s.KeepsErrs (u.frameErr tag e) :=
  h.modDesign tag fun _ => ⟨rfl, List.subset_append_left .., rfl⟩

theorem foldl_frameErr_keepsErrs (l : List MacCheck) (s : State) :
    s.KeepsErrs (l.foldl (fun s m => s.frameErr m.design (.mac, m.cab, m.addr)) s) :=
  (KeepsErrs.of_designs rfl).foldl fun _ _ h => frameErr_keepsErrs h ..

/-- A check among those that failed is an error of its design. -/
theorem foldl_frameErr_mem {l : List MacCheck} (h : m ∈ l) (found : s.design m.design = some d) :
    ∃ e, (l.foldl (fun s m => s.frameErr m.design (.mac, m.cab, m.addr)) s).design m.design = some e ∧
      (ErrSrc.mac, m.cab, m.addr) ∈ e.errs := by
  obtain ⟨before, after, rfl⟩ := List.append_of_mem h
  rw [List.foldl_append, List.foldl_cons]
  obtain ⟨e, there, -⟩ := (foldl_frameErr_keepsErrs before s).design found
  obtain ⟨f, stands, errs⟩ := (foldl_frameErr_keepsErrs after _).design (design_modDesign_some there
    (f := fun d => { d with errs := d.errs ++ [(.mac, m.cab, m.addr)] }) fun _ h => h)
  exact ⟨f, stands, errs (by simp)⟩

/-- A bad tag before its consequence (R212): counted and reported, an error of every frame that has used a record, and every record of the port
dropped. -/
def sealMarked (s : State) (c : Ch) (p : Nat) : State :=
  ((((s.linkChecks p c).filter s.usedBy).foldl (fun s m => s.frameErr m.design (.mac, m.cab, m.addr))
    ((s.count .vlSealFails c [p]).alarm c 1 p 0xFF 0)).dropRecords c (s.linkChecks p c)).modPort c p fun x => { x with sealFails := x.sealFails + 1 }

theorem sealFailed_eq (s : State) (c : Ch) (p : Nat) : s.sealFailed c p =
    if 2 ≤ ((s.sealMarked c p).port c p).sealFails then
      (s.sealMarked c p).portAttacked c p (((s.linkChecks p c).filter s.usedBy).map (·.design))
    else (s.sealMarked c p).linkNak c p := rfl

theorem alarm_quiet (s : State) (c : Ch) (kind port part owner : Nat) : Quiet (s.count .secAlarms .a []) (s.alarm c kind port part owner) :=
  event_quiet ..

theorem alarm_ch (s : State) (c x : Ch) (kind port part owner : Nat) : (s.alarm c kind port part owner).ch x = s.ch x :=
  ((alarm_quiet ..).ch x).trans (count_ch ..)

theorem alarm_designs (s : State) (c : Ch) (kind port part owner : Nat) : (s.alarm c kind port part owner).designs = s.designs :=
  (alarm_quiet ..).designs

theorem port_sealMarked (s : State) (c : Ch) (p : Nat) :
    (s.sealMarked c p).port c p = { s.port c p with sealFails := (s.port c p).sealFails + 1 } := by
  unfold sealMarked
  obtain ⟨ds, rest⟩ := foldl_frameErr_rest ((s.linkChecks p c).filter s.usedBy) ((s.count .vlSealFails c [p]).alarm c 1 p 0xFF 0)
  have alarmed : ((s.count .vlSealFails c [p]).alarm c 1 p 0xFF 0).ch c = s.ch c := (alarm_ch ..).trans (count_ch ..)
  rw [port_modPort_same, port_dropRecords, rest]
  exact congrArg (fun x : VPort => ({ x with sealFails := x.sealFails + 1 } : VPort)) (port_of_ch c p alarmed)

/-- Of a bad tag only its counts change the registers of the hubs, and nothing but its report the host port. -/
theorem sealMarked_rest (s : State) (c : Ch) (p : Nat) :
    (s.sealMarked c p).host = ((s.count .vlSealFails c [p]).alarm c 1 p 0xFF 0).host ∧
    (s.sealMarked c p).regs = ((s.count .vlSealFails c [p]).alarm c 1 p 0xFF 0).regs ∧ (s.sealMarked c p).pwr = s.pwr ∧
    (s.sealMarked c p).base = s.base := by
  unfold sealMarked
  obtain ⟨ds, rest⟩ := foldl_frameErr_rest ((s.linkChecks p c).filter s.usedBy) ((s.count .vlSealFails c [p]).alarm c 1 p 0xFF 0)
  have q := alarm_quiet (s.count .vlSealFails c [p]) c 1 p 0xFF 0
  rw [modPort_host, modPort_regs, modPort_pwr, rest]
  refine ⟨dropRecords_host .., dropRecords_regs .., (dropRecords_pwr ..).trans ?_, (modCh_base ..).trans ((dropRecords_base ..).trans ?_)⟩
  · exact (congrArg State.pwr q.1 :)
  · exact (congrArg State.base q.1 :)

theorem reg_sealMarked {r : Reg} {idx : List Nat} (hub : r.row.dom ≠ .host) (x : Ch) :
    (s.sealMarked c p).reg r x idx = (s.count .vlSealFails c [p]).reg r x idx := by
  rw [reg_of_regs _ (sealMarked_rest s c p).2.1, (alarm_quiet ..).reg_hub hub]
  refine reg_setReg_other _ _ ?_
  have low : regOff .secAlarms .a [] < 0x400000 := by decide
  have high := regOff_hub hub x idx
  omega

theorem sealMarked_stands (on : s.pwr.hostOn = true) : (s.sealMarked c p).Stands 0x6001 (1 + chNum c) 0xFF 0 [chNum c, 1, p] :=
  (event_stands ((s.count .vlSealFails c [p]).count .secAlarms .a []) _ _ _ _ _ on).of_same (sealMarked_rest s c p).1
    (reg_of_regs _ (sealMarked_rest s c p).2.1 ..)

/-- No check of the port is left. -/
theorem macs_sealMarked (s : State) (c : Ch) (p : Nat) : ∀ n ∈ ((s.sealMarked c p).ch c).hbm.macs, n.link ≠ some p := by
  intro n hn link
  unfold sealMarked at hn
  obtain ⟨ds, rest⟩ := foldl_frameErr_rest ((s.linkChecks p c).filter s.usedBy) ((s.count .vlSealFails c [p]).alarm c 1 p 0xFF 0)
  have alarmed : (({ (s.count .vlSealFails c [p]).alarm c 1 p 0xFF 0 with designs := ds } : State).ch c) = s.ch c :=
    (by cases c <;> rfl : _ = ((s.count .vlSealFails c [p]).alarm c 1 p 0xFF 0).ch c).trans ((alarm_ch ..).trans (count_ch ..))
  have port : ∀ (u : State) f, ((u.modPort c p f).ch c).hbm = (u.ch c).hbm := fun u f => by cases c <;> rfl
  rw [port, macs_dropRecords, rest, alarmed, List.mem_filter] at hn
  have mine : n ∈ s.linkChecks p c := List.mem_filter.mpr ⟨hn.1, by simp [link]⟩
  exact absurd hn.2 (by simp [mine])

theorem sealMarked_designs (s : State) (c : Ch) (p : Nat) : (s.sealMarked c p).designs =
    ((((s.linkChecks p c).filter s.usedBy).foldl (fun s m => s.frameErr m.design (.mac, m.cab, m.addr))
      ((s.count .vlSealFails c [p]).alarm c 1 p 0xFF 0)).dropRecords c (s.linkChecks p c)).designs := modPort_designs ..

theorem sealMarked_keepsErrs (s : State) (c : Ch) (p : Nat) : s.KeepsErrs (s.sealMarked c p) :=
  (((KeepsErrs.of_designs ((alarm_designs ..).trans (count_designs ..))).trans (foldl_frameErr_keepsErrs ..)).trans (dropRecords_keepsErrs ..)).trans
    (.of_designs (sealMarked_designs ..))

/-- A frame that has used a record of the group has an error of it. -/
theorem sealMarked_errs (mine : m ∈ s.linkChecks p c) (used : s.usedBy m = true) (found : s.design m.design = some d) :
    ∃ e, (s.sealMarked c p).design m.design = some e ∧ (ErrSrc.mac, m.cab, m.addr) ∈ e.errs := by
  have same : ((s.count .vlSealFails c [p]).alarm c 1 p 0xFF 0).designs = s.designs := (alarm_designs ..).trans (count_designs ..)
  obtain ⟨e, there, failed⟩ := foldl_frameErr_mem (s := (s.count .vlSealFails c [p]).alarm c 1 p 0xFF 0)
    (List.mem_filter.mpr ⟨mine, used⟩) ((design_of_designs same _).trans found)
  obtain ⟨f, stands, errs⟩ := (dropRecords_keepsErrs _ c (s.linkChecks p c)).design there
  exact ⟨f, (design_of_designs (sealMarked_designs ..) _).trans stands, errs failed⟩

/-- The first bad tag of a port in a row (R212): counted and reported, an error of the frames that have used its records, its records dropped, and
replay asked for. -/
theorem sealFailed_first (hp : p < 8) (first : (s.port c p).sealFails = 0) (quiet : (s.port c p).nak = false) :
    ((s.sealFailed c p).port c p).sealFails = 1 ∧ ((s.sealFailed c p).port c p).nak = true ∧ ((s.sealFailed c p).port c p).groupRx = [] ∧
    ((s.sealFailed c p).port c p).inbox = (s.port c p).inbox ∧ (∀ n ∈ ((s.sealFailed c p).ch c).hbm.macs, n.link ≠ some p) ∧
    (s.sealFailed c p).reg .vlSealFails c [p] = satAdd (s.reg .vlSealFails c [p]) 1 ∧
    (s.pwr.hostOn = true → Wrote 0x6001 (1 + chNum c) 0xFF 0 false [chNum c, 1, p] (s.sealFailed c p)) ∧
    (s.sealMarked c p).KeepsErrs (s.sealFailed c p) := by
  have port := port_sealMarked s c p
  rw [sealFailed_eq, if_neg (by rw [port]; exact fun h => absurd (show 2 ≤ (s.port c p).sealFails + 1 from h) (by omega))]
  have rests : ((s.sealMarked c p).port c p).nak = false := by rw [port]; exact quiet
  have asked := port_linkNak rests
  rw [port] at asked
  rw [asked]
  refine ⟨(congrArg (· + 1) first :), rfl, rfl, rfl, fun n hn => macs_sealMarked s c p n (macs_linkNak rests hn), ?_, fun on => ?_,
    linkNak_keepsErrs rests⟩
  · rw [reg_linkNak_other rests (replays_ne c hp).2.2, reg_sealMarked (by decide)]
    exact reg_setReg_same ..
  · refine ((sealMarked_stands on).of_same (linkNak_host ..) (reg_linkNak_other rests ?_)).1
    have low : regOff .hpRingCtrl .a [96] < 0x400000 := by decide
    have high := regOff_hub (r := .vlReplays) (by decide) c [p]
    omega

/-- The second bad tag of a port in a row (R212): it is disabled and its keys are destroyed. -/
theorem sealFailed_again (again : (s.port c p).sealFails = 1) (runs : s.portEnabled c p = true)
    (first : ∀ d ∈ s.designs, d.lastErr = none) :
    ((s.sealFailed c p).port c p).state = .disabled ∧ ((s.sealFailed c p).port c p).keys = none ∧
    (s.pwr.hostOn = true → Wrote 0x4101 (1 + chNum c) 0xFF 0 false [chNum c, p, 2] (s.sealFailed c p)) := by
  have apart : regOff .vlPortCtrl c [p] ≠ regOff .vlSealFails c [p] := by
    simp only [regOff, domBase, Reg.row, joinDims]
    omega
  obtain ⟨-, -, pwr, base⟩ := sealMarked_rest s c p
  have enabled : (s.sealMarked c p).portEnabled c p = true := by
    rw [State.portEnabled, reg_sealMarked (by decide), State.count, State.countBy, reg_setReg_other _ _ apart, State.portAllowed, base]
    exact runs
  rw [sealFailed_eq, if_pos (by rw [port_sealMarked]; exact (show 2 ≤ (s.port c p).sealFails + 1 by omega))]
  obtain ⟨off, gone, told⟩ := portAttacked_spec enabled ((sealMarked_keepsErrs s c p).lastErr first)
    (((s.linkChecks p c).filter s.usedBy).map (·.design))
  exact ⟨off, gone, fun on => told (by rw [pwr, on])⟩

end State

end Sys2Proof.Machine
end

section
/-! SEAL flits and MAC_VERDICT (R83, R211, R212, R284): a group that verifies, one that does not, and the verdicts on HBM data. -/

namespace Sys2Proof.Machine

open Sys2Proof

namespace State

variable {s u : State} {c : Ch} {p w seq : Nat}

/-! ### Groups behind the flit that closes them (R211) -/

/-- What a port keeps of its messages goes by its keys and by the table. -/
theorem keeps_congr (topo : u.topo = s.topo) (keys : (u.port c p).keys = (s.port c p).keys) : u.keeps c p = s.keeps c p := by
  funext h
  rw [State.keeps, keys, portUse_of_topo topo, State.keeps]

/-- A group verifies alike behind the number of its SEAL flit. -/
theorem groupOk_accepted (topo : u.topo = s.topo) (port : u.port c p = ((s.port c p).hears seq).accepts seq) (w : Nat) :
    u.groupOk c p w = s.groupOk c p w := by
  unfold State.groupOk State.sealKey State.rxKey
  rw [port]
  simp only [initiates_of_topo topo]
  rfl

theorem groupMsgs_accepted (topo : u.topo = s.topo) (port : u.port c p = ((s.port c p).hears seq).accepts seq) (ep : Nat) :
    u.groupMsgs c p ep = s.groupMsgs c p ep := by
  unfold State.groupMsgs State.sealKey State.rxKey
  rw [port]
  simp only [initiates_of_topo topo]
  rfl

theorem splitEarly_zero (s : State) (l : List Heard) : s.splitEarly 0 l = ([], l) := by
  induction l with
  | nil => rfl
  | cons h l ih => simp [State.splitEarly, ih]

/-- A group that has verified: no check of the port is left, and its row of bad tags ends. -/
theorem sealPassed_spec (s : State) (c : Ch) (p : Nat) :
    (s.sealPassed c p).port c p = { s.port c p with sealFails := 0 } ∧
    ((s.sealPassed c p).ch c).hbm.macs = (s.ch c).hbm.macs.filter (fun m => m.link != some p) ∧
    (s.sealPassed c p).designs = s.designs ∧ (s.sealPassed c p).host = s.host := by
  refine ⟨?_, by cases c <;> rfl, (modPort_designs ..).trans (modCh_designs ..), (modPort_host ..).trans (modCh_host ..)⟩
  rw [sealPassed, port_modPort_same]
  cases c <;> rfl

/-- Messages that arrive stand behind those that wait; the others only free their buffer. -/
theorem port_arrive (s : State) (c : Ch) (p : Nat) (l : List Heard) : (s.arrive c p l).port c p =
    { (s.port c p).freeMsgs (l.filter fun h => !s.keeps c p h) with inbox := (s.port c p).inbox ++ l.filter (s.keeps c p) } :=
  port_modPort_same ..

/-- A group that verifies (R211, R212): its messages that were not used before wait for their commands, and the checks of the port end. -/
theorem takeSeal_spec (good : s.groupOk c p w = true) :
    ((s.takeSeal c p w).port c p).groupRx = [] ∧ ((s.takeSeal c p w).port c p).sealFails = 0 ∧ ((s.takeSeal c p w).port c p).early = 0 ∧
    ((s.takeSeal c p w).port c p).nak = (s.port c p).nak ∧ ((s.takeSeal c p w).port c p).sinceAck = (s.port c p).sinceAck ∧
    ((s.port c p).early = 0 → ((s.takeSeal c p w).port c p).inbox =
      (s.port c p).inbox ++ (s.groupMsgs c p (field w 214 2)).2.filter (s.keeps c p)) ∧
    ((s.takeSeal c p w).ch c).hbm.macs = (s.ch c).hbm.macs.filter (fun m => m.link != some p) ∧
    (s.takeSeal c p w).designs = s.designs ∧ (s.takeSeal c p w).host = s.host := by
  unfold State.takeSeal
  rw [if_pos good]
  extract_lets ep r l v
  have topo : v.topo = s.topo := modPort_topo ..
  have port : v.port c p = _ := port_modPort_same ..
  have keys : (v.port c p).keys = (s.port c p).keys := by rw [port]; rfl
  obtain ⟨same, macs, designs, host⟩ := (v.arrive c p l.2).sealPassed_spec c p
  rw [port_arrive, keeps_congr topo keys, port] at same
  rw [same]
  refine ⟨rfl, rfl, rfl, rfl, rfl, fun fresh => ?_, macs.trans (by cases c <;> rfl), designs.trans ?_, host.trans ?_⟩
  · have rest : l.2 = r.2 := by unfold l; rw [fresh, splitEarly_zero]
    rw [rest]; rfl
  · exact (modPort_designs ..).trans (modPort_designs ..)
  · exact (modPort_host ..).trans (modPort_host ..)

/-! ### SEAL flits (R211, R212) -/

section

variable {slot : Nat} {blocks : List (BitVec 66)} {flit : BitVec 256} (ready : s.slotReady c p slot blocks = true) (carries : slot < 2)
  (brings : flitOf (s.readBlocks c ((s.slotLanes c p slot).zip blocks)).2 = some flit) (takes : (s.port c p).takes = true)
  (crc : linkCrcOk flit = true) (closes : field flit.toNat 12 2 = 1) (reserved : bitAt flit.toNat 15 = false)
  (next : field flit.toNat 0 12 = (s.port c p).rxNext) (sealed : (s.port c p).keys.isSome = true)

/-- The state in which a SEAL flit closes its group: the descramblers have run on, and the number of the flit is accepted. -/
def sealReady (s : State) (c : Ch) (p : Nat) (l : KV Lane) : State := (s.withLanes c l).accepted c p (s.port c p).rxNext

theorem sealReady_spec (s : State) (c : Ch) (p : Nat) (l : KV Lane) :
    (s.sealReady c p l).port c p = ((s.port c p).hears (s.port c p).rxNext).accepts (s.port c p).rxNext ∧
    ((s.sealReady c p l).ch c).hbm = (s.ch c).hbm ∧ (s.sealReady c p l).designs = s.designs ∧ (s.sealReady c p l).host = s.host ∧
    (s.sealReady c p l).topo = s.topo ∧ (s.sealReady c p l).regs = s.regs ∧ (s.sealReady c p l).pwr = s.pwr := by
  refine ⟨?_, by cases c <;> rfl, (modPort_designs ..).trans (withLanes_designs ..), (modPort_host ..).trans (withLanes_host ..),
    (modPort_topo ..).trans (withLanes_topo ..), (modPort_regs ..).trans (withLanes_regs ..), (modPort_pwr ..).trans (withLanes_pwr ..)⟩
  rw [sealReady, accepted, port_modPort_same, port_withLanes]

include ready carries brings takes crc closes reserved next sealed

/-- A SEAL flit in order closes its group. -/
theorem exec_linkFlitReceive_seal : ∃ l v, v = (s.sealReady c p l).takeSeal c p flit.toNat ∧
    exec (.linkFlitReceive c p ⟨slot, blocks⟩) s = .next (if (v.port c p).nak then v else v.countAck c p) := by
  obtain ⟨l, read, -⟩ := readBlocks_flit brings
  have kind : field flit.toNat 12 2 < 2 := by omega
  obtain ⟨v, made, heard⟩ := hearFlit_next (s := s.withLanes c l) (slot := slot) crc kind reserved (by rw [port_withLanes]; exact next)
  rw [if_pos closes, port_withLanes, if_pos sealed] at made
  refine ⟨l, v, made, ?_⟩
  rw [exec_linkFlitReceive ready carries brings, if_neg (by rw [takes]; decide), isCtl_of_kind kind, if_neg Bool.false_ne_true, read, heard]

/-- A group that verifies releases its messages. -/
theorem exec_linkFlitReceive_verified (good : s.groupOk c p flit.toNat = true) (few : (s.port c p).sinceAck < 31) :
    ∃ u, exec (.linkFlitReceive c p ⟨slot, blocks⟩) s = .next u ∧ u.designs = s.designs ∧ u.host = s.host ∧ (u.port c p).groupRx = [] ∧
      (u.port c p).sealFails = 0 ∧ (u.port c p).early = 0 ∧
      ((s.port c p).early = 0 → (u.port c p).inbox =
        (s.port c p).inbox ++ (s.groupMsgs c p (field flit.toNat 214 2)).2.filter (s.keeps c p)) ∧
      (u.ch c).hbm.macs = (s.ch c).hbm.macs.filter (fun m => m.link != some p) := by
  obtain ⟨l, v, made, ran⟩ := exec_linkFlitReceive_seal ready carries brings takes crc closes reserved next sealed
  obtain ⟨port, hbm, designs, host, topo, -⟩ := s.sealReady_spec c p l
  have verified := takeSeal_spec (s := s.sealReady c p l) ((groupOk_accepted topo port _).trans good)
  rw [← made, port, hbm, designs, host, groupMsgs_accepted topo port, keeps_congr topo (by rw [port]; rfl)] at verified
  obtain ⟨emptied, fails, early, nak, since, inbox, macs, designs, host⟩ := verified
  rw [nak, if_neg (by exact Bool.false_ne_true), countAck_few (by rw [since]; exact few)] at ran
  refine ⟨_, ran, (modPort_designs ..).trans designs, (modPort_host ..).trans host, ?_⟩
  rw [port_modPort_same]
  exact ⟨emptied, fails, early, inbox, by rw [← macs]; cases c <;> rfl⟩

/-- A group whose tag is wrong, the first in a row, asks for replay. -/
theorem exec_linkFlitReceive_bad (hp : p < 8) (bad : s.groupOk c p flit.toNat = false) (first : (s.port c p).sealFails = 0) :
    ∃ u, exec (.linkFlitReceive c p ⟨slot, blocks⟩) s = .next u ∧ (u.port c p).sealFails = 1 ∧ (u.port c p).nak = true ∧
      (u.port c p).groupRx = [] ∧ (u.port c p).inbox = (s.port c p).inbox ∧ (∀ n ∈ (u.ch c).hbm.macs, n.link ≠ some p) ∧
      u.reg .vlSealFails c [p] = satAdd (s.reg .vlSealFails c [p]) 1 ∧
      (s.pwr.hostOn = true → Wrote 0x6001 (1 + chNum c) 0xFF 0 false [chNum c, 1, p] u) := by
  obtain ⟨l, v, made, ran⟩ := exec_linkFlitReceive_seal ready carries brings takes crc closes reserved next sealed
  obtain ⟨port, hbm, -, -, topo, regs, pwr⟩ := s.sealReady_spec c p l
  rw [takeSeal, if_neg (by rw [groupOk_accepted topo port, bad]; decide)] at made
  obtain ⟨fails, nak, emptied, inbox, macs, counted, told, -⟩ := sealFailed_first (s := s.sealReady c p l) (c := c) hp
    (by rw [port]; exact first) (by rw [port]; rfl)
  rw [← made] at fails nak emptied inbox macs counted told
  rw [nak, if_pos rfl] at ran
  exact ⟨v, ran, fails, nak, emptied, inbox.trans (by rw [port]; rfl), macs, counted.trans (by rw [reg_of_regs _ regs]),
    fun on => told (by rw [pwr, on])⟩

end

/-! ### MAC_VERDICT (R83, R212, R284) -/

section

variable {k : Nat} {m : MacCheck} (stands : (s.ch c).hbm.macs[k]? = some m)

include stands

/-- A verdict on a group of a port. -/
theorem exec_macVerdict_link (link : m.link = some p) (ok : Bool) :
    exec (.macVerdict c k ok) s = .next (if ok then s.sealPassed c p else s.sealFailed c p) := by
  show execMacVerdict c k ok s = _
  unfold execMacVerdict
  rw [stands]
  dsimp only
  rw [link]

/-- A verdict on HBM data. -/
theorem exec_macVerdict_hbm (link : m.link = none) (ok : Bool) :
    exec (.macVerdict c k ok) s = .next (
      if ok then (s.modHbm c fun h => { h with macs := h.macs.eraseIdx k }).modHbm c fun h =>
        { h with fails := h.fails.filter (fun a => a != m.addr / 64 * 64) }
      else (s.modHbm c fun h => { h with macs := h.macs.eraseIdx k }).macFailed c m) := by
  show execMacVerdict c k ok s = _
  unfold execMacVerdict
  rw [stands]
  dsimp only
  rw [link]

theorem mem_linkChecks (link : m.link = some p) : m ∈ s.linkChecks p c :=
  List.mem_filter.mpr ⟨List.mem_of_getElem? stands, by simp [link]⟩

end

/-- What a bad MAC of HBM data makes of the design and of the checks (R83): an error of the frame that has used the data, or a check that waits for
the frame. -/
def macBlamed (s : State) (c : Ch) (m : MacCheck) : State :=
  match s.design m.design with
  | some d => if m.used = some d.frame then s.frameErr m.design (.mac, m.cab, m.addr)
    else s.modHbm c fun h => { h with macs := h.macs ++ [{ m with failed := true }] }
  | none => s

theorem macBlamed_rest (s : State) (c : Ch) (m : MacCheck) :
    (s.macBlamed c m).regs = s.regs ∧ ((s.macBlamed c m).ch c).hbm.fails = (s.ch c).hbm.fails := by
  unfold macBlamed
  split
  · split
    exacts [⟨rfl, by cases c <;> rfl⟩, ⟨modCh_regs .., by cases c <;> rfl⟩]
  · exact ⟨rfl, rfl⟩

/-- The first bad MAC of a line is an alarm, and the line is remembered (R284). -/
theorem macFailed_first {m : MacCheck} (first : m.addr / 64 * 64 ∉ (s.ch c).hbm.fails) : ∃ v, Quiet (s.count .secAlarms .a []) v ∧
    s.macFailed c m = (v.macBlamed c m).modHbm c fun h => { h with fails := h.fails ++ [m.addr / 64 * 64] } := by
  refine ⟨_, alarm_quiet .., if_neg ?_⟩
  show ¬ ((macBlamed _ c m).ch c).hbm.fails.contains _ = true
  rw [(macBlamed_rest ..).2, alarm_ch]
  simpa using first

end State

/-- A bad verdict on HBM data (R83, R284): an alarm, and an error of the frame that has used the data, now or later. -/
theorem macVerdict_hbm_bad {s : State} {c : Ch} {k : Nat} {m : MacCheck} (stands : (s.ch c).hbm.macs[k]? = some m) (link : m.link = none)
    (first : m.addr / 64 * 64 ∉ (s.ch c).hbm.fails) :
    ∃ u, exec (.macVerdict c k false) s = .next u ∧ u.reg .secAlarms .a [] = satAdd (s.reg .secAlarms .a []) 1 ∧
      m.addr / 64 * 64 ∈ (u.ch c).hbm.fails ∧
      (s.design m.design = none → (u.ch c).hbm.macs = (s.ch c).hbm.macs.eraseIdx k ∧ u.designs = s.designs) ∧
      ∀ d, s.design m.design = some d →
        (m.used = some d.frame → (u.ch c).hbm.macs = (s.ch c).hbm.macs.eraseIdx k ∧
          ∃ e, u.design m.design = some e ∧ e.errs = d.errs ++ [(.mac, m.cab, m.addr)]) ∧
        (m.used ≠ some d.frame → u.designs = s.designs ∧
          (u.ch c).hbm.macs = (s.ch c).hbm.macs.eraseIdx k ++ [{ m with failed := true }]) := by
  obtain ⟨v, quiet, failed⟩ := State.macFailed_first (s := s.modHbm c fun h => { h with macs := h.macs.eraseIdx k }) (c := c) (m := m)
    (by rw [State.modHbm, State.modCh_ch]; exact first)
  have macs : (v.ch c).hbm.macs = (s.ch c).hbm.macs.eraseIdx k := by rw [quiet.ch, State.count_ch]; cases c <;> rfl
  have designs : v.designs = s.designs := quiet.designs.trans ((State.count_designs ..).trans (State.modCh_designs ..))
  have found : v.design m.design = s.design m.design := State.design_of_designs designs _
  have alarms : v.reg .secAlarms .a [] = satAdd (s.reg .secAlarms .a []) 1 :=
    (quiet.2.2.2.2 _ _ (by decide)).trans ((State.reg_setReg_same ..).trans (congrArg (satAdd · 1) (State.reg_modHbm ..)))
  refine ⟨_, (State.exec_macVerdict_hbm stands link false).trans (congrArg _ ((if_neg Bool.false_ne_true).trans failed)), ?_, ?_, ?_, ?_⟩
  · exact (State.reg_modHbm ..).trans ((State.reg_of_regs _ (v.macBlamed_rest c m).1 ..).trans alarms)
  · rw [State.modHbm_hbm]; simp
  · intro none
    rw [State.modHbm_hbm, State.modHbm, State.modCh_designs, State.macBlamed, found, none]
    exact ⟨macs, designs⟩
  · intro d is
    constructor
    · intro used
      rw [State.modHbm_hbm, State.macBlamed, found, is]
      dsimp only
      rw [if_pos used]
      exact ⟨macs, _, (State.design_of_designs (State.modCh_designs ..) _).trans
        (State.design_modDesign_some (found.trans is) fun _ h => h), rfl⟩
    · intro unused
      rw [State.modHbm_hbm, State.modHbm, State.modCh_designs, State.macBlamed, found, is]
      dsimp only
      rw [if_neg unused]
      exact ⟨(State.modCh_designs ..).trans designs, by rw [← macs]; cases c <;> rfl⟩

theorem sealedGroups : Clauses.SealedGroups := by
  intro s c p x hx hp
  subst hx
  refine ⟨fun slot blocks r flit w ready carries hr brings hw takes crc closes reserved next sealed => ?_,
    fun k m stands => ?_, fun k ok none => ?_⟩
  · subst hr hw
    exact ⟨State.exec_linkFlitReceive_verified ready carries brings takes crc closes reserved next sealed,
      State.exec_linkFlitReceive_bad ready carries brings takes crc closes reserved next sealed hp⟩
  · refine ⟨fun link => ?_, macVerdict_hbm_bad stands, fun link => ?_, fun link first quiet => ?_, fun link again runs never => ?_⟩
    · refine ⟨_, (State.exec_macVerdict_hbm stands link true).trans (congrArg _ (if_pos rfl)), by cases c <;> rfl,
        (State.modCh_designs ..).trans (State.modCh_designs ..),
        (State.modCh_host ..).trans (State.modCh_host ..), fun f hf => ?_⟩
      have left : f ∈ (s.ch c).hbm.fails.filter fun a => a != m.addr / 64 * 64 := by cases c <;> exact hf
      simpa using (List.mem_filter.mp left).2
    · obtain ⟨port, macs, designs, host⟩ := s.sealPassed_spec c p
      exact ⟨s.sealPassed c p, State.exec_macVerdict_link stands link true, designs, host, macs, by rw [port]⟩
    · obtain ⟨fails, nak, emptied, -, macs, counted, told, errs⟩ := State.sealFailed_first hp first quiet
      refine ⟨s.sealFailed c p, State.exec_macVerdict_link stands link false, fails, nak, emptied, macs, fun d found used => ?_, counted, told⟩
      obtain ⟨e, marked, err⟩ := State.sealMarked_errs (State.mem_linkChecks stands link) used found
      obtain ⟨f, there, kept⟩ := errs.design marked
      exact ⟨f, there, kept err⟩
    · exact ⟨s.sealFailed c p, State.exec_macVerdict_link stands link false, State.sealFailed_again again runs never⟩
  · show execMacVerdict c k ok s = _
    unfold execMacVerdict
    rw [none]

/-- Settles O48: a SEAL flit closes its group behind the number that the port has accepted; a group that verifies, a first and a second bad tag and
the verdicts on HBM data each have one lemma about what they leave, and the epochs of the keys are those of UPDATE and UPDATE_ACK. -/
theorem linkSealing : Obligations.LinkSealing := ⟨sealedGroups, keyEpochs⟩

end Sys2Proof.Machine
end

section
/-! LINK_FLIT_RECEIVE (R188, R190, R201, R206-R209, R211): flits in order, flits that ask for replay, the fourth failure of a flit, and TEST
blocks. -/

namespace Sys2Proof.Machine

open Sys2Proof

/-- A port on which the expected flit has failed for the `n`-th time in a row (R209). -/
def VPort.failed (x : VPort) (n : Nat) : VPort :=
  { x with fails := n, failSeq := x.rxNext, checked := x.checked && x.failSeq == x.rxNext }

theorem ChannelFree.arrive {α : Type} {g : State → α} (h : ChannelFree g) (s : State) (c : Ch) (p : Nat) (l : List Heard) :
    g (s.arrive c p l) = g s := by
  unfold State.arrive
  exact h.modCh ..

theorem ChannelFree.takeData {α : Type} {g : State → α} (h : ChannelFree g) (s : State) (c : Ch) (p : Nat) (f : RxFlit) :
    g (s.takeData c p f) = g s := by
  unfold State.takeData
  extract_lets x r
  split
  exacts [h.modCh .., (h.arrive ..).trans (h.modCh ..)]

namespace State

variable {s u : State} {c : Ch} {p slot : Nat} {f : VPort → VPort} {flit : BitVec 256}

theorem live_of_slotReady {blocks : List (BitVec 66)} (ready : s.slotReady c p slot blocks = true) : p < 8 := by
  simp only [State.slotReady, Bool.and_eq_true] at ready
  obtain ⟨⟨⟨⟨live, -⟩, -⟩, -⟩, -⟩ := ready
  exact portLive_lt live

/-! ### Replay asked for (R208) -/

/-- Replay asked for behind a change that leaves what a port acknowledges and sends. -/
theorem linkNak_modPort (nak : (f (s.port c p)).nak = false) (ack : (f (s.port c p)).ackSeq = (s.port c p).ackSeq)
    (freed0 : (f (s.port c p)).freed0 = (s.port c p).freed0) (freed1 : (f (s.port c p)).freed1 = (s.port c p).freed1)
    (sent : (f (s.port c p)).sent = (s.port c p).sent) (hu : u = (s.modPort c p f).linkNak c p) :
    u.host = s.host ∧ (s.linkChecks p c = [] → u.designs = s.designs) ∧ (u.port c p).nak = true ∧
    (u.port c p).rxNext = ((s.port c p).ackSeq + 1) % 4096 ∧ (u.port c p).groupRx = [] ∧
    (u.port c p).sent = (s.port c p).sent ++ [.nak (s.port c p).ackSeq (s.port c p).freed0 (s.port c p).freed1] ∧
    u.reg .vlReplays c [p] = satAdd (s.reg .vlReplays c [p]) 1 := by
  subst hu
  have port : (s.modPort c p f).port c p = f (s.port c p) := port_modPort_same ..
  have quiet : ((s.modPort c p f).port c p).nak = false := by rw [port, nak]
  have asked := port_linkNak quiet
  rw [port, ack, freed0, freed1, sent] at asked
  refine ⟨(linkNak_host ..).trans (modPort_host ..), fun none => ?_, ?_, ?_, ?_, ?_, ?_⟩
  · refine (linkNak_designs quiet ?_).trans (modPort_designs ..)
    rw [← none]
    cases c <;> rfl
  · rw [asked]; rfl
  · rw [asked, ← ack]; rfl
  · rw [asked]; rfl
  · rw [asked]
  · rw [replays_linkNak quiet, reg_of_regs _ (modPort_regs ..)]

/-- Asking for replay leaves the health check, the requests and the width of a port. -/
theorem linkNak_checks (s : State) (c : Ch) (p : Nat) :
    ((s.linkNak c p).port c p).checked = (s.port c p).checked ∧ ((s.linkNak c p).port c p).width4 = (s.port c p).width4 := by
  cases quiet : (s.port c p).nak with
  | true => rw [linkNak_asked quiet]; exact ⟨rfl, rfl⟩
  | false => rw [port_linkNak quiet]; exact ⟨rfl, rfl⟩

theorem sparesOf_linkNak_any (hp : p < 8) : (s.linkNak c p).sparesOf c p = s.sparesOf c p := by
  cases quiet : (s.port c p).nak with
  | true => rw [linkNak_asked quiet]
  | false => exact sparesOf_linkNak hp quiet

theorem sparesOf_modPort (req : (f (s.port c p)).rxReq = (s.port c p).rxReq) : (s.modPort c p f).sparesOf c p = s.sparesOf c p :=
  sparesOf_congr (reg_of_regs _ (modPort_regs ..) ..) (reg_of_regs _ (modPort_regs ..) ..) (rxMap_modPort ..) (fun l => by rw [lane_modPort])
    (fun l => by rw [lane_modPort]) (fun l => by rw [lane_modPort]) (by rw [port_modPort_same, req])

/-! ### Bad flits (R208, R209) -/

/-- A bad flit before the fourth failure asks for replay. -/
theorem linkFlitBad_few (few : (s.port c p).failSeq ≠ (s.port c p).rxNext ∨ (s.port c p).fails < 3) :
    ∃ n, s.linkFlitBad c p slot = (s.modPort c p fun x => x.failed n).linkNak c p := by
  refine ⟨_, if_pos ?_⟩
  split <;> omega

/-- The fourth failure of a flit (R209): a health check of its lanes, or behind one the end of the port's traffic. -/
theorem linkFlitBad_fourth (same : (s.port c p).failSeq = (s.port c p).rxNext) (three : (s.port c p).fails = 3) :
    ∃ v, v = (s.modPort c p fun x => x.failed 4).linkNak c p ∧
      s.linkFlitBad c p slot = if (s.port c p).checked then v.outOfTraffic c p else v.healthCheck c p slot := by
  refine ⟨_, rfl, ?_⟩
  unfold State.linkFlitBad
  extract_lets x n v w
  have four : n = 4 := by unfold n x; rw [if_pos same, three]
  have checked : (w.port c p).checked = (s.port c p).checked := by
    refine (linkNak_checks ..).1.trans ?_
    unfold v
    rw [port_modPort_same]
    simp [same]
  rw [if_neg (by omega), checked]
  unfold w v
  rw [four]
  rfl

/-- A health check that begins (R209) asks for the first spare for the first lane of the slot. -/
theorem healthCheck_spec {k : Nat} {ks : List Nat} (spares : s.sparesOf c p = k :: ks) :
    ((s.healthCheck c p slot).port c p).health = (List.range 4).map (fun i => 4 * (s.port c p).width4.getD slot + i) ∧
    ((s.healthCheck c p slot).port c p).rxReq = some (4 * (s.port c p).width4.getD slot, k, true) ∧
    ((s.healthCheck c p slot).port c p).checked = true := by
  unfold State.healthCheck
  extract_lets half v
  rw [show v.sparesOf c p = k :: ks from (sparesOf_modPort rfl).trans spares]
  dsimp only
  obtain ⟨req, -, -, health, -⟩ := (v.modPort c p fun x => { x with health := (List.range 4).map (fun i => 4 * half + i) }).askSpare_spec c p
    (4 * half) k
  refine ⟨health.trans ?_, req, ?_⟩
  · rw [port_modPort_same]
  · simp [State.askSpare, v]

/-- A port out of traffic (R209). -/
theorem outOfTraffic_spec (s : State) (c : Ch) (p : Nat) : ((s.outOfTraffic c p).port c p).out = true ∧
    ((s.outOfTraffic c p).port c p).traffic = false ∧
    (s.pwr.hostOn = true → Wrote 0x4101 (1 + chNum c) 0xFF 0 false [chNum c, p, 1] (s.outOfTraffic c p)) := by
  let v := s.modPort c p fun x => { x with out := true, traffic := false, fails := 0 }
  let w := s.withRoutes fun s => s.modPort c p fun x => { x with out := true, traffic := false, fails := 0 }
  have told : Told 0x4101 (1 + chNum c) 0xFF 0 false [chNum c, p, 1] (w.loseTraffic c p) (s.outOfTraffic c p) := event_told ..
  have out : v.Outgoing w := .withRoutes (.refl _)
  have bare : ((s.outOfTraffic c p).port c p).bare = (v.port c p).bare := by
    rw [port_of_ch c p (told.1.ch c)]
    exact (w.bare_loseTraffic c p).trans (VPort.bare_of_still (out.port c p))
  have port : v.port c p = _ := port_modPort_same ..
  have taken : ((s.outOfTraffic c p).port c p).out = (v.port c p).out := (VPort.of_bare VPort.out (fun _ => rfl) bare :)
  have silent : ((s.outOfTraffic c p).port c p).traffic = (v.port c p).traffic := (VPort.of_bare VPort.traffic (fun _ => rfl) bare :)
  refine ⟨taken.trans (by rw [port]), silent.trans (by rw [port]), fun on => told.2 ?_⟩
  rw [TrafficFree.pwr.loseTraffic, TrafficFree.pwr.withRoutes, modPort_pwr, on]

/-! ### DATA flits in order (R207, R211) -/

/-- A DATA flit accepted while keys are in force waits for its group. -/
theorem port_takeData_sealed {g : RxFlit} (sealed : (s.port c p).keys.isSome = true) :
    (s.takeData c p g).port c p = { s.port c p with groupRx := (s.port c p).groupRx ++ [g] } := by
  rw [State.takeData, if_pos sealed, port_modPort_same]

/-- A DATA flit accepted without keys joins its message at once. -/
theorem port_takeData_plain {g : RxFlit} (plain : (s.port c p).keys = none) : ∃ bad, (s.takeData c p g).port c p =
    { (s.port c p).freeMsgs bad with
      part0 := (takeBodies (s.port c p).part0 (s.port c p).part1 [g]).1.1, part1 := (takeBodies (s.port c p).part0 (s.port c p).part1 [g]).1.2,
      inbox := (s.port c p).inbox ++ (takeBodies (s.port c p).part0 (s.port c p).part1 [g]).2.filter (s.keeps c p) } := by
  unfold State.takeData
  extract_lets x r
  rw [if_neg (by unfold x; rw [plain]; exact Bool.false_ne_true), port_arrive,
    keeps_congr (modPort_topo ..) (by rw [port_modPort_same]), port_modPort_same]
  exact ⟨_, rfl⟩

end State

/-! ### LINK_FLIT_RECEIVE -/

section

variable {s : State} {c : Ch} {p slot : Nat} {blocks : List (BitVec 66)} {flit : BitVec 256} (ready : s.slotReady c p slot blocks = true)

section

variable (carries : slot < 2) (brings : flitOf (s.readBlocks c ((s.slotLanes c p slot).zip blocks)).2 = some flit)
  (takes : (s.port c p).takes = true)

include ready carries brings takes

/-- A DATA flit in order (R207, R208, R211). -/
theorem exec_linkFlitReceive_data (crc : linkCrcOk flit = true) (data : field flit.toNat 12 2 = 0) (reserved : bitAt flit.toNat 15 = false)
    (next : field flit.toNat 0 12 = (s.port c p).rxNext) (few : (s.port c p).sinceAck < 31) :
    ∃ (u : State) (f : RxFlit), exec (.linkFlitReceive c p ⟨slot, blocks⟩) s = .next u ∧ u.host = s.host ∧ u.designs = s.designs ∧
      (u.port c p).rxNext = ((s.port c p).rxNext + 1) % 4096 ∧ (u.port c p).sinceAck = (s.port c p).sinceAck + 1 ∧ (u.port c p).nak = false ∧
      (u.port c p).sent = (s.port c p).sent ∧ f.flit = flit ∧ ((s.port c p).nakHigh = none → f.resent = false) ∧
      ((s.port c p).keys = none → (u.port c p).groupRx = (s.port c p).groupRx ∧
        (u.port c p).part0 = (takeBodies (s.port c p).part0 (s.port c p).part1 [f]).1.1 ∧
        (u.port c p).part1 = (takeBodies (s.port c p).part0 (s.port c p).part1 [f]).1.2 ∧
        (u.port c p).inbox = (s.port c p).inbox ++ (takeBodies (s.port c p).part0 (s.port c p).part1 [f]).2.filter (s.keeps c p)) ∧
      ((s.port c p).keys.isSome = true → (u.port c p).groupRx = (s.port c p).groupRx ++ [f] ∧ (u.port c p).inbox = (s.port c p).inbox ∧
        (u.port c p).freed0 = (s.port c p).freed0 ∧ (u.port c p).freed1 = (s.port c p).freed1) := by
  obtain ⟨l, read, -⟩ := State.readBlocks_flit brings
  have kind : field flit.toNat 12 2 < 2 := by omega
  obtain ⟨v, made, heard⟩ := State.hearFlit_next (s := s.withLanes c l) (slot := slot) crc kind reserved
    (by rw [State.port_withLanes]; exact next)
  rw [if_neg (by omega), State.port_withLanes] at made
  obtain ⟨f, same_flit, resent, made⟩ : ∃ f : RxFlit, f.flit = flit ∧ f.resent = (s.port c p).resent (s.port c p).rxNext ∧
    v = (s.sealReady c p l).takeData c p f := ⟨_, rfl, rfl, made⟩
  obtain ⟨port, -, designs, host, topo, -⟩ := s.sealReady_spec c p l
  have ran : exec (.linkFlitReceive c p ⟨slot, blocks⟩) s = .next (if (v.port c p).nak then v else v.countAck c p) := by
    rw [exec_linkFlitReceive ready carries brings, if_neg (by rw [takes]; decide), isCtl_of_kind kind, if_neg Bool.false_ne_true, read, heard]
  have keeps : (s.sealReady c p l).keeps c p = s.keeps c p := State.keeps_congr topo (by rw [port]; rfl)
  have vhost : v.host = s.host := by rw [made, ChannelFree.host.takeData, host]
  have vdesigns : v.designs = s.designs := by rw [made, TrafficFree.designs.takeData, designs]
  have fresh : (s.port c p).nakHigh = none → f.resent = false := fun none => by rw [resent, VPort.resent, none]
  cases plain : (s.port c p).keys with
  | none =>
    obtain ⟨bad, same⟩ := State.port_takeData_plain (s := s.sealReady c p l) (c := c) (p := p) (g := f) (by rw [port]; exact plain)
    rw [← made, keeps, port] at same
    rw [if_neg (by rw [same]; exact Bool.false_ne_true), State.countAck_few (by rw [same]; exact few)] at ran
    refine ⟨_, f, ran, (State.modPort_host ..).trans vhost, (State.modPort_designs ..).trans vdesigns, ?_⟩
    rw [State.port_modPort_same, same]
    exact ⟨rfl, rfl, rfl, rfl, same_flit, fresh, fun _ => ⟨rfl, rfl, rfl, rfl⟩, fun sealed => absurd sealed (by decide)⟩
  | some k =>
    have same := State.port_takeData_sealed (s := s.sealReady c p l) (c := c) (p := p) (g := f)
      (by rw [port]; exact Option.isSome_of_eq_some plain)
    rw [← made, port] at same
    rw [if_neg (by rw [same]; exact Bool.false_ne_true), State.countAck_few (by rw [same]; exact few)] at ran
    refine ⟨_, f, ran, (State.modPort_host ..).trans vhost, (State.modPort_designs ..).trans vdesigns, ?_⟩
    rw [State.port_modPort_same, same]
    exact ⟨rfl, rfl, rfl, rfl, same_flit, fresh, fun none => absurd none (by simp), fun _ => ⟨rfl, rfl, rfl, rfl⟩⟩

/-- A flit that is not a LINKCTL flit is heard behind the descramblers. -/
theorem exec_linkFlitReceive_heard (other : isCtl flit = false) : ∃ l, s.SameLanes c l ∧
    exec (.linkFlitReceive c p ⟨slot, blocks⟩) s = .next ((s.withLanes c l).hearFlit c p slot flit) := by
  obtain ⟨l, read, same⟩ := State.readBlocks_flit brings
  refine ⟨l, same, ?_⟩
  rw [exec_linkFlitReceive ready carries brings, if_neg (by rw [takes]; decide), other, if_neg Bool.false_ne_true, read]

/-- A bad flit before its fourth failure, or one out of its sequence, asks for replay (R208). -/
theorem exec_linkFlitReceive_replay (other : isCtl flit = false) (quiet : (s.port c p).nak = false)
    (asks : (linkCrcOk flit = false ∨ field flit.toNat 12 2 = 3 ∨ bitAt flit.toNat 15 = true) ∧
        ((s.port c p).failSeq ≠ (s.port c p).rxNext ∨ (s.port c p).fails < 3) ∨
      linkCrcOk flit = true ∧ field flit.toNat 12 2 < 2 ∧ bitAt flit.toNat 15 = false ∧ field flit.toNat 0 12 ≠ (s.port c p).rxNext) :
    ∃ u, exec (.linkFlitReceive c p ⟨slot, blocks⟩) s = .next u ∧ u.host = s.host ∧ (s.linkChecks p c = [] → u.designs = s.designs) ∧
      (u.port c p).nak = true ∧ (u.port c p).rxNext = ((s.port c p).ackSeq + 1) % 4096 ∧ (u.port c p).groupRx = [] ∧
      (u.port c p).sent = (s.port c p).sent ++ [.nak (s.port c p).ackSeq (s.port c p).freed0 (s.port c p).freed1] ∧
      u.reg .vlReplays c [p] = satAdd (s.reg .vlReplays c [p]) 1 := by
  obtain ⟨l, -, ran⟩ := exec_linkFlitReceive_heard ready carries brings takes other
  have port := s.port_withLanes c c l p
  have checks : (s.withLanes c l).linkChecks p c = s.linkChecks p c := by rw [State.linkChecks, State.hbm_withLanes, State.linkChecks]
  have after : ∀ f, (s.withLanes c l).hearFlit c p slot flit = ((s.withLanes c l).modPort c p f).linkNak c p →
      (∀ x, (f x).nak = x.nak ∧ (f x).ackSeq = x.ackSeq ∧ (f x).freed0 = x.freed0 ∧ (f x).freed1 = x.freed1 ∧ (f x).sent = x.sent) →
      _ := fun f hf keeps => by
    obtain ⟨nak, ack, freed0, freed1, sent⟩ := keeps ((s.withLanes c l).port c p)
    have asked := State.linkNak_modPort (nak.trans (by rw [port, quiet])) ack freed0 freed1 sent hf
    rwa [port, checks, State.withLanes_host, State.withLanes_designs, State.reg_of_regs _ (State.withLanes_regs ..)] at asked
  refine ⟨_, ran, ?_⟩
  rcases asks with ⟨bad, few⟩ | ⟨crc, kind, reserved, astray⟩
  · obtain ⟨n, failed⟩ := State.linkFlitBad_few (s := s.withLanes c l) (c := c) (p := p) (slot := slot) (by rw [port]; exact few)
    exact after _ ((State.hearFlit_bad bad).trans failed) fun _ => ⟨rfl, rfl, rfl, rfl, rfl⟩
  · exact after _ (State.hearFlit_astray crc kind reserved (by rw [port]; exact astray)) fun _ => ⟨rfl, rfl, rfl, rfl, rfl⟩

/-- A flit out of its sequence while replay is asked for already is dropped (R208). -/
theorem exec_linkFlitReceive_astray (crc : linkCrcOk flit = true) (kind : field flit.toNat 12 2 < 2) (reserved : bitAt flit.toNat 15 = false)
    (astray : field flit.toNat 0 12 ≠ (s.port c p).rxNext) (asked : (s.port c p).nak = true) :
    ∃ u, exec (.linkFlitReceive c p ⟨slot, blocks⟩) s = .next u ∧ u.host = s.host ∧ u.designs = s.designs ∧
      u.port c p = { s.port c p with rxHigh := (u.port c p).rxHigh } := by
  obtain ⟨l, -, ran⟩ := exec_linkFlitReceive_heard ready carries brings takes (isCtl_of_kind kind)
  have port := s.port_withLanes c c l p
  rw [State.hearFlit_astray crc kind reserved (by rw [port]; exact astray),
    State.linkNak_asked (by rw [State.port_modPort_same, port]; exact asked)] at ran
  refine ⟨_, ran, (State.modPort_host ..).trans (State.withLanes_host ..), (State.modPort_designs ..).trans (State.withLanes_designs ..), ?_⟩
  rw [State.port_modPort_same, port]
  rfl

/-- The fourth failure of a flit (R209). -/
theorem exec_linkFlitReceive_fourth (crc : linkCrcOk flit = false) (same : (s.port c p).failSeq = (s.port c p).rxNext)
    (three : (s.port c p).fails = 3) :
    (∀ k ks, (s.port c p).checked = false → s.sparesOf c p = k :: ks → ∃ u, exec (.linkFlitReceive c p ⟨slot, blocks⟩) s = .next u ∧
      (u.port c p).health = (List.range 4).map (fun i => 4 * (s.port c p).width4.getD slot + i) ∧
      (u.port c p).rxReq = some (4 * (s.port c p).width4.getD slot, k, true) ∧ (u.port c p).checked = true) ∧
    ((s.port c p).checked = true → ∃ u, exec (.linkFlitReceive c p ⟨slot, blocks⟩) s = .next u ∧ (u.port c p).out = true ∧
      (u.port c p).traffic = false ∧ (s.pwr.hostOn = true → Wrote 0x4101 (1 + chNum c) 0xFF 0 false [chNum c, p, 1] u)) := by
  obtain ⟨l, lanes, ran⟩ := exec_linkFlitReceive_heard ready carries brings takes (by rw [isCtl, crc]; rfl)
  have port := s.port_withLanes c c l p
  obtain ⟨v, made, failed⟩ := State.linkFlitBad_fourth (s := s.withLanes c l) (c := c) (p := p) (slot := slot) (by rw [port, same])
    (by rw [port, three])
  rw [State.hearFlit_bad (.inl crc), failed, port] at ran
  refine ⟨fun k ks fresh spares => ?_, fun checked => ?_⟩
  · rw [fresh, if_neg Bool.false_ne_true] at ran
    have width : (v.port c p).width4 = (s.port c p).width4 := by
      rw [made, (State.linkNak_checks ..).2, State.port_modPort_same, port]; rfl
    have same : v.sparesOf c p = s.sparesOf c p := by
      rw [made, State.sparesOf_linkNak_any (State.live_of_slotReady ready), State.sparesOf_modPort rfl, State.sparesOf_withLanes lanes]
    have begun := State.healthCheck_spec (slot := slot) (same.trans spares)
    rw [width] at begun
    exact ⟨_, ran, begun⟩
  · rw [checked, if_pos rfl] at ran
    obtain ⟨out, silent, told⟩ := v.outOfTraffic_spec c p
    exact ⟨_, ran, out, silent, fun on => told (by rw [made, State.linkNak_pwr, State.modPort_pwr, State.withLanes_pwr, on])⟩

end

include ready

/-- Blocks that carry no flit say something of the far end, or nothing. -/
theorem exec_linkFlitReceive_control (carries : slot < 2) (none : flitOf (s.readBlocks c ((s.slotLanes c p slot).zip blocks)).2 = none) :
    exec (.linkFlitReceive c p ⟨slot, blocks⟩) s = .next ((s.readBlocks c ((s.slotLanes c p slot).zip blocks)).1.hearControl c p
      (s.readBlocks c ((s.slotLanes c p slot).zip blocks)).2) := by
  refine congrArg Host.Outcome.next ((if_neg (by simp [ready])).trans ((if_neg (by omega)).trans ?_))
  rw [none]

/-- A TEST block on a spare (R201). -/
theorem exec_linkFlitReceive_test {y l : Nat} {q : BitVec 31} {r : State × List (Option LinkBlock)} (spare : 2 ≤ slot)
    (hl : l = (s.slotLanes c p slot).headD 0) (hr : r = s.readBlocks c ((s.slotLanes c p slot).zip blocks))
    (test : r.2 = [some (.control 0x33 y)]) (runs : (r.1.lane c l).rxPrbs = some q) :
    (prbsNext q.toNat = y → exec (.linkFlitReceive c p ⟨slot, blocks⟩) s =
      .next (r.1.modLane c l fun k => { k with rxPrbs := some (BitVec.ofNat 31 (y >>> 25)) })) ∧
    (prbsNext q.toNat ≠ y → exec (.linkFlitReceive c p ⟨slot, blocks⟩) s =
      .next ((r.1.modLane c l fun k => { k with
        rxPrbs := some (BitVec.ofNat 31 (y >>> 25)), mismatches := if k.testing then k.mismatches + 1 else k.mismatches }).count
        .vlLaneErr c [l])) := by
  have ran : exec (.linkFlitReceive c p ⟨slot, blocks⟩) s = .next (r.1.hearTest c l (some (.control 0x33 y))) := by
    refine congrArg Host.Outcome.next ((if_neg (by simp [ready])).trans ((if_pos spare).trans ?_))
    rw [← hr, ← hl, test]
    rfl
  rw [ran]
  constructor
  · intro right
    simp [State.hearTest, runs, right]
  · intro wrong
    simp [State.hearTest, runs, wrong]

end

theorem linkFlits : Clauses.LinkFlits := by
  intro s c p slot blocks x r hx ready hr
  subst hx hr
  refine ⟨exec_linkFlitReceive_control ready, fun y q l spare hl test => exec_linkFlitReceive_test ready spare hl rfl test,
    fun flit w carries brings hw => ?_⟩
  subst hw
  have ran := exec_linkFlitReceive ready carries brings
  refine ⟨fun off => ?_, fun takes ctl => ?_, fun takes => exec_linkFlitReceive_data ready carries brings takes,
    fun takes other asks quiet => exec_linkFlitReceive_replay ready carries brings takes other quiet asks,
    fun takes => exec_linkFlitReceive_astray ready carries brings takes, fun takes => exec_linkFlitReceive_fourth ready carries brings takes⟩
  · rw [ran, if_pos off]
  · rw [ran, if_neg (by rw [takes]; decide), if_pos ctl]

end Sys2Proof.Machine
end

section
/-! LINKCTL_RECEIVE, ACK_TIMER, NAK_REPEAT and GROUP_CLOSE (R207, R208, R210, R211): what an acknowledgement frees and what is sent again, and what
the timers of a port send. -/

namespace Sys2Proof.Machine

open Sys2Proof

theorem ChannelFree.base : ChannelFree State.base := ⟨State.modCh_base, State.freeNext_base⟩

theorem ChannelFree.resend {α : Type} {g : State → α} (h : ChannelFree g) (s : State) (c : Ch) (p : Nat) : g (s.resend c p) = g s := by
  unfold State.resend
  extract_lets l
  split
  exacts [rfl, (h.putFlits ..).trans (h.modCh ..)]

/-- A port that has heard an acknowledgement (R207): its replay buffer behind ACKSEQ, and the credits of the far end. -/
def VPort.acked (x : VPort) (w : Nat) : VPort :=
  { x with txAcked := field w 20 12, unacked := x.unacked.filter (fun (k : KeptFlit) => !seqUpTo k.seq (field w 20 12)),
           far0 := field w 32 12, far1 := field w 44 12 }

/-- Whether one sequence number lies at or below another, as the distance between them has it. -/
theorem not_seqUpTo (a b : Nat) : (!seqUpTo a b) = decide (2048 ≤ (b + 4096 - a) % 4096) := by
  rw [seqUpTo, Bool.eq_iff_iff]
  simp

namespace State

variable {s : State} {c : Ch} {p w : Nat}

/-- Resending repeats what the replay buffer holds (R208, R210). -/
theorem port_resend (s : State) (c : Ch) (p : Nat) : (s.resend c p).port c p =
    { s.port c p with sent := if (s.port c p).unacked = [] then (s.port c p).sent
                              else (s.port c p).sent ++ [.resend ((s.port c p).unacked.map (·.flit))] } := by
  unfold State.resend State.putFlits
  extract_lets l
  by_cases none : (s.port c p).unacked = []
  · rw [if_pos (by unfold l; rw [none]; rfl), if_pos none]
  · rw [if_neg (by simpa [l] using none), if_neg none, port_sendBlocks, port_modPort_same]

/-- A port with nothing that waits sends nothing. -/
theorem flushPort_idle (idle : (s.port c p).queue = []) (idle1 : (s.port c p).queue1 = []) : s.flushPort c p = s :=
  if_pos (by rw [idle, idle1]; rfl)

theorem chainOn_idle (idle : s.base.forwarding = none) : s.chainOn c p = s := if_neg (by rw [idle]; exact Bool.false_ne_true)

/-- What a LINKCTL flit makes of a port that has nothing to send. -/
theorem takeCtl_idle (idle : s.base.forwarding = none) (queue : (s.port c p).queue = []) (queue1 : (s.port c p).queue1 = []) :
    s.takeCtl c p w = if 2 ≤ field w 16 4 then (s.modPort c p fun x => x.acked w).resend c p else s.modPort c p fun x => x.acked w := by
  unfold State.takeCtl
  extract_lets a v u
  have port : v.port c p = (s.port c p).acked w := port_modPort_same ..
  have base : u.base.forwarding = none := by
    have same : u.base = s.base := by
      unfold u
      split
      exacts [(ChannelFree.base.resend ..).trans (modCh_base ..), modCh_base ..]
    rw [same, idle]
  have waits : (u.port c p).queue = [] ∧ (u.port c p).queue1 = [] := by
    unfold u
    split
    · rw [port_resend, port]; exact ⟨queue, queue1⟩
    · rw [port]; exact ⟨queue, queue1⟩
  obtain ⟨idle0, idle1⟩ := waits
  rw [flushPort_idle idle0 idle1, chainOn_idle base]
  rfl

end State

section

variable {s : State} {c : Ch} {p slot : Nat} {blocks : List (BitVec 66)} {flit : BitVec 256}

theorem exec_linkctlReceive (ready : s.slotReady c p slot blocks = true) (carries : slot < 2)
    (brings : flitOf (s.readBlocks c ((s.slotLanes c p slot).zip blocks)).2 = some flit) (ctl : isCtl flit = true) (up : (s.port c p).state = .up) :
    exec (.linkctlReceive c p ⟨slot, blocks⟩) s = .next
      (if field flit.toNat 0 12 ≠ 0 ∨ bitAt flit.toNat 15 ∨ field flit.toNat 16 4 = 0 ∨ 3 < field flit.toNat 16 4 ∨
          field flit.toNat 56 168 ≠ 0 ∨ (s.port c p).inFlight < (field flit.toNat 20 12 + 4096 - (s.port c p).txAcked) % 4096 then
        (s.readBlocks c ((s.slotLanes c p slot).zip blocks)).1
       else (s.readBlocks c ((s.slotLanes c p slot).zip blocks)).1.takeCtl c p flit.toNat) := by
  refine congrArg Host.Outcome.next ((if_neg (by simp [ready]; omega)).trans ?_)
  dsimp only
  rw [brings]
  exact if_neg (by simp [ctl, up])

/-- An acknowledgement (R207, R208, R210) frees the replay buffer, and NAK and RESYNC send again what is left. -/
theorem exec_linkctlReceive_acked (ready : s.slotReady c p slot blocks = true) (carries : slot < 2)
    (brings : flitOf (s.readBlocks c ((s.slotLanes c p slot).zip blocks)).2 = some flit) (ctl : isCtl flit = true) (up : (s.port c p).state = .up)
    (idle : s.base.forwarding = none) (queue : (s.port c p).queue = []) (queue1 : (s.port c p).queue1 = []) (seq : field flit.toNat 0 12 = 0)
    (reserved : bitAt flit.toNat 15 = false) (rest : field flit.toNat 56 168 = 0) (low : 1 ≤ field flit.toNat 16 4)
    (high : field flit.toNat 16 4 ≤ 3) (sent : (field flit.toNat 20 12 + 4096 - (s.port c p).txAcked) % 4096 ≤ (s.port c p).inFlight) :
    ∃ (u : State) (l : List KeptFlit),
      l = (s.port c p).unacked.filter (fun k => decide (2048 ≤ (field flit.toNat 20 12 + 4096 - k.seq) % 4096)) ∧
      exec (.linkctlReceive c p ⟨slot, blocks⟩) s = .next u ∧ u.host = s.host ∧ u.designs = s.designs ∧
      u.port c p = { s.port c p with
        txAcked := field flit.toNat 20 12, unacked := l, far0 := field flit.toNat 32 12, far1 := field flit.toNat 44 12,
        sent := if 2 ≤ field flit.toNat 16 4 ∧ l ≠ [] then (s.port c p).sent ++ [.resend (l.map (·.flit))] else (s.port c p).sent } := by
  obtain ⟨lanes, read, -⟩ := State.readBlocks_flit brings
  have ran := exec_linkctlReceive ready carries brings ctl up
  have left : ((s.port c p).acked flit.toNat).unacked =
      (s.port c p).unacked.filter (fun k => decide (2048 ≤ (field flit.toNat 20 12 + 4096 - k.seq) % 4096)) :=
    List.filter_congr fun k _ => not_seqUpTo ..
  rw [if_neg (by simp only [seq, rest, reserved]; simp; omega), read, State.takeCtl_idle (by rw [State.withLanes_base, idle])
    (by rw [State.port_withLanes, queue]) (by rw [State.port_withLanes, queue1])] at ran
  have port : ((s.withLanes c lanes).modPort c p fun x => x.acked flit.toNat).port c p = (s.port c p).acked flit.toNat := by
    rw [State.port_modPort_same, State.port_withLanes]
  refine ⟨_, _, left, ran, ?_, ?_, ?_⟩
  · rw [apply_ite State.host, ChannelFree.host.resend, ite_self, State.modPort_host, State.withLanes_host]
  · rw [apply_ite State.designs, TrafficFree.designs.resend, ite_self, State.modPort_designs, State.withLanes_designs]
  · split
    · next again =>
      rw [State.port_resend, port]
      simp only [again, true_and, ne_eq, ite_not]
      rfl
    · next once =>
      rw [port]
      simp only [once, false_and, if_false]
      rfl

/-! ### Timers (R207, R208) -/

/-- ACK_TIMER sends one acknowledgement of what is unacknowledged or unreturned. -/
theorem exec_ackTimer (live : s.portLive c p = true) (up : (s.port c p).state = .up) :
    exec (.ackTimer c p) s = .next (if (s.port c p).sinceAck = 0 ∧ (s.port c p).freed0 = (s.port c p).told0 ∧
      (s.port c p).freed1 = (s.port c p).told1 then s else s.sendCtl c p 1) := by
  show execAckTimer c p s = _
  simp only [execAckTimer, live, up, Bool.true_eq_false, ne_eq, not_true_eq_false, false_or]

/-- NAK_REPEAT sends one NAK while the expected flit is missing. -/
theorem exec_nakRepeat (live : s.portLive c p = true) (up : (s.port c p).state = .up) :
    exec (.nakRepeat c p) s = .next (if (s.port c p).nak = false then s
      else ((s.count .vlReplays c [p]).modPort c p fun x => { x with nakHigh := x.rxHigh }).sendCtl c p 2) := by
  show execNakRepeat c p s = _
  simp only [execNakRepeat, live, up, Bool.true_eq_false, ne_eq, not_true_eq_false, false_or]

/-- The open group of a sender closes with one SEAL flit (R211). -/
theorem VPort.closeGroup_keyed {x : VPort} {k : BitVec 64} {e : Nat} {key : List Byte} (keyed : x.keys = some (k, e)) (opened : x.groupOpen ≠ []) :
    x.closeGroup key =
      { x with groupOpen := [], groupTx := x.groupTx + 1, groupsInEpoch := x.groupsInEpoch + 1, txNext := (x.txNext + 1) % 4096,
               unacked := x.unacked ++ [{ seq := x.txNext, flit := linkFlit x.txNext 1 0 ((groupTag key x.groupOpen x.groupTx
                 (sealTop x.groupTx x.groupOpen.length e)).toNat + 2 ^ 128 * sealTop x.groupTx x.groupOpen.length e), msg := none }] } := by
  unfold VPort.closeGroup
  rw [if_neg (by simpa using opened), keyed]
  rfl

end

theorem linkControl : Clauses.LinkControl := by
  intro s c p x hx hp
  subst hx
  refine ⟨fun slot blocks r flit w a hw ha ready carries hr brings ctl up idle queue queue1 => ?_, fun live up => ?_,
    fun k e top f keyed opened up room htop hf => ?_, fun closed => ?_⟩
  · subst hw ha hr
    refine ⟨exec_linkctlReceive_acked ready carries brings ctl up idle queue queue1, fun wrong => ?_⟩
    rw [exec_linkctlReceive ready carries brings ctl up, if_pos]
    rcases wrong with h | h | h | h | h | h <;> simp [h]
  · have ack := exec_ackTimer live up
    have nak := exec_nakRepeat live up
    refine ⟨fun due => ?_, fun acked told0 told1 => ?_, fun asked => ?_, fun quiet => ?_⟩
    · rw [if_neg (by tauto)] at ack
      exact ⟨_, ack, ChannelFree.host.sendCtl .., State.port_sendCtl ..⟩
    · rw [ack, if_pos ⟨acked, told0, told1⟩]
    · rw [if_neg (by rw [asked]; decide)] at nak
      refine ⟨_, nak, (ChannelFree.host.sendCtl ..).trans ((State.modPort_host ..).trans (State.count_host ..)), ?_, ?_⟩
      · rw [State.port_sendCtl, State.port_modPort_same, State.port_count]
        rfl
      · rw [State.reg_of_regs _ (ChannelFree.regs.sendCtl ..), State.reg_of_regs _ (State.modPort_regs ..)]
        exact State.reg_setReg_same ..
    · rw [nak, if_pos quiet]
  · subst htop hf
    obtain ⟨port, host, -⟩ := s.closeGroup_spec c p
    refine ⟨_, congrArg Host.Outcome.next (if_neg ?_), host, ?_⟩
    · simp [keyed, opened, up]; omega
    · rw [port, VPort.closeGroup_keyed keyed opened]
      rfl
  · refine congrArg Host.Outcome.next (if_pos ?_)
    simpa using closed

/-- Settles O47: a flit that arrives runs the descramblers on, and then its CRC, its kind and its number decide; each outcome has one lemma, as has
each LINKCTL flit and timer of a port. -/
theorem linkSequence : Obligations.LinkSequence := ⟨linkFlits, linkControl⟩

end Sys2Proof.Machine
end

section
/-! MESSAGE_FORWARD, VALUE_MESSAGE_RECEIVE, SLOT_HOME and SLOT_HOME_TIMER (R212, R214, R216, R217, R221): where a message goes on, what a record
makes of its design, and the map of the slots. -/

namespace Sys2Proof.Machine

open Sys2Proof

/-! ### Forwarding (R214, R221) -/

section

variable {s t : State} {c : Ch} {p dst src type ttl flits : Nat} {h : Heard}

/-- MESSAGE_FORWARD takes out the message that it names and sends it where its routes lead. -/
theorem exec_messageForward (carries : s.carries c p = true) (first : (s.port c p).inbox.find? (fun h => !s.forMe h) = some h)
    (names : [h.dst, h.src, h.type, h.ttl, h.rest.length] = [dst, src, type, ttl, flits]) (ht : t = s.takeOut c p h) :
    exec (.messageForward c p dst src type ttl flits) s = .next
      (if (if ttl = 0 then [] else t.portsTo c dst).isEmpty then t.count .vlDrops c []
       else (if ttl = 0 then [] else t.portsTo c dst).foldl (fun u q => u.sendOn c q
        (.forward dst h.vc1 (BitVec.ofNat 208 (h.head - 2 ^ 24) :: h.bodies.drop 1) h.arrived)) t) := by
  show execMessageForward c p dst src type ttl flits s = _
  unfold execMessageForward
  rw [first]
  dsimp only
  rw [if_neg (by simp only [carries, names]; simp), ← ht]

/-- A TWIN message is this module's own, whatever it names as DST. -/
theorem forMe_twin (s : State) {g : Heard} (twin : g.type = 7) : s.forMe g = true := by
  simp [State.forMe, twin]

end

theorem forwarding : Clauses.Forwarding := by
  intro s t c p dst src type ttl flits h carries first hdst hsrc htype httl hflits ht
  have ran := exec_messageForward (dst := dst) (src := src) (type := type) (ttl := ttl) (flits := flits) carries first
    (by rw [hdst, hsrc, htype, httl, hflits]) ht
  refine ⟨fun lost => ?_, fun live routed => ?_, fun g twin => forMe_twin s twin, fun u none => ?_⟩
  · rw [ran, if_pos]
    rcases lost with zero | nowhere
    · rw [if_pos zero]; rfl
    · rw [nowhere, ite_self]; rfl
  · rw [ran, if_neg (by omega : ¬ ttl = 0), if_neg (by simpa using routed)]
  · show execMessageForward c p dst src type ttl flits u = _
    unfold execMessageForward
    rw [none]

/-! ### VALUE messages (R212, R216, R217) -/

section

variable {s t : State} {c : Ch} {p src : Nat} {frame : BitVec 48} {r : LinkRec} {sure : Bool}

/-- A VALUE message of one record is taken from those that have verified, or ahead of its group. -/
theorem exec_valueMessageReceive (carries : s.carries c p = true)
    (comes : (sure = true ∧ ∃ h, Arrived s c p (some src) (.value 0 frame [r]) h t) ∨
      (sure = false ∧ s.heard c p (1, 0) = none ∧ t = s.modPort c p (fun x => { x with early := x.early + 1 }) ∧
        ∃ h, s.earlyValue c p = some h ∧ h.ok = true ∧ h.is (some src) (.value 0 frame [r]) = true)) :
    exec (.valueMessageReceive c p src frame [r]) s = .next (t.takeValue c p src frame [r] sure) := by
  show execValueMessageReceive c p src frame [r] s = _
  unfold execValueMessageReceive
  refine congrArg _ ((if_neg (by rw [carries]; decide)).trans ?_)
  rcases comes with ⟨rfl, h, came⟩ | ⟨rfl, none, rfl, h, early, ok, form⟩
  · have waits : s.heard c p (1, 0) = some h := came.first
    rw [waits]
    exact (if_pos rfl).trans (State.withMsg_arrived came _)
  · rw [none, early]
    exact (if_neg Bool.false_ne_true).trans (if_pos (by rw [ok, form]; rfl))

/-- One record is stale or not, and a stale one is reported. -/
theorem State.takeValue_single (t : State) (c : Ch) (p src : Nat) (frame : BitVec 48) (r : LinkRec) (sure : Bool) :
    t.takeValue c p src frame [r] sure =
      if (t.takeRecord c p src frame sure (t, false) r).2 then
        (t.takeRecord c p src frame sure (t, false) r).1.hubEvent c 0x4102 [chNum c, p, src]
      else (t.takeRecord c p src frame sure (t, false) r).1 := rfl

end

theorem linkRecords : Clauses.LinkRecords := by
  intro s t c p src frame r sure carries comes
  have ran := exec_valueMessageReceive carries comes
  rw [State.takeValue_single] at ran
  rw [ran]
  unfold State.takeRecord
  refine ⟨fun none => ?_, fun d bound => ⟨fun stale => ?_, fun fresh ahead => ?_,
    fun fresh expected => ⟨fun held => ?_, fun new v hv => ?_⟩⟩⟩
  · rw [none]
    rfl
  · simp only [bound, stale, if_true]
    exact ⟨_, rfl, State.event_told ..⟩
  · simp only [bound, fresh, ahead, Bool.false_eq_true, if_false, if_true]
  · simp only [bound, fresh, expected, held, Bool.false_eq_true, if_false, if_true]
  · subst hv
    refine ⟨fun verified => ?_, fun unverified => ⟨{ design := d.tag, cab := d.span.headD 0, attempt := 0, frame := (frame + 1).toNat,
                                                     addr := r.slot, link := some p }, rfl, rfl, rfl, rfl, ?_⟩⟩
    · simp only [bound, fresh, expected, new, verified, Bool.false_eq_true, if_false, if_true]
    · simp only [bound, fresh, expected, new, unverified, Bool.false_eq_true, if_false]

/-! ### SLOT_HOME (R217) -/

/-- What a hub takes over from a SLOT_HOME: the map of the sender, and no VALUE message that waited for it. -/
def LinkSt.learned (k : LinkSt) (src : Nat) (map : BitVec 512) : LinkSt :=
  { k with homes := KV.put 0 src map k.homes, haveHome := insKey src k.haveHome, waiting := k.waiting.filter (fun e => e.2.1 != src) }

namespace State

/-- A hub learns a map, and what waited for it goes. -/
def learn (src : Nat) (map : BitVec 512) (s : State) (c : Ch) : State :=
  ((s.ch c).link.waiting.filter (fun e => e.2.1 == src)).foldl (fun s e => s.sendRecs c e.1 src e.2.2.1 e.2.2.2)
    (s.modLink c fun k => k.learned src map)

theorem learn_idle {s : State} {c : Ch} {src : Nat} {map : BitVec 512} (none : (s.ch c).link.waiting = []) :
    s.learn src map c = s.modLink c fun k => k.learned src map := by
  rw [learn, none]
  rfl

theorem link_modLink (s : State) (c x : Ch) (f : LinkSt → LinkSt) :
    ((s.modLink c f).ch x).link = if x = c then f (s.ch x).link else (s.ch x).link := by
  cases c <;> cases x <;> rfl

theorem port_modLink (s : State) (c x : Ch) (f : LinkSt → LinkSt) (p : Nat) : (s.modLink c f).port x p = s.port x p := by
  cases c <;> cases x <;> rfl

/-- Channels in which nothing waits learn a map, and nothing else changes. -/
theorem learn_channels {l : List Ch} {src : Nat} {map : BitVec 512} {t : State} (distinct : l.Nodup)
    (idle : ∀ g ∈ l, (t.ch g).link.waiting = []) :
    (l.foldl (learn src map) t).host = t.host ∧ (l.foldl (learn src map) t).designs = t.designs ∧
    (∀ x p, (l.foldl (learn src map) t).port x p = t.port x p) ∧
    ∀ g, ((l.foldl (learn src map) t).ch g).link = if g ∈ l then (t.ch g).link.learned src map else (t.ch g).link := by
  induction l generalizing t with
  | nil => exact ⟨rfl, rfl, fun _ _ => rfl, fun _ => rfl⟩
  | cons c l ih =>
    obtain ⟨out, distinct⟩ := List.nodup_cons.mp distinct
    have other : ∀ g ∈ l, g ≠ c := fun g hg same => out (same ▸ hg)
    rw [List.foldl_cons, learn_idle (idle c (List.mem_cons_self ..))]
    obtain ⟨host, designs, port, link⟩ := ih (t := t.modLink c fun k => k.learned src map) distinct fun g hg => by
      rw [link_modLink, if_neg (other g hg), idle g (List.mem_cons_of_mem _ hg)]
    refine ⟨host.trans (modCh_host ..), designs.trans (modCh_designs ..), fun x p => (port x p).trans (port_modLink ..), fun g => ?_⟩
    rw [link, link_modLink]
    by_cases same : g = c
    · rw [if_neg (same ▸ out), if_pos same, if_pos (by simp [same])]
    · rw [if_neg same]
      simp only [List.mem_cons, same, false_or]

/-- The channels of a module do not repeat. -/
theorem channels_nodup (s : State) : s.channels.Nodup := by
  unfold State.channels
  split <;> decide

theorem channels_takeOut (s : State) (c : Ch) (p : Nat) (h : Heard) : (s.takeOut c p h).channels = s.channels := by
  cases c <;> rfl

theorem link_takeOut (s : State) (c x : Ch) (p : Nat) (h : Heard) : ((s.takeOut c p h).ch x).link = (s.ch x).link := by
  cases c <;> cases x <;> rfl

end State

theorem slotHomes : Clauses.SlotHomes := by
  intro s c
  refine ⟨fun p h t src map came idle => ?_, fun none => ?_, fun d m q one home remote speaks route => ?_⟩
  · have ran : exec (.slotHome c src map) s = .next (t.channels.foldl (State.learn src map) t) := by
      refine congrArg Host.Outcome.next ?_
      unfold State.withMsgOn
      rw [came.port]
      exact State.withMsg_arrived came.toArrived _
    have link : ∀ g, (t.ch g).link = (s.ch g).link := fun g => by rw [came.taken, State.link_takeOut]
    have channels : t.channels = s.channels := by rw [came.taken, State.channels_takeOut]
    rw [channels] at ran
    obtain ⟨host, designs, port, learned⟩ := State.learn_channels (src := src) (map := map) (t := t) s.channels_nodup
      fun g hg => (by rw [link, idle g hg])
    refine ⟨_, ran, host.trans (by rw [came.taken, State.takeOut_host]), designs.trans (by rw [came.taken, State.takeOut_designs]), port c p,
      fun g hg => ?_⟩
    rw [learned, if_pos hg, link]
    exact ⟨KV.get_put_same .., mem_insKey.mpr (.inl rfl), rfl⟩
  · refine congrArg Host.Outcome.next (foldl_keeps_mem (g := id) (fun u d hd => ?_) s)
    exact if_neg (none d hd)
  · refine congrArg Host.Outcome.next ?_
    rw [one, List.foldl_cons, List.foldl_nil, if_pos home]
    unfold State.sendSlotHome
    rw [remote, List.foldl_cons, List.foldl_nil, State.sendTo, speaks, if_neg Bool.false_ne_true, route]
    rfl

/-- Settles O49: each command takes up the message that it names, and what follows goes by its routes, by the design that has bound its slot, or by
the channels of the module. -/
theorem linkMessages : Obligations.LinkMessages := ⟨forwarding, linkRecords, slotHomes⟩

end Sys2Proof.Machine
end

section
/-! MEM messages (R147, R149, R154, R213, R222): what a request is answered with, what a response and a timeout complete, and the entry that a
write leaves in the write buffer. -/

namespace Sys2Proof.Machine

open Sys2Proof

namespace State

variable {s t : State} {c : Ch} {p : Nat} {m : MemMsg}

/-! ### Responses and timeouts (R222) -/

theorem frameAt_modCh (s : State) (c : Ch) (f : Channel → Channel) (part : Nat) : (s.modCh c f).frameAt part = s.frameAt part := by
  cases c <;> rfl

theorem cmd_modCh (s : State) (c : Ch) (f : Channel → Channel) (r : RingNo) (tag : Tag) : (s.modCh c f).cmd r tag = s.cmd r tag := by
  cases c <;> rfl

/-- A work item that a MEM request has asked for completes once the request is outstanding no longer. -/
theorem completeTag_modLink {r : RingNo} {tag : Tag} {cm : Cmd} (f : LinkSt → LinkSt) (found : s.cmd r tag = some cm) (st : Status)
    (dt : BitVec 128) : Done cm st (s.frameAt cm.desc.partition.toNat) dt (s.modLink c f) ((s.modLink c f).completeTag r tag st dt) := by
  have there : (s.modLink c f).cmd r tag = some cm := (cmd_modCh ..).trans found
  rw [State.completeTag, there, ← frameAt_modCh s c fun h => { h with link := f h.link }]
  exact complete_done ..

/-! ### Writes through the write buffer (R143, R148, R149) -/

/-- Bytes that end within the line in which they begin are one piece. -/
theorem linePieces_one {addr : Nat} {data : List Byte} (some : data ≠ []) (fits : addr % 64 + data.length ≤ 64) :
    linePieces addr data = [(addr, data)] := by
  have size : 0 < data.length := List.length_pos_iff.mpr some
  have one : (addr + data.length + 63) / 64 - addr / 64 = 1 := by omega
  have first : max (addr / 64 * 64) addr = addr := by omega
  have line : linesOf addr data.length = [addr / 64 * 64] := by
    rw [linesOf, one]; rfl
  rw [linePieces, line, List.map_cons, List.map_nil, first, Nat.sub_self, List.drop_zero, List.take_of_length_le (by omega)]

/-- A partition whose quota has room drains nothing. -/
theorem makeRoom_fits {part n : Nat} (room : (s.ch c).hbm.quota part + n ≤ 2097152) (fuel : Nat) : s.makeRoom c part n fuel = s := by
  cases fuel with
  | zero => rfl
  | succ fuel => exact if_pos (.inl room)

/-- The committed entry of a write that ends within its line. -/
theorem commitWrite_line {d : Design} {addr : Nat} {data : List Byte} {part : Nat}
    (low : part = (d.allParts.filter (fun p => chOfPart p == c)).headD d.low) (some : data ≠ []) (fits : addr % 64 + data.length ≤ 64)
    (room : (s.ch c).hbm.quota part + data.length ≤ 2097152) : s.commitWrite c d addr data = s.modHbm c fun h => { h with
      wbuf := h.wbuf ++ [{ design := d.tag, partition := part, committed := true, step := 0, port := 0,
                           addr := addr, data := data, since := s.clock }] } := by
  unfold State.commitWrite
  extract_lets part'
  rw [linePieces_one some fits, List.foldl_cons, List.foldl_nil, ← show part = part' from low, makeRoom_fits room]

/-- A write into one region is answered behind its entry, where no partner of a pair takes it as well. -/
theorem memWrite_single {d : Design} {g : Region} {v : State}
    (hv : v = (t.hubMem c 22 (chOf g.side) d.tag (g.base + m.offset) (m.data.take (sizeBytes m.size)).length
      (m.data.take (sizeBytes m.size))).commitWrite (chOf g.side) d (g.base + m.offset) (m.data.take (sizeBytes m.size)))
    (single : v.pairRuns = false ∨ v.mode.primary = false) : t.memWrite c m d [g] = v.memAnswer c m 9 0 [] := by
  have alone : ¬ (v.pairRuns && v.mode.primary) = true := by
    rcases single with h | h <;> simp [h]
  subst hv
  exact congrArg (fun u : State => u.memAnswer c m 9 0 []) (if_neg alone)

end State

theorem memMessages : Clauses.MemMessages := by
  refine ⟨fun s t c p m h carries came => ?_, fun s c tag => ⟨fun none => ?_, fun q cm outstanding asked => ?_⟩,
    fun s c d addr data p low some fits room => ⟨_, State.commitWrite_line low some fits room, rfl, rfl, rfl, rfl, rfl⟩⟩
  · have ran : exec (.memMessageReceive c p m) s = execMemMessageReceive c p m s := rfl
    unfold execMemMessageReceive at ran
    rw [if_neg (by rw [carries]; decide), State.withMsg_arrived came] at ran
    have frame : ∀ part, t.frameAt part = s.frameAt part := fun part => by rw [came.taken]; exact State.frameAt_modCh ..
    rw [ran]
    refine ⟨fun request none => ?_, fun d g n v target read hn hv => ?_, fun d g target write runs => ?_,
      fun d g v target write stopped hv single => ?_,
      fun response => ?_⟩
    · rcases (by omega : m.op = 0 ∨ m.op = 1) with op | op <;> simp only [op, none, State.memAnswer]
    · subst hn hv
      simp only [read, target, List.length_cons, List.length_nil, Nat.zero_add, BEq.rfl, Bool.or_true, List.find?_cons_of_pos]
      refine ⟨fun sound keyed => ?_, fun sound unkeyed => ?_, fun bad => ?_⟩
      · simp only [sound, keyed, Bool.false_eq_true, if_false]
      · simp only [sound, unkeyed, Bool.false_eq_true, if_false, if_true]
      · simp only [bad, if_true]
    · simp only [write, target, if_pos runs]
    · simp only [write, target, stopped, reduceCtorEq, or_self, if_false]
      rw [State.memWrite_single hv single]
    · refine ⟨fun none => ?_, fun q cm outstanding asked => ⟨_, ?_, frame _ ▸ State.completeTag_modLink _ asked _ _⟩⟩
      · rcases response with op | op <;> simp only [op, none]
      · rcases response with op | op <;> simp only [op, outstanding]
  · show execMemTimeout c tag s = _
    unfold execMemTimeout
    rw [none]
  · refine ⟨_, ?_, State.completeTag_modLink _ asked _ _⟩
    show execMemTimeout c tag s = _
    unfold execMemTimeout
    rw [outstanding]

/-- Settles O50: a request is answered by what its target allows, a response and a timeout complete the work item that asked once its request is
outstanding no longer, and a write that ends within its line is one committed entry. -/
theorem linkMemory : Obligations.LinkMemory := memMessages

end Sys2Proof.Machine
end

section
/-! The step, the queue, and what holds for every command of a ring (R235, R236, R289; log entry 3). -/

namespace Sys2Proof.Machine

open Sys2Proof

/-- Settles O1: the step takes the command at the front and leaves the rest of the queue to the state that it runs on. -/
theorem stepRunsFront : Obligations.StepRunsFront := fun _ _ => rfl

/-- Settles O2: what every command keeps holds the queue and the clock. -/
theorem execKeepsQueue : Obligations.ExecKeepsQueue := fun i s u ran =>
  have kept : Kept s u := Keeps.exec (Kept.refl s) i u ran
  ⟨kept.queue, kept.clock⟩

/-! ### Commands of the rings -/

/-- A row that carries out a command of a ring reaches the command's own effect through `withCmd` alone. -/
theorem exec_of_ringForm {i : Instr} {r : RingNo} {t : Tag} {op : Nat} (form : ringForm i = some (r, t, op)) (s : State) :
    ∃ f, exec i s = .next (s.withCmd r t op f) := by
  unfold ringForm at form
  split at form <;> cases form
  all_goals exact ⟨_, rfl⟩

/-- A command whose FENCE is not open waits (R235). -/
theorem State.withCmd_fenced {s : State} {r : RingNo} {t : Tag} {m : Cmd} (op : Nat) (f : State → Cmd → State) (found : s.cmd r t = some m)
    (closed : s.fenceOpen m = false) : s.withCmd r t op f = s := by
  rw [State.withCmd, found]
  exact if_pos (.inr (.inr (.inl closed)))

theorem latchCompletesTamper : Clauses.LatchCompletesTamper := by
  intro i r t op s m form other due latched
  obtain ⟨f, ran⟩ := exec_of_ringForm form s
  exact ⟨_, by rw [ran, State.withCmd_tamper f due latched other], s.complete_done m .tamper 0⟩

theorem fenceHolds : Clauses.FenceHolds := by
  intro i r t op s m form found closed
  obtain ⟨f, ran⟩ := exec_of_ringForm form s
  rw [ran, State.withCmd_fenced op f found closed]

theorem nopCompletes : Clauses.NopCompletes := by
  intro s r t m due
  have ran : s.withCmd r t 0x01 (fun s m => s.complete m .ok 0) = s.complete m .ok 0 :=
    (State.withCmd_due _ due).trans (if_neg (by simp))
  exact ⟨_, congrArg Host.Outcome.next ran, s.complete_done m .ok 0⟩

/-- Settles O5: every row of a ring goes through `withCmd`, where the FENCE and the tamper latch stand before the command's own effect. -/
theorem ringCommandRules : Obligations.RingCommandRules := ⟨latchCompletesTamper, fenceHolds, nopCompletes⟩

end Sys2Proof.Machine
end

section
/-! Partitions, slots and the run of a design (R80, R236, R273, R307, R311): ASSIGN and RECLAIM, OPEN_SLOT and CLOSE_SLOT, RUN, STEP and STOP. -/

namespace Sys2Proof.Machine

open Sys2Proof

namespace State

variable {s u : State} {d : Design}

/-! ### Frame numbers and partitions -/

/-- The frame number of a partition goes by the designs and by which of them holds it. -/
theorem frameAt_of_designs (designs : u.designs = s.designs) (parts : ∀ p, (u.part p).design = (s.part p).design) (p : Nat) :
    u.frameAt p = s.frameAt p := by
  simp only [State.frameAt, State.designAt, State.design, designs, parts]

/-- Several partitions that take an owner, in the table of partitions. -/
theorem get_parts_own (s : State) (ps : List Nat) (owner p : Nat) :
    KV.get {} p (s.modParts ps fun x => { x with owner := owner }).parts = if p ∈ ps then { s.part p with owner := owner } else s.part p :=
  s.part_modParts ps (fun x => { x with owner := owner }) (fun _ => rfl) p

theorem frameAt_own (s : State) (ps : List Nat) (owner p : Nat) :
    (s.modParts ps fun x => { x with owner := owner }).frameAt p = s.frameAt p := by
  refine frameAt_of_designs (by rw [modParts_rest]) (fun q => ?_) p
  rw [part_modParts _ _ (fun x => { x with owner := owner }) fun _ => rfl]
  split <;> rfl

end State

/-! ### ASSIGN and RECLAIM (R236) -/

theorem Carried.own {i : Instr} {s : State} {r : RingNo} {t : Tag} {op : Nat} {m : Cmd} {f : State → Cmd → State} (ready : Ready s r t op m)
    (ran : exec i s = .next (s.withCmd r t op f)) (ps : List Nat) (owner : Nat)
    (owns : f s m = (s.modParts ps fun p => { p with owner := owner }).complete m .ok 0) :
    ∃ qs, Carried i s { s with parts := qs } m .ok 0 ∧ ∀ p, KV.get {} p qs = if p ∈ ps then { s.part p with owner := owner } else s.part p := by
  refine ⟨_, ?_, s.get_parts_own ps owner⟩
  rw [← State.modParts_rest]
  exact Carried.of_ready f ready ran owns (s.frameAt_own ..)

theorem assignReclaim : Clauses.AssignReclaim := by
  intro s r t m
  refine ⟨fun ready => ⟨fun opened exist free => ?_, fun barred => ?_⟩, fun ready => ⟨fun exist empty => ?_, fun ⟨p, hp, busy⟩ => ?_⟩⟩
  · refine Carried.own ready rfl _ _ (if_pos ?_)
    rw [opened, exist, Bool.true_and, Bool.true_and, List.all_eq_true]
    intro p hp
    simpa using free p hp
  · refine Carried.of_ready _ ready rfl (if_neg fun ok => ?_) rfl
    simp only [Bool.and_eq_true, List.all_eq_true, beq_iff_eq, Bool.or_eq_true] at ok
    obtain ⟨⟨opened, -⟩, free⟩ := ok
    rcases barred with closed | ⟨p, hp, busy | ⟨owned, other⟩⟩
    · rw [closed] at opened; cases opened
    · exact busy (free p hp).1
    · exact (free p hp).2.elim owned other
  · refine Carried.own ready rfl _ _ (if_pos ?_)
    rw [exist, Bool.true_and, List.all_eq_true]
    intro p hp
    simpa using empty p hp
  · refine Carried.of_ready _ ready rfl (if_neg fun ok => busy ?_) rfl
    simp only [Bool.and_eq_true, List.all_eq_true, beq_iff_eq] at ok
    exact ok.2 p hp

/-! ### OPEN_SLOT and CLOSE_SLOT (R273, R268) -/

/-- A command that is answered is outstanding no longer. -/
theorem Done.answered {m : Cmd} {st : Status} {fr : BitVec 48} {dt : BitVec 128} {s u : State} (done : Done m st fr dt s u) :
    u.cmd m.ring m.desc.tag = none := by
  obtain ⟨-, cmds, -⟩ := done
  rw [State.cmd, cmds, List.find?_eq_none]
  intro x hx
  have other := (List.mem_filter.mp hx).2
  simpa [Cmd.is, ← not_and_or] using other

namespace State

/-- What CLOSE_SLOT reads beside the ranges: the partitions, the mailbox and the Hutches. -/
def besideRanges (s : State) : KV Part × SecSt × Hutch × Hutch := (s.parts, s.sec, s.chA.hutch, s.chB.hutch)

theorem besideRanges_clearRange (s : State) (c : Ch) (r owner mode : Nat) (job : ClearJob) :
    (s.clearRange c r owner mode job).besideRanges = s.besideRanges := by
  cases c <;> rfl

/-- Ending the session of a principal takes its records out of the mailbox, and changes neither partitions nor Hutches. -/
theorem endSession_spec (s : State) (w : Sess) : (s.endSession w).parts = s.parts ∧ (s.endSession w).sec.slots = s.sec.slots ∧
    (∀ x ∈ (s.endSession w).sec.sessions, x.who ≠ w) ∧ ∀ c, ((s.endSession w).ch c).hutch = (s.ch c).hutch := by
  unfold State.endSession
  split
  · generalize hv : s.modSec (fun x => { x with sessions := x.sessions.filter (fun y => y.who != w) }) = v
    have quiet : Quiet v (v.hostEvent 0x6006 [w.num, 2]) := v.event_quiet ..
    refine ⟨?_, ?_, ?_, fun c => ?_⟩
    · rw [quiet.parts, ← hv]; rfl
    · rw [quiet.1, ← hv]; rfl
    · rw [quiet.1, ← hv]
      intro x hx
      simpa using (List.mem_filter.mp hx).2
    · rw [quiet.ch, ← hv]; cases c <;> rfl
  next none => exact ⟨rfl, rfl, fun x hx same => List.find?_eq_none.mp none x hx (by simpa using same), fun _ => rfl⟩

/-- A closed slot has no key, no session and no entry; other slots stay open. -/
theorem closeSlot_spec (s : State) (slot : Nat) : (s.closeSlot slot).parts = s.parts ∧
    (s.closeSlot slot).sec.slots = KV.del slot s.sec.slots ∧ (∀ x ∈ (s.closeSlot slot).sec.sessions, x.who ≠ .tenant slot) ∧
    ∀ k ∈ (s.closeSlot slot).chA.hutch.keys ++ (s.closeSlot slot).chB.hutch.keys, k.holder ≠ slot := by
  obtain ⟨parts, open', ended, -⟩ := s.endSession_spec (.tenant slot)
  refine ⟨parts, congrArg (KV.del slot) open', ended, fun k hk => ?_⟩
  rcases List.mem_append.mp hk with hk | hk <;> simpa using (List.mem_filter.mp hk).2

end State

theorem slots : Clauses.Slots := by
  intro s r t m
  refine ⟨fun ready => ⟨fun closed => ?_, fun opened => ?_⟩, fun ready => ⟨fun opened free idle => ?_, fun barred => ?_⟩⟩
  · exact Carried.of_ready _ ready rfl (if_neg (by rw [closed]; exact Bool.false_ne_true)) rfl
  · exact Carried.of_ready _ ready rfl (if_pos opened) rfl
  · obtain ⟨ring, tag⟩ := State.cmd_found ready.found
    have barred : ((KV.get none (m.desc.par 8 1) s.sec.slots).isNone ||
        (List.range 8).any (fun p => (s.part p).owner == m.desc.par 8 1)) = false := by
      rw [Bool.or_eq_false_iff, Option.isNone_eq_false_iff, List.any_eq_false]
      exact ⟨opened, fun p hp => by simpa using free p (List.mem_range.mp hp)⟩
    have clearing : ¬ ([Ch.a, Ch.b].any fun c => (s.ch c).ranges.any fun e => e.2.owner == m.desc.par 8 1 && e.2.state == 1) = true := by
      simp only [List.any_eq_true, Bool.and_eq_true, beq_iff_eq, not_exists, not_and]
      exact fun c _ e he owned => idle c e he owned
    refine ⟨_, congrArg Host.Outcome.next ((State.withCmd_ready _ ready).trans
      ((if_neg (by rw [barred]; exact Bool.false_ne_true)).trans (if_neg clearing))), ?_⟩
    generalize hv : [Ch.a, Ch.b].foldl (fun s c => (s.ch c).ranges.foldl (fun s e =>
      if e.2.owner = m.desc.par 8 1 then s.clearRange c e.1 0 0 { remove := true, ring := 0, tag := 0, answer := false } else s) s) s = v
    have kept : v.besideRanges = s.besideRanges := by
      rw [← hv]
      refine foldl_keeps State.besideRanges (fun s c => foldl_keeps State.besideRanges (fun s e => ?_) _ _) _ _
      split
      exacts [s.besideRanges_clearRange .., rfl]
    have parts : v.parts = s.parts := congrArg (·.1) kept
    have sec : v.sec = s.sec := congrArg (·.2.1) kept
    obtain ⟨parts', slots', ended, dropped⟩ := v.closeSlot_spec (m.desc.par 8 1)
    have done := (v.closeSlot (m.desc.par 8 1)).complete_done m .ok 0
    refine ⟨?_, ring ▸ tag ▸ done.answered, ?_, fun k other => ?_, ?_, ?_⟩
    · rw [done.1]; exact parts'.trans parts
    · rw [done.1]; simp [slots']
    · rw [done.1]
      simp [slots', sec, KV.get_del_other _ other]
    · rw [done.1]; exact ended
    · rw [done.1]; exact dropped
  · refine Carried.of_ready _ ready rfl (if_pos ?_) rfl
    rcases barred with closed | ⟨p, hp, owned⟩
    · simp [closed]
    · simp only [Bool.or_eq_true, List.any_eq_true, List.mem_range, beq_iff_eq]
      exact .inr ⟨p, hp, owned⟩

/-- Settles O7: owners change partition by partition, and a slot opens or closes with what it holds. -/
theorem tenancy : Obligations.Tenancy := ⟨assignReclaim, slots⟩

/-! ### The state of a design and its partitions (R307, R319) -/

namespace State

variable {s : State} {d : Design}

/-- Two updates of the design with a tag are one. -/
theorem modDesign_modDesign (s : State) (tag : Nat) (f g : Design → Design) (keeps : ∀ x, x.tag = tag → (g x).tag = tag) :
    (s.modDesign tag g).modDesign tag f = s.modDesign tag fun x => f (g x) := by
  unfold State.modDesign
  simp only [List.map_map]
  congr 1
  refine List.map_congr_left fun x _ => ?_
  by_cases same : x.tag = tag
  · simp [same, keeps x same]
  · simp [same]

/-- The partitions of a design take its state, but for those of a fenced copy. -/
theorem get_parts_setDesignState (s : State) (d : Design) (st : PartState) (p : Nat) : KV.get {} p (s.setDesignState d st).parts =
    if p ∈ d.allParts ∧ some (chOfPart p) ≠ d.fencedSide then { s.part p with state := st } else s.part p := by
  have set := (s.modDesign d.tag fun d => { d with state := st }).part_modParts
    (d.allParts.filter (fun p => some (chOfPart p) != d.fencedSide)) (fun p => { p with state := st }) (fun _ => rfl) p
  refine set.trans ?_
  simp only [List.mem_filter, bne_iff_ne]
  rfl

theorem setDesignState_rest (s : State) (d : Design) (st : PartState) : s.setDesignState d st =
    { s with parts := (s.setDesignState d st).parts, designs := (s.modDesign d.tag fun d => { d with state := st }).designs } := by
  unfold State.setDesignState
  rw [State.modParts_rest]
  rfl

/-- A design that starts runs in its partitions, under the run of the command that started it. -/
theorem startDesign_spec (s : State) (d : Design) (m : Cmd) (n : Option Nat) (wait : Bool) : ∃ ps, s.startDesign d m n wait =
    { s.start m with
      parts := ps,
      designs := s.designs.map (fun x => if x.tag = d.tag then
        { x with state := .running, run := some { ring := m.ring, tag := m.desc.tag, left := n, waitLaunch := wait } } else x) } ∧
    ∀ p, KV.get {} p ps = if p ∈ d.allParts ∧ some (chOfPart p) ≠ d.fencedSide then { s.part p with state := .running } else s.part p := by
  have both := congrArg State.designs ((s.start m).modDesign_modDesign d.tag
    (fun x => { x with run := some { ring := m.ring, tag := m.desc.tag, left := n, waitLaunch := wait } })
    (fun x => { x with state := .running }) fun _ h => h)
  refine ⟨_, ?_, (s.start m).get_parts_setDesignState d .running⟩
  unfold State.startDesign
  dsimp only
  rw [setDesignState_rest]
  exact congrArg (fun l => { s.start m with parts := ((s.start m).setDesignState d .running).parts, designs := l }) both

/-- A design that is asked to stop and is held by nothing stops at its next commit (R80). -/
theorem requestStop_spec (q : StopReq) (free : d.held = false) (on : d.disabled = false) (alone : d.waitPartner = false)
    (launched : ∀ x, d.run = some x → x.waitLaunch = false) : ∃ ps, s.requestStop d q =
    { s with
      parts := ps,
      designs := s.designs.map (fun x => if x.tag = d.tag then { x with state := .stopping, stops := x.stops ++ [q] } else x) } ∧
    ∀ p, KV.get {} p ps = if p ∈ d.allParts ∧ some (chOfPart p) ≠ d.fencedSide then { s.part p with state := .stopping } else s.part p := by
  have wait : (d.run.map (·.waitLaunch)).getD false = false := by
    cases h : d.run with
    | none => rfl
    | some x => exact launched x h
  have both := congrArg State.designs
    (s.modDesign_modDesign d.tag (fun x => { x with state := .stopping }) (fun x => { x with stops := x.stops ++ [q] }) fun _ h => h)
  refine ⟨_, ?_, (s.modDesign d.tag fun x => { x with stops := x.stops ++ [q] }).get_parts_setDesignState d .stopping⟩
  unfold State.requestStop
  extract_lets t
  rw [free, on, alone, wait, Bool.false_or, Bool.or_false, Bool.or_false, Bool.and_false, if_neg Bool.false_ne_true, setDesignState_rest]
  exact congrArg (fun l => { s with parts := (t.setDesignState d .stopping).parts, designs := l }) both

end State

/-! ### RUN, STEP and STOP (R236, R307, R311) -/

theorem runStep : Clauses.RunStep := by
  intro s r t m
  refine ⟨fun ready => ⟨fun d found can may => ?_, fun d found cannot => ?_, fun none => ?_⟩,
    fun ready => ⟨fun idle d found debug can => ?_, fun idle cannot => ?_, fun loading => ?_⟩⟩
  · obtain ⟨ps, starts, parts⟩ := s.startDesign_spec d m (if m.desc.par 8 6 = 0 then none else some (m.desc.par 8 6))
      (bitAt (m.desc.par 16 1) 0)
    refine ⟨ps, _, congrArg Host.Outcome.next ((State.withCmd_ready _ ready).trans ?_), parts, rfl⟩
    rw [found]
    exact (if_pos (by rw [can, may]; rfl)).trans starts
  · refine Carried.of_ready _ ready rfl ?_ rfl
    rw [found]
    exact if_neg (by rw [cannot]; exact Bool.false_ne_true)
  · refine Carried.of_ready _ ready rfl ?_ rfl
    rw [none]
  · obtain ⟨ps, starts, parts⟩ := s.startDesign_spec d m (some 1) false
    refine ⟨ps, _, congrArg Host.Outcome.next ((State.withCmd_ready _ ready).trans ?_), parts, rfl⟩
    rw [idle, found]
    exact (if_neg Bool.false_ne_true).trans ((if_pos (by rw [debug, can]; rfl)).trans starts)
  · refine Carried.of_ready _ ready rfl ?_ rfl
    rw [idle]
    refine (if_neg Bool.false_ne_true).trans ?_
    cases found : s.designAt m.desc.partition.toNat with
    | none => rfl
    | some d => exact if_neg (by rw [cannot d found]; exact Bool.false_ne_true)
  · exact Carried.of_ready _ ready rfl (if_pos loading) rfl

/-- STOP is one command on either ring. -/
theorem exec_stop {i : Instr} {op : Nat} {s : State} {r : RingNo} {t : Tag} {m : Cmd}
    (row : i = .operatorStop r t ∧ op = 0x06 ∨ i = .tenantStop r t ∧ op = 0x42) (ready : Ready s r t op m) : exec i s = .next (s.doStop m) := by
  rcases row with ⟨rfl, rfl⟩ | ⟨rfl, rfl⟩ <;> exact congrArg Host.Outcome.next (State.withCmd_ready _ ready)

theorem stopRequests : Clauses.StopRequests := by
  intro i op s r t m row ready
  have ran := exec_stop row ready
  unfold State.doStop at ran
  refine ⟨fun none => ?_, fun d found still calm => ?_, fun d found runs free on alone launched => ?_⟩
  · rw [none] at ran
    exact ⟨_, ran, s.complete_done ..⟩
  · rw [found] at ran
    exact ⟨_, ran.trans (congrArg Host.Outcome.next (if_neg (by simp [still, calm]))), s.complete_done ..⟩
  · rw [found] at ran
    obtain ⟨ps, asked, parts⟩ := State.requestStop_spec (s := s.start m) _ free on alone launched
    exact ⟨ps, _, ran.trans (congrArg Host.Outcome.next ((if_pos (.inl runs)).trans asked)), parts, rfl⟩

/-- Settles O8: starting and stopping are one update of the design and one of its partitions. -/
theorem runAndStop : Obligations.RunAndStop := ⟨runStep, stopRequests⟩

end Sys2Proof.Machine
end

section
/-! UNLOAD and ABORT (R236, R245, R254, R307): what removing a design leaves alone, and what an ABORT answers. -/

namespace Sys2Proof.Machine

open Sys2Proof

namespace State

variable {s u : State} {tag : Nat}

/-! ### What the release of a design leaves alone -/

/-- The partitions, the designs of other tags, and the HBM contents and ranges of both channels. -/
def besideDesign (tag : Nat) (s : State) : KV Part × List Design × (Memory × KV KRange) × (Memory × KV KRange) :=
  (s.parts, s.designs.filter (fun x => x.tag != tag), (s.chA.hbm.mem, s.chA.ranges), (s.chB.hbm.mem, s.chB.ranges))

theorem besideDesign_modCh (s : State) (c : Ch) {f : Channel → Channel} (mem : ∀ h, (f h).hbm.mem = h.hbm.mem)
    (ranges : ∀ h, (f h).ranges = h.ranges) : (s.modCh c f).besideDesign tag = s.besideDesign tag := by
  cases c <;> simp [besideDesign, mem, ranges]

theorem besideDesign_modGuest (s : State) (c : Ch) (f : GuestSt → GuestSt) : (s.modGuest c f).besideDesign tag = s.besideDesign tag :=
  s.besideDesign_modCh c (fun _ => rfl) (fun _ => rfl)
theorem besideDesign_modFab (s : State) (c : Ch) (f : FabSt → FabSt) : (s.modFab c f).besideDesign tag = s.besideDesign tag :=
  s.besideDesign_modCh c (fun _ => rfl) (fun _ => rfl)
theorem besideDesign_modTime (s : State) (c : Ch) (f : TimeSt → TimeSt) : (s.modTime c f).besideDesign tag = s.besideDesign tag :=
  s.besideDesign_modCh c (fun _ => rfl) (fun _ => rfl)
theorem besideDesign_modHutch (s : State) (c : Ch) (f : Hutch → Hutch) : (s.modHutch c f).besideDesign tag = s.besideDesign tag :=
  s.besideDesign_modCh c (fun _ => rfl) (fun _ => rfl)
theorem besideDesign_modMport (s : State) (c : Ch) (k : Nat) (f : MPort → MPort) : (s.modMport c k f).besideDesign tag = s.besideDesign tag :=
  s.besideDesign_modCh c (fun _ => rfl) (fun _ => rfl)

theorem besideDesign_of_host (h : u = { s with host := u.host }) : u.besideDesign tag = s.besideDesign tag := by rw [h]; rfl

theorem besideDesign_quiet (q : Quiet s u) : u.besideDesign tag = s.besideDesign tag := by rw [q.1]; rfl

theorem besideDesign_modDesign (s : State) (k : Nat) (f : Design → Design) (keeps : ∀ x, (f x).tag = x.tag)
    (same : k = tag) : (s.modDesign k f).besideDesign tag = s.besideDesign tag := by
  subst same
  have others : (s.modDesign k f).designs.filter (fun x => x.tag != k) = s.designs.filter (fun x => x.tag != k) := by
    unfold State.modDesign
    dsimp only
    induction s.designs with
    | nil => rfl
    | cons x l ih =>
      by_cases h : x.tag = k
      · simpa [h, keeps] using ih
      · simpa [h] using ih
  exact congrArg (fun l => (s.parts, l, (s.chA.hbm.mem, s.chA.ranges), (s.chB.hbm.mem, s.chB.ranges))) others

theorem besideDesign_complete (s : State) (m : Cmd) (st : Status) (dt : BitVec 128) : (s.complete m st dt).besideDesign tag = s.besideDesign tag :=
  besideDesign_of_host (s.complete_host ..)

theorem besideDesign_completeTag (s : State) (r : RingNo) (t : Tag) (st : Status) (dt : BitVec 128) :
    (s.completeTag r t st dt).besideDesign tag = s.besideDesign tag := by
  unfold State.completeTag
  split
  exacts [s.besideDesign_complete .., rfl]

theorem besideDesign_modDesignPort (s : State) (d : Design) (k : Nat) (f : MPort → MPort) :
    (s.modDesignPort d k f).besideDesign tag = s.besideDesign tag := by
  unfold State.modDesignPort
  split
  exacts [(besideDesign_modMport ..).trans (besideDesign_modMport ..), besideDesign_modMport ..]

theorem besideDesign_writeEntry (s : State) (r : RingNo) (e : Bool → Entry) : (s.writeEntry r e).besideDesign tag = s.besideDesign tag := by
  rw [(s.writeEntry_spec r e).1]
  rfl

theorem besideDesign_writeOutlet (s : State) (d : Design) (k : Nat) : (s.writeOutlet d k).besideDesign tag = s.besideDesign tag := by
  unfold State.writeOutlet
  extract_lets m
  split
  · exact (besideDesign_modDesignPort ..).trans (besideDesign_writeEntry ..)
  · rfl

theorem besideDesign_drainOutlets (s : State) (d : Design) (n : Nat) : (s.drainOutlets d n).besideDesign tag = s.besideDesign tag := by
  induction n generalizing s with
  | zero => rfl
  | succ n ih =>
    unfold State.drainOutlets
    split
    exacts [(ih _).trans (s.besideDesign_writeOutlet ..), rfl]

/-- The ports of a design go by completions, one event and the bindings (R265). -/
theorem besideDesign_releasePorts (s : State) (c : Ch) (d : Design) : (s.releasePorts c d).besideDesign tag = s.besideDesign tag := by
  unfold State.releasePorts
  refine foldl_keeps (State.besideDesign tag) (fun u e => ?_) _ _
  split
  · have answered : ((u.abortMsgs e.2.accepted).abortUnread e.2).besideDesign tag = u.besideDesign tag := by
      have accepted : (u.abortMsgs e.2.accepted).besideDesign tag = u.besideDesign tag :=
        foldl_keeps (State.besideDesign tag) (fun v m => v.besideDesign_completeTag ..) _ _
      refine Eq.trans ?_ accepted
      unfold State.abortUnread
      split
      exacts [foldl_keeps (State.besideDesign tag) (fun v m => v.besideDesign_complete ..) _ _, rfl]
    refine (besideDesign_modMport ..).trans (Eq.trans ?_ answered)
    split
    exacts [rfl, besideDesign_quiet (State.event_quiet ..)]
  · rfl

theorem besideDesign_unbindPorts (s : State) (c : Ch) (d : Design) : (s.unbindPorts c d).besideDesign tag = s.besideDesign tag := by
  unfold State.unbindPorts
  refine foldl_keeps (State.besideDesign tag) (fun u e => ?_) _ _
  split
  exacts [besideDesign_modMport .., rfl]

theorem besideDesign_clearImages (s : State) (c : Ch) (id : Nat) : (s.clearImages c id).besideDesign tag = s.besideDesign tag := by
  unfold State.clearImages
  extract_lets s1 drop
  have cleared : s1.besideDesign tag = s.besideDesign tag := s.besideDesign_modCh c (fun _ => rfl) (fun _ => rfl)
  split
  · exact cleared
  · exact (besideDesign_modHutch ..).trans ((besideDesign_modHutch ..).trans cleared)

theorem besideDesign_leaveGuest (s : State) (c : Ch) : (s.leaveGuest c).besideDesign tag = s.besideDesign tag := by
  unfold State.leaveGuest
  extract_lets s1
  have left : s1.besideDesign tag = s.besideDesign tag := besideDesign_modGuest ..
  split
  exacts [(besideDesign_modFab ..).trans ((besideDesign_modGuest ..).trans left), left]

theorem besideDesign_releaseChannel (s : State) (c : Ch) (d : Design) : (s.releaseChannel c d).besideDesign tag = s.besideDesign tag := by
  unfold State.releaseChannel
  extract_lets s1 s2 s3
  have ranges : s1.besideDesign tag = s.besideDesign tag := s.besideDesign_modCh c (fun _ => rfl) (fun _ => rfl)
  have reads : s2.besideDesign tag = s1.besideDesign tag := s1.besideDesign_modCh c (fun _ => rfl) (fun _ => rfl)
  have released : s3.besideDesign tag = s.besideDesign tag := (besideDesign_clearImages ..).trans (reads.trans ranges)
  split
  exacts [(besideDesign_leaveGuest ..).trans released, released]

theorem besideDesign_abortLaunches (s : State) (c : Ch) (sel : Launch → Bool) : (s.abortLaunches c sel).besideDesign tag = s.besideDesign tag := by
  unfold State.abortLaunches
  refine foldl_keeps (State.besideDesign tag) (fun u e => ?_) _ _
  split
  · split
    exacts [(besideDesign_modTime ..).trans (besideDesign_completeTag ..), rfl]
  · rfl

theorem besideDesign_dropEnds (s : State) (d : Design) (c : Ch) : (s.dropEnds d c).besideDesign d.tag = s.besideDesign d.tag := by
  unfold State.dropEnds
  extract_lets n
  split
  · rfl
  · exact (besideDesign_modDesign _ _ _ (fun x => by cases c <;> rfl) rfl).trans (besideDesign_quiet (State.event_quiet ..))

/-! ### A design that is removed (R138, R236, R307) -/

/-- What a design holds goes before the design does: its outlets, ports, channels, launches, work items and its capture. -/
def designReleased (s : State) (d : Design) : State :=
  let s := s.drainOutlets d (((s.portsOf d).map (fun e => e.2.released.length)).sum)
  let s := if d.twin then (s.unbindPorts (otherCh d.home) d).releasePorts d.home d
    else (s.releasePorts .a d).releasePorts .b d
  let s := (s.releaseChannel .a d).releaseChannel .b d
  let s := (s.abortLaunches .a (fun l => l.kind == 1 && d.allParts.contains l.partition)).abortLaunches .b
    (fun l => l.kind == 1 && d.allParts.contains l.partition)
  let s := (s.host.cmds.filter (fun m => m.started && decide (0x62 ≤ m.desc.opcode.toNat) && decide (m.desc.opcode.toNat ≤ 0x68) &&
    d.allParts.contains m.desc.partition.toNat)).foldl (fun s m => s.complete m .aborted 0) s
  if d.cap.on then d.capChans.foldl (fun s c => s.dropEnds d c) s else s

theorem removeDesign_eq (s : State) (d : Design) : s.removeDesign d =
    { s.designReleased d with
      pins := (s.designReleased d).pins.filter (fun e => e.2.design != d.tag),
      designs := (s.designReleased d).designs.filter (fun x => x.tag != d.tag) }.modParts d.allParts
        fun p => { p with state := .empty, design := 0 } := rfl

theorem besideDesign_designReleased (s : State) (d : Design) : (s.designReleased d).besideDesign d.tag = s.besideDesign d.tag := by
  unfold designReleased
  extract_lets s1 s2 s3 s4 s5
  have ports : s2.besideDesign d.tag = s1.besideDesign d.tag := by
    unfold s2
    split
    exacts [(besideDesign_releasePorts ..).trans (besideDesign_unbindPorts ..), (besideDesign_releasePorts ..).trans (besideDesign_releasePorts ..)]
  have released : s5.besideDesign d.tag = s.besideDesign d.tag := calc
    s5.besideDesign d.tag = s4.besideDesign d.tag := foldl_keeps (State.besideDesign d.tag) (fun v m => v.besideDesign_complete ..) _ _
    _ = s3.besideDesign d.tag := (besideDesign_abortLaunches ..).trans (besideDesign_abortLaunches ..)
    _ = s2.besideDesign d.tag := (besideDesign_releaseChannel ..).trans (besideDesign_releaseChannel ..)
    _ = s1.besideDesign d.tag := ports
    _ = s.besideDesign d.tag := besideDesign_drainOutlets ..
  split
  exacts [(foldl_keeps (State.besideDesign d.tag) (fun v c => v.besideDesign_dropEnds d c) _ _).trans released, released]

/-- A design that is removed leaves its partitions empty and with their tenant, and tenant memory as it was. -/
theorem removeDesign_spec (s : State) (d : Design) :
    (s.removeDesign d).designs = s.designs.filter (fun x => x.tag != d.tag) ∧
    (∀ p, (s.removeDesign d).part p = if p ∈ d.allParts then { s.part p with state := .empty, design := 0 } else s.part p) ∧
    (s.removeDesign d).chA.hbm.mem = s.chA.hbm.mem ∧ (s.removeDesign d).chB.hbm.mem = s.chB.hbm.mem ∧
    (s.removeDesign d).chA.ranges = s.chA.ranges ∧ (s.removeDesign d).chB.ranges = s.chB.ranges := by
  have kept := s.besideDesign_designReleased d
  have parts : (s.designReleased d).parts = s.parts := congrArg Prod.fst kept
  have part : ∀ p, (s.designReleased d).part p = s.part p := fun p => by rw [State.part, parts, State.part]
  rw [removeDesign_eq]
  refine ⟨?_, fun p => ?_, ?_, ?_, ?_, ?_⟩
  · rw [modParts_rest]; exact congrArg (·.2.1) kept
  · rw [part_modParts _ _ (fun p => { p with state := .empty, design := 0 }) fun _ => rfl]
    exact part p ▸ rfl
  · rw [modParts_rest]; exact congrArg (·.2.2.1.1) kept
  · rw [modParts_rest]; exact congrArg (·.2.2.2.1) kept
  · rw [modParts_rest]; exact congrArg (·.2.2.1.2) kept
  · rw [modParts_rest]; exact congrArg (·.2.2.2.2) kept

end State

/-! ### UNLOAD (R236, R307) -/

/-- UNLOAD is one command on either ring. -/
theorem exec_unload {i : Instr} {op : Nat} {s : State} {r : RingNo} {t : Tag} {m : Cmd}
    (row : i = .operatorUnload r t ∧ op = 0x07 ∨ i = .tenantUnload r t ∧ op = 0x44) (ready : Ready s r t op m) :
    exec i s = .next (s.doUnload m) := by
  rcases row with ⟨rfl, rfl⟩ | ⟨rfl, rfl⟩ <;> exact congrArg Host.Outcome.next (State.withCmd_ready _ ready)

theorem unloadEmpties : Clauses.UnloadEmpties := by
  intro i op s r t m row ready idle
  have ran := exec_unload row ready
  unfold State.doUnload at ran
  rw [idle] at ran
  refine ⟨fun none => ?_, fun d found still calm => ?_, fun d found runs free on alone launched => ?_⟩
  · rw [none] at ran
    exact ⟨_, ran, s.completeAt_done ..⟩
  · rw [found] at ran
    obtain ⟨designs, parts, memA, memB, rangesA, rangesB⟩ := s.removeDesign_spec d
    refine ⟨_, _, ran.trans (congrArg Host.Outcome.next (if_neg (by simp [still, calm]))), State.completeAt_done .., designs, fun p hp => ?_,
      fun p hp => ?_, memA, memB, rangesA, rangesB⟩
    · rw [parts, if_pos hp]; exact ⟨rfl, rfl⟩
    · rw [parts, if_neg hp]
  · rw [found] at ran
    obtain ⟨ps, asked, parts⟩ := State.requestStop_spec (s := s.start m) _ free on alone launched
    exact ⟨ps, _, ran.trans (congrArg Host.Outcome.next ((if_pos (.inl runs)).trans asked)), parts, rfl⟩

/-! ### ABORT (R245, R254) -/

/-- ABORT is one command on either ring. -/
theorem exec_abort {i : Instr} {op : Nat} {s : State} {r : RingNo} {t : Tag} {m : Cmd}
    (row : i = .operatorAbort r t ∧ op = 0x0A ∨ i = .tenantAbort r t ∧ op = 0x47) (ready : Ready s r t op m) :
    exec i s = .next (s.doAbort m) := by
  rcases row with ⟨rfl, rfl⟩ | ⟨rfl, rfl⟩ <;> exact congrArg Host.Outcome.next (State.withCmd_ready _ ready)

/-- Consuming a sequence number changes message ports alone. -/
theorem State.frameAt_useMseq (s : State) (r : RingNo) (q : BitVec 64) (p : Nat) : (s.useMseq r q).frameAt p = s.frameAt p := by
  have ports : ∀ (u : State) c k f, (u.modMport c k f).frameAt p = u.frameAt p := fun u c k f => State.frameAt_modCh ..
  unfold State.useMseq
  split
  · rfl
  · split
    · rfl
    · split
      · unfold State.modDesignPort
        split
        exacts [(ports ..).trans (ports ..), ports ..]
      · rfl

/-- A command that has not begun is aborted as it stands; a message consumes its sequence number first (R254). -/
theorem State.abortCmd_waiting {s w : State} {q : Cmd} (waiting : q.started = false)
    (consumed : w = if isMsgRing q.ring then s.useMseq q.ring (BitVec.ofNat 64 (q.desc.par 24 8)) else s) :
    s.abortCmd q = w.complete q .aborted 0 := by
  unfold State.abortCmd
  rw [if_pos waiting, consumed]
  split <;> rfl

theorem abortCommands : Clauses.AbortCommands := by
  intro i op s r t m row ready
  have ran := exec_abort row ready
  unfold State.doAbort at ran
  refine ⟨fun tenant other => ?_, fun own => ⟨fun none => ?_, fun q found => ⟨fun never => ?_, fun may waiting w consumed => ?_⟩⟩⟩
  · exact ⟨_, ran.trans (congrArg Host.Outcome.next (if_pos ⟨tenant, other⟩)), s.complete_done ..⟩
  all_goals
    have reaches : ¬ (s.ringOwner m.ring ≠ 0 ∧ s.ringOwner (m.desc.par 8 2) ≠ s.ringOwner m.ring) := fun ⟨tenant, other⟩ => own.elim tenant other
    rw [if_neg reaches] at ran
  · rw [none] at ran
    exact ⟨_, ran, s.complete_done ..⟩
  · rw [found] at ran
    exact ⟨_, ran.trans (congrArg Host.Outcome.next (if_pos (List.contains_iff_mem.mpr never))), s.complete_done ..⟩
  · rw [found] at ran
    have frame : ∀ p, w.frameAt p = s.frameAt p := fun p => by
      rw [consumed]
      split
      exacts [s.frameAt_useMseq .., rfl]
    have aborted : Done q .aborted (s.frameAt q.desc.partition.toNat) 0 w (w.complete q .aborted 0) := frame q.desc.partition.toNat ▸ w.complete_done ..
    have frame' : (w.complete q .aborted 0).frameAt m.desc.partition.toNat = s.frameAt m.desc.partition.toNat := by
      rw [aborted.1]; exact frame _
    refine ⟨_, aborted, _, ran.trans (congrArg Host.Outcome.next ((if_neg (mt List.contains_iff_mem.mp may)).trans ?_)), frame' ▸ State.complete_done ..⟩
    rw [State.abortCmd_waiting waiting consumed]

/-- Settles O9: what a design holds is released around the memories, and an ABORT answers the command that it names before its own. -/
theorem unloadAndAbort : Obligations.UnloadAndAbort := ⟨unloadEmpties, abortCommands⟩

end Sys2Proof.Machine
end

section
/-! STATS and MARCH_OK (R135, R179, R180, R236), and SET_FUNCTION (R243, R264). -/

namespace Sys2Proof.Machine

open Sys2Proof

namespace State

variable {s u : State}

/-! ### STATS (R179, R180) -/

/-- The selection of an initiator as STATS codes it: its node, the half or the hub that it lies in, and the histogram. -/
theorem statSelection {node side : Nat} (h : Bool) (hn : node < 64) (hs : side < 4) :
    field (64 * side + node + 512 * bit01 h) 0 6 = node ∧ field (64 * side + node + 512 * bit01 h) 6 1 = side % 2 ∧
    field (64 * side + node + 512 * bit01 h) 7 2 = side / 2 ∧ bitAt (64 * side + node + 512 * bit01 h) 9 = h := by
  simp only [field, bitAt, Nat.shiftRight_eq_div_pow, Nat.testBit_eq_decide_div_mod_eq]
  cases h <;> simp only [bit01, Bool.false_eq_true, if_false, if_true, decide_eq_false_iff_not, decide_eq_true_eq] <;> omega

/-- The physical Cabinet of a channel's die that carries a logical Cabinet at a router node. -/
def statCabAt (s : State) (c : Ch) (die node l : Nat) : Option Nat :=
  match s.physOf l with
  | some (ch, x, i) => if ch = c ∧ x = die ∧ nodeOfPhys i = node then some i else none
  | none => none

theorem statCabAt_some {c : Ch} {die node l i : Nat} (h : s.statCabAt c die node l = some i) : nodeOfPhys i = node := by
  unfold statCabAt at h
  split at h
  · split at h
    next same => obtain rfl := Option.some.inj h; exact same.2.2
    · cases h
  · cases h

/-- What STATS gives of a node of an array die: the counters of the first Cabinet of the design there (R180). -/
theorem statsOf_cab (s : State) (d : Design) (c : Ch) {die node : Nat} (h : Bool) (hn : node < 64) (hd : die < 2) :
    s.statsOf d c (64 * die + node + 512 * bit01 h) = (d.span.findSome? (s.statCabAt c die node)).map (fun i =>
      (KV.get {} (64 * die + node) (s.ch c).fab.stats).counters h ++ s.bankCounters c die i) := by
  obtain ⟨hnode, hdie, hkind, hhist⟩ := statSelection (side := die) h hn (by omega)
  unfold State.statsOf
  rw [hnode, hdie, hkind, hhist, Nat.mod_eq_of_lt hd, Nat.div_eq_of_lt hd]
  rfl

theorem statsOf_hub (s : State) (d : Design) (c : Ch) {n : Nat} (h : Bool) (hn : 1 ≤ n ∧ n ≤ 19 ∨ n = 22) :
    s.statsOf d c (128 + n + 512 * bit01 h) = some ((KV.get {} (128 + n) (s.ch c).fab.stats).counters h) := by
  obtain ⟨hnode, -, hkind, hhist⟩ := statSelection (side := 2) h (node := n) (by omega) (by omega)
  have known : hubInitiator n = true := by
    unfold hubInitiator
    rcases hn with ⟨low, high⟩ | rfl
    · simp [low, high]
    · rfl
  unfold State.statsOf
  rw [hnode, hkind, hhist]
  exact if_pos known

/-! ### MARCH_OK (R135) -/

theorem die_modDie (s : State) (c x : Ch) (die e : Nat) (f : DieSt → DieSt) :
    (s.modDie c die f).die x e = if x = c ∧ e = die then f (s.die c die) else s.die x e := by
  by_cases same : x = c
  · subst same
    by_cases h : e = die
    · subst h; simp
    · simp [h, State.die, State.modDie, KV.get_upd_other _ _ h]
  · simp [same, State.die, State.modDie, State.modCh_other]

theorem cab_modCab (s : State) (c x : Ch) (die e i j : Nat) (f : PhysCab → PhysCab) :
    (s.modCab c die i f).cab x e j = if x = c ∧ e = die ∧ j = i then f (s.cab c die i) else s.cab x e j := by
  unfold State.modCab State.cab
  rw [die_modDie]
  by_cases same : x = c ∧ e = die
  · obtain ⟨rfl, rfl⟩ := same
    by_cases h : j = i
    · subst h; simp
    · simp [h, KV.get_upd_other _ _ h]
  · rw [if_neg same, if_neg fun h => same ⟨h.1, h.2.1⟩]

/-- A march of a Cabinet leaves the map of its die. -/
theorem physOf_modCab (s : State) (c : Ch) (die i : Nat) (f : PhysCab → PhysCab) (l : Nat) : (s.modCab c die i f).physOf l = s.physOf l := by
  have map : ((s.modCab c die i f).die (chOfCab l) (dieOfCab l)).map = (s.die (chOfCab l) (dieOfCab l)).map := by
    unfold State.modCab
    rw [die_modDie]
    split
    next same => rw [same.1, same.2]
    · rfl
  simp only [State.physOf, DieSt.phys, map]

/-- A march begins on the physical Cabinet that carries a logical one. -/
def marchOn (x : March) (s : State) (l : Nat) : State :=
  match s.physOf l with
  | some (c, die, i) => s.modCab c die i fun p => { p with march := some x }
  | none => s

theorem marchOn_rest (x : March) (s : State) (l : Nat) : (s.marchOn x l).host = s.host ∧ (s.marchOn x l).parts = s.parts ∧
    (∀ k, (s.marchOn x l).physOf k = s.physOf k) := by
  unfold marchOn
  split
  · exact ⟨s.modCab_host .., s.modCab_parts .., s.physOf_modCab _ _ _ _⟩
  · exact ⟨rfl, rfl, fun _ => rfl⟩

theorem marchOn_marches (x : March) (s : State) (l : Nat) {c : Ch} {die i : Nat}
    (h : (s.cab c die i).march = some x ∨ s.physOf l = some (c, die, i)) : ((s.marchOn x l).cab c die i).march = some x := by
  unfold marchOn
  split
  next c' die' i' found =>
    rw [cab_modCab]
    split
    · rfl
    next other =>
      rcases h with runs | here
      · exact runs
      · rw [found] at here; cases here; exact absurd ⟨rfl, rfl, rfl⟩ other
  next none => exact h.resolve_right (by simp [none])

/-- Marches begin on every Cabinet of a list. -/
theorem foldl_marchOn (x : March) (ls : List Nat) (s : State) : (ls.foldl (marchOn x) s).host = s.host ∧ (ls.foldl (marchOn x) s).parts = s.parts ∧
    ∀ c die i, ((s.cab c die i).march = some x ∨ ∃ l ∈ ls, s.physOf l = some (c, die, i)) → ((ls.foldl (marchOn x) s).cab c die i).march = some x := by
  induction ls generalizing s with
  | nil => exact ⟨rfl, rfl, fun c die i h => h.resolve_right (by simp)⟩
  | cons l ls ih =>
    obtain ⟨host, parts, phys⟩ := marchOn_rest x s l
    obtain ⟨ihHost, ihParts, ihCabs⟩ := ih (s.marchOn x l)
    refine ⟨ihHost.trans host, ihParts.trans parts, fun c die i h => ihCabs c die i ?_⟩
    rcases h with runs | ⟨k, hk, here⟩
    · exact .inl (marchOn_marches x s l (.inl runs))
    · rcases List.mem_cons.mp hk with rfl | hk
      · exact .inl (marchOn_marches x s k (.inr here))
      · exact .inr ⟨k, hk, (phys k).trans here⟩

end State

/-- MARCH_OK of a stopped design begins a run of the procedure on every Cabinet of its span. -/
theorem exec_marchOk {s : State} {r : RingNo} {t : Tag} {m : Cmd} {d : Design} (ready : Ready s r t 0x46 m)
    (found : s.designAt m.desc.partition.toNat = some d) (stopped : d.state = .stopped)
    (life : s.sec.lifecycle = .field ∨ s.sec.lifecycle = .returned) (powered : ∀ c ∈ d.chans, (s.pw c).state.arrayOn = true)
    (idle : ∀ l ∈ d.span, ∃ c die n, s.physOf l = some (c, die, n) ∧ (s.cab c die n).march = none) : exec (.marchOk r t) s =
    .next (d.span.foldl (State.marchOn { run := 1, design := some d.tag }) ((s.start m).modDesign d.tag fun d => { d with marched := false })) := by
  have may : (d.state == .stopped && (s.sec.lifecycle == .field || s.sec.lifecycle == .returned) &&
      d.chans.all (fun c => (s.pw c).state.arrayOn) && d.span.all (fun l => match s.physOf l with
        | some (c, die, i) => (s.cab c die i).march.isNone
        | none => false)) = true := by
    simp only [Bool.and_eq_true, Bool.or_eq_true, beq_iff_eq, List.all_eq_true]
    refine ⟨⟨⟨stopped, life⟩, powered⟩, fun l hl => ?_⟩
    obtain ⟨c, die, n, here, none⟩ := idle l hl
    rw [here]
    exact Option.isNone_iff_eq_none.mpr none
  refine congrArg Host.Outcome.next ((State.withCmd_ready _ ready).trans ?_)
  rw [found]
  exact if_pos may

theorem statsMarch : Clauses.StatsMarch := by
  intro s r t m
  refine ⟨fun ready => ⟨fun d k l found key read ct sealed => ?_, fun d l c die n hl here hn hd => ?_, fun d c n h hn => s.statsOf_hub d c h hn,
    fun d found unread => ?_, fun none => ?_⟩, fun ready => ⟨fun d found stopped life powered idle => ?_, fun d found runs => ?_, fun none => ?_⟩⟩
  · refine Carried.of_ready _ ready rfl ?_ rfl
    simp only [found, key, read, sealed]
    rfl
  · have first : s.statCabAt c die (nodeOfPhys n) l = some n := by
      unfold State.statCabAt
      rw [here]
      exact if_pos ⟨rfl, rfl, rfl⟩
    obtain ⟨i, hi⟩ := Option.isSome_iff_exists.mp (List.findSome?_isSome_iff (f := s.statCabAt c die (nodeOfPhys n)).mpr
      ⟨l, hl, by rw [first]; rfl⟩)
    obtain ⟨k, -, hk⟩ := List.exists_of_findSome?_eq_some hi
    refine ⟨i, State.statCabAt_some hk, fun h => ?_⟩
    rw [s.statsOf_cab d c h hn hd, hi]
    rfl
  · refine Carried.of_ready _ ready rfl ?_ rfl
    cases m.key 0x0A 0 <;> simp only [found, unread]
  · refine Carried.of_ready _ ready rfl ?_ rfl
    simp only [none]
  · obtain ⟨host, parts, runs⟩ := State.foldl_marchOn { run := 1, design := some d.tag } d.span
      ((s.start m).modDesign d.tag fun d => { d with marched := false })
    refine ⟨_, exec_marchOk ready found stopped life powered idle, host, parts, fun l hl => ?_⟩
    obtain ⟨c, die, n, here, -⟩ := idle l hl
    exact ⟨c, die, n, here, runs c die n (.inr ⟨l, hl, here⟩)⟩
  · refine Carried.of_ready _ ready rfl ?_ rfl
    simp only [found]
    exact if_neg (by simp [runs])
  · refine Carried.of_ready _ ready rfl ?_ rfl
    simp only [none]

/-! ### SET_FUNCTION (R243, R264) -/

namespace State

/-- An update of a hub is what it makes of the hub that stands there. -/
theorem modCh_congr {s : State} {c : Ch} {f g : Channel → Channel} (h : f (s.ch c) = g (s.ch c)) : s.modCh c f = s.modCh c g := by
  cases c <;> simp_all [modCh, ch]

theorem modEngine_congr {s : State} {c : Ch} {e : Nat} {f g : Engine → Engine} (h : f ((s.ch c).sched.engine e) = g ((s.ch c).sched.engine e)) :
    s.modEngine c e f = s.modEngine c e g := by
  unfold modEngine modSched
  refine modCh_congr ?_
  simp only [KV.upd]
  rw [show f (KV.get { spare := decide (16 ≤ e) } e (s.ch c).sched.engines) = g (KV.get { spare := decide (16 ≤ e) } e (s.ch c).sched.engines) from h]

theorem modMport_congr {s : State} {c : Ch} {k : Nat} {f g : MPort → MPort} (h : f (s.mport c k) = g (s.mport c k)) :
    s.modMport c k f = s.modMport c k g := by
  refine modCh_congr ?_
  simp only [KV.upd]
  rw [show f (KV.get {} k (s.ch c).mports) = g (KV.get {} k (s.ch c).mports) from h]

/-- An engine that runs no unit is turned off and on with no operation ended. -/
theorem setFunc_engine {s : State} {c : Ch} {e : Nat} (on : Bool) (idle : ((s.ch c).sched.engine e).busy = none) :
    s.setFunc 1 c e on = (s.modEngine c e fun x => { x with disabled := !on }, 0) := by
  cases on
  · change s.engineOff c e = _
    unfold engineOff
    rw [idle]
    refine congrArg (·, 0) (modEngine_congr ?_)
    rw [← idle]
    rfl
  · rfl

/-- A message port that no design uses and no ring feeds is turned off and on with no message ended. -/
theorem setFunc_mport {s : State} {c : Ch} {k : Nat} (on : Bool) (free : (s.mport c k).design = none) (noRing : (s.mport c k).inRing = none)
    (none : (s.mport c k).accepted = []) : s.setFunc 2 c k on = (s.modMport c k fun q => { q with disabled := !on }, 0) := by
  cases on
  · change s.mportOff c k = _
    unfold mportOff
    rw [noRing]
    dsimp only [Option.map_none, Option.getD_none, List.foldl_nil]
    rw [free, none]
    refine congrArg (·, 0) (modMport_congr ?_)
    rw [← none]
    rfl
  · change (s.mportOn c k, 0) = _
    unfold mportOn
    rw [free]
    rfl

end State

/-- SET_FUNCTION of a function that its channel has. -/
theorem exec_setFunction {s v : State} {r : RingNo} {t : Tag} {m : Cmd} {c : Ch} {on : Bool} (ready : Ready s r t 0x09 m)
    (ch : m.desc.par 9 1 = chNum c) (state : m.desc.par 12 1 = bit01 on)
    (has : s.functionOk (m.desc.par 8 1) (chNum c) (m.desc.par 10 2) (bit01 on) = true)
    (sets : s.setFunc (m.desc.par 8 1) c (m.desc.par 10 2) on = (v, 0)) : exec (.setFunction r t) s = .next (v.complete m .ok 0) := by
  have same : chOf (chNum c) = c := by cases c <;> rfl
  have flag : (bit01 on == 1) = on := by cases on <;> rfl
  refine congrArg Host.Outcome.next ((State.withCmd_ready _ ready).trans ?_)
  dsimp only
  rw [ch, state, has, same, flag, sets]
  exact if_neg Bool.noConfusion

theorem setFunction : Clauses.SetFunction := by
  intro s r t m ready c on ch state
  refine ⟨fun lacks => ?_, fun has => ?_⟩
  · refine Carried.of_ready _ ready rfl (if_pos ?_) rfl
    rw [ch, state, lacks]
  have carried : ∀ {v : State}, s.setFunc (m.desc.par 8 1) c (m.desc.par 10 2) on = (v, 0) → (∀ p, v.frameAt p = s.frameAt p) →
      Carried (.setFunction r t) s v m .ok 0 := fun sets frame =>
    ⟨_, exec_setFunction ready ch state has sets, frame m.desc.partition.toNat ▸ State.complete_done ..⟩
  refine ⟨fun kind => ?_, fun kind idle => ?_, fun kind free noRing none => ?_, fun kind => ?_, fun kind => ?_, fun kind => ?_⟩
  · exact ⟨_, _, exec_setFunction ready ch state has (by rw [kind]; rfl), State.complete_done ..⟩
  · exact carried (by rw [kind]; exact State.setFunc_engine on idle) fun _ => State.frameAt_modCh ..
  · exact carried (by rw [kind]; exact State.setFunc_mport on free noRing none) fun _ => State.frameAt_modCh ..
  · exact carried (by rw [kind]; rfl) fun _ => State.frameAt_modCh ..
  · exact carried (by rw [kind]; rfl) fun _ => State.frameAt_modCh ..
  · exact carried (by rw [kind]; rfl) fun _ => State.frameAt_modCh ..

/-! ### SET_TOPOLOGY (R218, R219) -/

theorem TrafficFree.parts : TrafficFree State.parts :=
  ⟨⟨State.modCh_parts, State.freeNext_parts⟩, fun _ _ q => q.parts, State.modRegs_parts, State.modBase_parts⟩

/-- What every step of a fold keeps, and the step of one member makes, holds behind the fold. -/
theorem foldl_makes {α β : Type} {f : β → α → β} {P : β → Prop} (keeps : ∀ b a, P b → P (f b a)) {l : List α} {a : α} (member : a ∈ l)
    (makes : ∀ b, P (f b a)) (b : β) : P (l.foldl f b) := by
  induction l generalizing b with
  | nil => exact absurd member List.not_mem_nil
  | cons x l ih =>
    rcases List.mem_cons.mp member with rfl | later
    · exact List.foldlRecOn (motive := P) l f (makes b) fun b hb x _ => keeps b x hb
    · exact ih later _

namespace State

variable {s u : State}

/-- The memory of a channel, and of one of its ports what lost traffic leaves of it. -/
def besideLost (x : Ch) (q : Nat) (s : State) : HbmSt × VPort := ((s.ch x).hbm, (s.port x q).bare)

theorem besideLost_of_ch {x : Ch} {q : Nat} (h : u.ch x = s.ch x) : u.besideLost x q = s.besideLost x q := by
  unfold besideLost port
  rw [h]

theorem besideLost_hubEvent (s : State) (c : Ch) (code : Nat) (args : List Nat) (x : Ch) (q : Nat) :
    (s.hubEvent c code args).besideLost x q = s.besideLost x q := besideLost_of_ch ((s.event_quiet ..).ch x)

theorem besideLost_modPort (s : State) (c : Ch) (p : Nat) (f : VPort → VPort) (hf : ∀ y, (f y).bare = y.bare) (x : Ch) (q : Nat) :
    (s.modPort c p f).besideLost x q = s.besideLost x q := by
  by_cases same : x = c
  · subst same
    refine Prod.ext (by cases x <;> rfl) ?_
    by_cases here : q = p
    · subst here
      exact (congrArg VPort.bare (port_modPort_same ..)).trans (hf _)
    · exact congrArg VPort.bare (port_modPort_other s x f here)
  · exact besideLost_of_ch (modCh_other _ _ same)

theorem besideLost_loseSent (s : State) (c : Ch) (p : Nat) (m : Sent) (x : Ch) (q : Nat) :
    (s.loseSent c p m).besideLost x q = s.besideLost x q := by
  have counted : ∀ i, (s.count .vlDrops c i).besideLost x q = s.besideLost x q := fun i => besideLost_of_ch (s.count_ch ..)
  have base : ∀ f, (s.modBase f).besideLost x q = s.besideLost x q := fun f => besideLost_of_ch (by cases x <;> rfl)
  have held : ∀ (k : Ch) n f, (s.modMport k n f).besideLost x q = s.besideLost x q := fun k n f => by cases k <;> cases x <;> rfl
  have next : ∀ u : State, u.freeNext.besideLost x q = u.besideLost x q := fun u => by cases x <;> rfl
  unfold State.loseSent
  split
  · exact counted _
  · exact counted _
  · exact counted _
  · split
    exacts [counted _, rfl]
  · split
    exacts [(next _).trans ((besideLost_hubEvent ..).trans (held ..)), rfl]
  · split
    exacts [rfl, (besideLost_hubEvent ..).trans (s.besideLost_modPort c p _ (by exact fun _ => rfl) x q)]
  · exact base _
  · exact base _
  · rfl

theorem besideLost_loseTraffic (s : State) (c : Ch) (p : Nat) (x : Ch) (q : Nat) : (s.loseTraffic c p).besideLost x q = s.besideLost x q :=
  (foldl_keeps (besideLost x q) (fun u m => u.besideLost_loseSent c p m x q) _ _).trans (s.besideLost_modPort c p _ (by exact fun _ => rfl) x q)

theorem besideLost_sendOn (s : State) (c : Ch) (p : Nat) (m : Sent) (x : Ch) (q : Nat) : (s.sendOn c p m).besideLost x q = s.besideLost x q :=
  Prod.ext (memories_of_besideTraffic (s.besideTraffic_sendOn c p m) x).1 (VPort.bare_of_still (((Outgoing.refl s).sendOn c p m).port x q))

/-- Beyond its own change, a change of the routes leaves the memories and the ports as lost traffic would. -/
theorem besideLost_withRoutes (s : State) (f : State → State) (x : Ch) (q : Nat) : (s.withRoutes f).besideLost x q = (f s).besideLost x q := by
  unfold State.withRoutes
  refine foldl_keeps (besideLost x q) (fun v c => ?_) _ _
  extract_lets n old new w
  have again : w.besideLost x q = v.besideLost x q := foldl_keeps (besideLost x q) (fun y e => by
    dsimp only
    split
    · split
      exacts [rfl, besideLost_sendOn ..]
    · rfl) _ _
  split
  exacts [again, (besideLost_hubEvent ..).trans again]

/-! The traffic layer of a port starts afresh. -/

/-- The traffic layer of a port has not begun: no right HELLO, and no traffic. -/
def Silent (s : State) (c : Ch) (p : Nat) : Prop := (s.port c p).helloOk = false ∧ (s.port c p).traffic = false

theorem Silent.of_besideLost {c : Ch} {p : Nat} (h : s.Silent c p) (kept : u.besideLost c p = s.besideLost c p) : u.Silent c p :=
  have bare : (u.port c p).bare = (s.port c p).bare := congrArg Prod.snd kept
  ⟨(VPort.of_bare VPort.helloOk (fun _ => rfl) bare).trans h.1, (VPort.of_bare VPort.traffic (fun _ => rfl) bare).trans h.2⟩

/-- SET_TOPOLOGY ends HELLO_OK on a port (R219). -/
def endHello (c : Ch) (s : State) (p : Nat) : State :=
  let was := s.carries c p
  let s := s.modPort c p fun x => { x with helloOk := false, traffic := false }
  if was then s.loseTraffic c p else s

/-- SET_TOPOLOGY ends HELLO_OK on every port (R219). -/
def endHellos (s : State) : State := s.channels.foldl (fun s c => (List.range 8).foldl (endHello c) s) s

theorem endHello_keeps {α : Type} {g : State → α} (h : TrafficFree g) (c : Ch) (s : State) (p : Nat) : g (endHello c s p) = g s := by
  unfold endHello
  extract_lets was v
  split
  exacts [(h.loseTraffic ..).trans (h.modCh ..), h.modCh ..]

theorem endHello_hbm (c : Ch) (s : State) (p : Nat) (x : Ch) : ((endHello c s p).ch x).hbm = (s.ch x).hbm := by
  have silenced : ∀ f, ((s.modPort c p f).ch x).hbm = (s.ch x).hbm := fun f => by cases c <;> cases x <;> rfl
  unfold endHello
  extract_lets was v
  split
  exacts [(congrArg Prod.fst (v.besideLost_loseTraffic c p x 0)).trans (silenced _), silenced _]

theorem endHello_silences (c : Ch) (s : State) (p : Nat) : (endHello c s p).Silent c p := by
  unfold endHello
  extract_lets was v
  have here : v.Silent c p := by
    unfold Silent v
    rw [port_modPort_same]
    exact ⟨rfl, rfl⟩
  split
  exacts [here.of_besideLost (v.besideLost_loseTraffic ..), here]

theorem Silent.endHello {x : Ch} {q : Nat} (h : s.Silent x q) (c : Ch) (p : Nat) : (endHello c s p).Silent x q := by
  by_cases here : x = c ∧ q = p
  · obtain ⟨rfl, rfl⟩ := here
    exact endHello_silences ..
  unfold State.endHello
  extract_lets was v
  have other : v.Silent x q := by
    have port : v.port x q = s.port x q := by
      by_cases same : x = c
      · subst same; exact port_modPort_other s x _ fun e => here ⟨rfl, e⟩
      · exact port_of_ch _ _ (modCh_other _ _ same)
    unfold Silent
    rw [port]
    exact h
  split
  exacts [other.of_besideLost (v.besideLost_loseTraffic ..), other]

theorem endHellos_keeps {α : Type} {g : State → α} (h : TrafficFree g) (s : State) : g s.endHellos = g s :=
  foldl_keeps g (fun _ c => foldl_keeps g (endHello_keeps h c) _ _) _ _

theorem endHellos_hbm (s : State) (x : Ch) : (s.endHellos.ch x).hbm = (s.ch x).hbm :=
  foldl_keeps (fun u : State => (u.ch x).hbm) (fun _ c => foldl_keeps (fun u : State => (u.ch x).hbm) (fun u p => endHello_hbm c u p x) _ _) _ _

theorem endHellos_silences (s : State) {c : Ch} (hc : c ∈ s.channels) {p : Nat} (hp : p < 8) : s.endHellos.Silent c p :=
  foldl_makes (P := fun u : State => u.Silent c p)
    (fun _ x h => List.foldlRecOn (motive := fun u : State => u.Silent c p) _ _ h fun _ h q _ => h.endHello x q) hc
    (fun _ => foldl_makes (P := fun u : State => u.Silent c p) (fun _ q h => h.endHello c q) (List.mem_range.mpr hp) (fun u => endHello_silences c u p) _) _

end State

/-- The new table in force: HELLO_OK ends on every port, and the routes follow the table. -/
def State.newTopo (s : State) (tp : Topo) : State := s.withRoutes fun s => ({ s with topo := some tp } : State).endHellos

theorem State.newTopo_spec (s : State) (tp : Topo) : (s.newTopo tp).topo = some tp ∧ (s.newTopo tp).parts = s.parts ∧
    (∀ c, ((s.newTopo tp).ch c).hbm = (s.ch c).hbm) ∧ ∀ c ∈ s.channels, ∀ p, p < 8 → (s.newTopo tp).Silent c p := by
  refine ⟨(TrafficFree.topo.withRoutes ..).trans (State.endHellos_keeps TrafficFree.topo _),
    (TrafficFree.parts.withRoutes ..).trans (State.endHellos_keeps TrafficFree.parts _), fun c => ?_, fun c hc p hp => ?_⟩
  · refine (congrArg Prod.fst (s.besideLost_withRoutes _ c 0)).trans ?_
    exact (State.endHellos_hbm _ c).trans (by cases c <;> rfl)
  · exact (State.endHellos_silences ({ s with topo := some tp } : State) hc hp).of_besideLost (s.besideLost_withRoutes ..)

theorem setTopology : Clauses.SetTopology := by
  intro s r t table m ready
  refine ⟨fun bad => ?_, fun tp good => ⟨fun ⟨d, hd, names⟩ => ?_, fun free => ?_⟩⟩
  · refine Carried.of_ready _ ready rfl ?_ rfl
    simp only [bad]
  · refine Carried.of_ready _ ready rfl ?_ rfl
    simp only [good]
    exact if_pos (List.any_eq_true.mpr ⟨d, hd, by simpa using names⟩)
  have allows : ¬ s.designs.any (fun d => d.header.topoHash != 0) = true := by
    simp only [List.any_eq_true, bne_iff_ne, not_exists, not_and, not_not]
    exact free
  obtain ⟨topo, parts, hbm, silent⟩ := s.newTopo_spec tp
  let v := (s.newTopo tp).hostEvent 0x4104 [tp.identity, tp.links.length]
  have quiet : Quiet (s.newTopo tp) v := State.event_quiet ..
  have done : Done m .ok (v.frameAt m.desc.partition.toNat) 0 v (v.complete m .ok 0) := State.complete_done ..
  obtain ⟨named, tagged⟩ := State.cmd_found ready.found
  have same := done.1
  have chs : ∀ c, (v.complete m .ok 0).ch c = (s.newTopo tp).ch c := fun c =>
    (congrArg (fun u : State => u.ch c) same).trans ((by cases c <;> rfl : _ = v.ch c).trans (quiet.ch c))
  refine ⟨v.complete m .ok 0, ?_, ?_, ?_, ?_, ?_, ?_, fun c hc p hp => ?_⟩
  · refine congrArg Host.Outcome.next ((State.withCmd_ready _ ready).trans ?_)
    simp only [good]
    exact if_neg allows
  · exact (congrArg State.topo same).trans ((TrafficFree.topo.quiet _ _ quiet).trans topo)
  · have answered := done.answered
    rwa [named, tagged] at answered
  · exact (congrArg State.parts same).trans (quiet.parts.trans parts)
  · exact (congrArg Channel.hbm (chs .a)).trans (hbm .a)
  · exact (congrArg Channel.hbm (chs .b)).trans (hbm .b)
  · have port : (v.complete m .ok 0).port c p = (s.newTopo tp).port c p := State.port_of_ch _ _ (chs c)
    rw [port]
    exact silent c hc p hp

/-- Settles O10: the counters that STATS seals, the marches that MARCH_OK begins, the functions that SET_FUNCTION turns off and on, and the table that
SET_TOPOLOGY puts in force. -/
theorem statsFunctionTopology : Obligations.StatsFunctionTopology := ⟨statsMarch, setFunction, setTopology⟩

end Sys2Proof.Machine
end

section
/-! Register accesses of the host port (R13, R228-R230) and the array budget (R103). -/

namespace Sys2Proof

/-- A pair put at its key is the first one listed there. -/
theorem KV.find_ins {α : Type} {k : Nat} (v : α) {m : KV α} (h : ∀ e ∈ m, e.1 ≠ k) : (KV.ins k v m).find? (fun e => e.1 == k) = some (k, v) := by
  induction m with
  | nil => simp [KV.ins]
  | cons e m ih =>
    rw [KV.ins]
    split
    · simp
    · rw [List.find?_cons_of_neg (by simpa using h e (List.mem_cons_self ..))]
      exact ih fun x hx => h x (List.mem_cons_of_mem _ hx)

end Sys2Proof

namespace Sys2Proof.Machine

open Sys2Proof

namespace State

variable {s : State} {r : Reg} {c : Ch} {idx : List Nat} {off : Nat}

theorem portAnswers_iff : s.portAnswers = true ↔ s.hostUp = true ∧ s.sec.lifecycle ≠ .scrapped := by simp [portAnswers]

/-! ### Writes (R12, R13, R229) -/

theorem reg_storeBits_same (s : State) (r : Reg) (c : Ch) (idx : List Nat) (v : Word32) {keep : Word32}
    (hkeep : keep = BitVec.ofNat 32 (0xFFFFFFFF - (r.row.rw &&& (0xFFFFFFFF - r.acting)))) :
    (s.storeBits r c idx v).reg r c idx = (s.reg r c idx &&& keep) ||| (v &&& ~~~keep) := by
  subst hkeep
  exact s.reg_setReg_same ..

theorem reg_storeBits_other (s : State) {q : Reg} {x : Ch} {j : List Nat} (v : Word32) (h : regOff q x j ≠ regOff r c idx) :
    (s.storeBits r c idx v).reg q x j = s.reg q x j := s.reg_setReg_other _ h

/-- Nothing follows a write at once but at the four registers that act on it. -/
theorem afterWrite_plain (s : State) (c : Ch) (idx : List Nat) (v : Word32) (h1 : r ≠ .schTraceCtrl) (h2 : r ≠ .schGroup) (h3 : r ≠ .hpRingCtrl)
    (h4 : r ≠ .msixControl) : s.afterWrite r c idx v = s := by
  unfold afterWrite
  split
  exacts [absurd rfl h1, absurd rfl h2, absurd rfl h3, absurd rfl h4, rfl]

theorem write32_one (v : Word32) (found : s.findReg off = some (r, c, idx)) (on : s.domOn r.row.dom c = true) (free : s.locked r c idx = false)
    (pair : r.row.pair = .one) : s.write32 off v = (s.storeBits r c idx (fixedBits r idx v)).afterWrite r c idx v := by
  simp only [write32, found, on, free, pair, Bool.not_true, Bool.false_eq_true, if_false]

theorem write32_hi (v : Word32) (found : s.findReg off = some (r, c, idx)) (on : s.domOn r.row.dom c = true) (free : s.locked r c idx = false)
    (pair : r.row.pair = .hi) : s.write32 off v = s.modRegs fun g => { g with stage := KV.ins (off - 4) v (KV.del (off - 4) g.stage) } := by
  simp only [write32, found, on, free, pair, Bool.not_true, Bool.false_eq_true, if_false]

/-- The low word of a pair commits with the high word that stands staged for it. -/
theorem write32_lo (v : Word32) {hi : Nat × Word32} (found : s.findReg off = some (r, c, idx)) (on : s.domOn r.row.dom c = true)
    (free : s.locked r c idx = false) (pair : r.row.pair = .lo) (staged : s.regs.stage.find? (fun e => e.1 == off) = some hi) :
    s.write32 off v = ((s.storeBits r c idx v).storeBits r.high c idx hi.2).modRegs fun g => { g with stage := KV.del off g.stage } := by
  simp only [write32, found, on, free, pair, staged, Bool.not_true, Bool.false_eq_true, if_false]

theorem write32_dead (v : Word32) (found : s.findReg off = some (r, c, idx)) (dead : s.domOn r.row.dom c = false) :
    s.write32 off v = s.timedOut off := by
  simp only [write32, found, dead, Bool.not_false, if_true]

/-- The first stalling access of a millisecond is reported (R230). -/
theorem timedOut_told (s : State) (off : Nat) (first : s.host.busTimeoutMs ≠ some (s.clock / 1000000)) :
    Told 0x0002 0 0xFF 0 false [off]
      ((s.count .hpBusTimeouts .a []).modHost fun h => { h with busTimeoutMs := some (s.clock / 1000000) }) (s.timedOut off) := by
  have told := ((s.count .hpBusTimeouts .a []).modHost fun h => { h with busTimeoutMs := some (s.clock / 1000000) }).event_told 0x0002 0 0xFF 0 false [off]
  unfold timedOut
  extract_lets t ms
  rwa [if_neg (show ¬ t.host.busTimeoutMs = some ms from first)]

theorem timedOut_again (s : State) (off : Nat) (told : s.host.busTimeoutMs = some (s.clock / 1000000)) :
    s.timedOut off = s.count .hpBusTimeouts .a [] := if_pos told

/-- The mask bit of a vector is written, and a pending vector that is unmasked is signalled (R241). -/
theorem maskVector_spec (s : State) (k : Nat) (mask : Bool) : (s.maskVector k mask).host.msixMask = setBit s.host.msixMask k mask ∧
    (mask = false → s.host.msixPending.getLsbD k = true → (s.maskVector k mask).host.signals = s.host.signals ++ [k]) := by
  unfold maskVector
  refine ⟨?_, fun opens pending => ?_⟩
  · dsimp only [modHost]
    split <;> rfl
  · dsimp only [modHost]
    rw [opens, pending]
    rfl

end State

variable {s : State} {off : Nat} {v : Word64}

theorem exec_registerWrite (wide : Bool) (answers : s.portAnswers = true) (aligned : off % (if wide then 8 else 4) = 0) :
    exec (.registerWrite off v wide) s = .next (s.writeReg off v wide) :=
  congrArg Host.Outcome.next ((if_neg (by simp [answers])).trans (if_neg (not_not_intro aligned)))

theorem registerWrites : Clauses.RegisterWrites := by
  intro s off v answers
  refine ⟨fun r c idx keep aligned found on free pair h1 h2 h3 h4 hkeep => ?_, fun r c idx keep keepH aligned found foundH on onH free freeH
    lo hi apart hkeep hkeepH => ?_, fun wide odd => ?_, fun v idx k aligned found on => ?_, fun r c idx aligned found dead first => ?_⟩
  · have written : s.writeReg off v false = s.storeBits r c idx (v.setWidth 32) := by
      refine (State.write32_one _ found on free pair).trans ?_
      rw [State.afterWrite_plain _ c idx _ h1 h2 h3 h4, fixedBits, if_neg fun h => h3 h.1]
    refine ⟨_, exec_registerWrite false answers aligned, ?_⟩
    rw [written]
    exact ⟨rfl, s.reg_storeBits_same r c idx _ hkeep, fun d k other => KV.get_put_other _ _ other _ _⟩
  · let w := s.modRegs fun g => { g with stage := KV.ins off ((v >>> 32).setWidth 32) (KV.del off g.stage) }
    have high : s.write32 (off + 4) ((v >>> 32).setWidth 32) = w := State.write32_hi _ foundH onH freeH hi
    have staged : w.regs.stage.find? (fun e => e.1 == off) = some (off, (v >>> 32).setWidth 32) := KV.find_ins _ (KV.del_absent _ _)
    have low := State.write32_lo (s := w) (v.setWidth 32) (r := r) (c := c) (idx := idx) found on free lo staged
    have written : s.writeReg off v true = ((w.storeBits r c idx (v.setWidth 32)).storeBits r.high c idx ((v >>> 32).setWidth 32)).modRegs
        fun g => { g with stage := KV.del off g.stage } := by
      simp only [State.writeReg, found, Bool.not_true, Bool.false_eq_true, if_false, lo, if_true, high]
      exact low
    refine ⟨_, exec_registerWrite true answers aligned, ?_⟩
    rw [written]
    refine ⟨rfl, ?_, ?_⟩
    · refine ((w.storeBits r c idx (v.setWidth 32)).reg_storeBits_other ((v >>> 32).setWidth 32) (r := r.high) (c := c) (idx := idx) apart.symm).trans ?_
      exact w.reg_storeBits_same r c idx _ hkeep
    · refine ((w.storeBits r c idx (v.setWidth 32)).reg_storeBits_same r.high c idx ((v >>> 32).setWidth 32) hkeepH).trans ?_
      rw [w.reg_storeBits_other _ apart]
      rfl
  · exact congrArg Host.Outcome.next ((if_neg (by simp [answers])).trans (if_pos odd))
  · let w := s.storeBits .msixControl .a (k :: idx) (fixedBits .msixControl (k :: idx) (v.setWidth 32))
    have bit : bitAt (v.setWidth 32).toNat 0 = v.getLsbD 0 := (BitVec.getLsbD_setWidth ..).trans (by simp)
    have written : s.writeReg off v false = w.maskVector k (v.getLsbD 0) :=
      (State.write32_one (v.setWidth 32) found on rfl rfl).trans (congrArg (w.maskVector k) bit)
    exact ⟨_, exec_registerWrite false answers aligned, by rw [written]; exact w.maskVector_spec ..⟩
  · refine ⟨_, exec_registerWrite false answers aligned, ?_⟩
    rw [show s.writeReg off v false = s.timedOut off from State.write32_dead _ found dead]
    exact s.timedOut_told off first

/-! ### Reads (R13, R228-R230) -/

theorem registerReads : Clauses.RegisterReads := by
  intro s off
  refine ⟨fun answers aligned r c idx found live => ?_, fun n k answers hk some => ?_, ⟨?_, fun aligned none => ?_, fun aligned none noneH => ?_⟩,
    fun answers crosses told => ?_⟩
  · obtain ⟨up, life⟩ := State.portAnswers_iff.mp answers
    have read : exec (.lowWordRead off) s = .next (s.readReg off) := congrArg Host.Outcome.next
      ((if_neg (by simp [up, life])).trans (if_neg (not_not_intro aligned)))
    rw [read]
    unfold State.readReg
    simp only [found, live, Bool.false_eq_true, if_false]
    exact ⟨fun lo => by simp only [lo], fun hi => by simp only [hi], fun one => by simp only [one]⟩
  · have counted : ¬ (s.portAnswers = false ∨ s.badWords off n = 0) := by rw [← hk]; simp [answers, some]
    exact ⟨congrArg Host.Outcome.next ((if_neg counted).trans (by rw [← hk]; rfl)),
      congrArg Host.Outcome.next ((if_neg counted).trans (by rw [← hk]; rfl))⟩
  · exact if_pos (.inl ⟨by decide, by decide⟩)
  · simp [State.badWords, aligned, none]
  · simp [State.badWords, aligned, none, noneH, List.range_succ]
  · have late : ¬ (s.portAnswers = false ∨ s.crosses off = false) := by simp [answers, crosses]
    have counted := s.timedOut_again off told
    exact ⟨congrArg Host.Outcome.next ((if_neg late).trans (by rw [counted]; rfl)),
      congrArg Host.Outcome.next ((if_neg late).trans (by rw [counted]; rfl))⟩

/-- The budget takes effect; below the prediction it is reported (R103). -/
theorem budgetWrite : Clauses.BudgetWrite := by
  intro s v value answers hv
  have written : exec (.modArrayBudgetWrite value) s = .next (if v.budgetW < v.predW then v.hostEvent 0x1204 [v.predW, v.budgetW] else v) := by
    subst hv
    exact congrArg Host.Outcome.next (if_neg (by simp [answers]))
  rw [written]
  exact ⟨fun enough => by rw [if_neg (Nat.not_lt.mpr enough)], fun short => ⟨_, rfl, by rw [if_pos short]; exact v.event_told ..⟩⟩

/-- Settles O26: what register writes store, what reads show, and the array budget. -/
theorem registers : Obligations.Registers := ⟨registerWrites, registerReads, budgetWrite⟩

end Sys2Proof.Machine
end

section
/-! Ring control, consumed counts and signals (R227, R231, R232, R241). -/

namespace Sys2Proof.Machine

open Sys2Proof

namespace State

variable {s u v : State} {r : RingNo}

/-! ### Signals and entries -/

/-- Signalling a vector leaves nothing of its ring unsignalled (R241). -/
theorem ring_signal (s : State) (r : RingNo) : (s.signal r).ring r = { s.ring r with unsignalled := 0 } := by
  have same : (s.signal r).ring r = (s.modRing r fun g => { g with unsignalled := 0 }).ring r := by
    unfold signal modHost ring
    dsimp only
    split <;> rfl
  rw [same, ring_modRing_same]

/-- A vector is signalled, or it is pending behind its mask (R241). -/
theorem signal_vector (s : State) (r : RingNo) :
    (s.host.msixMask.getLsbD (s.regField .hpRingCtrl .a [r] 21 8) = false →
      (s.signal r).host.signals = s.host.signals ++ [s.regField .hpRingCtrl .a [r] 21 8] ∧ (s.signal r).host.msixPending = s.host.msixPending) ∧
    (s.host.msixMask.getLsbD (s.regField .hpRingCtrl .a [r] 21 8) = true →
      (s.signal r).host.signals = s.host.signals ∧
        (s.signal r).host.msixPending = setBit s.host.msixPending (s.regField .hpRingCtrl .a [r] 21 8) true) := by
  refine ⟨fun clear => ?_, fun masked => ?_⟩
  · have host : (s.signal r).host = _ := if_neg (Bool.eq_false_iff.mp clear)
    rw [host]
    exact ⟨rfl, rfl⟩
  · have host : (s.signal r).host = _ := if_pos masked
    rw [host]
    exact ⟨rfl, rfl⟩

/-- The entry written into a ring is counted as produced (R231). -/
theorem ring_writeEntry (s : State) (r : RingNo) (e : Bool → Entry) :
    ((s.writeEntry r e).ring r).produced = (s.ring r).produced + 1 ∧ ((s.writeEntry r e).ring r).consumed = (s.ring r).consumed := by
  unfold writeEntry
  extract_lets n x s1
  have here : s1.ring r = _ := ring_modRing_same ..
  split
  · rw [ring_signal, here]; exact ⟨rfl, rfl⟩
  · rw [here]; exact ⟨rfl, rfl⟩

/-- Writing a completion into its ring: it stands at the ring's end, and nothing changes but the host port. -/
theorem putCpl_spec (s : State) (r : RingNo) (c : Completion) (rc : Option Receipt) :
    s.putCpl r c rc = { s with
      host := { s.host with
        rings := (s.putCpl r c rc).host.rings, msixPending := (s.putCpl r c rc).host.msixPending, signals := (s.putCpl r c rc).host.signals,
        out := (s.putCpl r c rc).host.out } } ∧
    ((s.putCpl r c rc).ring r).entries = (s.ring r).entries ++ [.cpl c (s.phaseOf r (s.ring r).produced)] ∧
    ((s.putCpl r c rc).ring r).produced = (s.ring r).produced + 1 ∧ ((s.putCpl r c rc).ring r).consumed = (s.ring r).consumed ∧
    ∀ q, q ≠ r → (s.putCpl r c rc).ring q = s.ring q := by
  rw [putCpl_eq]
  generalize hv : s.modHost _ = v
  obtain ⟨frame, entries, others, -⟩ := v.writeEntry_spec r fun ph => .cpl c ph
  obtain ⟨produced, consumed⟩ := v.ring_writeEntry r fun ph => .cpl c ph
  subst hv
  exact ⟨by rw [frame]; rfl, entries, produced, consumed, others⟩

/-! ### What posting retained completions keeps (R227) -/

end State

/-- `u` is `s` after completions retained for a ring have been posted: nothing has changed but that ring, the event ring, the retention store, what is
written and signalled for them, and the count of lost events. -/
structure Flushed (r : RingNo) (s u : State) : Prop where
  frame : u = { s with
    host := { s.host with
      rings := u.host.rings, retention := u.host.retention, evSeq := u.host.evSeq, evLost := u.host.evLost, msixPending := u.host.msixPending,
      signals := u.host.signals, out := u.host.out },
    regs := { s.regs with rw := u.regs.rw } }
  rings : ∀ q, q ≠ r → q ≠ 96 → u.ring q = s.ring q
  regs : ∀ (k : Nat) (d : Word32), k ≠ regOff .hpEventLost .a [] → KV.get d k u.regs.rw = KV.get d k s.regs.rw

namespace Flushed

variable {s u v : State} {r : RingNo}

theorem refl (s : State) : Flushed r s s := ⟨rfl, fun _ _ _ => rfl, fun _ _ _ => rfl⟩

theorem trans (h : Flushed r s u) (k : Flushed r u v) : Flushed r s v :=
  ⟨by rw [k.frame, h.frame], fun q hr he => (k.rings q hr he).trans (h.rings q hr he), fun i d hi => (k.regs i d hi).trans (h.regs i d hi)⟩

theorem of_quiet (h : Quiet s u) : Flushed r s u := by
  obtain ⟨frame, rings, -, -, regs⟩ := h
  exact ⟨by rw [frame], fun q _ he => rings q he, regs⟩

theorem retains (s : State) (l : List Retained) : Flushed r s (s.modHost fun h => { h with retention := l }) :=
  ⟨rfl, fun _ _ _ => rfl, fun _ _ _ => rfl⟩

theorem putCpl (s : State) (r : RingNo) (c : Completion) (rc : Option Receipt) : Flushed r s (s.putCpl r c rc) := by
  obtain ⟨frame, -, -, -, others⟩ := s.putCpl_spec r c rc
  exact ⟨by rw [frame], fun q hr _ => others q hr, fun _ _ _ => by rw [frame]⟩

theorem flushList (arb : Ch) (l : List Retained) (h : Flushed r s u) : Flushed r s (u.flushList arb r l).1 := by
  induction l generalizing u with
  | nil => exact h
  | cons e l ih =>
    unfold State.flushList
    split
    · exact ih (h.trans (putCpl ..))
    · exact ih (h.trans (retains u (u.host.retention ++ [e])))

theorem flushArb (s : State) (r : RingNo) (arb : Ch) : Flushed r s (s.flushArb r arb) := by
  have posted : Flushed r s _ := (retains s []).flushList arb s.host.retention
  unfold State.flushArb
  dsimp only
  split
  exacts [posted, posted.trans (of_quiet (State.event_quiet ..))]

theorem flush (s : State) (r : RingNo) : Flushed r s (s.flush r) := by
  unfold State.flush
  split
  exacts [(flushArb s r .a).trans (flushArb _ r .b), refl s]

theorem reg (h : Flushed r s u) {q : Reg} {c : Ch} {i : List Nat} (hq : regOff q c i ≠ regOff .hpEventLost .a []) : u.reg q c i = s.reg q c i :=
  h.regs _ _ hq

end Flushed

namespace State

variable {s u v : State} {r : RingNo}

/-! ### Posting what is retained (R227) -/

/-- An arbiter that posts nothing for the ring says nothing. -/
theorem flushArb_silent {arb : Ch} (h : (s.modHost fun h => { h with retention := [] }).flushList arb r s.host.retention = (u, 0)) :
    s.flushArb r arb = u := by
  unfold flushArb
  dsimp only
  simp only [h, if_true]

theorem flushArb_posts {arb : Ch} {n : Nat}
    (h : (s.modHost fun h => { h with retention := [] }).flushList arb r s.host.retention = (u, n + 1)) :
    s.flushArb r arb = u.hubEvent arb 0x0006 [r, n + 1] := by
  unfold flushArb
  dsimp only
  simp only [h, Nat.succ_ne_zero, if_false]

/-- Taking the retention store out and putting it back as it was changes nothing. -/
theorem retention_back (s : State) {l : List Retained} (h : s.host.retention = l) : (s.modHost fun x => { x with retention := l }) = s := by
  rw [← h]
  rfl

theorem flushArb_none (h : s.host.retention = []) (arb : Ch) : s.flushArb r arb = s :=
  (flushArb_silent (by rw [h]; rfl)).trans (s.retention_back h)

theorem flush_none (h : isCplRing r = false ∨ s.host.retention = []) : s.flush r = s := by
  unfold flush
  split
  next cpl =>
    have none := h.resolve_left (by simp [cpl])
    rw [List.foldl_cons, flushArb_none none, List.foldl_cons, flushArb_none none, List.foldl_nil]
  · rfl

/-- A completion of the other arbiter stays retained. -/
theorem flushArb_other {e : Retained} {arb : Ch} (h : s.host.retention = [e]) (other : e.arb ≠ arb) : s.flushArb r arb = s :=
  (flushArb_silent (by rw [h]; exact if_neg fun x => other x.1)).trans (s.retention_back h)

/-- The one completion that is retained is posted, and its arbiter says so. -/
theorem flushArb_one {e : Retained} (h : s.host.retention = [e]) (ring : e.cring = r) (room : s.cplRoom r = true) : s.flushArb r e.arb =
    ((s.modHost fun h => { h with retention := [] }).putCpl r e.cpl e.receipt).hubEvent e.arb 0x0006 [r, 1] :=
  flushArb_posts (n := 0) (by rw [h]; exact if_pos ⟨rfl, ring, room⟩)

theorem flush_one {e : Retained} (cpl : isCplRing r = true) (h : s.host.retention = [e]) (ring : e.cring = r) (room : s.cplRoom r = true) :
    s.flush r = ((s.modHost fun h => { h with retention := [] }).putCpl r e.cpl e.receipt).hubEvent e.arb 0x0006 [r, 1] := by
  have posted := flushArb_one h ring room
  have none : (s.flushArb r e.arb).host.retention = [] := by
    rw [posted, hubEvent, (event_quiet ..).1, ((s.modHost fun h => { h with retention := [] }).putCpl_spec r e.cpl e.receipt).1]
    rfl
  rw [← posted, flush, if_pos cpl]
  cases arb : e.arb with
  | a =>
    rw [arb] at none
    rw [List.foldl_cons, List.foldl_cons, List.foldl_nil, flushArb_none none]
  | b =>
    rw [List.foldl_cons, List.foldl_cons, List.foldl_nil, flushArb_other h (by rw [arb]; decide)]

/-- What the one retained completion of a ring becomes where it finds room. -/
theorem flush_one_spec {e : Retained} (cpl : isCplRing r = true) (h : s.host.retention = [e]) (ring : e.cring = r) (room : s.cplRoom r = true) :
    ((s.flush r).ring r).entries = (s.ring r).entries ++ [.cpl e.cpl (s.phaseOf r (s.ring r).produced)] ∧
    ((s.flush r).ring r).produced = (s.ring r).produced + 1 ∧ ((s.flush r).ring r).consumed = (s.ring r).consumed ∧
    (s.flush r).host.retention = [] ∧ (s.pwr.hostOn = true → Wrote 0x0006 (1 + chNum e.arb) 0xFF 0 false [r, 1] (s.flush r)) := by
  obtain ⟨frame, entries, produced, consumed, -⟩ := (s.modHost fun h => { h with retention := [] }).putCpl_spec r e.cpl e.receipt
  obtain ⟨quiet, wrote⟩ : Told 0x0006 (1 + chNum e.arb) 0xFF 0 false [r, 1] _ (s.flush r) := by
    rw [flush_one cpl h ring room]
    exact State.event_told ..
  have apart : r ≠ 96 := by rintro rfl; exact Bool.false_ne_true cpl
  have here := quiet.2.1 r apart
  rw [here]
  refine ⟨entries, produced, consumed, ?_, fun on => wrote (by rw [frame]; exact on)⟩
  rw [quiet.1, frame]
  rfl

/-! ### Ring control (R231) -/

theorem fixedBits_ring (r : RingNo) (value : Word32) :
    fixedBits .hpRingCtrl [r] value = if r = 0 ∨ r = 96 then value &&& ~~~0x1E00#32 else value := by
  simp [fixedBits]

/-- The write of RING_CTRL that RING_ENABLE makes, with the state that a disabled ring starts from. -/
def enabled (s : State) (r : RingNo) (v : Word32) : State :=
  let w := s.setReg .hpRingCtrl .a [r] (v ||| 1#32)
  if s.ringOn r then w else (w.modRing r fun _ => {}).modHost fun h => { h with gens := KV.put 0 r (KV.get 0 r h.gens + 1) h.gens }

theorem reg_enabled (s : State) (r : RingNo) (v : Word32) : (s.enabled r v).reg .hpRingCtrl .a [r] = v ||| 1#32 := by
  unfold enabled
  extract_lets w
  have set : w.reg .hpRingCtrl .a [r] = v ||| 1#32 := reg_setReg_same ..
  split
  exacts [set, set]

theorem ringOn_enabled (s : State) (r : RingNo) (v : Word32) : (s.enabled r v).ringOn r = true := by
  unfold ringOn
  rw [reg_enabled]
  simp [bitAt]

theorem ringCtrl_ne_eventLost : regOff .hpRingCtrl .a [r] ≠ regOff .hpEventLost .a [] := by
  simp only [regOff, domBase, Reg.row, joinDims]
  omega

end State

variable {s : State} {r : RingNo} {value v : Word32}

theorem exec_ringEnable (open_ : isReservedRing r = false) (known : r ≤ 511) (answers : s.portAnswers = true) (booted : s.base.fwValid = true)
    (hv : v = (if r = 0 ∨ r = 96 then value &&& ~~~0x1E00#32 else value) &&& 0x1FFFFE3E#32) :
    exec (.ringEnable r value) s = .next ((s.enabled r v).flush r) := by
  refine congrArg Host.Outcome.next ((if_neg (by simp [open_, answers, Nat.not_lt.mpr known])).trans ((if_neg (by simp [booted])).trans ?_))
  rw [hv, ← State.fixedBits_ring]
  rfl

theorem exec_ringDisable (open_ : isReservedRing r = false) (known : r ≤ 511) (answers : s.portAnswers = true) (booted : s.base.fwValid = true)
    (hv : v = (if r = 0 ∨ r = 96 then value &&& ~~~0x1E00#32 else value) &&& 0x1FFFFE3E#32) :
    exec (.ringDisable r value) s = .next (s.setReg .hpRingCtrl .a [r] v) := by
  refine congrArg Host.Outcome.next ((if_neg (by simp [open_, answers, Nat.not_lt.mpr known])).trans ((if_neg (by simp [booted])).trans ?_))
  rw [hv, ← State.fixedBits_ring]

theorem ringSwitch : Clauses.RingSwitch := by
  intro s r value v free known answers booted hv
  have run := exec_ringEnable free known answers booted hv
  have up : s.host.perst = false := by
    have hostUp := (State.portAnswers_iff.mp answers).1
    simp only [State.hostUp, Bool.and_eq_true, Bool.not_eq_true'] at hostUp
    exact hostUp.2
  refine ⟨fun on still => ?_, fun e w on cpl one ring hw room => ?_, fun off => ?_, exec_ringDisable free known answers booted hv⟩
  · have same : s.enabled r v = s.setReg .hpRingCtrl .a [r] (v ||| 1#32) := if_pos on
    rw [run, same, State.flush_none (s := s.setReg .hpRingCtrl .a [r] (v ||| 1#32)) still]
  · have same : s.enabled r v = w := (if_pos on).trans hw.symm
    have roomy : w.cplRoom r = true := by
      rw [State.cplRoom, ← same, State.ringOn_enabled, same, room, show w.host.perst = false by rw [hw]; exact up]
      rfl
    rw [same] at run
    obtain ⟨entries, -, -, none, -⟩ := State.flush_one_spec (s := w) cpl (by rw [hw]; exact one) ring roomy
    exact ⟨_, _, run, entries.trans (by rw [hw]; rfl), none⟩
  · let w := (s.setReg .hpRingCtrl .a [r] (v ||| 1#32)).modRing r fun _ => {}
    have fresh : s.enabled r v = w.modHost fun h => { h with gens := KV.put 0 r (KV.get 0 r h.gens + 1) h.gens } :=
      if_neg (by rw [off]; exact Bool.false_ne_true)
    have rings : ∀ q, (s.enabled r v).ring q = w.ring q := fun q => by rw [fresh]; rfl
    have ring : (s.enabled r v).ring r = {} := (rings r).trans (State.ring_modRing_same ..)
    have flushed := Flushed.flush (s.enabled r v) r
    have ctrl : ((s.enabled r v).flush r).reg .hpRingCtrl .a [r] = v ||| 1#32 := (flushed.reg State.ringCtrl_ne_eventLost).trans (s.reg_enabled r v)
    have gens : ((s.enabled r v).flush r).host.gens = KV.put 0 r (KV.get 0 r s.host.gens + 1) s.host.gens := by
      rw [flushed.frame, fresh]; rfl
    refine ⟨_, run, ?_, ctrl, ?_, fun q hq => ?_, ?_, fun q hq he => ?_, ?_, ?_, fun plain => ?_, fun e cpl one hring => ?_⟩
    · rw [State.ringOn, ctrl]; simp [bitAt]
    · rw [gens, KV.get_put_same]
    · rw [gens, KV.get_put_other _ _ hq]
    · rw [flushed.frame, fresh]; rfl
    · exact (flushed.rings q hq he).trans ((rings q).trans (State.ring_modRing_other _ _ hq))
    · rw [flushed.frame, fresh]; rfl
    · rw [flushed.frame, fresh]; rfl
    · rw [State.flush_none (.inl plain)]
      exact ⟨ring, by rw [fresh]; rfl⟩
    · have roomy : (s.enabled r v).cplRoom r = true := by
        have size : (s.enabled r v).ringFull r = false := by
          rw [State.ringFull, ring]
          simp [State.ringSize]
        rw [State.cplRoom, State.ringOn_enabled, size, show (s.enabled r v).host.perst = false by rw [fresh]; exact up]
        rfl
      have phase : (s.enabled r v).phaseOf r 0 = true := by simp [State.phaseOf]
      obtain ⟨entries, produced, consumed, none, wrote⟩ := State.flush_one_spec (s := s.enabled r v) cpl (by rw [fresh]; exact one) hring roomy
      rw [ring] at entries produced consumed
      exact ⟨entries.trans (by rw [phase]; rfl), produced, consumed, none, fun on => wrote (by rw [fresh]; exact on)⟩

/-- A consumed count of the event ring frees what it passes; the moderation timer signals what no signal covers. -/
theorem consumedAndTimer : Clauses.ConsumedAndTimer := by
  refine ⟨fun s page value wide count answers booted hcount on hpage enough => ?_, fun s r v timed waits hv => ?_⟩
  · refine congrArg Host.Outcome.next ((if_neg (by simp [answers])).trans ((if_neg ?_).trans ((if_neg ?_).trans ?_)))
    · have known : isReservedRing 96 = false := rfl
      simp [known, booted, hpage, on]
    · exact not_or_intro Bool.false_ne_true fun h => Bool.false_ne_true h.1
    · rw [← hcount]
      refine (if_neg (Nat.not_lt.mpr enough)).trans ?_
      exact State.flush_none (.inl rfl)
  · have run : exec (.interruptTimer r) s = .next (s.signal r) := congrArg Host.Outcome.next (if_pos ⟨timed, waits⟩)
    obtain ⟨frame, -, -⟩ := s.signal_rings r
    obtain ⟨clear, masked⟩ := s.signal_vector r
    subst hv
    exact ⟨_, run, by rw [frame], s.ring_signal r, clear, masked⟩

/-- Settles O27: rings are enabled and disabled, consumed counts free entries, and the moderation timer signals. -/
theorem ringRegisters : Obligations.RingRegisters := ⟨ringSwitch, consumedAndTimer⟩

end Sys2Proof.Machine
end

section
/-! Doorbells and the checks of descriptors (R232-R238, R254). -/

namespace Sys2Proof.Machine

open Sys2Proof

namespace State

variable {s u v : State} {r : RingNo} {n : Word32} {d : Desc}

/-! ### The checks (R235) -/

/-- Behind AUTH every check refuses alike. -/
theorem checkDesc_refuses (auth : s.authOk r n d = true)
    (fails : s.opDefined r d = false ∨ s.cringOk d.cring r = false ∨
      ((s.cmd r d.tag).isSome || s.host.retention.any (fun e => e.ofRing r && e.cpl.tag == d.tag)) = true ∨ s.partOk r d = false) :
    s.checkDesc r n d = some .refusedState := by
  unfold checkDesc
  rw [auth]
  by_cases defined : s.opDefined r d = true
  · by_cases cring : s.cringOk d.cring r = true
    · by_cases twice : ((s.cmd r d.tag).isSome || s.host.retention.any (fun e => e.ofRing r && e.cpl.tag == d.tag)) = true
      · simp [defined, cring, twice]
      · have part : s.partOk r d = false := by simpa [defined, cring, twice] using fails
        simp [defined, cring, twice, part]
    · simp [defined, cring]
  · simp [defined]

theorem checkDesc_unauthentic (auth : s.authOk r n d = false) : s.checkDesc r n d = some .authFail := if_pos (by rw [auth]; rfl)

theorem partOk_foreign (tenant : s.ringOwner r ≠ 0) (names : usesPart d.opcode.toNat = true)
    (foreign : (s.part d.partition.toNat).owner ≠ s.ringOwner r) : s.partOk r d = false := by
  simp [partOk, tenant, names, foreign]

/-! ### Accepting and refusing -/

theorem takeDesc_accepts (passes : s.checkDesc r n d = none) : s.takeDesc r n d = s.modHost fun h => { h with cmds := h.cmds ++
    [{ ring := r, count := n, desc := d, arb := s.arbiterOf d, started := false, keys := s.ownerKeys (s.ringOwner r),
       gen := KV.get 0 r s.host.gens }] } := by
  unfold takeDesc
  rw [passes]

/-- The state but for the message ports and the count of free values: what consuming a sequence number leaves alone (R254). -/
def besideMports (s : State) : State := s.masked (fun g => g) fun h => { h with mports := [] }

theorem besideMports_modMport (s : State) (c : Ch) (k : Nat) (f : MPort → MPort) : (s.modMport c k f).besideMports = s.besideMports :=
  s.masked_modCh c (f := fun h => { h with mports := KV.upd {} k f h.mports }) fun _ => rfl

theorem besideMports_useMseq (s : State) (r : RingNo) (q : BitVec 64) : (s.useMseq r q).besideMports = s.besideMports := by
  unfold useMseq
  split
  · rfl
  split
  · rfl
  split
  · unfold modDesignPort
    split
    exacts [(besideMports_modMport ..).trans (besideMports_modMport ..), besideMports_modMport ..]
  · rfl

/-- Rings and receipts do not turn on message ports. -/
theorem rings_of_besideMports (h : u.besideMports = s.besideMports) : (∀ q, u.cringOk q r = s.cringOk q r) ∧ (∀ q, u.ringFull q = s.ringFull q) ∧
    (∀ q k, u.entryAddr q k = s.entryAddr q k) ∧ (∀ q, u.ring q = s.ring q) ∧ u.refusedReceipt r n d = s.refusedReceipt r n d :=
  ⟨fun q => (congrArg (fun x : State => x.cringOk q r) h :), fun q => (congrArg (fun x : State => x.ringFull q) h :),
    fun q k => (congrArg (fun x : State => x.entryAddr q k) h :), fun q => (congrArg (fun x : State => x.ring q) h :),
    (congrArg (fun x : State => x.refusedReceipt r n d) h :)⟩

/-- A refusal that its ring has room for is one completion at the ring's end, behind its receipt, and nothing changes but the host port. -/
theorem refuse_spec {x : Completion} (st : Status) (cring : s.cringOk d.cring r = true) (room : s.ringFull d.cring = false) (up : s.host.perst = false)
    (free : s.host.retention.any (fun e => e.cring == d.cring) = false)
    (hx : x = { tag := d.tag, status := st, retained := false, ring := r, frame := s.frameAt d.partition.toNat, detail := 0 }) :
    ∃ ph, (s.refuse r n d st).host.cmds = s.host.cmds ∧ (∀ q, q ≠ d.cring → (s.refuse r n d st).ring q = s.ring q) ∧
      ((s.refuse r n d st).ring d.cring).entries = (s.ring d.cring).entries ++ [.cpl x ph] ∧
      (s.refuse r n d st).host.out = s.host.out ++ (s.refusedReceipt r n d).toList.map (fun y => { addr := y.addr, data := y.bytes x ph }) ++
        [{ addr := s.entryAddr d.cring (s.ring d.cring).produced, data := x.bytes ph }] := by
  have on : s.ringOn d.cring = true := (Bool.and_eq_true_iff.mp cring).1
  have posts : s.refuse r n d st = s.post (s.arbiterOf d) d.cring x (s.refusedReceipt r n d) false := by
    subst hx
    exact if_pos cring
  obtain ⟨frame, others, ⟨-, ph, entries, out⟩ | ⟨-, -, kept⟩⟩ := s.post_spec (s.arbiterOf d) d.cring x (s.refusedReceipt r n d) false
  · rw [posts]
    exact ⟨ph, by rw [frame], others, entries, out⟩
  · have goes : s.post (s.arbiterOf d) d.cring x (s.refusedReceipt r n d) false = s.putCpl d.cring x (s.refusedReceipt r n d) :=
      if_pos (by simp [cplRoom, on, room, up, free])
    rw [goes, (s.putCpl_spec ..).1] at kept
    exact absurd kept (by simp)

/-- A refused descriptor changes nothing but the host port and, where it is a message, the numbers that its port has consumed. -/
theorem takeDesc_refuses {st : Status} (fails : s.checkDesc r n d = some st) :
    ∃ v : State, v.besideMports = s.besideMports ∧ v.frameAt d.partition.toNat = s.frameAt d.partition.toNat ∧ s.takeDesc r n d = v.refuse r n d st := by
  unfold takeDesc
  rw [fails]
  dsimp only
  split
  · exact ⟨_, besideMports_useMseq .., frameAt_useMseq .., rfl⟩
  · exact ⟨s, rfl, rfl, rfl⟩

/-! ### Doorbells (R232) -/

theorem produce_takes {count : Word32} {entries : List Desc} (forth : (s.ring r).produced.toNat ≤ count.toNat)
    (takes : s.canTake r count (entryWords (count.toNat - (s.ring r).produced.toNat) entries) = true) : s.produce r count entries =
    (s.modRing r fun g => { g with produced := count, consumed := count, refused := none, error := false }).takeDescs r (s.ring r).produced
      (entries.take (count.toNat - (s.ring r).produced.toNat)) :=
  (if_neg fun back => absurd back.1 (Nat.not_lt.mpr forth)).trans (if_neg (by rw [takes]; exact Bool.noConfusion))

theorem produce_refuses {count : Word32} {entries : List Desc} {words : Nat} (forth : (s.ring r).produced.toNat ≤ count.toNat)
    (hwords : words = entryWords (count.toNat - (s.ring r).produced.toNat) entries) (refuses : s.canTake r count words = false) :
    s.produce r count entries =
      ((s.modRing r fun g => { g with refused := some (count, words), error := false }).count .hpDoorbellRefused .a []).hostEvent 0x0003
        [r, count.toNat] := by
  subst hwords
  exact (if_neg fun back => absurd back.1 (Nat.not_lt.mpr forth)).trans (if_pos refuses)

theorem produce_backwards {count : Word32} {entries : List Desc} (back : count.toNat < (s.ring r).produced.toNat)
    (far : s.ringSize r < (count - (s.ring r).produced).toNat) : s.produce r count entries = s.ringError r := if_pos ⟨back, far⟩

end State

theorem doorbells : Clauses.Doorbells := by
  intro s page r value wide entries old count words answers booted hwords hcount hold
  have port : 8 * r / 8 = r := Nat.mul_div_cancel_left r (by decide)
  have whole : 8 * r % 8 = 0 := Nat.mul_mod_right 8 r
  refine ⟨fun shut => ?_, fun cmd on hpage _ => ?_⟩
  · refine congrArg Host.Outcome.next ((if_neg (by simp [answers])).trans (if_pos ?_))
    rw [port]
    tauto
  have known : r ≤ 16 := of_decide_eq_true cmd
  have run : exec (.doorbell page (8 * r) value wide entries) s = .next (s.produce r count entries) := by
    have used : isReservedRing r = false := by simp [isReservedRing, cmd]
    refine congrArg Host.Outcome.next ((if_neg (by simp [answers])).trans ((if_neg ?_).trans ?_))
    · rw [port]
      simp [whole, used, booted, hpage, on]
      omega
    · rw [port, ← hcount]
      exact if_pos (.inl cmd)
  subst hold
  rw [run]
  refine ⟨fun forth takes => ?_, fun forth refuses => ⟨_, rfl, ?_⟩, fun back far => ⟨_, rfl, ?_⟩⟩
  · rw [State.produce_takes forth (hwords ▸ takes)]
  · rw [State.produce_refuses forth hwords refuses]
    exact State.event_told ..
  · rw [State.produce_backwards back far]
    exact State.event_told ..

theorem descriptorChecked : Clauses.DescriptorChecked := by
  intro s r n d
  refine ⟨fun passes => State.takeDesc_accepts passes, fun st x fails cring room up free hx => ?_, fun none => ?_, fun k found wrong => ?_,
    fun auth undefined => ?_, fun auth twice => ?_, fun e he auth accepted ring tag => ?_, fun auth tenant names foreign => ?_⟩
  · obtain ⟨v, same, frame, takes⟩ := State.takeDesc_refuses fails
    have host : v.host = s.host := State.host_of_masked same
    obtain ⟨cringOk, ringFull, addr, ring, receipt⟩ := State.rings_of_besideMports (r := r) (n := n) (d := d) same
    obtain ⟨ph, cmds, others, entries, out⟩ := v.refuse_spec (r := r) (n := n) (d := d) (x := x) st (by rw [cringOk, cring]) (by rw [ringFull, room])
      (by rw [host, up]) (by rw [host, free]) (by rw [hx, frame])
    rw [ring, addr, host, receipt] at out
    rw [ring] at entries
    refine ⟨ph, rfl, ?_, fun q hq => ?_, ?_, ?_⟩
    · rw [takes, cmds, host]
    · rw [takes, others q hq, ring]
    · rw [takes, entries]
    · rw [takes, out]
  · exact State.checkDesc_unauthentic (by rw [State.authOk, none])
  · exact State.checkDesc_unauthentic (by rw [State.authOk, found]; simpa using wrong)
  · exact State.checkDesc_refuses auth (.inl undefined)
  · exact State.checkDesc_refuses auth (.inr (.inr (.inl (by rw [twice]; rfl))))
  · have waits : s.host.retention.any (fun e => e.ofRing r && e.cpl.tag == d.tag) = true :=
      List.any_eq_true.mpr ⟨e, he, by simp [Retained.ofRing, accepted, ring, tag]⟩
    exact State.checkDesc_refuses auth (.inr (.inr (.inl (by rw [waits, Bool.or_true]))))
  · exact State.checkDesc_refuses auth (.inr (.inr (.inr (State.partOk_foreign tenant names foreign))))

/-- Settles O28: what a doorbell takes of a command ring, and how its descriptors are checked. -/
theorem ringDescriptors : Obligations.RingDescriptors := ⟨doorbells, descriptorChecked⟩

end Sys2Proof.Machine
end

section
/-! Resets of the host port and PERST_N (R224, R226, R291). -/

namespace Sys2Proof

namespace KV

variable {α : Type} {d : α} {lo hi k : Nat} {m : KV α}

theorem get_clear_inside (h : lo ≤ k ∧ k < hi) : get d k (clear lo hi m) = d :=
  get_of_absent d fun e he here => by
    have kept := (List.mem_filter.mp he).2
    rw [here] at kept
    simp [h] at kept

theorem get_clear_outside (h : k < lo ∨ hi ≤ k) : get d k (clear lo hi m) = get d k m := by
  induction m with
  | nil => rfl
  | cons e m ih =>
    unfold clear at ih ⊢
    rw [List.filter_cons]
    split
    · rw [get, get, ih]
    next gone =>
      have other : e.1 ≠ k := fun here => gone (by
        rw [here]
        rcases h with below | above
        · simp [Nat.not_le.mpr below]
        · simp [Nat.not_lt.mpr above])
      rw [ih, get, if_neg other]

end KV

end Sys2Proof

namespace Sys2Proof.Machine

open Sys2Proof

/-- The state in which PERST_N holds the host die (R226). -/
def State.heldInReset (s : State) : State :=
  let s := (s.modHost fun h => { h with perst := true, linkUp := false, width := 0, speed := 0 }).hostPortReset
  let s := (s.resetRegs 0 0x400000).resetRegs 0x1000000 0x1001000
  let s := s.modSec fun x => { x with handshake := none, spdm := 0, rsp := none }
  { s.modBase fun b => { b with delivery := none, forwarding := none, reason := 0 } with pins := [] }

/-- The bits of registers that PERST_N leaves. -/
theorem State.get_heldInReset (s : State) (d : Word32) (k : Nat) :
    (k < 0x400000 → KV.get d k s.heldInReset.regs.rw = d) ∧
    (0x400000 ≤ k → k < 0x1000000 → KV.get d k s.heldInReset.regs.rw = KV.get d k s.regs.rw) := by
  have rw : s.heldInReset.regs.rw = KV.clear 0x1000000 0x1001000 (KV.clear 0 0x400000 (KV.clear 0x100000 0x200000 s.regs.rw)) := rfl
  rw [rw]
  refine ⟨fun below => ?_, fun above below => ?_⟩
  · rw [KV.get_clear_outside (.inl (by omega)), KV.get_clear_inside ⟨Nat.zero_le k, below⟩]
  · rw [KV.get_clear_outside (.inl below), KV.get_clear_outside (.inr above), KV.get_clear_outside (.inr (by omega))]

theorem hostPortResets : Clauses.HostPortResets := by
  intro s on up
  have alive : ¬ (s.pwr.hostOn = false ∨ s.host.perst = true) := by simp [on, up]
  have bits : ∀ (v : State), v.regs = s.regs → (∀ d k, 0x100000 ≤ k → k < 0x200000 → KV.get d k v.hostPortReset.regs.rw = d) ∧
      ∀ d k, (k < 0x100000 ∨ 0x200000 ≤ k) → KV.get d k v.hostPortReset.regs.rw = KV.get d k s.regs.rw := fun v same =>
    ⟨fun _ _ low high => KV.get_clear_inside ⟨low, high⟩, fun _ _ outside => same ▸ KV.get_clear_outside outside⟩
  refine ⟨fun i down reset => ?_, fun width speed known rated => ?_, fun n stream => ⟨?_, fun keyed => ?_, fun unkeyed => ?_⟩⟩
  · rcases reset with ⟨rfl, rfl⟩ | ⟨rfl, rfl⟩ | ⟨rfl, rfl⟩
    · exact ⟨_, congrArg Host.Outcome.next (if_neg alive), by simp [State.hostPortReset, State.resetRegs], rfl, bits s rfl⟩
    · exact ⟨_, congrArg Host.Outcome.next (if_neg alive), by simp [State.hostPortReset, State.resetRegs], rfl, bits s rfl⟩
    · exact ⟨_, congrArg Host.Outcome.next (if_neg alive), by simp [State.hostPortReset, State.resetRegs], rfl, bits _ rfl⟩
  · exact congrArg Host.Outcome.next (if_neg (not_or_intro (by simp [on]) (not_or_intro (by simp [up]) (not_or_intro known rated))))
  · exact congrArg Host.Outcome.next (if_neg (by simp [on, up, stream]))
  · refine congrArg Host.Outcome.next ((if_neg (by simp [on, up, stream])).trans ?_)
    simp [State.modHost, keyed]
  · refine congrArg Host.Outcome.next ((if_neg (by simp [on, up, stream])).trans ?_)
    simp [State.modHost, unkeyed]

theorem perst : Clauses.Perst := by
  intro s
  refine ⟨fun on up => ?_, fun held => ⟨fun hubs => ?_, fun m one own => ?_⟩⟩
  · exact ⟨s.heldInReset, congrArg Host.Outcome.next (if_neg (by simp [on, up])), rfl, rfl, rfl, rfl, rfl, rfl, rfl, rfl, rfl, rfl, rfl,
      fun d k => (s.get_heldInReset d k).1, fun d k => (s.get_heldInReset d k).2⟩
  · have none : s.host.cmds.filter (fun m => hostDieOps.contains m.desc.opcode.toNat) = [] :=
      List.filter_eq_nil_iff.mpr fun m hm => by simpa using hubs m hm
    refine congrArg Host.Outcome.next ((if_neg (by simp [held])).trans ?_)
    exact congrArg (List.foldl _ _) none
  · let w := (s.modHost fun h => { h with perst := false }).modBase BaseSt.boot
    have only : s.host.cmds.filter (fun m => hostDieOps.contains m.desc.opcode.toNat) = [m] := by
      rw [one]
      exact List.filter_cons_of_pos (by simpa using own)
    refine ⟨w.complete m .aborted 0, congrArg Host.Outcome.next ((if_neg (by simp [held])).trans ?_), w.complete_done m .aborted 0⟩
    exact congrArg (List.foldl _ w) only

/-- Settles O36: what resets of the host port and PERST_N return to reset and what they leave. -/
theorem hostResets : Obligations.HostResets := ⟨hostPortResets, perst⟩

end Sys2Proof.Machine
end
